-- ==== Sys2Proof/Word.lean ====
section
/-! DEFINITION. The byte and word types of the block's memory structures and registers. -/

namespace Sys2Proof

/-- One byte of memory or of a message. -/
abbrev Byte := BitVec 8

end Sys2Proof
end

