-- ==== Sys2Proof/Inputs.lean ====
section
/-! DEFINITION. The data that commands carry from outside the block: what memory reads return, how a keep-store
word verifies, who accesses a register, and the findings of checks that sense physical errors. -/

namespace Sys2Proof

/-- What the SoC's memory returns to the reads that a command makes (02 R32-R38). `segs` are bytes at addresses, the
first segment that holds an address answers for it; every other address returns `fill`. A read that touches an address of
`bad` returns an error response or poison (R38). -/
structure ExtMem where
  segs : List (Nat × List Byte) := []
  fill : Byte := 0
  /-- First address and length of each stretch that returns errors. -/
  bad : List (Nat × Nat) := []
  deriving DecidableEq, Repr

/-- How the words of one keep-store record write verify (15 R508, R509). -/
inductive KOut where
  /-- Every word verifies. -/
  | ok
  /-- A word fails verification and its second attempt verifies. -/
  | retried
  /-- Both attempts of word `k` fail (word 0 is the clearing of the commit word, 1-7 the data, 8 the commit word). -/
  | failed (k : Nat)
  /-- MRAM_FAIL arises while word `k` is written. -/
  | cut (k : Nat)
  deriving DecidableEq, Repr

/-- A copy of a LIVE folio as it reaches the spine, against what a fault-free replica produces (14 R456). -/
inductive Copy where
  /-- The bits of R25. -/
  | good
  /-- Other bits: a fault has changed the copy. -/
  | bad (bytes : List Byte)
  /-- The copy has not arrived. -/
  | missing
  deriving DecidableEq, Repr

/-- Where copies come from: the relative quire of both replicas, with what memory returns to a read of CONSUMED where the copies are of a
slice (14 R456, 09 R329, R332). -/
structure CopyFrom where
  rel : Nat
  mem : ExtMem := {}
  deriving DecidableEq, Repr

/-- Who makes a register access (02 R41, 04 R122, 04 R126, 07 R225). -/
inductive Agent where
  | host | pair0 | pair1 | tap
  deriving DecidableEq, Repr

/-- What a read request of the control port carries beside its address: CT_REQ_PRIV and CT_REQ_BE (02 R41). -/
structure ReadReq where
  priv : Bool
  be : Nat := 15
  deriving DecidableEq, Repr

/-- What the debugger asks for: a level, while TEST_MODE has this level (04 R123, 02 R61). -/
structure DebugAsk where
  level : Nat
  testMode : Bool := false
  deriving DecidableEq, Repr

/-- What the header ECC of a CSI-2 packet finds (08 R257). -/
inductive Ecc where
  | ok | corrected | bad
  deriving DecidableEq, Repr

/-- The four fast clocks in the byte order of CLK_STAT (03 R97). -/
inductive Clk where
  | aclk | vclk | mclk | cclk
  deriving DecidableEq, Repr

/-- The supply rails in the order of SUPPLY_STAT (03 R97). -/
inductive Rail where
  | array | ctrl | mram | keep
  deriving DecidableEq, Repr

/-- An agent of the semaphores; its number is SEMn.OWNER (04 R119). -/
inductive SemAgent where
  | pair0 | pair1 | tap
  deriving DecidableEq, Repr

/-- What ECC finds in control SRAM (04 R109). -/
inductive SramFinding where
  /-- A single-bit error, found on access or by the scrub. -/
  | corrected
  /-- An uncorrectable error in text. -/
  | text
  /-- An uncorrectable error in data, found by the scrub. -/
  | scrubbed
  /-- A core reads a poisoned or uncorrectable data word. -/
  | read
  deriving DecidableEq, Repr

/-- Where the scrubber finds an error in a quire (13 R448). -/
inductive ScrubFinding where
  /-- A correctable error in any store. -/
  | corrected
  /-- Uncorrectable, in free quire-store space: its 4 KiB region. -/
  | free (region : Nat)
  /-- Uncorrectable, in a best-effort partition or area in use: 1 + the number of the gathering that reads it, 0 for none. -/
  | partition (work : Nat)
  /-- Uncorrectable, in a LIVE strip or plane. -/
  | live
  /-- Uncorrectable, in a resident coefficient segment of a binding: handle, generation, set, segment. -/
  | segment (handle gen set seg : Nat)
  deriving DecidableEq, Repr

/-- A fault as a block's error signal reports it to the collector (14 R463-R465). -/
structure FaultIn where
  /-- Source 0-127 (R462). -/
  src : Nat
  /-- 1 CORRECTED, 2 CONTAINED, 3 FATAL. -/
  cls : Nat
  /-- Cause code of R463. -/
  cause : Nat
  /-- DETAIL of R463. -/
  detail : Nat
  /-- The fault is of best-effort origin (R554). -/
  bestEffort : Bool := false
  /-- It is raised again by a condition that has not ended since it first raised it (R465). -/
  ongoing : Bool := false
  /-- It is caused by an injection (R490). -/
  injected : Bool := false
  /-- Which part of the source it concerns. For source 120, 1 is CCLK. For source 122, 0 is VDD_CTRL, 1 VDD_MRAM, 2 VDD_KEEP
  (R462). For STOCK_PARITY, the buffer's number + 2^20 x its pool's key. For source 110, the packet ring. For a codec core, a
  quire or a draw key, 1 + the number of the gathering whose data it hit, 0 for none. -/
  part : Nat := 0
  deriving DecidableEq, Repr

/-- The ranges of R462 and R463: a source that exists, a class, a cause code that is produced, a 16-bit DETAIL. -/
def FaultIn.wf (f : FaultIn) : Bool :=
  f.src < 128 && 1 ≤ f.cls && f.cls ≤ 3 && f.cause < 0x27 && f.detail < 65536

/-- An update region whose update may reach its final state (05 R145, R146). -/
inductive UpdObj where
  | binding (handle : Nat)
  | guard (ctx win : Nat)
  deriving DecidableEq, Repr

/-- What a parity error in the event controller hits (16 R523). -/
inductive EvtParity where
  /-- The shadow copy restores the state. -/
  | restored
  /-- Both copies of enable word `k` fail. -/
  | enableWord (k : Nat)
  /-- Both copies of routing word `k` fail. -/
  | routeWord (k : Nat)
  /-- The service state of target `t`. -/
  | service (t : Nat)
  deriving DecidableEq, Repr

/-- The words and targets exist (16 R525, R526). -/
def EvtParity.wf : EvtParity → Bool
  | .restored => true
  | .enableWord k => k < 18
  | .routeWord k => k < 144
  | .service t => t < 64

/-- The window exists (06 R181). -/
def UpdObj.wf : UpdObj → Bool
  | .binding _ => true
  | .guard ctx win => ctx < 256 && win < 16

/-- The region lies in the quire store (13 R419). -/
def ScrubFinding.wf : ScrubFinding → Bool
  | .free region => region < 512
  | _ => true

end Sys2Proof
end

