-- ==== Sys2Proof/Syntax.lean ====
section
/-! DEFINITION. The commands: one constructor per row of spec/opcode_table.json, in its order. `dt` is the time base
that has passed since the command before, in ns (log 2). -/

namespace Sys2Proof

/-- A command or event of the block. -/
inductive Instr where
  /-- GX_PORST_N_ASSERT (R55). Assertion of the keeper-domain reset takes effect at once and resets the keeper domain, including the time base and the fault collector. -/
  | gxPorstNAssert (dt : Nat)
  /-- GX_PORST_N_DEASSERT (R56). Filtered deassertion of GX_PORST_N starts keeper initialisation, which takes at most 50 µs; until it completes GX_FAULT_N stays 0 with class 0b00. -/
  | gxPorstNDeassert (dt inst group saddr mfr : Nat)
  /-- GX_RST_N_ASSERT (R44). Main-domain reset clears every mailbox, closes every context and resets the event controller; the control port answers every request UNMAPPED. -/
  | gxRstNAssert (dt : Nat)
  /-- GX_RST_N_DEASSERT (R74). Release of the main-domain reset starts the boot, or the wake from KEEP, and acts on any recorded wake cause. -/
  | gxRstNDeassert (dt keyHash : Nat) (keyValid : Bool)
  /-- WAKE_TIMER_EXPIRY (R74). WAKE_TIMER expires in KEEP and starts the transition to READY, or is recorded in WAKE_CAUSE while GX_RST_N is asserted. -/
  | wakeTimerExpiry (dt : Nat)
  /-- PG_INPUT_CHANGE (R75). A supply-good input (PG_CTRL, PG_ARRAY or PG_MRAM) changes level and advances power sequencing or signals a rail failure. -/
  | pgInputChange (dt : Nat) (rail : Rail) (level : Bool)
  /-- CLK_ACK_CHANGE (R79). An xCLK_ACK input changes level, which completes a clock request or permits the SoC to stop the clock. -/
  | clkAckChange (dt : Nat) (clk : Clk) (level : Bool)
  /-- PWR_TARGET_KEEP (R73). A write of PWR_TARGET = KEEP stops the mailboxes and ring fetching, or is refused with BLOCKED while a LIVE binding is admitted. -/
  | pwrTargetKeep (dt : Nat) (priv : Bool)
  /-- KEEP_ENTRY (R73). Once every fetched entry has completed and GX_MEM_IDLE = 1, the keeper resets the main domain and drops the clock and rail requests. -/
  | keepEntry (dt : Nat)
  /-- PWR_TARGET_STANDBY (R72). A write of PWR_TARGET = STANDBY moves OPP_REQ to 0b10, or leaves BLOCKED set while the admitted bindings need more. -/
  | pwrTargetStandby (dt : Nat) (priv : Bool)
  /-- PWR_TARGET_ACTIVE (R72). A write of PWR_TARGET = active moves OPP_REQ to OPP_CTL.FASTEST and returns the GX to READY or RUN. -/
  | pwrTargetActive (dt : Nat) (priv : Bool)
  /-- OPP_ACK_SEEN (R83). OPP_ACK confirms an operating-point change: OPP_STAT.CURRENT updates and booking moves to the new point. -/
  | oppAckSeen (dt : Nat)
  /-- OPP_ACK_TIMEOUT (R551). No OPP_ACK arrives within 100 µs: CONTAINED is raised on source 121 and OPP_REQ returns to the previous point. -/
  | oppAckTimeout (dt : Nat)
  /-- CLOCK_MONITOR_WINDOW (R80). An 8 µs edge-count window, or a stop of 2 oscillator periods, ends and judges whether a fast clock is LOST. -/
  | clockMonitorWindow (dt : Nat) (clk : Clk) (stopped : Bool) (edges : Nat)
  /-- SUPPLY_MONITOR_CHANGE (R84). A supply comparator crosses a warning or failure threshold and starts the action for that rail. -/
  | supplyMonitorChange (dt : Nat) (rail : Rail) (warn fail : Bool)
  /-- THERMAL_SAMPLE (R87). Every 50 µs the thermal sensors are read; TJ_MAX and the thermal stage update and stage 150 °C raises FATAL. -/
  | thermalSample (dt : Nat) (readings : List Int)
  /-- TIME_STROBE_EDGE (R90). A filtered TIME_STROBE rising edge is stamped and either loads the time base or feeds the offset slew. -/
  | timeStrobeEdge (dt timeIn : Nat) (valid : Bool) (j : Int)
  /-- TB_COMPARE_WINDOW_END (R91). A window of 4,096 KCLK periods is judged once its interpolating strobe is accepted; d and the count of consecutive windows update. -/
  | tbCompareWindowEnd (dt edge : Nat)
  /-- TIME_IN_LOSS_TIMEOUT (R92). No strobe is accepted for the loss interval, or TIME_VALID falls, and TIME_IN is declared lost. -/
  | timeInLossTimeout (dt : Nat) (validFell : Bool)
  /-- KCLK_LOSS (R92). KCLK shows no edge for 64 keeper-oscillator periods and is declared lost. -/
  | kclkLoss (dt : Nat)
  /-- TB_RELOCK (R93). A write of 1 to TB_CTL.RELOCK during holdover starts relock; at any other time it has no effect. -/
  | tbRelock (dt : Nat) (priv : Bool)
  /-- TB_REF_SEL_WRITE (R90). A change of TB_CTL.REF_SEL switches the selected reference at the next KCLK edge, after which the time base slews. -/
  | tbRefSelWrite (dt : Nat) (priv kclk : Bool)
  /-- TB_NOW_LO_READ (R88). A read of TB_NOW_LO latches TB_NOW_HI, so the two reads give one coherent value. -/
  | tbNowLoRead (dt : Nat) (priv debug : Bool)
  /-- GX_SAFE_REQ_EDGE (R486). A filtered rising edge of GX_SAFE_REQ commands device safe state. -/
  | gxSafeReqEdge (dt : Nat) (level : Bool)
  /-- SAFE_CTL_ENTER (R486). A write of SAFE_CTL.ENTER commands device safe state. -/
  | safeCtlEnter (dt : Nat) (priv : Bool)
  /-- PLAN_SYNC_EDGE (R250). A follower stamps a PLAN_SYNC_IN edge, computes e and phases or locks its slot grid. -/
  | planSyncEdge (dt : Nat) (j : Int)
  /-- PLAN_SYNC_TIMEOUT (R251). No PLAN_SYNC edge arrives within 2 press periods plus 10 µs, and a LOCKED follower becomes UNLOCKED. -/
  | planSyncTimeout (dt : Nat)
  /-- HOST_IDLE_EDGE (R518). A filtered HOST_IDLE[t] rise lets target t signal at once under the idle bypass. -/
  | hostIdleEdge (dt t : Nat) (level : Bool)
  /-- REGISTER_WRITE (R5). A control-port or TAP write to a register that has no row of its own acts according to its access code. -/
  | registerWrite (dt : Nat) (agent : Agent) (addr data be : Nat) (priv : Bool) (mem : ExtMem)
  /-- RC_REGISTER_READ (R5). A non-debug read of an RC counter or field returns its value and then clears it. -/
  | rcRegisterRead (dt : Nat) (agent : Agent) (addr : Nat) (req : ReadReq) (debug : Bool)
  /-- SNS_FS_LO_READ (R253). A read of SNS_FS_LO latches SNS_FS_HI. -/
  | snsFsLoRead (dt port : Nat) (priv debug : Bool)
  /-- MBOX_GO (R136). A write of MBOX_GO.GO = 1 copies MBOX_REQ and sets BUSY, or sets OVERRUN while BUSY = 1. -/
  | mboxGo (dt box : Nat) (ack priv : Bool)
  /-- MBOX_ACK (R136). A write of MBOX_GO.ACK = 1 clears RESP_VALID. -/
  | mboxAck (dt box : Nat) (priv : Bool)
  /-- MBOX_NOTICE_READ (R131). A non-debug read of MBOX_NOTICE_LO removes the oldest notice and latches its VALUE into MBOX_NOTICE_HI. -/
  | mboxNoticeRead (dt box : Nat) (priv debug : Bool)
  /-- RING_DOORBELL (R187). A write of RINGn_DOORBELL sets TAIL if the three conditions hold, and otherwise sets DB_ERR. -/
  | ringDoorbell (dt ctx ring v : Nat)
  /-- RING_PAUSE (R210). A write clearing RINGn_CTL.ENABLE in RUN stops fetching and sets STATE to PAUSED. -/
  | ringPause (dt ctx ring : Nat)
  /-- RING_RESUME (R210). A write setting RINGn_CTL.ENABLE in PAUSED resumes fetching at HEAD and sets STATE to RUN. -/
  | ringResume (dt ctx ring : Nat)
  /-- RING_ABORT (R210). A write of RINGn_CTL.ABORT = 1 clears ENABLE and sets STATE to ABORTING. -/
  | ringAbort (dt ctx ring : Nat)
  /-- RING_CTL_RESET (R211). A write of RINGn_CTL.RESET = 1 in STOPPED or drained PAUSED zeroes the counts and leaves the ring PAUSED. -/
  | ringCtlReset (dt ctx ring : Nat)
  /-- PKT_DOORBELL (R287). A write of PKT_DOORBELL offers a new producer count to a packet ring, which is accepted or rejected with DB_ERR. -/
  | pktDoorbell (dt ring prod : Nat) (priv : Bool)
  /-- PKT_RING_ENABLE (R286). Setting PKT_CTL.ENABLE[r] reads and validates the ring record and descriptor, then runs the ring or records PKT_ERR. -/
  | pktRingEnable (dt ring : Nat) (priv : Bool) (mem : ExtMem)
  /-- PKT_RING_DISABLE (R286). Clearing PKT_CTL.ENABLE[r] finishes the parse in progress, closes and publishes the open block, and stops the ring. -/
  | pktRingDisable (dt ring : Nat) (priv : Bool) (mem : ExtMem)
  /-- CC_RESTART_WRITE (R112). A write of CC_CTL.RESTART = 1 requests a control restart. -/
  | ccRestartWrite (dt : Nat) (priv : Bool)
  /-- SEM_READ_ACQUIRE (R119). A non-debug core read of SEMn acquires a free semaphore or returns the holder, or reports LOCK_LOST. -/
  | semReadAcquire (dt : Nat) (agent : SemAgent) (n : Nat) (debug : Bool)
  /-- SEM_ACQUIRE (R122). A write of SEMn.ACQUIRE = 1 acquires a free semaphore for the writer, with the lease in LEASE_US. -/
  | semAcquire (dt : Nat) (agent : SemAgent) (n : Nat)
  /-- SEM_RENEW (R120). A write of SEMn.RENEW = 1 by the owner restarts the lease; by anyone else it sets SEM_ERR. -/
  | semRenew (dt : Nat) (agent : SemAgent) (n lease : Nat)
  /-- SEM_RELEASE (R120). A write of SEMn.RELEASE = 1 by the owner frees the semaphore; by anyone else it sets SEM_ERR. -/
  | semRelease (dt : Nat) (agent : SemAgent) (n : Nat)
  /-- LEASE_EXPIRY (R121). A semaphore lease expires: the semaphore becomes free, LOCK_LOST is recorded and source 11 is raised. -/
  | leaseExpiry (dt n : Nat)
  /-- DEBUG_HALT (R127). A write of DEBUG_CTL.HALTn halts or resumes both cores of pair n together. -/
  | debugHalt (dt : Nat) (priv : Bool) (pair : Nat) (halt : Bool)
  /-- DEBUG_STEP (R127). A write of DEBUG_CTL.STEPn executes one instruction on both cores of a halted pair. -/
  | debugStep (dt : Nat) (priv : Bool) (pair : Nat)
  /-- FREEZE_LEASE_WRITE (R128). A change of DEBUG_CTL.FREEZE_LEASE stops or restarts the lease counting of halted owners. -/
  | freezeLeaseWrite (dt : Nat) (priv v : Bool)
  /-- DEBUG_CHALLENGE (R123). The debugger requests a challenge; the GX commits UNLOCK_SEQ + 1 and returns M, or refuses the request. -/
  | debugChallenge (dt : Nat) (ask : DebugAsk) (out : KOut)
  /-- DEBUG_UNLOCK_RESPONSE (R123). The debugger returns a key and signature; the GX grants the level or counts a failed exchange. -/
  | debugUnlockResponse (dt : Nat) (key sig : List Byte) (testMode : Bool)
  /-- DEBUG_CHALLENGE_TIMEOUT (R123). The 10 s response window of an unlock challenge expires. -/
  | debugChallengeTimeout (dt : Nat)
  /-- TGT_CLAIM (R514). A non-debug read of TGT_CLAIM puts the highest-priority pending source in service and lowers EVT_OUT[t]. -/
  | tgtClaim (dt t : Nat) (priv debug : Bool)
  /-- TGT_COMPLETE (R515). A write of TGT_COMPLETE ends the service of the named source and samples its level again, or sets COMPLETE_ERR. -/
  | tgtComplete (dt t src : Nat) (priv : Bool)
  /-- FAULT_ACKNOWLEDGE (R468). A write of 1 to a FAULT_STICKY bit acknowledges and removes that source's record, unless the record is a protected FATAL. -/
  | faultAcknowledge (dt src : Nat) (priv : Bool)
  /-- FAULT_FIRST_CLR (R467). A write to FAULT_FIRST_CLR clears the first-fault capture and re-arms it. -/
  | faultFirstClr (dt : Nat) (priv : Bool)
  /-- FAULT_LOG_READ (R469). A non-debug read of FAULT_LOG_LO removes the oldest log entry and latches its DETAIL and time. -/
  | faultLogRead (dt : Nat) (priv debug : Bool)
  /-- FI_ARM (R490). A write of FI_CTL.ARM at debug level 2 arms one fault injection of the selected MODE. -/
  | fiArm (dt : Nat) (priv : Bool) (mode src cause cls : Nat)
  /-- DRAW_KAT_START (R418). A write of DRAW_KAT_CTL.START requests a known-answer test of the selected draw lane. -/
  | drawKatStart (dt : Nat) (priv : Bool) (lane : Nat)
  /-- PRESS_HB (R225). A firmware write to PRESS_HB resets FW_MISSED to 0. -/
  | pressHb (dt : Nat)
  /-- PRESS_SPARES_WRITE (R229). A write of PRESS_CTL.SPARES while no LIVE or PROMPT binding is admitted chooses the spare quires again. -/
  | pressSparesWrite (dt : Nat) (priv : Bool) (k : Nat)
  /-- MGMT_LOCK (R531). A write of MGMT_CTL.LOCK = 1 freezes the PERMIT bits and IBI_CLASS until GX_PORST_N. -/
  | mgmtLock (dt : Nat) (priv : Bool)
  /-- MAILBOX_OPEN (R140). Firmware opens the mailboxes, clears FW_DOWN, sets RESTART after a restart and answers accepted requests. -/
  | mailboxOpen (dt : Nat) (mem : ExtMem) (outs : List KOut)
  /-- FW_CONFIRM (R106). Trial firmware commits the boot record with the new ACTIVE_SLOT and then raises the anti-rollback counter. -/
  | fwConfirm (dt : Nat) (outs : List KOut)
  /-- FW_CONFIRM_RETRY (R107). Every 10 ms a confirmation commit refused with LOW_VOLTAGE is retried. -/
  | fwConfirmRetry (dt : Nat) (outs : List KOut)
  /-- WATCHDOG_EXPIRY (R118). A pair's watchdog expires and raises source 5 or 6. -/
  | watchdogExpiry (dt pair : Nat)
  /-- LOCKSTEP_MISMATCH (R108). The cores of a pair disagree; both stop and source 0 or 1 is raised. -/
  | lockstepMismatch (dt pair : Nat)
  /-- CONTROL_SRAM_ERROR (R109). An ECC error is found in control SRAM on access or by the scrub, and is corrected, poisoned or restarted on. -/
  | controlSramError (dt word : Nat) (finding : SramFinding)
  /-- CORE_EXCEPTION (R116). A core saves its state to its save area and checks g31 and BUSY; a bad stack pointer or double exception stops the pair. -/
  | coreException (dt core cause faultAddr : Nat)
  /-- MMU_REFUSAL (R110). The MMU refuses a fetch, load or store, and source 9 is raised. -/
  | mmuRefusal (dt : Nat)
  /-- GET_VERSION (R151). Returns GX_ID, firmware and interface versions, SVN and the caller. -/
  | getVersion (dt box : Nat)
  /-- OPEN_CONTEXT (R151). Opens a context with an empty state and reserves its quire-store partition. -/
  | openContext (dt box : Nat)
  /-- CLOSE_CONTEXT (R152). Stops the rings, aborts fetched entries, retires bindings, destroys pools, erases keys and moves the context to CLOSING. -/
  | closeContext (dt box : Nat) (mem : ExtMem)
  /-- CONTEXT_CLOSED (R175). Once every entry has completed and the partition is zeroed, a CLOSING context becomes CLOSED. -/
  | contextClosed (dt ctx : Nat)
  /-- LOAD_BINDING (R154). Reads and validates a new binding image and returns its handle at generation 1. -/
  | loadBinding (dt box : Nat) (mem : ExtMem) (alloc : Nat)
  /-- LOAD_BINDING_REPLACE (R155). Loads an image as the next generation of an existing binding into its pending slot. -/
  | loadBindingReplace (dt box : Nat) (mem : ExtMem)
  /-- ADMIT_BINDING (R227). Applies the admission checks, places the binding and books its slots, or refuses NOT_ADMITTED. -/
  | admitBinding (dt box : Nat)
  /-- ADMISSION_TAKES_EFFECT (R230). At the first period start after the response, with the point acknowledged, the admitted binding enters the plan. -/
  | admissionTakesEffect (dt handle : Nat)
  /-- RETIRE_BINDING (R157). Retires a binding for new entries at once; LIVE and PROMPT bindings leave the plan at the end of the period. -/
  | retireBinding (dt box : Nat)
  /-- BINDING_LEAVES_PLAN (R157). At the end of the press period a retired binding leaves the plan, its streams are detached and its notice is queued. -/
  | bindingLeavesPlan (dt handle : Nat)
  /-- ATTACH_STREAM (R159). Checks and stages the attachment of a sensor stream to a ring under an admitted LIVE binding. -/
  | attachStream (dt box : Nat)
  /-- STREAM_ATTACHED (R159). At the first Frame Start after the port is UP the stream is attached and its notice is queued. -/
  | streamAttached (dt stream : Nat)
  /-- DETACH_AFTER_FRAME (R158). DETACH_STREAM mode 0 detaches the stream after the current frame. -/
  | detachAfterFrame (dt box : Nat)
  /-- DETACH_AT_ONCE (R160). DETACH_STREAM mode 1 ends the frame in progress with an ABORTED gathering and detaches the stream. -/
  | detachAtOnce (dt box : Nat)
  /-- DEFINE_SYNC_GROUP (R161). Defines or dissolves a sync group of streams on one context and ring. -/
  | defineSyncGroup (dt box : Nat)
  /-- SYNC_GROUP_EFFECT (R161). The group takes effect at the first frame for which every member has seen Frame Start after acceptance. -/
  | syncGroupEffect (dt group : Nat)
  /-- CREATE_POOL (R163). Creates a stock pool of one size class in a pool set. -/
  | createPool (dt box : Nat)
  /-- DESTROY_POOL (R163). Stops issue from the named pools at once. -/
  | destroyPool (dt box : Nat)
  /-- POOL_DRAINED (R163). When every buffer issued from a destroyed pool has been returned, its DESTROY_POOL notice is queued. -/
  | poolDrained (dt handle cls : Nat)
  /-- SET_GUARD (R164). Sets a guard window's new generation, which is in force from acceptance. -/
  | setGuard (dt box : Nat)
  /-- SET_DRAW_KEY (R165). Sets or erases a draw key slot, or answers BUSY while the slot holds a retired key. -/
  | setDrawKey (dt box : Nat)
  /-- LOAD_COEFF (R166). Reads and CRC-checks a coefficient set or mesh and takes the binding's pending slot as the next generation. -/
  | loadCoeff (dt box : Nat) (mem : ExtMem)
  /-- UPDATE_FINAL_STATE (R146). Once a generation is in force and no sample uses an older one, the update's notice is queued with OK. -/
  | updateFinalState (dt : Nat) (obj : UpdObj)
  /-- SET_ENERGY_BUDGET (R168). Sets the best-effort energy limit of the GX or of a context from the next period start. -/
  | setEnergyBudget (dt box : Nat)
  /-- SHELF_REGION (R169). SHELF_CONFIG REGION sets the shelf's DRAM region and evicts every entry. -/
  | shelfRegion (dt box : Nat)
  /-- SHELF_QUOTA (R169). SHELF_CONFIG QUOTA caps the bytes a context may hold on the shelf. -/
  | shelfQuota (dt box : Nat)
  /-- SHELF_FLUSH (R169). SHELF_CONFIG FLUSH evicts every shelf entry of the context. -/
  | shelfFlush (dt box : Nat)
  /-- RING_CREATE (R170). Creates a work ring and enables fetching. -/
  | ringCreate (dt box : Nat)
  /-- RING_RESET_DRAIN (R212). RING_RESET mode 0 stops fetching, waits for DONE = HEAD, discards unfetched entries and zeroes the counts. -/
  | ringResetDrain (dt box : Nat)
  /-- RING_RESET_ABORT (R212). RING_RESET mode 1 aborts fetched work as RINGn_CTL.ABORT or RESET does, then zeroes the counts. -/
  | ringResetAbort (dt box : Nat)
  /-- RING_RESET_DESTROY (R212). RING_RESET mode 2 aborts as mode 1 does and then removes the ring. -/
  | ringResetDestroy (dt box : Nat)
  /-- RING_RESET_DONE (R212). When the ring is idle in its new state, it takes the final state of its mode and the RING_RESET notice is queued. -/
  | ringResetDone (dt ctx ring : Nat)
  /-- QUERY_STATS (R171). Returns six counters of a context, stream or the GX, with the snapshot time. -/
  | queryStats (dt box : Nat)
  /-- KEEP_READ (R172). Returns the 52 data bytes of a keep-store record, or zeros when the record is not valid. -/
  | keepRead (dt box : Nat)
  /-- KEEP_WRITE (R172). Writes a keep-store record of region 3, or of region 4 while it holds no valid record. -/
  | keepWrite (dt box : Nat) (out : KOut)
  /-- FW_STAGE (R173). Verifies a firmware image and places it in the inactive slot. -/
  | fwStage (dt box : Nat) (mem : ExtMem)
  /-- FW_ACTIVATE (R174). Commits a trial boot record for the staged image, responds, and then starts a control restart. -/
  | fwActivate (dt box : Nat) (out : KOut)
  /-- RING_FETCH_ISSUE (R189). The GX issues a fetch burst of up to 4 slots of an eligible ring in round-robin order, shortened at a guard refusal. -/
  | ringFetchIssue (dt : Nat)
  /-- ENTRY_FETCHED (R198). A ring entry's read data arrive: HEAD advances and the entry is checked, and completes at once if it fails a check. -/
  | entryFetched (dt ctx ring : Nat)
  /-- SUBMIT (R193). A SUBMIT entry that is ready starts its entry point's stages. -/
  | submit (dt ctx ring count : Nat) (mem : ExtMem)
  /-- FREE_BUFFER (R197). A FREE_BUFFER entry returns a HOST buffer to stock or completes DOUBLE_FREE or MALFORMED. -/
  | freeBuffer (dt ctx ring count : Nat)
  /-- SHELF_EVICT (R442). A SHELF_EVICT entry makes the context's shelf entry with the given key invisible at once. -/
  | shelfEvict (dt ctx ring count : Nat)
  /-- FENCE (R200). A FENCE entry completes when every entry fetched before it on its ring and its masked rings has completed. -/
  | fence (dt ctx ring count : Nat)
  /-- NOP (R208). A NOP entry completes OK, or on a stream ring becomes a receipt for a gathering. -/
  | nop (dt ctx ring count : Nat)
  /-- DRAW (R413). A DRAW entry writes COUNT draw-unit values into a stock buffer as a gathering. -/
  | draw (dt ctx ring count : Nat)
  /-- ENTRY_DEADLINE (R201). An entry's deadline passes before it starts, and it completes DEADLINE_MISS. -/
  | entryDeadline (dt ctx ring count : Nat)
  /-- SLOT_BOUNDARY (R239). Every 2 µs of time base the press starts reserved stages and the governor starts best-effort entries within the energy budget. -/
  | slotBoundary (dt : Nat) (mem : ExtMem) (katFail : Bool)
  /-- PRESS_PERIOD_START (R223). A press period starts; PERIOD_SLOTS, the heartbeat count and the plan sync output are handled. -/
  | pressPeriodStart (dt : Nat) (flagged : Bool)
  /-- STAGE_BARRIER (R422). A stage barrier completes and the leaves' registers are zeroed before the next stage. -/
  | stageBarrier (dt work strip : Nat)
  /-- FOLIO_COMPARE (R456). The spine compares the two replicas' CRCs of a folio and writes it on agreement or starts a replay. -/
  | folioCompare (dt work index : Nat) (a b : Copy) (rel : CopyFrom)
  /-- FOLIO_COMPARE_TIMEOUT (R456). A replica's copy still missing one slot after the other's counts as a disagreement. -/
  | folioCompareTimeout (dt work index : Nat)
  /-- REPLAY_DONE (R457). A replay finishes: the agreeing copy is written, or the folio is contained. -/
  | replayDone (dt work index : Nat) (copy : Copy) (quireFault : Bool)
  /-- MEM_READ_BEAT (R34). A read data beat arrives on a memory port and is delivered or checked for errors and poison. -/
  | memReadBeat (dt port tag : Nat) (data : List Byte) (beat : Nat) (last : Bool) (poison resp : Nat)
  /-- MEM_WRITE_RESPONSE (R36). A write response arrives on a memory port, marking global visibility and advancing the commit sequence. -/
  | memWriteResponse (dt port tag resp : Nat)
  /-- MEM_TIMEOUT (R38). A transaction outstanding for 100 µs completes its work CONTAINED_FAULT. -/
  | memTimeout (dt port tag : Nat)
  /-- VIEW_ABANDON (R247). At frame end + ABANDON_US unfinished views are delivered as placeholders with DEADLINE_MISS. -/
  | viewAbandon (dt work : Nat)
  /-- CSI2_LONG_PACKET (R257). A merged CSI-2 long packet is checked and its line lands in the quire stores of both replicas. -/
  | csi2LongPacket (dt port vc dtype : Nat) (ecc : Ecc) (payload : List Byte) (crcOk fifoLost storeErr : Bool)
  /-- FRAME_START (R259). A Frame Start opens a frame, closes an open one and advances the sensor frame counter. -/
  | frameStart (dt port vc fn : Nat) (ecc : Ecc) (j : Int) (stampLost : Bool)
  /-- FRAME_END (R259). A Frame End closes the open frame at its stamp, or makes it CORRUPT on a frame-number mismatch. -/
  | frameEnd (dt port vc fn : Nat) (ecc : Ecc) (j : Int) (stampLost : Bool)
  /-- LINE_START (R258). A Line Start packet starts line-marked mode and counts lines. -/
  | lineStart (dt port vc : Nat) (ecc : Ecc)
  /-- LINE_END (R258). A Line End packet is accepted and otherwise ignored. -/
  | lineEnd (dt port vc : Nat) (ecc : Ecc)
  /-- LINE_TIMEOUT (R259). No long packet arrives for SNS_TIMEOUT, and the open frame closes. -/
  | lineTimeout (dt stream : Nat)
  /-- PCLK_WINDOW (R273). An 8 µs byte-clock window is classified ZERO, IN or OUT and drives LOST, glitch, rate change or qualification. -/
  | pclkWindow (dt port edges : Nat)
  /-- STRIP_READY (R267). The last line of a strip has landed in every quire of both replicas, and the strip's stages become due. -/
  | stripReady (dt work strip : Nat)
  /-- STRIP_BUFFER_RELEASE (R269). A held line buffer is released, and a strip that found it held is written as padding and becomes ready. -/
  | stripBufferRelease (dt work strip : Nat)
  /-- SYNC_WINDOW_EXPIRY (R278). At t0 + WINDOW_US a placeholder gathering is committed for each sync-group member that has not joined. -/
  | syncWindowExpiry (dt group : Nat)
  /-- PKT_PARSE (R288). A packet slot is read and parsed into points, or dropped with BAD_PKT. -/
  | pktParse (dt ring : Nat) (mem : ExtMem)
  /-- PKT_GAP_TIMEOUT (R295). No packet arrives for GAP_US, and the open point block closes. -/
  | pktGapTimeout (dt ring : Nat) (mem : ExtMem)
  /-- MOTION_RECORD_RETRY (R298). A torn motion record is read again after 1 µs, up to 3 reads in all. -/
  | motionRecordRetry (dt ring : Nat) (mem : ExtMem)
  /-- REGULATOR_REFILL (R436). Every 1 µs each regulator bucket is refilled up to its DEPTH. -/
  | regulatorRefill (dt : Nat)
  /-- SCRUB_PASS (R446). The scrubber sweeps a quire's stores under its maintenance token and reacts to its findings. -/
  | scrubPass (dt quire : Nat) (findings : List ScrubFinding)
  /-- SCRUB_RETRY (R446). A scrub pass deferred by a held token is retried after 1 ms. -/
  | scrubRetry (dt quire : Nat) (findings : List ScrubFinding)
  /-- SELFTEST_STEP (R472). A self-test step tests one quire and migrates another onto a spare of its half. -/
  | selftestStep (dt : Nat)
  /-- SELFTEST_STEP_END (R474). A quire's test ends: it becomes a spare on a pass or is retired on a failure. -/
  | selftestStepEnd (dt : Nat) (pass : Bool)
  /-- MIGRATION_START (R481). Firmware starts migrating a retired or departing quire's work onto a free spare. -/
  | migrationStart (dt quire : Nat)
  /-- MIGRATION_HANDOVER (R473). A binding is handed over at its first strip after the target is ready. -/
  | migrationHandover (dt quire handle : Nat)
  /-- MIGRATION_ABANDON_TIMEOUT (R473). A best-effort stage still on the migrating quire 1 ms after the migration began is abandoned and restarted elsewhere. -/
  | migrationAbandonTimeout (dt quire : Nat)
  /-- COEFF_RELOAD_DONE (R429). A coefficient segment reload finishes and rewrites the place, or leaves the segment unavailable. -/
  | coeffReloadDone (dt handle gen set seg : Nat) (mem : ExtMem)
  /-- FAULT_REPORT (R465). A block's error signal reaches the collector, which sets or raises the source's record and starts its reaction. -/
  | faultReport (dt : Nat) (faults : List FaultIn)
  /-- FAULT_PULSE_END (R470). 12 oscillator periods after the latest pulse start, GX_FAULT_N rises unless a record holds it low. -/
  | faultPulseEnd (dt : Nat)
  /-- KEEP_SCAN (R505). Once PG_MRAM is seen after GX_PORST_N, the controller scans all slots and builds the index, then sets SCAN_DONE. -/
  | keepScan (dt : Nat) (corrected bad : List Nat)
  /-- KEEP_RECORD_WRITE (R497). A keep-store record write clears the commit word, writes the data and commits with the next SEQ. -/
  | keepRecordWrite (dt : Nat) (out : KOut)
  /-- KEEP_WARN_TIMEOUT (R507). A write waiting on MRAM_WARN is refused LOW_VOLTAGE after 200 µs. -/
  | keepWarnTimeout (dt : Nat)
  /-- JOURNAL_APPEND (R503). Firmware writes fault-log entries into the journal record at HEAD. -/
  | journalAppend (dt : Nat) (outs : List KOut)
  /-- JOURNAL_RETRY (R503). A refused journal append is retried every 10 ms. -/
  | journalRetry (dt : Nat) (outs : List KOut)
  /-- JOURNAL_COMPACTION (R504). Firmware compacts the oldest 64 journal records when fewer than 64 slots are free. -/
  | journalCompaction (dt : Nat) (outs : List KOut)
  /-- MRAM_RAIL_RELEASE (R530). In KEEP, 1 ms after the last I3C keep-store access, the keeper lowers RAIL_MRAM_REQ. -/
  | mramRailRelease (dt : Nat)
  /-- EVT_SIGNAL (R517). A target ready to signal raises EVT_OUT[t] in level mode and starts its moderation timer. -/
  | evtSignal (dt t : Nat)
  /-- EVT_MESSAGE (R519). In message mode a ready target issues one SYS message write naming the pending source. -/
  | evtMessage (dt t : Nat)
  /-- MODERATION_EXPIRY (R518). A target's moderation timer expires and the target may signal again. -/
  | moderationExpiry (dt t : Nat)
  /-- EVT_STATE_PARITY (R523). A parity error in routing, enable or service state is restored from the shadow copy or clears the state. -/
  | evtStateParity (dt : Nat) (kind : EvtParity)
  /-- ENTDAA (R527). The I3C target takes part in dynamic address assignment. -/
  | entdaa (dt addr : Nat)
  /-- SETDASA (R527). The I3C target takes a dynamic address from its static address. -/
  | setdasa (dt saddr addr : Nat)
  /-- SETNEWDA (R527). The I3C target changes its dynamic address. -/
  | setnewda (dt addr : Nat)
  /-- RSTDAA (R527). The I3C target loses its dynamic address and ENINT, and ADDR_LOST is set. -/
  | rstdaa (dt : Nat)
  /-- ENEC (R527). ENEC with ENINT allows IBIs. -/
  | enec (dt : Nat) (enint : Bool)
  /-- DISEC (R527). DISEC with ENINT stops IBIs. -/
  | disec (dt : Nat) (enint : Bool)
  /-- GETPID (R527). Returns the provisional ID. -/
  | getpid (dt : Nat)
  /-- GETBCR (R527). Returns BCR 0x06. -/
  | getbcr (dt : Nat)
  /-- GETDCR (R527). Returns DCR 0x00. -/
  | getdcr (dt : Nat)
  /-- GETMWL (R527). Returns a maximum write length of 8. -/
  | getmwl (dt : Nat)
  /-- GETMRL (R527). Returns a maximum read length of 8 and an IBI payload size of 5. -/
  | getmrl (dt : Nat)
  /-- GETSTATUS (R527). Returns the pending IBI count and the protocol error bit, which the read clears. -/
  | getstatus (dt : Nat)
  /-- I3C_PRIVATE_WRITE (R528). A private write sets PTR and writes up to 7 bytes of the management window together, if received whole. -/
  | i3cPrivateWrite (dt : Nat) (bytes : List Byte) (parityErr overrun : Bool)
  /-- I3C_PRIVATE_READ (R528). A private read returns up to 8 bytes from PTR and advances the pointer. -/
  | i3cPrivateRead (dt n : Nat) (underrun : Bool)
  /-- KREAD (R530). The management command KREAD copies a keep-store record's data into MG_KDATA. -/
  | kread (dt : Nat)
  /-- KWRITE (R530). The management command KWRITE writes MG_KDATA to a keep-store record. -/
  | kwrite (dt : Nat) (out : KOut)
  /-- WAKE (R530). The management command WAKE is a wake cause in KEEP. -/
  | wake (dt : Nat)
  /-- RESTART (R530). The management command RESTART starts a control restart, including from a stopped control complex. -/
  | restart (dt : Nat)
  /-- IBI_SEND (R532). At a bus-available condition the target raises its highest-order pending IBI and sends its payload, or retries after a NACK. -/
  | ibiSend (dt : Nat) (nacked : Bool)
  /-- KEEPER_INIT_DONE (R56). Keeper-domain initialisation completes, at most 50 µs after GX_PORST_N deassertion. From then on GX_FAULT_N with class 0b00 means that no fault is indicated, and the I3C target acknowledges its address. -/
  | keeperInitDone (dt : Nat)
  /-- GENERIC_SHORT_PACKET (R257). A generic short packet (0x08–0x0F) arrives at a sensor port, is discarded without error and is counted in SNS_DROP_CNT. -/
  | genericShortPacket (dt port : Nat) (ecc : Ecc)
  /-- CLOSE_RESPONSE_HOLD_EXPIRY (R152). 10 ms after a close through a context's own mailbox without an ACK, MBOX_RSP, MBOX_STAT and MBOX_GO.ACK stop being reachable and the page reads 0. -/
  | closeResponseHoldExpiry (dt ctx : Nat)
  /-- STOCK_SWEEP (R447). With SCRUB_CTL.STOCK_SWEEP = 1, the scrubber issues reads of FREE stock buffers at DRAM_RATE and quarantines a buffer that returns an error or poison. -/
  | stockSweep (dt pool buf resp : Nat) (poisoned : Bool)
  /-- MINIMUM_HIGH_TIME_END (R470). A fault pulse that was held back by the 4-oscillator-period minimum high time starts when those periods have passed, and GX_FAULT_N falls. -/
  | minimumHighTimeEnd (dt : Nat)
  /-- IDLE_RECORD_ACK (R468). While no press period runs, firmware acknowledges journaled CORRECTED and CONTAINED records at a time of its own choosing, 1–10 ms after each record was set. -/
  | idleRecordAck (dt src : Nat)
  deriving DecidableEq, Repr

end Sys2Proof
end

