-- ==== Sys2Proof/Coded.lean ====
section
/-! DEFINITION. What an encoder decides about a picture, unit by unit, and the marks of a session's slots (09 R310, R318-R322). -/

namespace Sys2Proof

/-- How a unit of 16x16 samples is coded (09 R318): SKIP, INTER, the four INTRA directions, PCM. -/
inductive UnitMode where
  | skip | inter | dc | planar | hor | ver | pcm
  deriving DecidableEq, Repr

/-- A motion vector in quarter samples (09 R320). -/
structure Vec where
  x : Int := 0
  y : Int := 0
  deriving DecidableEq, Repr, Inhabited

/-- A coded unit of 16x16 samples. -/
structure CodedUnit where
  /-- Column and row of units. -/
  col : Nat
  row : Nat
  /-- Its slice and its tile. -/
  slice : Nat
  tile : Nat
  mode : UnitMode
  /-- The final vector of a unit that has one. -/
  vec : Vec := {}
  /-- Quantised levels by transform block, none where there is no residual; of a PCM unit its samples. -/
  levels : List (List Int) := []
  deriving DecidableEq, Repr

/-- The unit is predicted with a vector. -/
def CodedUnit.moves (u : CodedUnit) : Bool := u.mode == .skip || u.mode == .inter

/-- What a picture is coded under: the Encode block, UNITS of its stage, QP, IDR and FRAME_INDEX. -/
structure PicParams where
  bytes : List Byte
  cores : Nat
  qp : Nat
  idr : Bool
  index : Nat
  deriving DecidableEq, Repr

/-- One JPEG block: the DC difference and the AC levels (09 R324). -/
structure JpegBlock where
  dc : Int
  ac : List Int
  deriving DecidableEq, Repr, Inhabited

/-- The mark of a slot of a session's reference pool (09 R310). -/
inductive SlotMark where
  | free | current | short | long | av1
  deriving DecidableEq, Repr

end Sys2Proof
end

