-- ==== Sys2Proof/Config.lean ====
section
/-! DEFINITION. The free values: what the spec leaves open or takes from outside it. Each is an opaque constant, so no
proof can see a value of it; a statement holds for every choice. -/

namespace Sys2Proof.Config

/-- Free value number `n`, for a value the spec does not state (log 5). -/
opaque freeNat : Nat → Nat

/-- Free 64-bit word number `n` (log 5). -/
opaque freeWord : Nat → BitVec 64

/-- Free byte string number `n` (log 5). -/
opaque freeBytes : Nat → List Byte

/-- The index among the free tags of a port that transaction `n` takes (02 R33 leaves the choice open; log 7). -/
opaque tagChoice : Nat → Nat

/-- The index among the free shelf chunks that step `n` of a fill takes (13 R440 leaves the choice open; log 7). -/
opaque chunkChoice : Nat → Nat

/-- One less than the line buffers that a binding declares for a stream, by BINDING_ID; no field of the image gives it (08 R269;
log 43). -/
opaque lineBuffers : Nat → Nat

/-- SHA-384 of a byte string, as a 384-bit number with byte 0 most significant (04 R99 names it, outside the spec; log 9). -/
opaque sha384 : List Byte → Nat

/-- ECDSA P-384: the public key, the hash and the signature verify (04 R99 names it, outside the spec; log 9). -/
opaque ecdsaP384 : List Byte → Nat → List Byte → Bool

/-- The bytes in which planes left by an entry point's last stage are placed, from the planes' elements; the spec gives them no stored
form (log 68). -/
opaque placedPlanes : List (List Int) → List Byte

/-! ### The compressed picture formats (09 R303): H.264, H.265, AV1 and JPEG are standards outside the spec (log 10). CODEC is the
first argument, then the session block as read and the access unit. -/

/-- What the unit's syntax says: unsupported, random access point, hidden, grain ignored, width, height, ten bits, chroma form,
order count, damaged, reference absent, the picture has a reference, concealed slices. -/
opaque auInfo : Nat → List Byte → List Byte → List Nat

/-- Numbers of the slots that the unit's pictures refer to. -/
opaque auRefs : Nat → List Byte → List Byte → List Nat

/-- The 8x8 area of luma in this column and row lies in a unit of a damaged slice or in none (09 R314). -/
opaque auLost : Nat → List Byte → List Byte → Nat → Nat → Bool

/-- Sample of the picture where it is not concealed: codec, session, unit, bytes of the slots of `auRefs`, plane, column, line. -/
opaque auSample : Nat → List Byte → List Byte → List (List Byte) → Nat → Nat → Nat → Nat

/-- The standard's reference marking after a unit, by slot: 0 FREE, 1 REF_SHORT, 2 REF_LONG, 3 REF_AV1 (09 R310). -/
opaque auMarks : Nat → List Byte → List Byte → List Nat

/-- The private part of a session block after a unit; its layout is the GX's own (09 R307). -/
opaque sessionState : Nat → List Byte → List Byte → List Byte

/-- The unit has tiles, WPP rows or slices that begin at row starts, so that a decode of it divides (09 R328). -/
opaque unitDivides : Nat → List Byte → Bool

/-- The bytes of a compressed-mode slot that holds these planes, and a sample of such a slot: plane, column, line (09 R309). -/
opaque packedSlot : List (List Int) → List Byte
opaque packedSample : List Byte → Nat → Nat → Nat → Nat

/-- Padding of an uncompressed slot after these bytes (09 R309 gives it no value). -/
opaque slotPad : List Byte → List Byte

/-! ### The encoder's standards: prediction, transforms and entropy coding (09 R318-R324) -/

/-- Source sample of a coded unit beyond the picture's edge: the plane's elements, column, line. -/
opaque beyond : List Int → Nat → Nat → Nat

/-- Intra prediction of a block: codec, depth, direction, plane, the unit, and the units coded before it with their reconstructed samples. -/
opaque intraPred : Nat → Nat → UnitMode → Nat → CodedUnit → List (CodedUnit × List (List Int)) → List Int

/-- The standard offers the direction at this unit. -/
opaque intraUsable : Nat → UnitMode → CodedUnit → List CodedUnit → Bool

/-- The interpolation filters: codec, depth, plane, fractions of the vector, and the reference samples from 3 before the block to 4
behind it in both dimensions. -/
opaque interpolate : Nat → Nat → Nat → Nat → Nat → List Int → List Int

/-- The vector predictor of a unit (AMVP candidate 0, the median), and the vector of its SKIP mode (merge index 0, P_Skip). -/
opaque mvPredictor : Nat → CodedUnit → List CodedUnit → Vec
opaque skipVector : Nat → CodedUnit → List CodedUnit → Vec

/-- The transform matrices: codec, size, coefficient, sample; size 0 is H.264's Hadamard. -/
opaque transMatrix : Nat → Nat → Nat → Nat → Int

/-- The first stage of a forward transform runs over columns; 09 R319 does not say. -/
opaque columnsFirst : Bool

/-- QP of the chroma of a picture. -/
opaque chromaQp : Nat → Nat → Nat

/-- Levels of the chroma DC coefficients of H.264, which 09 R319 does not quantise: chroma QP, intra, the four coefficients. -/
opaque avcChromaDc : Nat → Bool → List Int → List Int

/-- Reconstructed samples of a block with a residual: codec, depth, QP, plane, mode, levels, prediction. -/
opaque rebuild : Nat → Nat → Nat → Nat → UnitMode → List (List Int) → List Int → List Int

/-- The deblocked planes: codec, depth, QP, units, planes. -/
opaque deblock : Nat → Nat → Nat → List CodedUnit → List (List Int) → List (List Int)

/-- Bits of a coded unit after the ones before it. -/
opaque unitBits : PicParams → List CodedUnit → CodedUnit → Nat

/-- Bytes of a coding row in a tile: the picture's units so far, row, tile. -/
opaque rowLen : PicParams → List CodedUnit → Nat → Nat → Nat

/-- The bytes themselves, which may depend on the whole picture: all units, row, tile. -/
opaque rowBytes : PicParams → List CodedUnit → Nat → Nat → List Byte

/-- The example tables of JPEG's Annex K: luma 0 or chroma 1, position. -/
opaque jpegExample : Nat → Nat → Nat

/-- The blocks of a JPEG coding row: block, cores, scaled tables, source planes, row. -/
opaque jpegBlocks : List Byte → Nat → List (List Nat) → List (List Int) → Nat → List JpegBlock

/-- Their bytes: block, cores, row, blocks of the row. -/
opaque jpegBytes : List Byte → Nat → Nat → List JpegBlock → List Byte

/-- Parameter sets or headers before an IDR unit's first row, with the scaled tables of JPEG, and the bytes after a JPEG unit's last. -/
opaque encHead : PicParams → List (List Nat) → List Byte
opaque encTail : List Byte → List Byte

/-- The state of a LIVE encoder in its channel's work area (09 R331), replica 0 or 1. -/
opaque channelState : Nat → List Byte → List Byte

end Sys2Proof.Config
end

