-- ==== Sys2Proof/Machine/Bits.lean ====
section
/-! DEFINITION. Byte order, bit fields, clamping and rounding: the shared helpers of 00 R4, R10, R14. -/

namespace Sys2Proof.Machine

/-- A little-endian number (00 R4). -/
def leNat : List Byte → Nat
  | [] => 0
  | b :: bs => b.toNat + 256 * leNat bs

/-- The `n` little-endian bytes of a number. -/
def leBytes (v : Nat) : Nat → List Byte
  | 0 => []
  | n + 1 => BitVec.ofNat 8 v :: leBytes (v / 256) n

/-- A big-endian number. -/
def beNat (bs : List Byte) : Nat := leNat bs.reverse

/-- The `n` big-endian bytes of a number. -/
def beBytes (v n : Nat) : List Byte := (leBytes v n).reverse

/-- `n` bytes of a list from an offset; bytes beyond its end read 0. -/
def slice (bs : List Byte) (off n : Nat) : List Byte :=
  let t := (bs.drop off).take n
  t ++ List.replicate (n - t.length) 0

/-- The little-endian field of `n` bytes at an offset. -/
def field (bs : List Byte) (off n : Nat) : Nat := leNat (slice bs off n)

/-- Byte at an offset. -/
def byteAt (bs : List Byte) (off : Nat) : Nat := (bs.getD off 0).toNat

/-- Bits lo .. lo + n - 1 of a number. -/
def bits (v lo n : Nat) : Nat := v / 2 ^ lo % 2 ^ n

/-- Bit `i` of a number. -/
def bit (v i : Nat) : Bool := v / 2 ^ i % 2 == 1

/-- 1 for true. -/
def b2n (b : Bool) : Nat := if b then 1 else 0

/-- A byte string with new bytes in place of its own from an offset on. -/
def splice (bs : List Byte) (off : Nat) (new : List Byte) : List Byte :=
  slice bs 0 off ++ new ++ bs.drop (off + new.length)

/-- Two's complement of an `n`-bit number. -/
def signed (v n : Nat) : Int := if v % 2 ^ n < 2 ^ (n - 1) then (v % 2 ^ n : Nat) else (v % 2 ^ n : Nat) - (2 ^ n : Nat)

/-- The `n`-bit two's complement code of an integer. -/
def code (v : Int) (n : Nat) : Nat := (v % (2 ^ n : Nat)).toNat

/-- clamp (00 R14). -/
def clampI (x lo hi : Int) : Int := if x < lo then lo else if x > hi then hi else x

/-- sat_s (00 R14) on integers. -/
def satS (x : Int) (n : Nat) : Int := clampI x (-(2 ^ (n - 1) : Nat)) ((2 ^ (n - 1) : Nat) - 1)

/-- sat_u (00 R14) on integers. -/
def satU (x : Int) (n : Nat) : Int := clampI x 0 ((2 ^ n : Nat) - 1)

/-- floordiv (00 R14). -/
def fdiv (a b : Int) : Int := a.fdiv b

/-- asr (00 R14). -/
def asr (x : Int) (n : Nat) : Int := x.fdiv (2 ^ n : Nat)

/-- Round num/den half to even, den > 0 (rne of 00 R14 with f = 0, on the exact fraction). -/
def rneDiv (num : Int) (den : Nat) : Int :=
  let m := num.fdiv den
  let r := num - m * den
  if 2 * r > den then m + 1 else if 2 * r = den && m % 2 ≠ 0 then m + 1 else m

/-- rsto of 00 R14 with f = 0 on the fraction num/den, den > 0, with `u` of `w` bits. -/
def rstoDiv (num : Int) (den : Nat) (u w : Nat) : Int := (num * (2 ^ w : Nat) + u * den).fdiv (den * 2 ^ w)

/-- A 32-bit count that stops at its largest value (every "saturating" counter). -/
def sat32 (n : Nat) : Nat := min n 0xFFFFFFFF

/-- The bits of a list of booleans, the first least significant. -/
def ofBools : List Bool → Nat
  | [] => 0
  | b :: bs => b2n b + 2 * ofBools bs

/-- Numbers lo .. lo + n - 1. -/
def upto (lo : Nat) : Nat → List Nat
  | 0 => []
  | n + 1 => lo :: upto (lo + 1) n

/-- The mask with bit i set where `p i`, for i below `n`. -/
def maskOf (n : Nat) (p : Nat → Bool) : Nat := ofBools ((upto 0 n).map p)

/-- ceil (a / b). -/
def cdiv (a b : Nat) : Nat := (a + b - 1) / b

/-- The list with element `i` changed. -/
def modNth {α : Type} (l : List α) (i : Nat) (f : α → α) : List α :=
  match l, i with
  | [], _ => []
  | x :: t, 0 => f x :: t
  | x :: t, i + 1 => x :: modNth t i f

/-- Put a number into a strictly rising list. -/
def insertNat (x : Nat) : List Nat → List Nat
  | [] => [x]
  | y :: t => if x < y then x :: y :: t else if x = y then y :: t else y :: insertNat x t

/-! ### Register words -/

/-- A field of a register word. -/
def fld (lo v : Nat) : Nat := v * 2 ^ lo

/-- A flag of a register word. -/
def flag (i : Nat) (b : Bool) : Nat := b2n b * 2 ^ i

/-- Word `k` of a 64-bit value. -/
def half (v k : Nat) : Nat := bits v (32 * k) 32

end Sys2Proof.Machine
end

