-- ==== Sys2Proof/Machine/Crc.lean ====
section
/-! DEFINITION. CRC-32C (06 R202) and the folio CRC-64 (14 R451). -/

namespace Sys2Proof.Machine

/-- One bit step of CRC-32C, reflected: the polynomial 0x1EDC_6F41 with its bits reversed. -/
def crc32cBit (c : Nat) : Nat := if c % 2 = 1 then Nat.xor (c / 2) 0x82F63B78 else c / 2

/-- Eight bit steps. -/
def crc32cByte (c : Nat) (b : Byte) : Nat :=
  let c := Nat.xor c b.toNat
  crc32cBit (crc32cBit (crc32cBit (crc32cBit (crc32cBit (crc32cBit (crc32cBit (crc32cBit c)))))))

/-- The running remainder over bytes. -/
def crc32cRun (c : Nat) : List Byte → Nat
  | [] => c
  | b :: bs => crc32cRun (crc32cByte c b) bs

/-- CRC-32C (06 R202). -/
def crc32c (bs : List Byte) : Nat := Nat.xor (crc32cRun 0xFFFFFFFF bs) 0xFFFFFFFF

/-- One bit step of the CRC-64, not reflected (14 R451). -/
def crc64Bit (c : Nat) : Nat :=
  if 2 ^ 63 ≤ c then Nat.xor (c * 2 % 2 ^ 64) 0x42F0E1EBA9EA3693 else c * 2

/-- Eight bit steps. -/
def crc64Byte (c : Nat) (b : Byte) : Nat :=
  let c := Nat.xor c (b.toNat * 2 ^ 56)
  crc64Bit (crc64Bit (crc64Bit (crc64Bit (crc64Bit (crc64Bit (crc64Bit (crc64Bit c)))))))

/-- The running remainder over bytes. -/
def crc64Run (c : Nat) : List Byte → Nat
  | [] => c
  | b :: bs => crc64Run (crc64Byte c b) bs

/-- FOLIO_CRC64 (14 R451). -/
def crc64 (bs : List Byte) : Nat := crc64Run 0 bs

end Sys2Proof.Machine
end

