-- ==== Sys2Proof/Machine/Mixer.lean ====
section
/-! DEFINITION. The draw unit's function: the keyed mixer, its counters and the draws made from it (12 R403-R406, R410,
R412; 10 R343). -/

namespace Sys2Proof.Machine

/-- Four 32-bit words: a key, a counter or a state of the mixer (R403). -/
structure Quad where
  a : BitVec 32
  b : BitVec 32
  c : BitVec 32
  d : BitVec 32
  deriving DecidableEq, Repr

/-- Word `i` mod 4. -/
def Quad.word (q : Quad) (i : Nat) : BitVec 32 :=
  match i % 4 with | 0 => q.a | 1 => q.b | 2 => q.c | _ => q.d

/-- The words k0-k3 of a 128-bit key in its request byte order (R403). -/
def keyQuad (key : Nat) : Quad :=
  { a := BitVec.ofNat 32 key, b := BitVec.ofNat 32 (key / 2 ^ 32), c := BitVec.ofNat 32 (key / 2 ^ 64), d := BitVec.ofNat 32 (key / 2 ^ 96) }

/-- RC[r]. -/
def roundConst (r : Nat) : BitVec 32 := BitVec.ofNat 32 (0x5D47A3C1 * (r + 1))

/-- One round. -/
def mixRound (k : Quad) (r : Nat) (x : Quad) : Quad :=
  let x0 := x.a + x.b
  let x3 := (x.d ^^^ x0).rotateLeft 13
  let x2 := x.c + x3
  let x1 := (x.b ^^^ x2).rotateLeft 9
  { a := x1, b := x2 + k.word (r + 2), c := x3, d := x0 + k.word r + roundConst r }

/-- `n` rounds from round `r` on. -/
def mixRounds (k : Quad) (r : Nat) : Nat → Quad → Quad
  | 0, x => x
  | n + 1, x => mixRounds k (r + 1) n (mixRound k r x)

/-- mix (R404). -/
def mix (k c : Quad) : Quad :=
  let x := mixRounds k 0 10 c
  { a := x.a + k.a, b := x.b + k.b, c := x.c + k.c, d := x.d + k.d }

/-- The counter of a domain: position field, index field, view and stream (R405). -/
def counterQuad (d pos index v st : Nat) : Quad :=
  { a := BitVec.ofNat 32 pos, b := BitVec.ofNat 32 (pos / 2 ^ 32), c := BitVec.ofNat 32 index,
    d := BitVec.ofNat 32 (d * 2 ^ 28 + v * 2 ^ 16 + st) }

/-- The mixer of a key over a counter. -/
def drawQuad (key d pos index v st : Nat) : Quad := mix (keyQuad key) (counterQuad d (pos % 2 ^ 64) index v st)

/-- pw(q) (R406). -/
def posWord (key q : Nat) : Nat :=
  let q := q % 2 ^ 64
  ((drawQuad key 0 (q / 4) 0 0 0).word q).toNat

/-- Draw word `k` of view `v` at block position `p` (10 R343). -/
def drawWord (key p v k : Nat) : Nat := posWord key (p + 16 * v + k)

/-- ew(p, v, e) (R406). -/
def elemWord (key p v e : Nat) : Nat := ((drawQuad key 1 p (e / 4) v 0).word e).toNat

/-- nrm over the words of a draw (R406). -/
def nrm (y : Quad) : Int :=
  let h (w : BitVec 32) : Int := (w.toNat % 65536 + w.toNat / 65536 : Nat)
  let d : Int := h y.a + h y.b + h y.c + h y.d - 262140
  rneDiv (d * 80265) 65536

/-- en(p, v, e) (R406). -/
def elemNormal (key p v e : Nat) : Int := nrm (drawQuad key 2 p e v 0)

/-- jit (10 R343, 12 R412). -/
def jit (u j : Nat) : Int := ((u * (2 * j + 1) / 2 ^ 32 : Nat) : Int) - j

/-- An event with threshold P (10 R343, 12 R412). -/
def drawEvent (u p : Nat) : Bool := u / 65536 < p

end Sys2Proof.Machine
end

