-- ==== Sys2Proof/Machine/Table.lean ====
section
/-! DEFINITION. Sparse tables keyed by numbers, and byte memories, both as lists in one canonical form. -/

namespace Sys2Proof.Machine

/-- A table from numbers to values: a list of keys and values, keys strictly rising. -/
abbrev Tbl (α : Type) := List (Nat × α)

/-- The value at a key. -/
def Tbl.get? {α : Type} : Tbl α → Nat → Option α
  | [], _ => none
  | (k', v) :: t, k => if k = k' then some v else if k < k' then none else Tbl.get? t k

/-- The value at a key, or a default. -/
def Tbl.getD {α : Type} (t : Tbl α) (k : Nat) (d : α) : α := (t.get? k).getD d

/-- Whether a key is present. -/
def Tbl.has {α : Type} (t : Tbl α) (k : Nat) : Bool := (t.get? k).isSome

/-- The table with a value at a key. -/
def Tbl.set {α : Type} : Tbl α → Nat → α → Tbl α
  | [], k, v => [(k, v)]
  | (k', v') :: t, k, v =>
    if k = k' then (k, v) :: t else if k < k' then (k, v) :: (k', v') :: t else (k', v') :: Tbl.set t k v

/-- The table without a key. -/
def Tbl.erase {α : Type} : Tbl α → Nat → Tbl α
  | [], _ => []
  | (k', v') :: t, k => if k = k' then t else if k < k' then (k', v') :: t else (k', v') :: Tbl.erase t k

/-- The table with the value at a present key changed. -/
def Tbl.adjust {α : Type} (t : Tbl α) (k : Nat) (f : α → α) : Tbl α :=
  match t.get? k with
  | some v => t.set k (f v)
  | none => t

/-- Keys strictly rise. -/
def Tbl.wf {α : Type} : Tbl α → Bool
  | [] => true
  | [_] => true
  | (k, _) :: (k', v') :: t => k < k' && Tbl.wf ((k', v') :: t)

/-- A byte memory: addresses strictly rise and no listed byte is 0, what an unlisted address reads as (15 R494 for the
keep-store; 04 boot sequence, step 3 for control SRAM). -/
abbrev Mem := List Host.Cell

/-- The byte at an address. -/
def Mem.read (m : Mem) (a : Nat) : Byte := Tbl.getD m a 0

/-- The memory with one byte written; writing 0 removes the entry. -/
def Mem.write (m : Mem) (a : Nat) (b : Byte) : Mem := if b = 0 then Tbl.erase m a else Tbl.set m a b

/-- `n` bytes from an address. -/
def Mem.readBytes (m : Mem) (a : Nat) : Nat → List Byte
  | 0 => []
  | n + 1 => m.read a :: m.readBytes (a + 1) n

/-- The memory with bytes written from an address. -/
def Mem.writeBytes (m : Mem) (a : Nat) : List Byte → Mem
  | [] => m
  | b :: bs => (m.write a b).writeBytes (a + 1) bs

/-- The canonical form: addresses strictly rise and no listed byte is 0. -/
def Mem.wf (m : Mem) : Bool := Tbl.wf m && m.all (fun c => c.2 != 0)

end Sys2Proof.Machine
end

