-- ==== Sys2Proof/Machine/State.lean ====
section
/-! DEFINITION. The state of the block: every register, queue, counter and pin the spec gives it, as plain data, with
the reset value of each field as its default, and State.reset. A docstring names the register or field, its width, the
file and rule of spec/ that gives it, and its reset value. -/

namespace Sys2Proof.Machine

/-- Why the model stops with a fault. -/
inductive Fault where
  /-- Raised by every command whose operands name something outside the hardware (a port, ring, target or tag that does
  not exist, or a value wider than its field): such a command cannot be given. Safe. -/
  | badOperand
  deriving DecidableEq, Repr

/-- Why the model gives a command no meaning. -/
inductive Refusal where
  /-- Raised by an arm of exec that has no meaning yet. Safe. -/
  | notModelled (mnemonic : String)
  deriving DecidableEq, Repr

/-! ### Pins, straps and the control port -/

/-- The chip's straps, input levels and the control port's last response. -/
structure Chip where
  /-- GX_INSTANCE.INSTANCE, strap GX_INSTANCE_ID sampled at GX_PORST_N deassertion (2 bits; 02 R48). Reset DESIGN CHOICE 0 (the strap's level), log 4. -/
  instId : Nat := 0
  /-- GX_INSTANCE.GROUP_M1, strap GX_GROUP_SIZE sampled at GX_PORST_N deassertion (2 bits; 02 R48). Reset DESIGN CHOICE 0 (solo), log 4. -/
  groupM1 : Nat := 0
  /-- I3C_SADDR, the static address strap (7 bits; 02 R60). Reset DESIGN CHOICE 0, log 4. -/
  i3cSaddr : Nat := 0
  /-- JTAG_MFR, the manufacturer field of IDCODE (11 bits; 02 R61). Reset DESIGN CHOICE 0, log 4. -/
  jtagMfr : Nat := 0
  /-- Level of GX_PORST_N, active low (1 bit; 02 R55). Reset 1: deasserted. -/
  porstN : Bool := true
  /-- Level of GX_RST_N as filtered, active low (1 bit; 02 R55). Reset 1: deasserted. -/
  rstN : Bool := true
  /-- The keeper domain has completed initialisation (1 bit; 02 R56). Reset 0. -/
  keeperInit : Bool := false
  /-- ROOT_KEY_HASH input (384 bits as a number; 02 R62). Reset DESIGN CHOICE 1, log 4. -/
  rootKeyHash : Nat := 1
  /-- ROOT_KEY_VALID input (1 bit; 02 R62). Reset 1 (the integrator's duty of R62). -/
  rootKeyValid : Bool := true
  /-- TEST_MODE input as filtered (1 bit; 02 R61). Reset DESIGN CHOICE 0, log 4. -/
  testMode : Bool := false
  /-- GX_SAFE_REQ input as filtered (1 bit; 02 R53). Reset DESIGN CHOICE 0, log 4. -/
  safeReq : Bool := false
  /-- CT_RSP_CODE of the last control-port response (2 bits; 02 R41). Reset 0. -/
  rspCode : Nat := 0
  /-- CT_RSP_RDATA of the last control-port response (32 bits; 02 R41). Reset 0. -/
  rspData : Nat := 0
  /-- PLAN_SYNC_OUT: time base at which its 8 us pulse ends; the pin is 1 before it (1 output pin; 02 R56, 07 R249). Reset 0, the pin
  low. -/
  planSyncEnd : Nat := 0
  /-- Test mode in force since the last level-2 grant (1 bit; 02 R61). Reset 0. -/
  testGranted : Bool := false
  /-- The model's own counter that numbers free values (no field of the spec; log 5). Reset DESIGN CHOICE 0, log 5. -/
  freeCtr : Nat := 0
  deriving DecidableEq, Repr

/-! ### Power, clocks, supplies, heat -/

/-- The device power states (03 R70); `enteringKeep` is steps 1-3 of R73. -/
inductive PwrState where
  | keep | standby | ready | run | enteringKeep
  deriving DecidableEq, Repr

/-- One fast clock's handshake and monitor (03 R79, R80, R97). -/
structure ClkState where
  /-- CLK_CTL.SS_EN, driving xCLK_SS_EN (1 bit; 03 R97). Reset 0. -/
  ssEn : Bool := false
  /-- CLK_STAT.REQ, the level of xCLK_REQ (1 bit; 03 R97). Reset 0. -/
  req : Bool := false
  /-- CLK_STAT.ACK, the level of xCLK_ACK (1 bit; 03 R97). Reset 0. -/
  ack : Bool := false
  /-- CLK_EVT.LOST (1 bit; 03 R97). Reset 0. -/
  lost : Bool := false
  /-- The last monitor window was out of range (1 bit; 03 R80). Reset 0. -/
  bad : Bool := false
  /-- The clock is LOST now, so its reaction has been taken (1 bit; 03 R80). Reset 0. -/
  down : Bool := false
  deriving DecidableEq, Repr

/-- One supply rail: request, supply-good input, monitor conditions (03 R84, R97). -/
structure RailState where
  /-- RAIL_x_REQ (1 bit; 03 R75). Reset 0. -/
  req : Bool := false
  /-- PG_x (1 bit; 03 R84). Reset 0. -/
  pg : Bool := false
  /-- Level of the warning comparator (1 bit; 03 R84). Reset 0. -/
  warn : Bool := false
  /-- Level of the failure comparator (1 bit; 03 R84). Reset 0. -/
  fail : Bool := false
  /-- The rail has been good since it was requested, so its monitor acts (1 bit; 03 R84). Reset 0. -/
  up : Bool := false
  /-- SUPPLY_EVT.x_WARN (1 bit; 03 R97). Reset 0. -/
  evtWarn : Bool := false
  /-- SUPPLY_EVT.x_FAIL (1 bit; 03 R97). Reset 0. -/
  evtFail : Bool := false
  deriving DecidableEq, Repr

/-- SUPPLY_STAT.x_WARN: the warning of a rail whose monitor acts (03 R84, R97). -/
def RailState.warns (r : RailState) : Bool := r.up && r.warn

/-- SUPPLY_STAT.x_FAIL: its failure, which a supply-good input at 0 is too (03 R84, R97). -/
def RailState.fails (r : RailState) : Bool := r.up && (r.fail || !r.pg)

/-- Where the wake of R75 stands. -/
inductive WakeStep where
  | idle | cause | rails | clocks | booting
  deriving DecidableEq, Repr

/-- Power, clocks, supply monitors and thermal sensors (03 R70-R97). -/
structure Power where
  /-- PWR_STATE.STATE (3 bits; 03 R97). Reset 3, read as 1 until the wake ends (R45). -/
  state : PwrState := .ready
  /-- PWR_STATE.BLOCKED for a STANDBY target that is out of reach (1 bit, keeper; 03 R72, R97). Reset 0. -/
  blocked : Bool := false
  /-- PWR_STATE.BLOCKED for a refused KEEP target (1 bit, keeper; 03 R73, R97). Reset 0. -/
  keepRefused : Bool := false
  /-- PWR_TARGET.TARGET (2 bits, keeper; 03 R97). Reset 3. -/
  target : Nat := 3
  /-- A write of PWR_TARGET made in KEEP or during a wake is to take effect in READY (1 bit; 02 R45). Reset 0. -/
  targetStored : Bool := false
  /-- OPP_CTL.SLOWEST (2 bits; 03 R97). Reset 2. -/
  slowest : Nat := 2
  /-- OPP_CTL.FASTEST (2 bits; 03 R97). Reset 0. -/
  fastest : Nat := 0
  /-- The point on OPP_REQ, which OPP_STAT.PENDING shows (2 bits, the output's reset is GX_PORST_N's; 02 R55, 03 R97). Reset 0. -/
  oppPending : Nat := 0
  /-- The last acknowledged point, which OPP_STAT.CURRENT shows (2 bits; 03 R97, R551). Reset 0. -/
  oppCurrent : Nat := 0
  /-- OPP_STAT stands at its reset value since a GX_RST_N (1 bit; 03 R97, 00 R8; log 103). Reset 0. -/
  oppStatReset : Bool := false
  /-- The point a missing OPP_ACK returns to (2 bits; 03 R83). Reset 0 (OPP_REQ's reset value). -/
  oppPrev : Nat := 0
  /-- An OPP_ACK is awaited (1 bit; 03 R83). Reset 0. -/
  oppWait : Bool := false
  /-- The change under way is the return after a missing OPP_ACK (1 bit; 03 R551). Reset 0. -/
  oppReturn : Bool := false
  /-- Booking stays at the slower of this point and the current one until an OPP_ACK is seen (2 bits; 03 R551). Reset none. -/
  oppBookAt : Option Nat := none
  /-- The point to request at the next press-period boundary (2 bits; 03 R83). Reset none. -/
  oppWanted : Option Nat := none
  /-- CLK_CTL, CLK_STAT, CLK_EVT bytes of ACLK (03 R97). Reset 0. -/
  aclk : ClkState := {}
  /-- CLK_CTL, CLK_STAT, CLK_EVT bytes of VCLK (03 R97). Reset 0. -/
  vclk : ClkState := {}
  /-- CLK_CTL, CLK_STAT, CLK_EVT bytes of MCLK (03 R97). Reset 0. -/
  mclk : ClkState := {}
  /-- CLK_CTL, CLK_STAT, CLK_EVT bytes of CCLK (03 R97). Reset 0. -/
  cclk : ClkState := {}
  /-- VDD_ARRAY: request, PG and monitor bits (6 bits; 03 R97). Reset 0. -/
  array : RailState := {}
  /-- VDD_CTRL: request, PG and monitor bits (6 bits; 03 R97). Reset 0. -/
  ctrl : RailState := {}
  /-- VDD_MRAM: request, PG and monitor bits (6 bits; 03 R97). Reset 0. -/
  mram : RailState := {}
  /-- VDD_KEEP: monitor bits (4 bits; 03 R97). Reset 0; it has no request and no supply-good input, so it always counts as good. -/
  keep : RailState := { up := true, pg := true }
  /-- DROOP_SKIP_CNT (32 bits; 03 R97). Reset 0. -/
  droopSkips : Nat := 0
  /-- Time base up to which the droop skip has been counted (64 bits; 03 R86). Reset 0. -/
  droopMark : Nat := 0
  /-- Time in ns of this slot under the VDD_ARRAY warning (16 bits; 03 R86). Reset 0. -/
  slotDroopNs : Nat := 0
  /-- The over-long droop of this slot has been reported (1 bit; 03 R86). Reset 0. -/
  slotDroopRaised : Bool := false
  /-- The warning that lasts has reported a droop beyond 1 us (1 bit; 03 R86, 14 R465). Reset 0. -/
  droopReported : Bool := false
  /-- THERM_STAT.STAGE (2 bits; 03 R97). Reset 0. -/
  stage : Nat := 0
  /-- THERM_STAT.TJ_MAX in quarter degrees (s16; 03 R97). Reset 0. -/
  tjMax : Int := 0
  /-- THERM_STAT of the last reading, which MG_THERM shows while VDD_ARRAY is off (18 bits; 16 R529). Reset 0. -/
  thermKept : Nat := 0
  /-- CDC_OVR.STAMP (1 bit; 03 R97). Reset 0. -/
  ovrStamp : Bool := false
  /-- CDC_OVR.I3C_RX (1 bit; 03 R97). Reset 0. -/
  ovrRx : Bool := false
  /-- CDC_OVR.I3C_TX (1 bit; 03 R97). Reset 0. -/
  ovrTx : Bool := false
  /-- WAKE_TIMER in milliseconds (32 bits, keeper; 03 R97). Reset 0. -/
  wakeTimer : Nat := 0
  /-- Time base at the last entry of KEEP, from which WAKE_TIMER counts (64 bits; 03 R74). Reset 0. -/
  keepSince : Nat := 0
  /-- WAKE_CAUSE bits 2:0 (3 bits, keeper; 03 R97). Reset 0. -/
  wakeCause : Nat := 0
  /-- A wake cause awaits GX_RST_N or keeper initialisation (1 bit; 03 R74). Reset 1: deassertion of GX_RST_N is a wake cause. -/
  wakePending : Bool := true
  /-- The step of the wake sequence (3 bits; 03 R75). Reset `cause`: the reset's own wake has not yet raised the rails. -/
  wake : WakeStep := .cause
  deriving DecidableEq, Repr

/-! ### The time base -/

/-- The time base and its references (03 R88-R94, R98). -/
structure TimeBase where
  /-- The time base in ns, as given by TB_NOW_HI:TB_NOW_LO (64 bits, keeper; 03 R88). Reset 0. -/
  now : Nat := 0
  /-- TB_NOW_HI as latched (32 bits, keeper; 03 R98). Reset 0. -/
  hiLatch : Nat := 0
  /-- TB_CTL.REF_SEL: true selects KCLK (1 bit, keeper; 03 R98). Reset 0. -/
  selKclk : Bool := false
  /-- TB_CTL.AUTO_RELOCK (1 bit, keeper; 03 R98). Reset 1. -/
  autoRelock : Bool := true
  /-- TB_STAT.STATE (2 bits, keeper; 03 R98). Reset 2 (FREE). -/
  quality : Nat := 2
  /-- TB_STAT.COUNT (8 bits, keeper; 03 R98). Reset 0. -/
  count : Nat := 0
  /-- TB_RATE in ppb (s32, keeper; 03 R98). Reset 0. -/
  rate : Int := 0
  /-- The rate of the last window within the limit (s32; 03 R92). Reset 0. -/
  goodRate : Int := 0
  /-- TB_DIFF in ppb (s32, keeper; 03 R98). Reset 0. -/
  diff : Int := 0
  /-- TB_EVT bits 3:0 CMP_LOST, SEL_LOST, OFFSET, DRIFT (4 bits, keeper; 03 R98). Reset 0. -/
  evt : Nat := 0
  /-- A strobe has been accepted since GX_PORST_N, so the first load is past (1 bit; 03 R90). Reset 0. -/
  loaded : Bool := false
  /-- TIME_VALID has been 1 at some strobe or edge since GX_PORST_N (1 bit; 03 R94). Reset 0. -/
  everValid : Bool := false
  /-- Level of TIME_VALID (1 bit; 02 R51). Reset DESIGN CHOICE 0, log 4. -/
  timeValid : Bool := false
  /-- Accepted strobes since GX_PORST_N or the last loss of TIME_IN, saturating at 2 (2 bits; 03 R92). Reset 0. -/
  strobes : Nat := 0
  /-- Stamp of the last accepted strobe in ns (64 bits; 03 R92). Reset 0. -/
  lastStamp : Nat := 0
  /-- TIME_IN of the last accepted strobe in ns (64 bits; 03 R91). Reset 0. -/
  lastTimeIn : Nat := 0
  /-- Interval between the last two accepted strobes in ns (64 bits; 03 R92). Reset 1,000,000,000 (counts as 1 s, R92). -/
  interval : Nat := 1000000000
  /-- TIME_IN is lost (1 bit; 03 R92). Reset 0. -/
  timeLost : Bool := false
  /-- KCLK is lost (1 bit; 03 R92). Reset 0. -/
  kclkLost : Bool := false
  /-- The holdover in force was entered by KEEP and ends by itself in READY (1 bit; 03 R93). Reset 0. -/
  keepHoldover : Bool := false
  /-- A write of REF_SEL that awaits the next KCLK edge: its value, the edge's time, the rate it slews with (03 R90). Reset none. -/
  selNext : Option (Bool × Nat × Int) := none
  /-- Accepted strobes that windows not yet judged need, oldest first: stamp and TIME_IN (03 R91). Reset none. -/
  strobeLog : List (Int × Nat) := []
  /-- Stamp of the end of the last window (64 bits; 03 R91). Reset 0. -/
  lastEdge : Nat := 0
  /-- TIME_IN as interpolated there (64 bits; 03 R91). Reset none. -/
  edgeTimeIn : Option Int := none
  deriving DecidableEq, Repr

/-! ### Control complex -/

/-- CC_STAT.PAIRn (04 R129). -/
inductive PairState where
  | off | boot | run | stopped
  deriving DecidableEq, Repr

/-- One hardware semaphore (04 R119-R122). -/
structure Sem where
  /-- SEMn.OWNER; none reads as 3, free (2 bits; 04 R122). Reset none. -/
  owner : Option SemAgent := none
  /-- SEMn.LEASE_US (10 bits; 04 R122). Reset 0x064. -/
  leaseUs : Nat := 100
  /-- Time base at which the lease runs out (64 bits; 04 R119). Reset 0. -/
  leaseEnd : Nat := 0
  /-- Lease time left in ns while the lease does not count (64 bits; 04 R128). Reset none. -/
  frozen : Option Nat := none
  /-- LOCK_LOST recorded for these former owners (3 bits; 04 R121). Reset none recorded. -/
  lost : List SemAgent := []
  deriving DecidableEq, Repr

/-- One control core, as far as the debugger and R116 see it. While its pair runs, firmware changes it in ways the spec does not give:
an exception finds it at free values (log 12). -/
structure Core where
  /-- g0-g31 (32 registers of 64 bits; 04 R116). Reset DESIGN CHOICE 0, log 4. -/
  g : List (BitVec 64) := List.replicate 32 0
  /-- Program counter (64 bits; 04 R116). Reset DESIGN CHOICE 0, log 4. -/
  pc : BitVec 64 := 0
  /-- STATUS (64 bits; 04 R116). Reset DESIGN CHOICE 0, log 4. -/
  status : BitVec 64 := 0
  /-- The eight control registers (8 of 64 bits; 04 R116). Reset DESIGN CHOICE 0, log 4. -/
  ctl : List (BitVec 64) := List.replicate 8 0
  /-- Exceptions taken by this core, the SEQ of the save area (32 bits; 04 R116). Reset 0. -/
  excSeq : Nat := 0
  /-- SP_LO of the current mode (64 bits; 04 R117). Reset DESIGN CHOICE 0, log 4. -/
  spLo : BitVec 64 := 0
  /-- SP_HI of the current mode (64 bits; 04 R117). Reset DESIGN CHOICE 0, log 4. -/
  spHi : BitVec 64 := 0
  deriving DecidableEq, Repr

/-- An image that FW_STAGE verified (04 R104, 05 R173). -/
structure Staged where
  /-- FW_VERSION of the staged image (32 bits; 05 R174). Reset absent. -/
  version : Nat
  /-- Slot B holds it (1 bit; 04 R104). Reset absent. -/
  slotB : Bool
  deriving DecidableEq, Repr

/-- An unlock challenge in force (04 R123). -/
structure Challenge where
  /-- Level asked for, 1 or 2 (8 bits; 04 R123). Reset absent. -/
  level : Nat
  /-- UNLOCK_SEQ committed for it (32 bits; 04 R123). Reset absent. -/
  seq : Nat
  /-- Time base in the challenge (64 bits; 04 R123). Reset absent. -/
  time : Nat
  deriving DecidableEq, Repr

/-- The watchdog of a pair (04 R118). -/
structure Watchdog where
  /-- Limit in ns: 1 ms after boot, and what firmware has set since (64 bits; 04 R118). Reset 1 ms. -/
  limit : Nat := 1000000
  /-- Time base before which it cannot expire: the last start or known reset plus the limit (64 bits; 04 R118). Reset 0. -/
  due : Nat := 0
  /-- Time left in ns while the pair is halted and the watchdog does not advance (64 bits; 04 R118). Reset none. -/
  left : Option Nat := none
  deriving DecidableEq, Repr

/-- What trial or confirmed firmware still owes the keep-store (04 R106). -/
inductive Confirm where
  | none | record | counter
  deriving DecidableEq, Repr

/-- The control complex (04). -/
structure Control where
  /-- CC_STAT.PAIR0 (2 bits; 04 R129). Reset 0 OFF. -/
  pair0 : PairState := .off
  /-- CC_STAT.PAIR1 (2 bits; 04 R129). Reset 0 OFF. -/
  pair1 : PairState := .off
  /-- CC_STAT.LAST_CAUSE (8 bits, keeper; 04 R129). Reset 0xFF. -/
  lastCause : Nat := 255
  /-- A control restart is under way (1 bit; 04 R115). Reset 0: the first boot is no restart. -/
  restarting : Bool := false
  /-- BOOT_STAT.CODE (8 bits; 04 R129). Reset 0x01. -/
  bootCode : Nat := 1
  /-- BOOT_STAT.SLOT, true for B (1 bit; 04 R129). Reset 0. -/
  bootSlotB : Bool := false
  /-- BOOT_STAT.TRIAL (1 bit; 04 R129). Reset 0. -/
  bootTrial : Bool := false
  /-- BOOT_STAT.FALLBACK (1 bit; 04 R129). Reset 0. -/
  bootFallback : Bool := false
  /-- BOOT_STAT.ATTEMPTS (2 bits; 04 R129). Reset 0. -/
  bootAttempts : Nat := 0
  /-- FW_RUNNING (32 bits; 04 R129). Reset 0. -/
  fwRunning : Nat := 0
  /-- FW_SVN (32 bits; 04 R129). Reset 0. -/
  fwSvn : Nat := 0
  /-- ROLLBACK_CNT (32 bits; 04 R129). Reset 0. -/
  rollbackCnt : Nat := 0
  /-- FW_ADDR_A, address bits 47:12 (48 bits, keeper; 04 R129). Reset 0. -/
  fwAddrA : Nat := 0
  /-- FW_ADDR_B, address bits 47:12 (48 bits, keeper; 04 R129). Reset 0. -/
  fwAddrB : Nat := 0
  /-- RESTART_CNT (32 bits, keeper; 04 R129). Reset 0. -/
  restartCnt : Nat := 0
  /-- DEBUG_CTL.FREEZE_LEASE (1 bit; 04 R129). Reset 0. -/
  freezeLease : Bool := false
  /-- DEBUG_CTL.HALT0 and DEBUG_STAT.HALTED0 (1 bit; 04 R129). Reset 0. -/
  halt0 : Bool := false
  /-- DEBUG_CTL.HALT1 and DEBUG_STAT.HALTED1 (1 bit; 04 R129). Reset 0. -/
  halt1 : Bool := false
  /-- DEBUG_STAT.FAILS (2 bits, keeper; 04 R129). Reset 0. -/
  dbgFails : Nat := 0
  /-- DEBUG_STAT.LEVEL (2 bits; 04 R129). Reset 0. -/
  dbgLevel : Nat := 0
  /-- The unlock challenge in force (level, sequence, time; 04 R123). Reset none. -/
  challenge : Option Challenge := none
  /-- SEM0-SEM63 (64 registers of 32 bits; 04 R122). Reset 0x0064_0300. -/
  sems : Tbl Sem := []
  /-- SEM_ERR bits 2:0 TAP, PAIR1, PAIR0 (3 bits; 04 R122). Reset 0. -/
  semErr : List SemAgent := []
  /-- Watchdog of pair 0 (04 R118). Reset: see Watchdog. -/
  wd0 : Watchdog := {}
  /-- Watchdog of pair 1 (04 R118). Reset: see Watchdog. -/
  wd1 : Watchdog := {}
  /-- Word that pair 0's last read of the control window returned (32 bits; 04 R119, R122). Reset DESIGN CHOICE 0, log 4. -/
  rdata0 : Nat := 0
  /-- Word that pair 1's last read of the control window returned (32 bits; 04 R119, R122). Reset DESIGN CHOICE 0, log 4. -/
  rdata1 : Nat := 0
  /-- Cores 0-3 (4 cores; 04 R116). Reset: see Core. -/
  cores : List Core := List.replicate 4 {}
  /-- Control SRAM, 2 MiB of bytes (04 R109). Reset: every byte reads 0 (the boot ROM zeroes it, boot sequence, step 3). -/
  sram : Mem := []
  /-- Poisoned 64-bit words of control SRAM, by word address (04 R109). Reset none. -/
  sramPoison : List Nat := []
  /-- TEXT_SIZE of the loaded image (32 bits; 04 R103). Reset 0. -/
  textSize : Nat := 0
  /-- The staged image (05 R173). Reset none. -/
  staged : Option Staged := none
  /-- What the running firmware still has to commit (2 bits; 04 R106). Reset none. -/
  confirm : Confirm := .none
  /-- The mailboxes are open: FW_DOWN = 0 (1 bit; 05 R140). Reset 0. -/
  fwUp : Bool := false
  /-- Context whose mailbox pair 1 served last (8 bits; 05 R138). Reset DESIGN CHOICE 255, log 99: the first turn is context 0's. -/
  lastServed : Nat := 255
  /-- Requests accepted so far (05 R138). The model's own, reset 0. -/
  accepts : Nat := 0
  /-- The boot record and counters were lost to a torn scan: code 0x09 (1 bit; 04 R129). Reset 0. -/
  keepError : Bool := false
  deriving DecidableEq, Repr

/-! ### Mailboxes -/

/-- What a deferred request waits for (05 R144-R146). -/
inductive Await where
  /-- A binding generation (LOAD_BINDING replacing, LOAD_COEFF). -/
  | binding (handle : Nat)
  /-- The end of a binding. -/
  | retire (handle : Nat)
  /-- A guard window's older generations. -/
  | guard (ctx win : Nat)
  /-- The attachment or detachment of a stream. -/
  | attach (stream : Nat)
  | detach (stream : Nat)
  /-- A sync group's first complete frame. -/
  | group (g : Nat)
  /-- Every buffer of the named pools is back (size class 255 is the whole set). -/
  | pools (handle cls : Nat)
  /-- A ring's idle state. -/
  | ring (ctx n : Nat)
  deriving DecidableEq, Repr

/-- A deferred request that answered PENDING and has no notice yet. -/
structure Owed where
  /-- COMMAND of the request (8 bits; 05 R130). Reset absent. -/
  cmd : Nat
  /-- SEQ of the request (16 bits; 05 R130). Reset absent. -/
  seq : Nat
  /-- What it waits for (05 R146). Reset absent. -/
  what : Await
  /-- The notice's VALUE (32 bits; 05 R144). Reset absent. -/
  value : Nat
  /-- Final status that firmware has still to queue, where the request ended while firmware was down (8 bits; 05 R144; log 69). Reset absent. -/
  ended : Option Nat := none
  deriving DecidableEq, Repr

/-- One queued notice (05 R130). -/
structure Notice where
  /-- MBOX_NOTICE_LO.COMMAND (8 bits; 05 R130). Reset absent. -/
  cmd : Nat
  /-- MBOX_NOTICE_LO.STATUS (8 bits; 05 R130). Reset absent. -/
  status : Nat
  /-- MBOX_NOTICE_LO.SEQ (16 bits; 05 R130). Reset absent. -/
  seq : Nat
  /-- VALUE (32 bits; 05 R144). Reset absent. -/
  value : Nat
  deriving DecidableEq, Repr

/-- One mailbox: 0-255 on the context pages, 256 the management mailbox (05 R130). -/
structure Mbox where
  /-- MBOX_REQ (64 bytes; 05 R130). Reset 0. -/
  req : List Byte := List.replicate 64 0
  /-- Firmware's copy of the submitted request (64 bytes; 05 R136). Reset 0. -/
  buf : List Byte := List.replicate 64 0
  /-- MBOX_RSP (64 bytes; 05 R130). Reset 0. -/
  rsp : List Byte := List.replicate 64 0
  /-- MBOX_STAT.BUSY (1 bit; 05 R130). Reset 0. -/
  busy : Bool := false
  /-- MBOX_STAT.RESP_VALID (1 bit; 05 R130). Reset 0. -/
  respValid : Bool := false
  /-- Firmware has accepted the request and not answered it (1 bit; 05 R140). Reset 0. -/
  accepted : Bool := false
  /-- MBOX_EVT.RESTART (1 bit; 05 R130). Reset 0. -/
  evtRestart : Bool := false
  /-- MBOX_EVT.OVERRUN (1 bit; 05 R130). Reset 0. -/
  evtOverrun : Bool := false
  /-- MBOX_EVT.NOTICE (1 bit; 05 R130). Reset 0. -/
  evtNotice : Bool := false
  /-- MBOX_EVT.RESP (1 bit; 05 R130). Reset 0. -/
  evtResp : Bool := false
  /-- MBOX_EVT_EN bits 3:0 (4 bits; 05 R130). Reset 0. -/
  evtEn : BitVec 4 := 0
  /-- The notice queue, oldest first; its length is MBOX_STAT.NOTICES (0-8 notices; 05 R131). Reset empty. -/
  notices : List Notice := []
  /-- MBOX_NOTICE_HI (32 bits; 05 R130). Reset 0. -/
  noticeHi : Nat := 0
  /-- Deferred requests awaiting their notice; its length is MBOX_STAT.PENDING (0-8; 05 R144). Reset empty. -/
  owed : List Owed := []
  /-- Tails of the target context's rings at the GO write, for DRAIN: ring key (4c + n) and tail count (05 R148). Reset empty. -/
  drain : List (Nat × Nat) := []
  /-- Place of the accepted request in the order in which firmware accepts requests (05 R138). The model's own, reset 0. -/
  order : Nat := 0
  /-- Checkpoint: status of a request whose effect was committed while firmware could not answer (8 bits; 04 R114). Reset none. -/
  committed : Option Nat := none
  deriving DecidableEq, Repr

/-! ### Contexts and rings -/

/-- The states of a context (06 R175). -/
inductive CtxState where
  | closed | opened | closing
  deriving DecidableEq, Repr

/-- One guard window's generation (06 R181, 05 R164). -/
structure Guard where
  /-- Read permission, PERM bit 0 (1 bit; 05 R162). Reset 0. -/
  rd : Bool := false
  /-- Write permission, PERM bit 1 (1 bit; 05 R162). Reset 0. -/
  wr : Bool := false
  /-- BASE (64 bits; 05 R162). Reset 0. -/
  base : Nat := 0
  /-- LIMIT, last byte inclusive (64 bits; 05 R162). Reset 0. -/
  limit : Nat := 0
  /-- Generation of the window (32 bits; 05 R145). Reset 0. -/
  gen : Nat := 0
  deriving DecidableEq, Repr

/-- A draw key of a key slot (05 R162, R165). -/
structure DrawKey where
  /-- KEY_ID (64 bits; 05 R162). Reset absent. -/
  id : Nat
  /-- The 128-bit key (128 bits; 05 R162). Reset absent. -/
  key : Nat
  /-- Time at which the key was set: entries take it from their doorbell on (64 bits; 05 R165). Reset absent. -/
  serial : Nat
  deriving DecidableEq, Repr

/-- One key slot: the keys it has held that posted work may still use, newest first (12 R408). -/
structure KeySlot where
  /-- The slot's present key (192 bits; 05 R162). Reset none. -/
  cur : Option DrawKey := none
  /-- Earlier keys, newest first, each with the ring tails at the time it was replaced (12 R408). Reset empty. -/
  old : List (Option DrawKey × List (Nat × Nat)) := []
  deriving DecidableEq, Repr

/-- One context (06 R175-R184). -/
structure Ctx where
  /-- The context's state; CTX_STAT.OPEN is its being open or closing (1 bit; 06 R178). Reset CLOSED. -/
  st : CtxState := .closed
  /-- QSTORE_KIB, the partition per quire (32 bits; 05 R151). Reset 0. -/
  qstoreKib : Nat := 0
  /-- CTX_EVT.CPL (4 bits; 06 R178). Reset 0. -/
  evtCpl : BitVec 4 := 0
  /-- CTX_EVT.RING_ERR (4 bits; 06 R178). Reset 0. -/
  evtErr : BitVec 4 := 0
  /-- CTX_EVT.GUARD (1 bit; 06 R178). Reset 0. -/
  evtGuard : Bool := false
  /-- CTX_EVT_EN.CPL (4 bits; 06 R178). Reset 0. -/
  enCpl : BitVec 4 := 0
  /-- CTX_EVT_EN.RING_ERR (4 bits; 06 R178). Reset 0. -/
  enErr : BitVec 4 := 0
  /-- CTX_EVT_EN.GUARD (1 bit; 06 R178). Reset 0. -/
  enGuard : Bool := false
  /-- GUARD_FAULT address of the first refused line (48 bits; 06 R178). Reset 0. -/
  gfAddr : Nat := 0
  /-- GUARD_FAULT_HI.WRITE (1 bit; 06 R178). Reset 0. -/
  gfWrite : Bool := false
  /-- The 16 guard windows in force (06 R181). Reset: disabled, generation 0. -/
  guards : List Guard := List.replicate 16 {}
  /-- The 16 draw key slots (12 R408). Reset empty. -/
  keys : List KeySlot := List.replicate 16 {}
  /-- QUERY_STATS group 0: entries completed (64 bits; 05 R171). Reset 0. -/
  nDone : Nat := 0
  /-- QUERY_STATS group 0: entries completed DEADLINE_MISS (64 bits; 05 R171). Reset 0. -/
  nMiss : Nat := 0
  /-- QUERY_STATS group 0: guard refusals (64 bits; 05 R171). Reset 0. -/
  nGuard : Nat := 0
  /-- QUERY_STATS group 0: entries completed STOCK_EMPTY (64 bits; 05 R171). Reset 0. -/
  nEmpty : Nat := 0
  /-- QUERY_STATS group 0: energy in uJ (64 bits; 05 R171). Reset 0. -/
  energyUj : Nat := 0
  /-- QUERY_STATS group 0: bytes written (64 bits; 05 R171). Reset 0. -/
  bytes : Nat := 0
  /-- Energy cap in mW; none is no cap (32 bits; 05 R168). Reset none. -/
  capMw : Option Nat := none
  /-- An energy cap that takes effect at the next press-period start (32 bits; 05 R168). Reset none. -/
  capNext : Option (Option Nat) := none
  /-- Shelf quota in bytes; none is no quota (64 bits; 05 R169). Reset none. -/
  quota : Option Nat := none
  /-- The context's own close left its response reachable until this time base (64 bits; 05 R152). Reset none. -/
  closeHold : Option Nat := none
  /-- The mailbox whose CLOSE_CONTEXT is answered once the context is CLOSED (9 bits; 05 R152, 06 R175). Reset none. -/
  closeBox : Option Nat := none
  /-- The ring registers' last values, eight words a ring, which they read while the context is CLOSING (32 x 32 bits; 06 R175).
  Reset empty. -/
  ringWords : List Nat := []
  deriving DecidableEq, Repr

/-- RINGn_STAT.STATE (06 R185). -/
inductive RState where
  | none | run | paused | aborting | stopped | draining
  deriving DecidableEq, Repr

/-- Where a fetched entry stands. -/
inductive EPhase where
  /-- A chain member that waits for the rest of its chain (R194). -/
  | gathering
  /-- Checked; may start (R198). -/
  | ready
  /-- Started. -/
  | running
  /-- Its outcome stands; its completion is to be written (R206). -/
  | ended
  /-- Its completion write is outstanding. -/
  | writing
  deriving DecidableEq, Repr

/-- A fetched ring entry, with the snapshots it took (06 R183, R192, R203). -/
structure Entry where
  /-- Count of the entry (17 bits as the registers show it; 06 R186). Reset absent. -/
  count : Nat := 0
  /-- The 64 bytes the single read returned (64 bytes; 06 R190). Reset absent. -/
  bytes : List Byte := []
  /-- The fetch returned an error or poison (1 bit; 06 R191). Reset absent. -/
  badFetch : Bool := false
  /-- SAMPLE_SEQ (64 bits; 06 R203). Reset absent. -/
  seq : Nat := 0
  /-- Order in which the HEAD counts advanced over all rings (64 bits; 06 R200). Reset absent. -/
  order : Nat := 0
  /-- Phase of the entry (3 bits; 06 R199). Reset absent. -/
  phase : EPhase := .gathering
  /-- Count of its chain's FIRST member (17 bits; 06 R194). Reset absent. -/
  first : Nat := 0
  /-- Members of its chain (7 bits; 06 R194). Reset absent. -/
  chainLen : Nat := 1
  /-- The 16 guard windows as fetched (06 R183). Reset absent. -/
  guards : List Guard := []
  /-- The draw key its KEY_SLOT held for it (192 bits; 12 R408). Reset absent. -/
  key : Option DrawKey := none
  /-- Generation of its binding as fetched (32 bits; 01 R26). Reset absent. -/
  gen : Nat := 0
  /-- T_ACCEPT (64 bits; 06 R203). Reset absent. -/
  tAccept : Nat := 0
  /-- T_COMPLETE (64 bits; 06 R203). Reset absent. -/
  tDone : Nat := 0
  /-- STATUS of the completion (8 bits; 06 R203). Reset absent. -/
  status : Nat := 0
  /-- DETAIL of the completion (16 bits; 06 R203). Reset absent. -/
  detail : Nat := 0
  /-- FLAGS.LATE (1 bit; 06 R203). Reset absent. -/
  late : Bool := false
  /-- FLAGS.DEGRADED (1 bit; 06 R203). Reset absent. -/
  degraded : Bool := false
  /-- FLAGS.INVALID_VIEWS (1 bit; 06 R203). Reset absent. -/
  invalidViews : Bool := false
  /-- OUT_BUFFER (64 bits; 06 R203). Reset absent. -/
  buffer : Nat := 0
  /-- BYTES_WRITTEN (32 bits; 06 R203). Reset absent. -/
  bytesOut : Nat := 0
  /-- FOLIOS (32 bits; 06 R203). Reset absent. -/
  folios : Nat := 0
  /-- COLOPHON_ADDR (64 bits; 06 R203). Reset absent. -/
  colophon : Nat := 0
  /-- ENERGY_UJ (32 bits; 06 R203). Reset absent. -/
  energy : Nat := 0
  /-- The gathering that runs it (work number; 06 R195). Reset absent. -/
  work : Option Nat := none
  /-- The press has started it (1 bit; 06 R201). Reset absent. -/
  started : Bool := false
  /-- Deadline of its chain as time base; 0 is none (64 bits; 06 R201). Reset absent. -/
  deadline : Nat := 0
  /-- Its commit word has been issued (1 bit; 06 R210). Reset absent. -/
  committed : Bool := false
  /-- Class it runs under (2 bits; 07 R216). Reset absent. -/
  cls : Nat := 2
  /-- A receipt that a gathering has taken (1 bit; 06 R208). Reset absent. -/
  taken : Bool := false
  deriving DecidableEq, Repr

/-- A fetched line whose entry has not been taken yet. -/
structure Fetched where
  /-- Count of the entry the line holds (17 bits; 06 R188). Reset absent. -/
  count : Nat
  /-- The 64 bytes (64 bytes; 06 R190). Reset absent. -/
  bytes : List Byte
  /-- The beat carried an error response or poison (1 bit; 06 R191). Reset absent. -/
  bad : Bool
  deriving DecidableEq, Repr

/-- A LIVE completion that waits for a receipt (06 R209). -/
structure Receipt where
  /-- The completion's fields; count, bytes and work are taken from the receipt it is written into (06 R209). Reset absent. -/
  entry : Entry
  /-- EVENT and USER_TAG come from the NOP; this is the stream (16 bits; 06 R208). Reset absent. -/
  stream : Nat
  deriving DecidableEq, Repr

/-- One work ring (06 R185-R214). -/
structure Ring where
  /-- RINGn_STAT.STATE (3 bits; 06 R185). Reset NONE. -/
  st : RState := .none
  /-- RINGn_BASE (48 bits; 06 R185). Reset 0. -/
  base : Nat := 0
  /-- RINGn_SIZE.LOG2_ENTRIES (5 bits; 06 R185). Reset 0. -/
  log2 : Nat := 0
  /-- TAIL, counted without the reduction mod 2N that the register shows (17 bits; 06 R186). Reset 0. -/
  tail : Nat := 0
  /-- HEAD, as TAIL (17 bits; 06 R186). Reset 0. -/
  head : Nat := 0
  /-- DONE, as TAIL (17 bits; 06 R186). Reset 0. -/
  done : Nat := 0
  /-- Count up to which fetch reads have been issued (17 bits; 06 R188). Reset 0. -/
  issued : Nat := 0
  /-- RINGn_CTL.ENABLE (1 bit; 06 R185). Reset 0. -/
  enable : Bool := false
  /-- RINGn_STAT.ERR_STATUS (8 bits; 06 R185). Reset 0. -/
  errStatus : Nat := 0
  /-- RINGn_STAT.RECEIPT_LOST (1 bit; 06 R185). Reset 0. -/
  receiptLost : Bool := false
  /-- RINGn_STAT.CTL_ERR (1 bit; 06 R185). Reset 0. -/
  ctlErr : Bool := false
  /-- RINGn_STAT.CPL_ERR (1 bit; 06 R185). Reset 0. -/
  cplErr : Bool := false
  /-- RINGn_STAT.FETCH_ERR (1 bit; 06 R185). Reset 0. -/
  fetchErr : Bool := false
  /-- RINGn_STAT.DB_ERR (1 bit; 06 R185). Reset 0. -/
  dbErr : Bool := false
  /-- RINGn_STAT.STREAM (1 bit; 06 R185). Reset 0. -/
  stream : Bool := false
  /-- Entries fetched since RING_CREATE (64 bits; 06 R203). Reset 0. -/
  fetched : Nat := 0
  /-- Lines that have arrived and are not taken (06 R188). Reset empty. -/
  arrived : List Fetched := []
  /-- Fetched entries that have not completed, by count (06 R188). Reset empty. -/
  entries : List Entry := []
  /-- The slot boundary at which an abort completes the fetched entries has passed (1 bit; 06 R210). Reset 0. -/
  abortDue : Bool := false
  /-- RINGn_CTL.ABORT: an abort is under way (1 bit; 06 R210). Reset 0. -/
  aborting : Bool := false
  /-- RINGn_CTL.RESET: a register reset waits for running entries (1 bit; 06 R211). Reset 0. -/
  ctlReset : Bool := false
  /-- The RING_RESET mode in progress (2 bits; 06 R212). Reset none. -/
  reset : Option Nat := none
  /-- LIVE completions that wait for a receipt, oldest first (0-16; 06 R209). Reset empty. -/
  backlog : List Receipt := []
  /-- Counts covered by the outstanding completion write (0-4; 06 R206). Reset 0. -/
  cplLines : Nat := 0
  /-- The last entry that could have begun a chain came with a fetch error: the FIRST = 0 entries after it belong to its chain (1 bit;
  06 R191). Reset 0. -/
  broken : Bool := false
  deriving DecidableEq, Repr

/-! ### Bindings -/

/-- One entry-point record of a binding image (07 R216). -/
structure EntryPt where
  /-- ENTRY_POINT (16 bits; 07 R216). Reset absent. -/
  num : Nat
  /-- BE_CLASS (8 bits; 07 R216). Reset absent. -/
  beClass : Nat
  /-- EP_FLAGS bit 0, STREAM (1 bit; 07 R216). Reset absent. -/
  stream : Bool
  /-- EP_FLAGS bit 1, DRAWS (1 bit; 07 R216). Reset absent. -/
  draws : Bool
  /-- EP_FLAGS bit 2, SHELF (1 bit; 07 R216). Reset absent. -/
  shelf : Bool
  /-- FIRST_STAGE (16 bits; 07 R216). Reset absent. -/
  firstStage : Nat
  /-- STAGE_RUN (16 bits; 07 R216). Reset absent. -/
  stageRun : Nat
  /-- INPUT0_KIND (8 bits; 07 R217). Reset absent. -/
  kind0 : Nat
  /-- INPUT1_KIND (8 bits; 07 R217). Reset absent. -/
  kind1 : Nat
  /-- ALIGN_LOG2 (8 bits; 07 R216). Reset absent. -/
  alignLog2 : Nat
  /-- VIEWS (8 bits; 07 R216). Reset absent. -/
  views : Nat
  /-- PARAM_KIND (8 bits; 07 R217). Reset absent. -/
  paramKind : Nat
  /-- EXT_KIND (8 bits; 07 R217). Reset absent. -/
  extKind : Nat
  /-- OUT_BYTES (32 bits; 07 R216). Reset absent. -/
  outBytes : Nat
  /-- PARAM_MASK (64 bits; 07 R216). Reset absent. -/
  paramMask : Nat
  /-- EXT_MASK (64 bits; 07 R216). Reset absent. -/
  extMask : Nat
  /-- ENERGY_NJ at each operating point (3 of 32 bits; 07 R216). Reset absent. -/
  energyNj : List Nat
  deriving DecidableEq, Repr

/-- One stage record (07 R218). -/
structure StageRec where
  /-- OPB_INDEX (16 bits; 07 R218). Reset absent. -/
  opb : Nat
  /-- UNIT (8 bits; 07 R218). Reset absent. -/
  unit : Nat
  /-- BARRIER (8 bits; 07 R218). Reset absent. -/
  barrier : Bool
  /-- LEAVES (16 bits; 07 R218). Reset absent. -/
  leaves : Nat
  /-- UNITS (16 bits; 07 R218). Reset absent. -/
  units : Nat
  /-- CODE_START (32 bits; 07 R218). Reset absent. -/
  codeStart : Nat
  /-- CODE_LEN (32 bits; 07 R218). Reset absent. -/
  codeLen : Nat
  /-- COEFF_FIRST (16 bits; 07 R218). Reset absent. -/
  coeffFirst : Nat
  /-- COEFF_RUN (16 bits; 07 R218). Reset absent. -/
  coeffRun : Nat
  deriving DecidableEq, Repr

/-- One operator parameter block (07 R219). -/
structure Opb where
  /-- OPERATOR (16 bits; 07 R219). Reset absent. -/
  op : Nat
  /-- DRAW_BASE (32 bits; 07 R219). Reset absent. -/
  drawBase : Nat
  /-- The whole block, header included (SIZE bytes; 07 R219). Reset absent. -/
  bytes : List Byte
  deriving DecidableEq, Repr

/-- One coefficient-table record (07 R220). -/
structure CoeffRec where
  /-- SET_INDEX (16 bits; 07 R220). Reset absent. -/
  index : Nat
  /-- KIND (8 bits; 07 R220). Reset absent. -/
  kind : Nat
  /-- RESIDENT (1 bit; 07 R220). Reset absent. -/
  resident : Bool
  /-- SIZE (32 bits; 07 R220). Reset absent. -/
  size : Nat
  /-- Address the present data came from (64 bits; 13 R429). Reset absent. -/
  addr : Nat
  /-- CRC32C of the present data (32 bits; 07 R220). Reset absent. -/
  crc : Nat
  /-- The set's data; none while the set is absent (SIZE bytes; 07 R220). Reset absent. -/
  data : Option (List Byte)
  deriving DecidableEq, Repr

/-- One slot-table record (07 R221) with its energy (R549). -/
structure SlotRec where
  /-- FIRST_SLOT (32 bits; 07 R221). Reset absent. -/
  first : Nat
  /-- RUN (32 bits; 07 R221). Reset absent. -/
  run : Nat
  /-- STAGE (16 bits; 07 R221). Reset absent. -/
  stage : Nat
  /-- REL_QUIRE (8 bits; 07 R221). Reset absent. -/
  relQuire : Nat
  /-- SLOT_FLAGS.REPLAY (1 bit; 07 R221). Reset absent. -/
  replay : Bool
  /-- LEAF_MASK (32 bits; 07 R221). Reset absent. -/
  leafMask : Nat
  /-- CYCLES (16 bits; 07 R221). Reset absent. -/
  cycles : Nat
  /-- ENERGY_NJ of the record (32 bits; 07 R549). Reset absent. -/
  energyNj : Nat
  deriving DecidableEq, Repr

/-- A validated binding image (07 R215-R221). -/
structure Image where
  /-- CLASSES (16 bits; 07 R215). Reset absent. -/
  classes : Nat
  /-- BINDING_ID (32 bits; 07 R215). Reset absent. -/
  bindingId : Nat
  /-- PERIOD_SLOTS (32 bits; 07 R215). Reset absent. -/
  periodSlots : Nat
  /-- QUIRES_PER_REPLICA (8 bits; 07 R215). Reset absent. -/
  quires : Nat
  /-- REPLAY_LEAVES (8 bits; 07 R215). Reset absent. -/
  replayLeaves : Nat
  /-- QSTORE_KIB (32 bits; 07 R215). Reset absent. -/
  qstoreKib : Nat
  /-- COEFF_KIB (32 bits; 07 R215). Reset absent. -/
  coeffKib : Nat
  /-- RD_BYTES_SLOT (32 bits; 07 R215). Reset absent. -/
  rdBytes : Nat
  /-- WR_BYTES_SLOT (32 bits; 07 R215). Reset absent. -/
  wrBytes : Nat
  /-- ABANDON_US (32 bits; 07 R215). Reset absent. -/
  abandonUs : Nat
  /-- CODE_HASH (384 bits; 07 R215). Reset absent. -/
  codeHash : Nat
  /-- Address and bytes of the microcode in the image, from which a quire receives it again (03 R77, 05 R154). Reset absent. -/
  code : Nat × Nat := (0, 0)
  /-- The entry-point table (07 R216). Reset absent. -/
  entries : List EntryPt
  /-- The stage list (07 R218). Reset absent. -/
  stages : List StageRec
  /-- The operator parameter blocks (07 R219). Reset absent. -/
  opbs : List Opb
  /-- The coefficient table (07 R220). Reset absent. -/
  coeffs : List CoeffRec
  /-- Slot tables for points 0, 1 and 2; empty where not supported (07 R221). Reset absent. -/
  slots : List (List SlotRec)
  /-- The guard snapshot of the generation, through which its sources are read again (13 R429). Reset absent. -/
  guards : List Guard := []
  deriving DecidableEq, Repr

/-- How far a binding's promise has come (07 R227, R230, 05 R157). -/
inductive BindState where
  /-- Loaded and not admitted. -/
  | loaded
  /-- ADMIT_BINDING has answered; the admission takes effect at a period start. -/
  | admitted
  /-- In the plan. -/
  | planned
  /-- RETIRE_BINDING has answered. -/
  | retiring
  deriving DecidableEq, Repr

/-- One loaded binding, keyed by its handle (05 R153-R157). -/
structure Binding where
  /-- Image and coefficient sets of each generation still in use (05 R145). Reset absent. -/
  gens : Tbl Image
  /-- Generation in force (32 bits; 05 R145). Reset absent. -/
  gen : Nat
  /-- Last generation number given (32 bits; 05 R145). Reset absent. -/
  lastGen : Nat
  /-- Generation in the pending slot (32 bits; 05 R145). Reset absent. -/
  pending : Option Nat
  /-- The slot table in force belongs to this generation (32 bits; 07 R231). Reset absent. -/
  tableGen : Nat
  /-- How far its promise has come (2 bits; 07 R230). Reset absent. -/
  st : BindState
  /-- Class admitted, 0 LIVE or 1 PROMPT (2 bits; 07 R227). Reset absent. -/
  cls : Option Nat
  /-- PRECEDENCE (4 bits; 05 R153). Reset absent. -/
  precedence : Nat
  /-- Operating point admitted (2 bits; 05 R153). Reset absent. -/
  opp : Nat
  /-- Physical quires of replica A, or of a PROMPT copy, by relative quire (6 bits each; 07 R228). Reset absent. -/
  quiresA : List Nat
  /-- Physical quires of replica B by relative quire (6 bits each; 07 R228). Reset absent. -/
  quiresB : List Nat
  /-- Spare quire of its replay records (6 bits; 07 R228). Reset absent. -/
  spare : Option Nat
  /-- Retired, with its last press period over: it leaves once the gatherings already started are committed (05 R157). Reset absent. -/
  leaving : Bool := false
  deriving DecidableEq, Repr

/-! ### Press -/

/-- Quire power states (03 R76). -/
inductive QState where
  | gated | retain | on
  deriving DecidableEq, Repr

/-- One quire as press and power see it. -/
structure Quire where
  /-- QPWR field (2 bits; 03 R97). Reset GATED. -/
  st : QState := .gated
  /-- Slots since a leaf of it was booked, running or held (9 bits; 07 R237). Reset 0. -/
  idle : Nat := 0
  /-- The quire is under self-test (1 bit; 14 R474). Reset 0. -/
  testing : Bool := false
  /-- Microcode that the leaf instruction stores hold: binding and generation (03 R76, R77). Reset none. -/
  micro : List (Nat × Nat) := []
  /-- The store is lost and not zeroed again yet (1 bit; 03 R76, R77). Reset 1: the quire is GATED. -/
  stale : Bool := true
  /-- Corrected faults of the quire since GX_PORST_N, each with its time (14 R465). Reset empty. -/
  marks : List Nat := []
  deriving DecidableEq, Repr

/-- PRESS_STAT.SYNC (07 R252). -/
inductive SyncState where
  | solo | lead | locked | unlocked
  deriving DecidableEq, Repr

/-- The press and the governor (07 R223-R252). -/
structure Press where
  /-- PRESS_CTL.SPARES (4 bits; 07 R252). Reset 4. -/
  spares : Nat := 4
  /-- Released areas of quire stores that are being zeroed: quire, KiB and the time at which the zeroing ends (01 R23, 13 R425). Reset
  none. -/
  zeroing : List (Nat × Nat × Nat) := []
  /-- The spare quires now (0-4 of 6 bits; 07 R229). Reset 31, 63, 30, 62. -/
  spareSet : List Nat := [31, 63, 30, 62]
  /-- Firmware has opened the mailboxes since the main domain was reset, so that PRESS_STAT.SPARES_FREE shows the spares (1 bit; 07 R252).
  Reset 0, with which SPARES_FREE reads 0. -/
  sparesShown : Bool := false
  /-- PRESS_STAT.FW_MISSED (2 bits; 07 R252). Reset 0. -/
  fwMissed : Nat := 0
  /-- PRESS_STAT.SYNC (2 bits; 07 R252). Reset 0 SOLO. -/
  sync : SyncState := .solo
  /-- PRESS_STAT.RUN (1 bit; 07 R252). Reset 0. -/
  running : Bool := false
  /-- PRESS_PERIOD, PERIOD_SLOTS in force (18 bits; 07 R252). Reset 500. -/
  period : Nat := 500
  /-- PRESS_PERIOD_CNT (32 bits; 07 R252). Reset 0. -/
  periodCnt : Nat := 0
  /-- SHED_STAT.LEVEL (3 bits; 07 R252). Reset 0. -/
  level : Nat := 0
  /-- The (binding, view) pairs shed, last shed first; SHED_STAT.VIEWS_SHED counts them (07 R552). Reset empty. -/
  shedViews : List (Nat × Nat) := []
  /-- SHED_STAT.BANDWIDTH (1 bit; 07 R252). Reset 0. -/
  trigBandwidth : Bool := false
  /-- SHED_STAT.CAPACITY (1 bit; 07 R252). Reset 0. -/
  trigCapacity : Bool := false
  /-- SHED_STAT.THERMAL (1 bit; 07 R252). Reset 0. -/
  trigThermal : Bool := false
  /-- Steps that the thermal trigger demands (12 bits; 07 R242). Reset 0. -/
  thermalSteps : Nat := 0
  /-- Steps that the capacity trigger demands (12 bits; 07 R242). Reset 0. -/
  capacitySteps : Nat := 0
  /-- Steps that the bandwidth trigger demands (12 bits; 07 R242). Reset 0. -/
  bandwidthSteps : Nat := 0
  /-- A LIVE write response of this period was late (1 bit; 07 R242). Reset 0. -/
  lateWrite : Bool := false
  /-- Consecutive periods without a late LIVE write response (2 bits; 07 R242). Reset 0. -/
  quietPeriods : Nat := 0
  /-- PRESS_EVT (6 bits; 07 R252). Reset 0. -/
  evt : BitVec 6 := 0
  /-- PRESS_EVT_EN (6 bits; 07 R252). Reset 0. -/
  evtEn : BitVec 6 := 0
  /-- The SET_ENERGY_BUDGET value for the GX, lim_uj (32 bits; 07 R239). Reset 38,000. -/
  limUj : Nat := 38000
  /-- A value of lim_uj that takes effect at the next period start (32 bits; 05 R168). Reset none. -/
  limNext : Option Nat := none
  /-- Charges of the last 500 slots: slot, context, nJ (07 R239). Reset empty. -/
  charges : List (Nat × Nat × Nat) := []
  /-- Round-robin positions rr[1..3] (3 of 8 bits; 07 R239). Reset 0. -/
  rr : List Nat := [0, 0, 0]
  /-- A best-effort entry was ready in this period (1 bit; 07 R240). Reset 0. -/
  beReady : Bool := false
  /-- LATE_CNT (32 bits; 07 R252). Reset 0. -/
  lateCnt : Nat := 0
  /-- MISS_CNT (32 bits; 07 R252). Reset 0. -/
  missCnt : Nat := 0
  /-- STRIP_LATE_CNT (32 bits; 07 R252). Reset 0. -/
  stripLateCnt : Nat := 0
  /-- SYNC_OFFSET, the last e in ns (s32; 07 R252). Reset 0. -/
  syncOffset : Int := 0
  /-- LOAD_ERR.CTX (8 bits; 07 R252). Reset 0. -/
  loadErrCtx : Nat := 0
  /-- LOAD_ERR.CHECK (8 bits; 07 R252). Reset 0. -/
  loadErrCheck : Nat := 0
  /-- PHASE (11 bits; 07 R223). Reset 0. -/
  phase : Nat := 0
  /-- A PHASE that takes effect from the next period start (11 bits; 07 R250). Reset none. -/
  phaseNext : Option Nat := none
  /-- Consecutive PLAN_SYNC edges within 1 us, up to 3 (2 bits; 07 R250). Reset 0. -/
  syncGood : Nat := 0
  /-- Consecutive PLAN_SYNC edges beyond 1 us, up to 2 (2 bits; 07 R251). Reset 0. -/
  syncBad : Nat := 0
  /-- Time of the last accepted PLAN_SYNC edge (64 bits; 07 R251). Reset 0. -/
  lastEdge : Nat := 0
  /-- Time of the last slot boundary taken (64 bits; 07 R223). Reset none. -/
  slotAt : Option Nat := none
  /-- Time of the last press-period start (64 bits; 07 R223). Reset 0. -/
  periodStart : Nat := 0
  /-- The 64 quires (64 of 2 bits; 03 R97). Reset GATED. -/
  quires : List Quire := List.replicate 64 {}
  deriving DecidableEq, Repr

/-! ### Sensor intake -/

/-- SNS_STAT.STATE (08 R253). -/
inductive PortState where
  | off | qualifying | up | lost
  deriving DecidableEq, Repr

/-- The class of a byte-clock window (08 R273). -/
inductive PclkClass where
  | zero | inside | outside
  deriving DecidableEq, Repr

/-- One sensor port (08 R253). -/
structure Port where
  /-- SNS_CFG.FN_WRAP (16 bits; 08 R253). Reset 0xFFFF. -/
  fnWrap : Nat := 65535
  /-- SNS_CFG.PAD_MODE (1 bit; 08 R253). Reset 0. -/
  padMode : Bool := false
  /-- SNS_CFG.LANE_MBPS (13 bits; 08 R253). Reset 0. -/
  laneMbps : Nat := 0
  /-- SNS_PAD.PAD_C (16 bits; 08 R253). Reset 0. -/
  padC : Nat := 0
  /-- SNS_PAD.PAD_Y (16 bits; 08 R253). Reset 0. -/
  padY : Nat := 0
  /-- SNS_EXPO (32 bits; 08 R253). Reset 0. -/
  expo : Nat := 0
  /-- SNS_TIMEOUT (16 bits; 08 R253). Reset 0xC8. -/
  timeoutUs : Nat := 200
  /-- SNS_STAT.STATE (3 bits; 08 R253). Reset 0 OFF. -/
  st : PortState := .off
  /-- SNS_STAT.QUAL_LEFT (2 bits; 08 R253). Reset 0. -/
  qualLeft : Nat := 0
  /-- SNS_EVT (14 bits; 08 R253). Reset 0. -/
  evt : BitVec 14 := 0
  /-- SNS_EVT_EN (14 bits; 08 R253). Reset 0. -/
  evtEn : BitVec 14 := 0
  /-- SNS_PCLK_CNT (32 bits; 08 R253). Reset 0. -/
  pclkCnt : Nat := 0
  /-- SNS_ECC_CORR_CNT (32 bits; 08 R253). Reset 0. -/
  eccCorr : Nat := 0
  /-- SNS_ECC_ERR_CNT (32 bits; 08 R253). Reset 0. -/
  eccErr : Nat := 0
  /-- SNS_CRC_ERR_CNT (32 bits; 08 R253). Reset 0. -/
  crcErr : Nat := 0
  /-- SNS_DROP_CNT (32 bits; 08 R253). Reset 0. -/
  drops : Nat := 0
  /-- Last Frame Start stamp; SNS_FS_LO shows bits 31:0 (64 bits; 08 R253). Reset 0. -/
  fsStamp : Nat := 0
  /-- SNS_FS_HI as latched (32 bits; 08 R253). Reset 0. -/
  fsHiLatch : Nat := 0
  /-- SNS_MIRROR_DROP_CNT (32 bits; 08 R253). Reset 0. -/
  mirrorDrops : Nat := 0
  /-- SNSp_RX_EN (1 bit; 08 R275). Reset 0. -/
  rxEn : Bool := false
  /-- SNSp_LANE_EN (4 bits; 08 R275). Reset 0. -/
  laneEn : BitVec 4 := 0
  /-- Class of the last window (2 bits; 08 R274). Reset `inside`, no OUT before. -/
  lastWin : PclkClass := .inside
  /-- Consecutive IN windows towards UP or out of LOST, up to 2 (2 bits; 08 R274). Reset 0. -/
  goodWins : Nat := 0
  deriving DecidableEq, Repr

/-- A frame that intake has opened (08 R257-R274). -/
structure Frame where
  /-- Frame number of its Frame Start (16 bits; 08 R259). Reset absent. -/
  fn : Nat
  /-- Sensor frame counter (64 bits; 08 R260). Reset absent. -/
  counter : Nat
  /-- Frame Start stamp (64 bits; 08 R270). Reset absent. -/
  fsStamp : Nat
  /-- The last line received, for PAD_MODE 1 (08 R262). Reset absent. -/
  lastLine : Option (List Byte) := none
  /-- The lines landed, in order, padded lines included (08 R266). Reset absent. -/
  lines : List (List Byte)
  /-- Lines received or counted (13 bits; 08 R258). Reset absent. -/
  got : Nat
  /-- Time of Frame Start or of the last long packet (64 bits; 08 R259). Reset absent. -/
  lastPkt : Nat
  /-- Line-marked mode (1 bit; 08 R258). Reset absent. -/
  marked : Bool
  /-- A Line Start awaits its long packet (1 bit; 08 R258). Reset absent. -/
  lineOpen : Bool
  /-- CORRUPT (1 bit; 08 R257). Reset absent. -/
  corrupt : Bool
  /-- OVERLONG (1 bit; 08 R257). Reset absent. -/
  overlong : Bool
  /-- TRUNCATED (1 bit; 08 R261). Reset absent. -/
  truncated : Bool
  /-- Defective strips (up to 128; 08 R263). Reset absent. -/
  badStrips : List Nat
  /-- Every strip from this one on is defective (7 bits; 08 R263). Reset absent. -/
  badFrom : Option Nat
  /-- Strips that received a line, with the time of the last one (08 R263). Reset absent. -/
  stripTimes : List (Nat × Nat)
  /-- Lines whose quire-store write failed: their bytes are known to be bad (02 R37, 08 R263). Reset absent. -/
  badLines : List Nat := []
  /-- Strips whose line buffer has been released (07 R233). Reset absent. -/
  released : List Nat := []
  /-- The strip that each presented folio depends on last: folio and strip (07 R233). Reset absent. -/
  owners : List (Nat × Nat) := []
  /-- The time of the latest write response among the folios of a strip (64 bits each; 07 R246). Reset absent. -/
  answers : List (Nat × Nat) := []
  /-- A byte-clock glitch, rate change or stop fell into it (1 bit; 08 R275). Reset absent. -/
  clockFault : Bool := false
  /-- Strips whose lines wait for a line buffer (08 R269). Reset absent. -/
  held : List Nat
  /-- Strips that are ready, with the time they became so (08 R267). Reset absent. -/
  ready : List (Nat × Nat)
  /-- PAD_MODE in force at Frame Start (1 bit; 08 R254). Reset absent. -/
  padMode : Bool
  /-- PAD_Y in force at Frame Start (16 bits; 08 R254). Reset absent. -/
  padY : Nat
  /-- PAD_C in force at Frame Start (16 bits; 08 R254). Reset absent. -/
  padC : Nat
  /-- SNS_EXPO in force at Frame Start (32 bits; 08 R254). Reset absent. -/
  expo : Nat
  /-- SNS_TIMEOUT in force at Frame Start, in us (16 bits; 08 R254). Reset absent. -/
  timeoutUs : Nat
  /-- Close time (64 bits; 08 R259). Reset absent. -/
  closed : Option Nat
  /-- Its defects are settled (1 bit; 08 R274). Reset absent. -/
  settled : Bool
  /-- The frame is only qualified: placeholders are delivered (1 bit; 08 R275). Reset absent. -/
  qualify : Bool
  deriving DecidableEq, Repr

/-- The encoder's rate state and private reference (09 R323). -/
structure EncState where
  /-- F (64 bits; 09 R323). Reset 0. -/
  f : Nat := 0
  /-- pb[I], bits of the last IDR unit (64 bits; 09 R323). Reset 0. -/
  pbI : Nat := 0
  /-- pb[P] (64 bits; 09 R323). Reset 0. -/
  pbP : Nat := 0
  /-- pq[I] (6 bits; 09 R323). Reset 0. -/
  pqI : Nat := 0
  /-- pq[P] (6 bits; 09 R323). Reset 0. -/
  pqP : Nat := 0
  /-- FRAME_INDEX of the next coded unit (32 bits; 09 R318). Reset 0. -/
  frameIndex : Nat := 0
  /-- The next coded unit is forced IDR (1 bit; 09 R329). Reset 0. -/
  forceIdr : Bool := false
  /-- The reference: the planes of the last coded unit's reconstruction (09 R318). Reset empty. -/
  ref : List (List Int) := []
  /-- The reference's units with their final vectors (09 R321). Reset empty. -/
  units : List CodedUnit := []
  deriving DecidableEq, Repr

/-- How far the attachment of a stream has come (05 R159, R160). -/
inductive StreamState where
  | attaching | attached | detaching | safe
  deriving DecidableEq, Repr

/-- One stream, keyed by STREAM_ID (05 R158). -/
structure Stream where
  /-- TARGET_CTX (8 bits; 05 R158). Reset absent. -/
  ctx : Nat
  /-- RING (2 bits; 05 R158). Reset absent. -/
  ring : Nat
  /-- PORT (4 bits; 05 R158). Reset absent. -/
  port : Nat
  /-- VC (4 bits; 05 R158). Reset absent. -/
  vc : Nat
  /-- DATA_TYPE (8 bits; 05 R158). Reset absent. -/
  dtype : Nat
  /-- LANES (3 bits; 05 R158). Reset absent. -/
  lanes : Nat
  /-- WIDTH (16 bits; 05 R158). Reset absent. -/
  width : Nat
  /-- HEIGHT (16 bits; 05 R158). Reset absent. -/
  height : Nat
  /-- BINDING_HANDLE (32 bits; 05 R158). Reset absent. -/
  binding : Nat
  /-- ENTRY_POINT (16 bits; 05 R158). Reset absent. -/
  entry : Nat
  /-- KEY_SLOT (4 bits; 05 R158). Reset absent. -/
  keySlot : Nat
  /-- OUT_POOL (32 bits; 05 R158). Reset absent. -/
  outPool : Nat
  /-- Draw position of the next sample (64 bits; 05 R158). Reset absent. -/
  drawPos : Nat
  /-- MIRROR_POOL (32 bits; 05 R158). Reset absent. -/
  mirrorPool : Nat
  /-- How far its attachment has come (2 bits; 05 R159). Reset absent. -/
  st : StreamState
  /-- DETACH_STREAM mode asked for (1 bit; 05 R158). Reset absent. -/
  detachMode : Option Nat := none
  /-- The binding's retirement detaches it (1 bit; 05 R157). Reset absent. -/
  retiring : Bool := false
  /-- Sensor frame counter (64 bits; 08 R260). Reset absent. -/
  counter : Nat := 0
  /-- Previous non-zero frame number (16 bits; 08 R260). Reset absent. -/
  prevFn : Option Nat := none
  /-- A Frame Start has been seen since attach (1 bit; 08 R260). Reset absent. -/
  started : Bool := false
  /-- Work number of the open frame (08 R259). Reset absent. -/
  cur : Option Nat := none
  /-- Work number of the open frame's mirror copy (08 R281). Reset absent. -/
  mirror : Option Nat := none
  /-- Next gathering sequence (32 bits; 14 R453). Reset absent. -/
  seq : Nat := 0
  /-- CRC-32C of the last colophon (32 bits; 14 R453). Reset absent. -/
  stitch : Nat := 0
  /-- Next gathering sequence of the mirror (32 bits; 14 R453). Reset absent. -/
  mirrorSeq : Nat := 0
  /-- CRC-32C of the mirror's last colophon (32 bits; 14 R453). Reset absent. -/
  mirrorStitch : Nat := 0
  /-- Encoder state of its encode channel (09 R323). Reset absent. -/
  enc : EncState := {}
  /-- QUERY_STATS group 1: frames (64 bits; 05 R171). Reset absent. -/
  nFrames : Nat := 0
  /-- QUERY_STATS group 1: TRUNCATED (64 bits; 05 R171). Reset absent. -/
  nTrunc : Nat := 0
  /-- QUERY_STATS group 1: OVERLONG (64 bits; 05 R171). Reset absent. -/
  nOver : Nat := 0
  /-- QUERY_STATS group 1: CORRUPT (64 bits; 05 R171). Reset absent. -/
  nCorrupt : Nat := 0
  /-- QUERY_STATS group 1: late gatherings (64 bits; 05 R171). Reset absent. -/
  nLate : Nat := 0
  /-- QUERY_STATS group 1: views delivered with VALID = 0 (64 bits; 05 R171). Reset absent. -/
  nInvalid : Nat := 0
  deriving DecidableEq, Repr

/-- One sync group, keyed by GROUP (05 R161, 08 R277-R280). -/
structure Group where
  /-- TARGET_CTX (8 bits; 05 R158). Reset absent. -/
  ctx : Nat
  /-- Members in list order (up to 12 of 16 bits; 05 R158). Reset absent. -/
  members : List Nat
  /-- WINDOW_US (16 bits; 05 R158). Reset absent. -/
  windowUs : Nat
  /-- The group is in force (1 bit; 05 R161). Reset absent. -/
  inForce : Bool := false
  /-- Members that have seen Frame Start since acceptance (05 R161). Reset absent. -/
  seen : List Nat := []
  /-- Number of the current group frame, 0 before the first (64 bits; 08 R277). Reset absent. -/
  frame : Nat := 0
  /-- t0 of the current group frame (64 bits; 08 R277). Reset absent. -/
  t0 : Nat := 0
  /-- Members that have joined the current group frame (08 R277). Reset absent. -/
  joined : List Nat := []
  /-- The window of the current group frame has expired (1 bit; 08 R278). Reset absent. -/
  expired : Bool := false
  deriving DecidableEq, Repr

/-! ### Packet intake -/

/-- A check record of a parser descriptor (08 R290). -/
structure PktCheck where
  /-- OFFSET (16 bits; 08 R290). Reset absent. -/
  offset : Nat
  /-- BYTES (8 bits; 08 R290). Reset absent. -/
  bytes : Nat
  /-- BIG_ENDIAN (8 bits; 08 R290). Reset absent. -/
  big : Bool
  /-- MASK (32 bits; 08 R290). Reset absent. -/
  mask : Nat
  /-- VALUE (32 bits; 08 R290). Reset absent. -/
  value : Nat
  deriving DecidableEq, Repr

/-- A field record of a parser descriptor (08 R291). -/
structure PktField where
  /-- OFFSET (16 bits; 08 R291). Reset absent. -/
  offset : Nat
  /-- SCOPE: true is the record (8 bits; 08 R291). Reset absent. -/
  perRecord : Bool
  /-- TYPE (8 bits; 08 R291). Reset absent. -/
  type : Nat
  /-- BIT_LO (8 bits; 08 R291). Reset absent. -/
  bitLo : Nat
  /-- BITS (8 bits; 08 R291). Reset absent. -/
  bits : Nat
  /-- DEST (8 bits; 08 R291). Reset absent. -/
  dest : Nat
  /-- SHR (8 bits; 08 R291). Reset absent. -/
  shr : Nat
  /-- MUL (s32; 08 R291). Reset absent. -/
  mul : Int
  /-- ADD (s32; 08 R291). Reset absent. -/
  add : Int
  deriving DecidableEq, Repr

/-- A parser descriptor as read when the ring was enabled (08 R290). -/
structure PktDesc where
  /-- MIN_LEN (16 bits; 08 R290). Reset absent. -/
  minLen : Nat
  /-- MAX_LEN (16 bits; 08 R290). Reset absent. -/
  maxLen : Nat
  /-- REC_OFF (16 bits; 08 R290). Reset absent. -/
  recOff : Nat
  /-- REC_STRIDE (16 bits; 08 R290). Reset absent. -/
  recStride : Nat
  /-- REC_COUNT (16 bits; 08 R290). Reset absent. -/
  recCount : Nat
  /-- TIME_SRC (8 bits; 08 R290). Reset absent. -/
  timeSrc : Nat
  /-- GEOM (8 bits; 08 R290). Reset absent. -/
  geom : Nat
  /-- AVTP_STREAM_ID (64 bits; 08 R290). Reset absent. -/
  streamId : Nat
  /-- The check records (0-4; 08 R290). Reset absent. -/
  checks : List PktCheck
  /-- The field records (1-32; 08 R291). Reset absent. -/
  fields : List PktField
  /-- Elevation angles (s16 each; 08 R290). Reset absent. -/
  elev : List Int
  deriving DecidableEq, Repr

/-- A point of a point block before deskew (08 R296). -/
structure Point where
  /-- X (s32; 08 R296). Reset absent. -/
  x : Int
  /-- Y (s32; 08 R296). Reset absent. -/
  y : Int
  /-- Z (s32; 08 R296). Reset absent. -/
  z : Int
  /-- t_p (64 bits; 08 R294). Reset absent. -/
  t : Int
  /-- RANGE (s32; 08 R296). Reset absent. -/
  range : Int
  /-- AZ (16 bits; 08 R296). Reset absent. -/
  az : Nat
  /-- EL (s16; 08 R296). Reset absent. -/
  el : Int
  /-- INTENSITY (16 bits; 08 R296). Reset absent. -/
  intensity : Nat
  /-- RING (8 bits; 08 R296). Reset absent. -/
  ring : Nat
  /-- RETURN (8 bits; 08 R296). Reset absent. -/
  ret : Nat
  /-- USER0 (s32; 08 R296). Reset absent. -/
  user0 : Int
  deriving DecidableEq, Repr

/-- An open or closing point block (08 R295). -/
structure Block where
  /-- Its stock buffer: pool key, buffer number, address (08 R295). Reset absent. -/
  buffer : Nat × Nat × Nat
  /-- The points, in arrival order (08 R296). Reset absent. -/
  points : List Point
  /-- PACKETS (32 bits; 08 R296). Reset absent. -/
  packets : Nat
  /-- BFLAGS (16 bits; 08 R296). Reset absent. -/
  flags : Nat
  /-- DROPPED_PACKETS (32 bits; 08 R296). Reset absent. -/
  dropped : Nat
  /-- TIME_QUALITY at close (2 bits; 08 R294). Reset absent. -/
  quality : Nat := 0
  /-- Reads of the motion record made for it (2 bits; 08 R298). Reset absent. -/
  reads : Nat := 0
  /-- Time of the last of these reads (64 bits; 08 R298). Reset absent. -/
  readAt : Nat := 0
  deriving DecidableEq, Repr

/-- A motion record (08 R298). -/
structure Motion where
  /-- GEN (32 bits; 08 R298). Reset absent. -/
  gen : Nat := 0
  /-- VX (s32; 08 R298). Reset absent. -/
  vx : Int := 0
  /-- VY (s32; 08 R298). Reset absent. -/
  vy : Int := 0
  /-- VZ (s32; 08 R298). Reset absent. -/
  vz : Int := 0
  /-- WZ (s32; 08 R298). Reset absent. -/
  wz : Int := 0
  deriving DecidableEq, Repr

/-- The record of a packet ring as read at enable (08 R285). -/
structure PktRec where
  /-- CTX (8 bits; 08 R285). Reset absent. -/
  ctx : Nat
  /-- FORMAT (8 bits; 08 R285). Reset absent. -/
  format : Nat
  /-- LOG2_SLOTS (8 bits; 08 R285). Reset absent. -/
  log2Slots : Nat
  /-- SLOT_LOG2 (8 bits; 08 R285). Reset absent. -/
  slotLog2 : Nat
  /-- BLOCK_POINTS (32 bits; 08 R285). Reset absent. -/
  blockPoints : Nat
  /-- RING_BASE (64 bits; 08 R285). Reset absent. -/
  ringBase : Nat
  /-- DESC_ADDR (64 bits; 08 R285). Reset absent. -/
  descAddr : Nat
  /-- MOTION_ADDR (64 bits; 08 R285). Reset absent. -/
  motionAddr : Nat
  /-- PUB_BASE (64 bits; 08 R285). Reset absent. -/
  pubBase : Nat
  /-- OUT_POOL (32 bits; 08 R285). Reset absent. -/
  outPool : Nat
  /-- PUB_LOG2 (8 bits; 08 R285). Reset absent. -/
  pubLog2 : Nat
  /-- DESKEW_REF (8 bits; 08 R285). Reset absent. -/
  deskewRef : Nat
  /-- CUT_AZ (16 bits; 08 R285). Reset absent. -/
  cutAz : Nat
  /-- RFLAGS bit 0, CUT enable (1 bit; 08 R285). Reset absent. -/
  cut : Bool
  /-- GAP_US (32 bits; 08 R285). Reset absent. -/
  gapUs : Nat
  /-- STATUS_ADDR (64 bits; 08 R285). Reset absent. -/
  statusAddr : Nat
  deriving DecidableEq, Repr

/-- One packet ring (08 R284-R300). -/
structure PktRing where
  /-- PKT_CTL.ENABLE[r] (1 bit; 08 R284). Reset 0. -/
  enable : Bool := false
  /-- PKT_STAT.RUN[r] (1 bit; 08 R284). Reset 0. -/
  run : Bool := false
  /-- The ring record and descriptor read at enable (08 R286). Reset none. -/
  setup : Option (PktRec × PktDesc) := none
  /-- Producer count accepted, counted without the reduction mod 2 x slots (17 bits; 08 R287). Reset 0. -/
  prod : Nat := 0
  /-- CONS, as the producer count (17 bits; 08 R287). Reset 0. -/
  cons : Nat := 0
  /-- Packets consumed since enable, the status word's CONS (32 bits; 08 R297). Reset 0. -/
  consumed : Nat := 0
  /-- Sequence number of the previous AVTPDU (8 bits; 08 R289). Reset none. -/
  prevSeq : Option Nat := none
  /-- Time at which the last packet arrived: its doorbell was accepted (64 bits; 08 R295). Reset 0. -/
  lastPkt : Nat := 0
  /-- The open block (08 R295). Reset none. -/
  block : Option Block := none
  /-- Closed blocks that await their motion record, in order (08 R298). Reset empty. -/
  closing : List Block := []

  /-- The last motion record that matched (08 R298). Reset none. -/
  motion : Option Motion := none
  /-- BLOCK_SEQ of the next block (64 bits; 08 R296). Reset 0. -/
  blockSeq : Nat := 0
  /-- Blocks published (32 bits; 08 R297). Reset 0. -/
  published : Nat := 0
  /-- Packets dropped since the previous block (32 bits; 08 R296). Reset 0. -/
  dropped : Nat := 0
  /-- The ring stops when its blocks are published (1 bit; 08 R286). Reset 0. -/
  stopping : Bool := false
  deriving DecidableEq, Repr

/-- Packet intake (08 R284). -/
structure PktIntake where
  /-- PKT_TABLE (48 bits; 08 R284). Reset 0. -/
  table : Nat := 0
  /-- PKT_EVT (8 bits; 08 R284). Reset 0. -/
  evt : BitVec 8 := 0
  /-- PKT_EVT_EN (8 bits; 08 R284). Reset 0. -/
  evtEn : BitVec 8 := 0
  /-- PKT_POINT_CNT (32 bits; 08 R284). Reset 0. -/
  points : Nat := 0
  /-- PKT_DROP_CNT (32 bits; 08 R284). Reset 0. -/
  drops : Nat := 0
  /-- PKT_BLOCK_CNT (32 bits; 08 R284). Reset 0. -/
  blocks : Nat := 0
  /-- PKT_ERR.CODE (8 bits; 08 R284). Reset 0. -/
  errCode : Nat := 0
  /-- PKT_ERR.RING (3 bits; 08 R284). Reset 0. -/
  errRing : Nat := 0
  /-- Ring that the round robin served last (3 bits; 08 R300). Reset 0. -/
  rr : Nat := 0
  /-- The eight packet rings (08 R284). Reset: see PktRing. -/
  rings : List PktRing := List.replicate 8 {}
  deriving DecidableEq, Repr

/-! ### Codec cluster -/

/-- ENC_CH_STAT.STATE (09 R338). -/
inductive ChanState where
  | off | idle | bound | stopped
  deriving DecidableEq, Repr

/-- One encode channel (09 R331, R338). -/
structure Channel where
  /-- ENC_CH_CTL.ENABLE (1 bit; 09 R338). Reset 0. -/
  enable : Bool := false
  /-- ENC_CH_CTL.CTX (8 bits; 09 R338). Reset 0. -/
  ctx : Nat := 0
  /-- ENC_CH_CTL.SLICE_LOG2 (5 bits; 09 R338). Reset 0. -/
  sliceLog2 : Nat := 0
  /-- ENC_CH_WORK (48 bits; 09 R338). Reset 0. -/
  work : Nat := 0
  /-- ENC_CH_WORK_PAGES (24 bits; 09 R338). Reset 0. -/
  pages : Nat := 0
  /-- ENC_CH_SLICE (48 bits; 09 R338). Reset 0. -/
  slice : Nat := 0
  /-- ENC_CH_SSTAT (48 bits; 09 R338). Reset 0. -/
  sstat : Nat := 0
  /-- Stream that binds the channel (16 bits; 09 R338). Reset none. -/
  stream : Option Nat := none
  /-- ENC_CH_STAT.ERR (8 bits; 09 R338). Reset 0. -/
  err : Nat := 0
  /-- The channel is STOPPED (1 bit; 09 R338). Reset 0. -/
  stopped : Bool := false
  /-- ENC_CH_DROP_CNT (32 bits; 09 R338). Reset 0. -/
  drops : Nat := 0
  /-- PRODUCED (64 bits; 09 R332). Reset 0. -/
  produced : Nat := 0
  deriving DecidableEq, Repr

/-- The codec cluster (09 R338). -/
structure Codec where
  /-- CODEC_EVT (4 bits; 09 R338). Reset 0. -/
  evt : BitVec 4 := 0
  /-- CODEC_EVT_EN (4 bits; 09 R338). Reset 0. -/
  evtEn : BitVec 4 := 0
  /-- CODEC_STAT.LIVE (8 bits; 09 R338). Reset 0. -/
  live : BitVec 8 := 0
  /-- CODEC_STAT.BUSY (8 bits; 09 R338). Reset 0. -/
  busy : BitVec 8 := 0
  /-- CODEC_STAT.ON (8 bits; 09 R338). Reset 0. -/
  on : BitVec 8 := 0
  /-- DEC_ERR_CNT (32 bits; 09 R338). Reset 0. -/
  decErr : Nat := 0
  /-- CONCEAL_CNT (32 bits; 09 R338). Reset 0. -/
  conceal : Nat := 0
  /-- FALLBACK_CNT (32 bits; 09 R338). Reset 0. -/
  fallback : Nat := 0
  /-- SUSPEND_CNT (32 bits; 09 R338). Reset 0. -/
  suspends : Nat := 0
  /-- The 16 encode channels (09 R338). Reset: see Channel. -/
  channels : List Channel := List.replicate 16 {}
  /-- The units of the reference picture of each encode session, by context x 2^64 + session address (09 R308, R321). Reset empty. -/
  sessions : Tbl (List CodedUnit) := []
  deriving DecidableEq, Repr

/-! ### Draw unit -/

/-- The draw unit's registers (12 R418). -/
structure Draw where
  /-- DRAW_STAT.IN_SERVICE (4 bits; 12 R418). Reset 0xF. -/
  inService : BitVec 4 := 15
  /-- DRAW_EVT (2 bits; 12 R418). Reset 0. -/
  evt : BitVec 2 := 0
  /-- DRAW_EVT_EN (2 bits; 12 R418). Reset 0. -/
  evtEn : BitVec 2 := 0
  /-- DRAW_EVAL_CNT (32 bits; 12 R418). Reset 0. -/
  evals : Nat := 0
  /-- DRAW_KAT_CTL.LANE (2 bits; 12 R418). Reset 0. -/
  katLane : Nat := 0
  /-- DRAW_KAT_CTL.START (1 bit; 12 R418). Reset 0. -/
  katStart : Bool := false
  /-- DRAW_KAT_STAT.PASS (4 bits; 12 R418). Reset 0. -/
  katPass : BitVec 4 := 0
  /-- DRAW_KAT_STAT.DONE (4 bits; 12 R418). Reset 0. -/
  katDone : BitVec 4 := 0
  deriving DecidableEq, Repr

/-! ### Stock, shelf, regulator, scrubber, memory ports -/

/-- State of a stock buffer that is not FREE (13 R438). -/
inductive BufState where
  | issued | host | quarantined
  deriving DecidableEq, Repr

/-- One stock pool (05 R162, 13 R438). -/
structure Pool where
  /-- BASE (64 bits; 05 R162). Reset absent. -/
  base : Nat
  /-- COUNT (32 bits; 05 R162). Reset absent. -/
  count : Nat
  /-- States of the buffers that are not FREE, by number (2 bits each; 13 R438). Reset absent. -/
  bufs : Tbl BufState := []
  /-- DESTROY_POOL has stopped issue (1 bit; 05 R163). Reset absent. -/
  destroying : Bool := false
  deriving DecidableEq, Repr

/-- One shelf entry (13 R440-R444). -/
structure ShelfEntry where
  /-- Context of the key (8 bits; 13 R441). Reset absent. -/
  ctx : Nat
  /-- SOURCE and FRAME of the key: the kind-3 input (64 bits; 13 R441). Reset absent. -/
  source : Nat
  /-- CROP of the key (64 bits; 13 R441). Reset absent. -/
  crop : Nat
  /-- Binding id stored with it (32 bits; 13 R441). Reset absent. -/
  bindingId : Nat
  /-- Generation stored with it (32 bits; 13 R441). Reset absent. -/
  gen : Nat
  /-- Entry point stored with it (16 bits; 13 R441). Reset absent. -/
  entry : Nat
  /-- Bytes of data (32 bits; 13 R440). Reset absent. -/
  size : Nat
  /-- Its 64 KiB chunks, in order (16 bits each; 13 R440). Reset absent. -/
  chunks : List Nat
  /-- CRC-32C of the data (32 bits; 13 R444). Reset absent. -/
  crc : Nat
  /-- Order of the last use (64 bits; 13 R443). Reset absent. -/
  used : Nat
  /-- Visible to lookups (1 bit; 13 R442). The lookups that pin it are the reads of State.txs with its first chunk. Reset absent. -/
  visible : Bool
  /-- Number of the fill that writes it (64 bits; 13 R442). Reset absent. -/
  fill : Nat
  deriving DecidableEq, Repr

/-- The shelf (13 R440-R444, R449). -/
structure Shelf where
  /-- BASE of the region (64 bits; 05 R169). Reset 0: no region. -/
  base : Nat := 0
  /-- SIZE of the region; 0 is no region (64 bits; 05 R169). Reset 0. -/
  size : Nat := 0
  /-- The entries, visible, in flight or pinned (up to 65,536; 13 R440). Reset empty. -/
  entries : List ShelfEntry := []
  /-- Order of the next use (64 bits; 13 R443). Reset 0. -/
  clock : Nat := 0
  /-- SHELF_HIT_CNT (32 bits; 13 R449). Reset 0. -/
  hits : Nat := 0
  /-- SHELF_MISS_CNT (32 bits; 13 R449). Reset 0. -/
  misses : Nat := 0
  /-- SHELF_SKIP_CNT (32 bits; 13 R449). Reset 0. -/
  skips : Nat := 0
  deriving DecidableEq, Repr

/-- One bucket of the bandwidth regulator (13 R436). -/
structure Bucket where
  /-- DEPTH as written (16 bits; 13 R449). Reset 0x400. -/
  depth : Nat := 1024
  /-- RATE as written (16 bits; 13 R449). Reset 0. -/
  rate : Nat := 0
  /-- RATE in force since the last refill (16 bits; 13 R449). Reset as RATE. -/
  live : Nat := 0
  /-- Lines held (16 bits; 13 R436). Reset DESIGN CHOICE full (1,024), log 6. -/
  level : Nat := 1024
  deriving DecidableEq, Repr

/-- One 4 KiB coefficient segment in its place (13 R426-R430). -/
structure Segment where
  /-- Handle of its binding (32 bits; 13 R426). Reset absent. -/
  binding : Nat
  /-- Generation it belongs to (32 bits; 13 R430). Reset absent. -/
  gen : Nat
  /-- Number of its set in the coefficient table (8 bits; 13 R426). Reset absent. -/
  set : Nat
  /-- Number of the segment within its set (16 bits; 13 R426). Reset absent. -/
  seg : Nat
  /-- Home quire (6 bits; 13 R426). Reset absent. -/
  quire : Nat
  /-- CRC-32C computed at load (32 bits; 13 R426). Reset absent. -/
  crc : Nat
  /-- A reload is under way (1 bit; 13 R429). Reset absent. -/
  reloading : Bool := false
  /-- A failed reload has left it unavailable (1 bit; 13 R429). Reset absent. -/
  lost : Bool := false
  deriving DecidableEq, Repr

/-- The memory system's registers and stores (13 R449). -/
structure MemSys where
  /-- MEM_EVT (5 bits; 13 R449). Reset 0. -/
  evt : BitVec 5 := 0
  /-- MEM_EVT_EN (5 bits; 13 R449). Reset 0. -/
  evtEn : BitVec 5 := 0
  /-- MEM_FAULT_CAUSE.CAUSE (8 bits; 13 R449). Reset 0. -/
  faultCause : Nat := 0
  /-- MEM_FAULT_CAUSE.SOURCE (7 bits; 13 R449). Reset 0. -/
  faultSource : Nat := 0
  /-- REG_CLASS1, the PROMPT bucket (32 bits; 13 R449). Reset 0x0400_0000. -/
  class1 : Bucket := {}
  /-- REG_CLASS2, the BULK bucket (32 bits; 13 R449). Reset 0x0400_0BB8. -/
  class2 : Bucket := { rate := 3000, live := 3000 }
  /-- REG_CLASS3, the BACKGROUND bucket (32 bits; 13 R449). Reset 0x0400_03E8. -/
  class3 : Bucket := { rate := 1000, live := 1000 }
  /-- REG_CTX[c], c = 0-255 (256 of 32 bits; 13 R449). Reset 0x0400_0000. -/
  ctxBuckets : Tbl Bucket := []
  /-- SCRUB_CTL.DRAM_RATE (16 bits; 13 R449). Reset 0x40. -/
  dramRate : Nat := 64
  /-- SCRUB_CTL.STOCK_SWEEP (1 bit; 13 R449). Reset 0. -/
  stockSweep : Bool := false
  /-- SCRUB_STAT.QUIRE (8 bits; 13 R449). Reset 0. -/
  scrubQuire : Nat := 0
  /-- SCRUB_STAT.WORST_MS (16 bits; 13 R449). Reset 0. -/
  scrubWorst : Nat := 0
  /-- Time of the last pass of each quire (64 of 64 bits; 13 R446). Reset 0. -/
  scrubLast : Tbl Nat := []
  /-- Quires whose pass was deferred, with the time (13 R446). Reset empty. -/
  scrubDeferred : List (Nat × Nat) := []
  /-- SCRUB_CORR_CNT (32 bits; 13 R449). Reset 0. -/
  scrubCorr : Nat := 0
  /-- SCRUB_UNCORR_CNT (32 bits; 13 R449). Reset 0. -/
  scrubUncorr : Nat := 0
  /-- Quarantined 4 KiB regions: quire and region; QSTORE_QUAR_KIB counts them (13 R448). Reset empty. -/
  quarantine : List (Nat × Nat) := []
  /-- Resident coefficient segments and their places (64 places in each of 64 quires; 13 R426). Reset empty. -/
  segments : List Segment := []
  /-- Quires whose maintenance token is held, with the activity's number: 1 reload, 2 self-test, 3 scrub (14 R476). Reset empty. -/
  tokens : Tbl Nat := []
  deriving DecidableEq, Repr

/-- What a memory transaction is for; the numbers name works, contexts, rings and targets. -/
inductive Purpose where
  /-- A ring fetch burst: context, ring, first count, slots (06 R188). -/
  | fetch (ctx ring count slots : Nat)
  /-- The zero write over the colophon (14 R454). -/
  | zero (work : Nat)
  /-- Part of folio `index` (01 R21). -/
  | folio (work index : Nat)
  /-- The colophon's first transaction (01 R21). -/
  | colophon (work : Nat)
  /-- The commit word (01 R21). -/
  | commit (work : Nat)
  /-- A completion burst: context, ring, first count, slots (06 R206). -/
  | completion (ctx ring count slots : Nat)
  /-- An event message of a target (16 R519). -/
  | message (t : Nat)
  /-- Bytes 0x30-0x3F of a bitstream descriptor, or session and reference data, for a work (09 R306). -/
  | result (work : Nat)
  /-- A slice record of an encode channel; the line where the gathering's guard snapshot refuses the write of PRODUCED that follows
  (09 R331, R332). -/
  | slice (channel produced : Nat) (refused : Option Nat)
  /-- PRODUCED of an encode channel, or part of its work area (09 R331, R332). -/
  | produced (channel : Nat)
  /-- Point records of a packet ring's block; the header; the queue entry; the status word (08 R297). -/
  | points (ring work : Nat)
  | header (ring work : Nat)
  | queue (ring work : Nat)
  | status (ring : Nat)
  /-- Data of a shelf fill; its index record (13 R442). -/
  | shelfData (fill : Nat)
  | shelfIndex (fill : Nat)
  /-- A read or write whose work has ended or been failed: its data or response is discarded (02 R38, 06 R210). -/
  | read (ctx : Nat)
  /-- Part of the inputs of a work (13 R432; log 8 for its bytes). -/
  | input (work : Nat)
  /-- Part of a lookup's read of the shelf entry with this first chunk, for a work: it pins the entry (13 R442). -/
  | lookup (work chunk : Nat)
  /-- A read that firmware, the boot ROM or a stream engine makes of an image, a set, a segment or a slice counter, whose bytes
  come with the command that needs them (log 8). -/
  | fetched (ctx : Nat)
  /-- A read of packet intake (08 R300; log 8 for its bytes). -/
  | packet (ctx : Nat)
  /-- The saved state of a codec core, or a read of an encode channel's work area (09 R330, R331). -/
  | area (ctx : Nat)
  deriving DecidableEq, Repr

/-- One memory transaction, waiting or outstanding (02 R30-R38, 13 R433-R437). -/
structure Tx where
  /-- Number in order of presentation (64 bits; 13 R437). Reset absent. -/
  id : Nat
  /-- Memory port (2 bits; 13 R433). Reset absent. -/
  port : Nat
  /-- Tag; none while the transaction is held back (10 bits; 02 R33). Reset absent. -/
  tag : Option Nat
  /-- A read (1 bit; 02 R32). Reset absent. -/
  rd : Bool
  /-- MEMn_xQ_ADDR (48 bits; 02 R32). Reset absent. -/
  addr : Nat
  /-- MEMn_xQ_LINES + 1 (3 bits; 02 R32). Reset absent. -/
  lines : Nat
  /-- MEMn_xQ_CTX (8 bits; 01 R24). Reset absent. -/
  ctx : Nat
  /-- MEMn_xQ_SYS (1 bit; 02 R58). Reset absent. -/
  sys : Bool
  /-- MEMn_xQ_CLASS (2 bits; 13 R435). Reset absent. -/
  cls : Nat
  /-- MEMn_xQ_PRIO (2 bits; 13 R435). Reset absent. -/
  prio : Nat
  /-- Enabled bytes of a write: address and bytes (02 R32). Reset absent. -/
  data : List (Nat × List Byte)
  /-- A mirror write (1 bit; 13 R434). Reset absent. -/
  mirror : Bool
  /-- The metering context; none where the transaction is charged to no bucket (13 R436). Reset absent. -/
  meter : Option (Nat × Nat)
  /-- What it is for. Reset absent. -/
  purpose : Purpose
  /-- Time of issue (64 bits; 02 R38). Reset absent. -/
  issued : Nat
  /-- Beats received (2 bits; 02 R34). Reset absent. -/
  beats : Nat := 0
  /-- It has been outstanding for 100 us (1 bit; 02 R38). Reset absent. -/
  timedOut : Bool := false
  /-- First address and number of the bytes that the work uses (02 R38). Reset absent. -/
  uses : Nat × Nat := (0, 0)
  /-- MEMn_WD_POISON: addresses of the 64-bit words marked bad (8 bits a beat; 02 R37). Reset absent. -/
  poison : List Nat := []
  deriving DecidableEq, Repr

/-! ### Gatherings -/

/-- What a gathering belongs to. -/
inductive WorkKind where
  /-- A chain of SUBMIT entries: context, ring, count of FIRST, members. -/
  | chain (ctx ring first len : Nat)
  /-- A DRAW entry: context, ring, count. -/
  | draw (ctx ring count : Nat)
  /-- A LIVE gathering of a stream. -/
  | live (stream : Nat)
  /-- A mirror gathering of a stream (08 R281). -/
  | mirror (stream : Nat)
  /-- A placeholder gathering of a missing sync-group member (08 R278). -/
  | missing (stream : Nat)
  /-- The terminal gathering of a stream in safe state (14 R484). -/
  | terminal (stream : Nat)
  /-- A point block of a packet ring (08 R297). -/
  | block (ring : Nat)
  deriving DecidableEq, Repr

/-- Where a gathering stands in the commit protocol (01 R21, 14 R454). -/
inductive WPhase where
  /-- Its frame is being received, or its entry waits for a start. -/
  | collecting
  /-- The zero write is outstanding. -/
  | zeroing
  /-- Stages run and folios are written. -/
  | working
  /-- The colophon's first transaction is outstanding. -/
  | colophon
  /-- The commit word is outstanding. -/
  | commit
  /-- Finished: committed, abandoned or failed. -/
  | done
  deriving DecidableEq, Repr

/-- One folio of a LIVE gathering at the spine (14 R456-R457). -/
structure FolioCmp where
  /-- Folio number (32 bits; 14 R456). Reset absent. -/
  index : Nat
  /-- Copy of replica A: its 4,096 bytes, once arrived (14 R456). Reset absent. -/
  copyA : Option (List Byte)
  /-- Copy of replica B (14 R456). Reset absent. -/
  copyB : Option (List Byte)
  /-- Quires that computed the copies (6 bits each; 14 R457). Reset absent. -/
  quireA : Nat
  quireB : Nat
  /-- A replay has been asked for (1 bit; 07 R234). Reset absent. -/
  replay : Bool
  /-- It has started, in a REPLAY slot (1 bit; 07 R234). Reset absent. -/
  replaying : Bool := false
  /-- A copy was missing one slot after the other (1 bit; 14 R456). Reset absent. -/
  late : Bool
  /-- Time the first copy arrived (64 bits; 14 R456). Reset absent. -/
  since : Nat := 0
  /-- An injection made the copies disagree (1 bit; 14 R490). Reset absent. -/
  injected : Bool := false
  deriving DecidableEq, Repr

/-- One member of a gathering: an entry of a chain, or the one sample of any other gathering (06 R195, R196). -/
structure Member where
  /-- Folio payload in bytes (32 bits; 06 R203). Reset absent. -/
  bytes : Nat
  /-- Folios (32 bits; 06 R203). Reset absent. -/
  folios : Nat
  /-- Statuses that apply to it (8 bits each; 14 R452). Reset absent. -/
  statuses : List Nat
  /-- DETAIL for INPUT_DEFECT (2 bits; 06 R205). Reset absent. -/
  defect : Nat
  /-- Views with VALID = 0 (3 bits each; 14 R450). Reset absent. -/
  invalid : List Nat
  /-- Energy charged for it in nJ (64 bits; 07 R238). Reset absent. -/
  energyNj : Nat
  /-- First folio of each view, relative to the member's first (up to 8; 07 R216). Reset absent. -/
  viewStart : List Nat
  deriving DecidableEq, Repr

/-- One gathering from its first strip or start to its completion. -/
structure Work where
  /-- What it belongs to. Reset absent. -/
  kind : WorkKind
  /-- Owning context (8 bits; 14 R450). Reset absent. -/
  ctx : Nat := 0
  /-- Class it runs under (2 bits; 14 R450). Reset absent. -/
  cls : Nat := 0
  /-- Colophon STREAM_ID field, the chain identity (16 bits; 14 R453). Reset absent. -/
  streamId : Nat := 0
  /-- Handle of its binding; 0 for DRAW, mirrors and blocks (32 bits; 14 R450). Reset absent. -/
  binding : Nat := 0
  /-- Generation used (32 bits; 01 R26). Reset absent. -/
  gen : Nat := 0
  /-- Entry point used (16 bits; 07 R216). Reset absent. -/
  entry : Nat := 0
  /-- Guard windows snapshot (06 R183). Reset absent. -/
  guards : List Guard := []
  /-- Draw key used (192 bits; 14 R450). Reset absent. -/
  key : Option DrawKey := none
  /-- First draw position (64 bits; 14 R450). Reset absent. -/
  drawPos : Nat := 0
  /-- Phase of the commit protocol (01 R21). Reset absent. -/
  phase : WPhase := .collecting
  /-- The stages have been started (1 bit; 07 R239). Reset absent. -/
  started : Bool := false
  /-- Its stock buffer: pool key, buffer number, address; none where none was issued (13 R438). Reset absent. -/
  buffer : Option (Nat × Nat × Nat) := none
  /-- Views of the entry point (4 bits; 14 R450). Reset absent. -/
  views : Nat := 0
  /-- Statuses that apply to the whole gathering (8 bits each; 14 R452). Reset absent. -/
  statuses : List Nat := []
  /-- Views that are shed for it (07 R243). Reset absent. -/
  shed : List Nat := []
  /-- The folio payload as written so far, by folio number (14 R451). Reset absent. -/
  folios : Tbl (List Byte) := []
  /-- Folios of the payload (32 bits; 14 R450). Reset absent. -/
  total : Nat := 0
  /-- Folios that are ready and not yet presented, by folio number (14 R454). Reset absent. -/
  queue : Tbl (List Byte) := []
  /-- Folio payload computed by the stages and not yet written (14 R451). Reset absent. -/
  payload : List Byte := []
  /-- Folios at the comparator (14 R456). Reset absent. -/
  compares : List FolioCmp := []
  /-- Write transactions outstanding for it (32 bits; 01 R21). Reset absent. -/
  pendingTx : Nat := 0
  /-- Input reads outstanding for it: no stage of it passes its barrier before they are answered (32 bits; 13 R422, R432). Reset absent. -/
  pendingRd : Nat := 0
  /-- Stretches of the folio payload, by first byte and length, whose values the GX knows to be bad (02 R37). Reset absent. -/
  poison : List (Nat × Nat) := []
  /-- Strips whose stages have been started, each with twice the stages done, plus 1 while one runs (07 R224). Reset absent. -/
  strips : Tbl Nat := []
  /-- Stage whose barrier is awaited (16 bits; 13 R422). Reset absent. -/
  stage : Nat := 0
  /-- Quire and leaf mask of a best-effort stage (6 and 32 bits; 07 R236). Reset absent. -/
  place : Option (Nat × Nat) := none
  /-- The stage is suspended (1 bit; 01 R22). Reset absent. -/
  suspended : Bool := false
  /-- Quire whose store holds what its best-effort stages have staged so far (6 bits; 07 R237). Reset absent. -/
  home : Option Nat := none
  /-- Session addresses that its members name (64 bits each; 09 R308). Reset absent. -/
  sessions : List Nat := []
  /-- Where a suspended codec stage has saved its core's state: address and bytes (09 R330). Reset absent. -/
  saved : Option (Nat × Nat) := none
  /-- Replays used per strip (07 R234, 14 R478). Reset absent. -/
  replays : Tbl Nat := []
  /-- The frame being received (08 R259). Reset absent. -/
  frame : Option Frame := none
  /-- Sensor frame counter for the colophon (64 bits; 14 R450). Reset absent. -/
  counter : Nat := 0
  /-- EXPOSURE_START (64 bits; 14 R450). Reset absent. -/
  exposure : Nat := 0
  /-- FRAME_END (64 bits; 14 R450). Reset absent. -/
  frameEnd : Nat := 0
  /-- Time its first strip or stage started (64 bits; 06 R203). Reset absent. -/
  tStart : Nat := 0
  /-- Time the last folio's response arrived (64 bits; 14 R450). Reset absent. -/
  tFolios : Option Nat := none
  /-- SEQUENCE taken (32 bits; 14 R453). Reset absent. -/
  seq : Option Nat := none
  /-- The colophon's 128 bytes (14 R450). Reset absent. -/
  colophon : List Byte := []
  /-- Its members, in order (up to 64; 06 R195). Reset absent. -/
  members : List Member := []
  /-- The gathering is late (1 bit; 07 R246). Reset absent. -/
  late : Bool := false
  /-- Its output is refused by the guard (1 bit; 06 R184). Reset absent. -/
  refused : Bool := false
  /-- A point block and its ring sequence (08 R296). Reset absent. -/
  block : Option (Block × Nat) := none
  /-- Pictures and private bytes that the codec stage of a member leaves for its result writes: member, address, bytes (09 R306). Reset absent. -/
  codecOut : List (Nat × Nat × List Byte) := []
  /-- The encoder state before this unit (09 R329). Reset absent. -/
  encBefore : Option EncState := none
  /-- Status and DETAIL of an entry without output whose result writes are still outstanding (09 R306). Reset absent. -/
  fail : Option (Nat × Nat) := none
  /-- The member that ended it so (7 bits; 06 R196). Reset absent. -/
  failMember : Nat := 0
  /-- Its operators have been evaluated (1 bit; 07 R239). Reset absent. -/
  ran : Bool := false
  /-- Some slice of its coded unit was dropped (1 bit; 09 R332). Reset absent. -/
  slicesDropped : Bool := false
  /-- Records of its coded unit's slices that the replicas' comparison has still to pass, in order (09 R329, R332). Reset absent. -/
  slices : List (List Byte) := []
  /-- Number of the first of them within the unit (16 bits; 09 R332). Reset absent. -/
  sliceNo : Nat := 0
  deriving DecidableEq, Repr

/-! ### Faults and safe state -/

/-- Scopes of FATAL reactions, in the order of FAULT_FIRST_INFO.SCOPE (14 R493). -/
inductive Scope where
  | device | stream | control | quire | unit | keep | loc
  deriving DecidableEq, Repr

/-- One record of the fault collector (14 R464-R468, R553). -/
structure Record where
  /-- Class, 1-3 (2 bits; 14 R465). Reset absent. -/
  cls : Nat
  /-- Pin class, 1-3 (2 bits; 14 R464). Reset absent. -/
  pin : Nat
  /-- A counting fault has brought it to its class (1 bit; 14 R553). Reset absent. -/
  counting : Bool
  /-- Its class was raised by R465 (1 bit; 14 R465). Reset absent. -/
  escalated : Bool
  /-- Scope (3 bits; 14 R462). Reset absent. -/
  scope : Scope
  /-- CAUSE (8 bits; 14 R463). Reset absent. -/
  cause : Nat
  /-- DETAIL (16 bits; 14 R463). Reset absent. -/
  detail : Nat
  /-- Time the record was set (64 bits; 14 R468). Reset absent. -/
  time : Nat
  /-- GX_RST_N has been asserted since it was set (1 bit; 14 R468). Reset absent. -/
  sinceRst : Bool := false
  deriving DecidableEq, Repr

/-- One entry of the fault log, also the first-fault capture (14 R469, R467). -/
structure LogEntry where
  /-- INJECTED (1 bit; 14 R493). Reset absent. -/
  injected : Bool
  /-- ESCALATED (1 bit; 14 R493). Reset absent. -/
  escalated : Bool
  /-- SCOPE (3 bits; 14 R493). Reset absent. -/
  scope : Scope
  /-- CLASS (2 bits; 14 R493). Reset absent. -/
  cls : Nat
  /-- CAUSE (8 bits; 14 R493). Reset absent. -/
  cause : Nat
  /-- SOURCE (7 bits; 14 R493). Reset absent. -/
  source : Nat
  /-- DETAIL (16 bits; 14 R493). Reset absent. -/
  detail : Nat
  /-- Time of the fault (64 bits; 14 R493). Reset absent. -/
  time : Nat
  deriving DecidableEq, Repr

/-- The first-fault capture (14 R467). -/
structure FirstFault where
  /-- FAULT_FIRST_INFO and FAULT_FIRST_DETAIL (48 bits; 14 R493). Reset absent. -/
  info : LogEntry
  /-- FAULT_FIRST_STICKY: the sources with a record (128 bits; 14 R493). Reset absent. -/
  sticky : List Nat
  deriving DecidableEq, Repr

/-- SAFE_STAT.STATE (14 R493). -/
inductive SafeState where
  | normal | entering | deviceSafe
  deriving DecidableEq, Repr

/-- SELFTEST_STAT.STATE (14 R493). -/
inductive TestState where
  | idle | running | stalled
  deriving DecidableEq, Repr

/-- A migration under way (14 R473). -/
structure Migration where
  /-- Source quire (6 bits; 14 R473). Reset absent. -/
  src : Nat
  /-- Target spare (6 bits; 14 R473). Reset absent. -/
  dst : Nat
  /-- Time it began (64 bits; 14 R473). Reset absent. -/
  began : Nat
  /-- The source has been retired (1 bit; 14 R481). Reset absent. -/
  retired : Bool
  deriving DecidableEq, Repr

/-- An armed fault injection (14 R490). -/
structure Injection where
  /-- FI_CTL.MODE (4 bits; 14 R493). Reset 0. -/
  mode : Nat := 0
  /-- FI_CTL.SOURCE (7 bits; 14 R493). Reset 0. -/
  source : Nat := 0
  /-- FI_CTL.CAUSE (8 bits; 14 R493). Reset 0. -/
  cause : Nat := 0
  /-- FI_CTL.CLASS (2 bits; 14 R493). Reset 0. -/
  cls : Nat := 0
  /-- FI_CTL.ARM and FI_STAT.ARMED (1 bit; 14 R493). Reset 0. -/
  armed : Bool := false
  deriving DecidableEq, Repr

/-- The fault collector, the fault pin, safe state, self-test and injection (14). -/
structure Faults where
  /-- The records, by source; FAULT_STICKY and FAULT_REC_CLASS show them (128 sources; 14 R465). Reset none. -/
  records : Tbl Record := []
  /-- The fault log, oldest first (0-64 entries; 14 R469). Reset empty. -/
  log : List LogEntry := []
  /-- FAULT_STAT.LOG_OVR (1 bit; 14 R493). Reset 0. -/
  logOvr : Bool := false
  /-- FAULT_LOG_HI, DETAIL of the entry last removed (16 bits; 14 R493). Reset 0. -/
  logHi : Nat := 0
  /-- FAULT_LOG_TIME of the entry last removed (64 bits; 14 R493). Reset 0. -/
  logTime : Nat := 0
  /-- The first-fault capture (14 R467). Reset none. -/
  first : Option FirstFault := none
  /-- FAULT_EVT_EN.LOG (1 bit; 14 R493). Reset 0. -/
  evtEn : Bool := false
  /-- GX_FAULT_N is low (1 bit; 14 R470). Reset 1: low until the keeper is initialised (R56). -/
  pinLow : Bool := true
  /-- GX_FAULT_CLASS (2 bits; 14 R470). Reset 0. -/
  pinClass : Nat := 0
  /-- A pulse is running (1 bit; 14 R470). Reset 0. -/
  pulse : Bool := false
  /-- The 4 oscillator periods since the last rise have not passed (1 bit; 14 R470). Reset 0. -/
  highHold : Bool := false
  /-- A pulse waits for the minimum high time (1 bit; 14 R470). Reset 0. -/
  pulseWaits : Bool := false
  /-- FAULT_PIN_CTL.PAD_SLOW (1 bit; 14 R493). Reset 1. -/
  padSlow : Bool := true
  /-- FAULT_PIN_CTL.HOLD_MIN (2 bits; 14 R493). Reset 3. -/
  holdMin : Nat := 3
  /-- FAULT_PIN_CTL.PULSE_MIN (2 bits; 14 R493). Reset 2. -/
  pulseMin : Nat := 2
  /-- SAFE_STAT.STATE (2 bits; 14 R493). Reset 0. -/
  safe : SafeState := .normal
  /-- SAFE_STAT.LAST_CAUSE (8 bits, keeper; 14 R493). Reset 0. -/
  safeCause : Nat := 0
  /-- SAFE_CTL.ENTER (1 bit; 14 R493): a write of 1 sets it, and R493 names nothing that clears it but the reset. Reset 0. -/
  safeEnter : Bool := false
  /-- QUIRE_RETIRED (64 bits, keeper; 14 R493). Reset 0. -/
  retired : List Nat := []
  /-- UNIT_RETIRED: trim engines 0-15, codec cores 16-23 (24 bits, keeper; 14 R493). Reset 0. -/
  unitsRetired : List Nat := []
  /-- MISMATCH_CTL.WINDOW_MS (16 bits; 14 R493). Reset 1,000. -/
  mismatchWindow : Nat := 1000
  /-- MISMATCH_CTL.LIMIT (4 bits; 14 R493). Reset 3. -/
  mismatchLimit : Nat := 3
  /-- COMPARE_MISMATCH faults attributed to quires: quire and time (14 R480). Reset empty. -/
  mismatches : List (Nat × Nat) := []
  /-- SELFTEST_CTL.ENABLE (1 bit; 14 R493). Reset 1. -/
  testEnable : Bool := true
  /-- SELFTEST_STAT.QUIRE (8 bits; 14 R493). Reset 0. -/
  testQuire : Nat := 0
  /-- SELFTEST_STAT.STATE (2 bits; 14 R493). Reset 0. -/
  testState : TestState := .idle
  /-- SELFTEST_STAT.FAILS (16 bits; 14 R493). Reset 0. -/
  testFails : Nat := 0
  /-- SELFTEST_CYCLE.WORST_MS (16 bits; 14 R493). Reset 0. -/
  testWorst : Nat := 0
  /-- SELFTEST_CYCLE.LAST_MS (16 bits; 14 R493). Reset 0. -/
  testLast : Nat := 0
  /-- Time the present rotation began (64 bits; 14 R475). Reset 0. -/
  testBegan : Nat := 0
  /-- Next quire to test in the lower and in the upper half (6 bits each; 14 R472). Reset 0 and 32. -/
  testNextLo : Nat := 0
  testNextHi : Nat := 32
  /-- The next step tests the upper half (1 bit; 14 R472). Reset 0. -/
  testUpper : Bool := false
  /-- The migrations under way (14 R473). Reset none. -/
  migrations : List Migration := []
  /-- The armed injection (32 bits; 14 R490). Reset 0. -/
  fi : Injection := {}
  /-- QUERY_STATS group 2: replays (64 bits; 05 R171). Reset 0. -/
  nReplays : Nat := 0
  /-- QUERY_STATS group 2: CONTAINED_FAULT samples (64 bits; 05 R171). Reset 0. -/
  nContained : Nat := 0
  /-- QUERY_STATS group 2: quires retired (64 bits; 05 R171). Reset 0. -/
  nRetired : Nat := 0
  /-- QUERY_STATS group 2: shed events (64 bits; 05 R171). Reset 0. -/
  nShed : Nat := 0
  /-- QUERY_STATS group 2: bubble time in leaf-us (64 bits; 05 R171). Reset 0. -/
  nBubble : Nat := 0
  /-- QUERY_STATS group 2: control restarts (64 bits; 05 R171). Reset 0. -/
  nRestarts : Nat := 0
  deriving DecidableEq, Repr

/-! ### Keep-store -/

/-- Who asked for a keep-store write that waits for the end of a warning (15 R498, R507). -/
inductive KOrigin where
  /-- KEEP_WRITE of a mailbox, with the SEQ to answer. -/
  | mailbox (box : Nat)
  /-- KWRITE of the management port. -/
  | i3c
  /-- The journal. -/
  | journal
  /-- Trial firmware's confirmation. -/
  | confirm
  /-- FW_ACTIVATE's boot record. -/
  | activate (box : Nat)
  /-- UNLOCK_SEQ of a debug challenge for a level. -/
  | challenge (level : Nat)
  deriving DecidableEq, Repr

/-- One record write that waits. -/
structure KReq where
  /-- Who asked. Reset absent. -/
  origin : KOrigin
  /-- Slot to write (12 bits; 15 R494). Reset absent. -/
  slot : Nat
  /-- The 52 data bytes (15 R495). Reset absent. -/
  data : List Byte
  /-- Time of the request (64 bits; 15 R507). Reset absent. -/
  time : Nat
  deriving DecidableEq, Repr

/-- The keep-store and its controller (15). -/
structure Keep where
  /-- The 256 KiB array (15 R494). Reset: every byte 0, as delivered. -/
  mem : Mem := []
  /-- Slots with a word whose ECC error is uncorrectable (15 R496). Reset none. -/
  eccBad : List Nat := []
  /-- KEEP_STAT.SCAN_DONE (1 bit, keeper; 15 R510). Reset 0. -/
  scanDone : Bool := false
  /-- KEEP_STAT.WRITES_OFF (1 bit, keeper; 15 R510). Reset 0. -/
  writesOff : Bool := false
  /-- The index is unusable until the next boot scan (1 bit; 15 R509). Reset 0. -/
  indexBad : Bool := false
  /-- KEEP_EVT: bits 2:0 JOURNAL_LOST, LOW_VOLTAGE, WRITES_OFF (3 bits, keeper; 15 R510). Reset 0. -/
  evt : BitVec 3 := 0
  /-- KEEP_EVT_EN (3 bits, keeper; 15 R510). Reset 0. -/
  evtEn : BitVec 3 := 0
  /-- KEEP_SEQ (32 bits, keeper; 15 R510). Reset 0. -/
  seq : Nat := 0
  /-- KEEP_ERR.CAUSE (8 bits, keeper; 15 R510). Reset 0. -/
  errCause : Nat := 0
  /-- KEEP_ERR.SLOT (12 bits, keeper; 15 R510). Reset 0. -/
  errSlot : Nat := 0
  /-- Record writes that wait on MRAM_WARN; KEEP_STAT.WRITING while one runs (15 R507). Reset empty. -/
  waiting : List KReq := []
  /-- Fault-log entries in firmware's buffer, with the log order kept (15 R503). Reset empty. -/
  jbuf : List LogEntry := []
  /-- The last append was refused and waits for its retry (1 bit; 15 R503). Reset 0. -/
  jretry : Bool := false
  /-- The compaction under way: the records it has still to write, how many it has written, and T; KEEP_STAT.COMPACTING shows
  it (15 R504). Reset none. -/
  compact : Option (List (List Byte) × Nat × Nat) := none
  deriving DecidableEq, Repr

/-! ### Events and the management port -/

/-- One event target (16 R526). -/
structure Target where
  /-- TGT_CFG.ENABLE (1 bit; 16 R526). Reset 0. -/
  enable : Bool := false
  /-- TGT_CFG.MODE: true is message mode (1 bit; 16 R526). Reset 0. -/
  message : Bool := false
  /-- The mode in force until the target is quiet (1 bit; 16 R521). Reset 0. -/
  modeNow : Bool := false
  /-- TGT_CFG.IDLE_BYPASS (1 bit; 16 R526). Reset 0. -/
  idleBypass : Bool := false
  /-- TGT_CFG.MOD_US (10 bits; 16 R526). Reset 0. -/
  modUs : Nat := 0
  /-- TGT_STAT.OUT, the level of EVT_OUT[t] (1 bit; 16 R526). Reset 0. -/
  out : Bool := false
  /-- TGT_STAT.IDLE, filtered HOST_IDLE[t] (1 bit; 16 R526). Reset 0. -/
  idle : Bool := false
  /-- TGT_STAT.MOD_RUN: the timer's end while it runs (64 bits; 16 R518). Reset none. -/
  modEnd : Option Nat := none
  /-- TGT_STAT.MSG_PEND (1 bit; 16 R526). Reset 0. -/
  msgPend : Bool := false
  /-- A message has been issued, and a claim and a completion are still awaited (1 bit; 16 R519). Reset 0. -/
  msgSent : Bool := false
  /-- TGT_STAT.SERVICE (10 bits; 16 R526). Reset none (reads 0x3FF). -/
  service : Option Nat := none
  /-- TGT_MSG_HI:TGT_MSG_LO (48 bits; 16 R526). Reset 0. -/
  msgAddr : Nat := 0
  /-- TGT_MSG_DATA bits 31:10 (22 bits; 16 R526). Reset 0. -/
  msgData : Nat := 0
  /-- TGT_MSG_ERR_CNT (32 bits; 16 R526). Reset 0. -/
  msgErr : Nat := 0
  deriving DecidableEq, Repr

/-- The event controller (16 R525). -/
structure Events where
  /-- EVT_ROUTE: target of each source (576 of 6 bits; 16 R525). Reset 0. -/
  route : Tbl Nat := []
  /-- EVT_EN: the enabled sources (576 bits; 16 R525). Reset 0. -/
  enabled : List Nat := []
  /-- EVT_STAT.PARITY (1 bit; 16 R525). Reset 0. -/
  parity : Bool := false
  /-- EVT_STAT.ENABLE_LOST (1 bit; 16 R525). Reset 0. -/
  enableLost : Bool := false
  /-- EVT_STAT.COMPLETE_ERR (1 bit; 16 R525). Reset 0. -/
  completeErr : Bool := false
  /-- EVT_STAT.MSG_ERR (1 bit; 16 R525). Reset 0. -/
  msgErr : Bool := false
  /-- EVT_SW.SW (1 bit; 16 R525). Reset 0. -/
  sw : Bool := false
  /-- The 64 targets (16 R526). Reset: see Target. -/
  targets : Tbl Target := []
  deriving DecidableEq, Repr

/-- The I3C target and the management registers (16 R527-R536). -/
structure Mgmt where
  /-- MGMT_STAT.DA_VALID and DYN_ADDR (8 bits, keeper; 16 R536). Reset none. -/
  dynAddr : Option Nat := none
  /-- MGMT_STAT.ENINT (1 bit, keeper; 16 R536). Reset 0. -/
  enint : Bool := false
  /-- The window pointer PTR (8 bits; 16 R528). Reset DESIGN CHOICE 0, log 4. -/
  ptr : Nat := 0
  /-- GETSTATUS protocol error (1 bit; 16 R527). Reset 0. -/
  protErr : Bool := false
  /-- MG_CMD (8 bits; 16 R529). Reset DESIGN CHOICE 0, log 4. -/
  cmd : Nat := 0
  /-- MG_REGION (8 bits; 16 R529). Reset DESIGN CHOICE 0, log 4. -/
  region : Nat := 0
  /-- MG_RECORD (16 bits; 16 R529). Reset DESIGN CHOICE 0, log 4. -/
  record : Nat := 0
  /-- MG_CMD_STAT.STATUS (8 bits; 16 R529). Reset DESIGN CHOICE 0, log 4. -/
  status : Nat := 0
  /-- MG_CMD_STAT.BUSY (1 bit; 16 R529). Reset DESIGN CHOICE 0, log 4. -/
  busy : Bool := false
  /-- MG_CMD_STAT.LOST (1 bit; 16 R529). Reset DESIGN CHOICE 0, log 4. -/
  lost : Bool := false
  /-- MG_CMD_STAT last command accepted (8 bits; 16 R529). Reset DESIGN CHOICE 0, log 4. -/
  lastCmd : Nat := 0
  /-- MG_KDATA (52 bytes; 16 R529). Reset DESIGN CHOICE 0, log 4. -/
  kdata : List Byte := List.replicate 52 0
  /-- MG_TIME as latched when a read began at 0x20 (64 bits; 16 R529). Reset DESIGN CHOICE 0, log 4. -/
  timeLatch : Nat := 0
  /-- Pending IBI of reason 1 and its 4 payload bytes (33 bits; 16 R532). Reset none. -/
  ibiFault : Option LogEntry := none
  /-- An IBI of reason 2 is pending (1 bit; 16 R532). Reset 0. -/
  ibiSafe : Bool := false
  /-- Pending IBI of reason 3: command and status (17 bits; 16 R532). Reset none. -/
  ibiCmd : Option (Nat × Nat) := none
  /-- The last IBI sent: MDB and payload (I3C_SDA_OUT; 16 R532). Reset empty. -/
  ibiSent : List Byte := []
  /-- The bytes of the last private read or CCC answer (I3C_SDA_OUT; 16 R528). Reset empty. -/
  rdata : List Byte := []
  /-- The last transfer was not acknowledged (1 bit; 16 R527). Reset 0. -/
  nack : Bool := false
  /-- MGMT_CTL.LOCK (1 bit, keeper; 16 R536). Reset 0. -/
  lock : Bool := false
  /-- MGMT_CTL.IBI_CLASS (2 bits, keeper; 16 R536). Reset 2. -/
  ibiClass : Nat := 2
  /-- MGMT_CTL.IBI_CMD (1 bit, keeper; 16 R536). Reset 0. -/
  ibiOnCmd : Bool := false
  /-- MGMT_CTL.PERMIT_KWRITE (1 bit, keeper; 16 R536). Reset 1. -/
  permitKwrite : Bool := true
  /-- MGMT_CTL.PERMIT_RESTART (1 bit, keeper; 16 R536). Reset 1. -/
  permitRestart : Bool := true
  /-- MGMT_CTL.PERMIT_WAKE (1 bit, keeper; 16 R536). Reset 1. -/
  permitWake : Bool := true
  /-- MGMT_EVT bits 3:0 KWRITE, RESTART, WAKE, ADDR_LOST (4 bits, keeper; 16 R536). Reset 0. -/
  evt : BitVec 4 := 0
  /-- MGMT_EVT_EN (4 bits, keeper; 16 R536). Reset 0. -/
  evtEn : BitVec 4 := 0
  /-- Time of the last keep-store access from I3C in KEEP, while its rail request holds (64 bits; 16 R530). Reset none. -/
  mramUse : Option Nat := none
  /-- The debug challenge or answer last returned to the TAP (TDO; 04 R123). Reset empty. -/
  tapOut : List Byte := []
  deriving DecidableEq, Repr

/-! ### The whole block -/

/-- Everything the spec gives the block, and the queue of waiting commands. -/
structure State where
  /-- Commands that wait, first in first out (the model's own queue; log 1). Reset empty. -/
  pending : List Instr := []
  /-- Pins, straps and the control port. -/
  chip : Chip := {}
  /-- Power, clocks, supplies and heat. -/
  power : Power := {}
  /-- The time base. -/
  tb : TimeBase := {}
  /-- The control complex. -/
  control : Control := {}
  /-- Mailboxes 0-255 of the context pages and 256, the management mailbox. -/
  boxes : Tbl Mbox := []
  /-- Contexts 0-255. -/
  ctxs : Tbl Ctx := []
  /-- Ring n of context c at 4c + n. -/
  rings : Tbl Ring := []
  /-- Fetched SUBMIT and DRAW entries that have not completed are limited by R189; this is the order of the next HEAD advance (64 bits; 06 R200). Reset 0. -/
  fetchOrder : Nat := 0
  /-- Ring served last by the fetch round robin (10 bits; 06 R189). Reset 0. -/
  fetchRr : Nat := 0
  /-- Loaded bindings by handle. -/
  bindings : Tbl Binding := []
  /-- The press and the governor. -/
  press : Press := {}
  /-- Sensor ports 0-15. -/
  ports : Tbl Port := []
  /-- Streams by STREAM_ID. -/
  streams : Tbl Stream := []
  /-- Sync groups by GROUP. -/
  groups : Tbl Group := []
  /-- Packet intake. -/
  pkt : PktIntake := {}
  /-- The codec cluster. -/
  codec : Codec := {}
  /-- The draw unit. -/
  draw : Draw := {}
  /-- Stock pools by (context x 16 + set) x 8 + size class. -/
  pools : Tbl Pool := []
  /-- The shelf. -/
  shelf : Shelf := {}
  /-- The memory system. -/
  mem : MemSys := {}
  /-- Memory transactions outstanding or held back, oldest first; GX_MEM_IDLE is 1 while none is outstanding. -/
  txs : List Tx := []
  /-- Number of the next transaction (64 bits; 13 R437). Reset 0. -/
  txNext : Nat := 0
  /-- Gatherings by number. -/
  works : Tbl Work := []
  /-- Number of the next gathering (64 bits; 01 R21). Reset 0. -/
  workNext : Nat := 0
  /-- Ring chains: SEQUENCE and stitch of ring n of context c at 4c + n (64 bits each; 14 R453). -/
  chains : Tbl (Nat × Nat) := []
  /-- The fault collector, safe state and self-test. -/
  faults : Faults := {}
  /-- The keep-store. -/
  keep : Keep := {}
  /-- The event controller. -/
  events : Events := {}
  /-- The I3C target and management registers. -/
  mgmt : Mgmt := {}
  deriving DecidableEq, Repr


/-- The block right after the deassertion of GX_PORST_N and GX_RST_N: every field at its reset value (00 R8). Keeper
initialisation has not completed and the wake that the deassertion of GX_RST_N causes has not begun (02 R56, 03 R74). -/
def State.reset : State := {}

end Sys2Proof.Machine
end

