-- ==== Sys2Proof/Machine/Pixel.lean ====
section
/-! DEFINITION. The pixel operators: what their blocks must hold, and the planes they compute (10 R339-R369, R546). -/

namespace Sys2Proof.Machine

/-! ### Planes (R339-R342) -/

/-- A plane: its size, its form (none is W24, `some n` is CODE(n)) and its elements, line by line. -/
structure Plane where
  w : Nat
  h : Nat
  form : Option Nat
  elems : List Int
  deriving DecidableEq, Repr

/-- The element held at (x, y). -/
def Plane.raw (p : Plane) (x y : Nat) : Int := p.elems.getD (y * p.w + x) 0

/-- A held element as W24 (R339). -/
def toW24 (form : Option Nat) (c : Int) : Int := match form with | some n => c * 2 ^ (20 - n) | none => c

/-- The element at (x, y) as W24. -/
def Plane.at (p : Plane) (x y : Nat) : Int := toW24 p.form (p.raw x y)

/-- A plane of the results of a function. -/
def mkPlane (w h : Nat) (form : Option Nat) (f : Nat → Nat → Int) : Plane :=
  { w, h, form, elems := (upto 0 h).flatMap (fun y => (upto 0 w).map (fun x => f x y)) }

/-- nw of the exact fraction num/den (R340). -/
def nw (num : Int) (den : Nat) : Int := satS (rneDiv num den) 24

/-- cd of the exact fraction num/den (R340). -/
def cd (bits : Nat) (num : Int) (den : Nat) : Int := satU (rneDiv (num * 2 ^ bits) (den * 2 ^ 20)) bits

/-- Store y = num/den in the form a block asks for. -/
def store (out : Option Nat) (num : Int) (den : Nat) : Int := match out with | some n => cd n num den | none => nw num den

/-- The index that BORDER gives for `i` in a dimension of `n`; none is FILL (R342). -/
def border (mode n : Nat) (i : Int) : Option Nat :=
  if 0 ≤ i && i < n then some i.toNat
  else match mode with
    | 0 => none
    | 1 => some (clampI i 0 (n - 1)).toNat
    | _ => if n ≤ 1 then some 0 else
        let r := (i - (2 * n - 2) * fdiv i (2 * n - 2)).toNat
        some (if r < n then r else 2 * n - 2 - r)

/-- A tap: the element as W24, or FILL. -/
def Plane.tap (p : Plane) (mode : Nat) (fill x y : Int) : Int :=
  match border mode p.w x, border mode p.h y with
  | some i, some j => p.at i j
  | _, _ => fill

/-- The same for an operator that copies values in their own form (R546). -/
def Plane.copyTap (p : Plane) (mode : Nat) (fill x y : Int) : Int :=
  if mode = 0 then p.tap mode fill x y
  else match border mode p.w x, border mode p.h y with
    | some i, some j => p.raw i j
    | _, _ => fill

/-- Form of a plane after Crop or Padding (R546). -/
def copyForm (mode : Nat) (form : Option Nat) : Option Nat := if mode = 0 then none else form

/-- How a plane is subsampled against plane 0 in one direction: by 2 where it has half its size (log 30). -/
def subOf (n0 n : Nat) : Nat := if n ≠ n0 && 2 * n = n0 then 2 else 1

/-! ### Blocks (R219, R344) -/

/-- A signed little-endian field of `n` bytes. -/
def sfield (b : List Byte) (off n : Nat) : Int := signed (field b off n) (8 * n)

/-- The bytes are 0. -/
def zeros (b : List Byte) (off n : Nat) : Bool := (slice b off n).all (· == 0)

/-- FILL of four planes at an offset. -/
def fillAt (b : List Byte) (off p : Nat) : Int := sfield b (off + 4 * p) 4

/-- What an operator needs beyond its planes. -/
structure OpEnv where
  /-- Draw key and position of the sample (12 R410). -/
  key : Nat
  pos : Nat
  /-- View computed. -/
  view : Nat
  /-- PARAM and EXTENSION. -/
  param : Nat
  ext : Nat
  /-- The coefficient table. -/
  coeffs : List CoeffRec
  deriving DecidableEq, Repr

/-- The block's draw position. -/
def OpEnv.base (e : OpEnv) (b : List Byte) : Nat := (e.pos + field b 8 4) % 2 ^ 64

/-- Draw word `k` of the view. -/
def OpEnv.word (e : OpEnv) (b : List Byte) (k : Nat) : Nat := drawWord e.key (e.base b) e.view k

/-- Data of a coefficient set. -/
def coeffData (l : List CoeffRec) (kind index : Nat) : Option (List Byte) :=
  match l.find? (fun c => c.kind = kind && c.index = index) with
  | some c => c.data
  | none => none

/-- The result of a stage: planes, or a status with its DETAIL and no output. -/
abbrev OpRes (α : Type) := Except (Nat × Nat) α

/-- DIM_LIMIT. -/
def dimLimit {α : Type} : OpRes α := .error (5, 0)

/-- Every plane through one function of its elements as W24. -/
def mapPlanes (f : Nat → Nat → Int → Int) (ps : List Plane) : List Plane :=
  ps.map (fun p => mkPlane p.w p.h none (fun x y => f x y (p.at x y)))

/-! ### CSI-2 packings (08 R256, R349) -/

/-- Pixels and bytes of a group of a data type, and its depth. -/
def dtypeGroup (d : Nat) : Option (Nat × Nat × Nat) :=
  match d with
  | 0x2A => some (1, 1, 8) | 0x2B => some (4, 5, 10) | 0x2C => some (2, 3, 12) | 0x2D => some (4, 7, 14)
  | 0x2E => some (1, 2, 16) | 0x2F => some (2, 5, 20) | 0x1E => some (2, 4, 8) | 0x1F => some (2, 5, 10)
  | 0x24 => some (1, 3, 8) | _ => none

/-- LINE_BYTES (08 R256). -/
def lineBytes (d width : Nat) : Nat := match dtypeGroup d with | some (p, b, _) => width / p * b | none => 0

/-- Element `i` of a mosaic group. -/
def mosaicElem (d i : Nat) (b : Nat → Nat) : Nat :=
  match d with
  | 0x2A => b 0
  | 0x2B => b i * 4 + bits (b 4) (2 * i) 2
  | 0x2C => b i * 16 + bits (b 2) (4 * i) 4
  | 0x2D => b i * 64 + bits (b 4 + 256 * b 5 + 65536 * b 6) (6 * i) 6
  | 0x2E => b 0 + 256 * b 1
  | _ => b i * 4096 + b (2 + i) * 16 + bits (b 4) (4 * i) 4

/-- Byte `k` of group `g` of a line. -/
def groupByte (l : List Byte) (size g k : Nat) : Nat := byteAt l (g * size + k)

/-- Planes of lines packed as a data type (R348, R349). -/
def unpackLines (d w h : Nat) (line : Nat → List Byte) : List Plane :=
  let plane (pw n : Nat) (f : Nat → (Nat → Nat) → Nat) (per size : Nat) : Plane :=
    mkPlane pw h (some n) (fun x y => (f x (groupByte (line y) size (x / per)) : Nat))
  match d with
  | 0x1E =>
    [plane w 8 (fun x b => if x % 2 = 0 then b 1 else b 3) 2 4, plane (w / 2) 8 (fun _ b => b 0) 1 4, plane (w / 2) 8 (fun _ b => b 2) 1 4]
  | 0x1F =>
    [plane w 10 (fun x b => if x % 2 = 0 then b 1 * 4 + bits (b 4) 2 2 else b 3 * 4 + bits (b 4) 6 2) 2 5,
     plane (w / 2) 10 (fun _ b => b 0 * 4 + bits (b 4) 0 2) 1 5, plane (w / 2) 10 (fun _ b => b 2 * 4 + bits (b 4) 4 2) 1 5]
  | 0x24 => [plane w 8 (fun _ b => b 2) 1 3, plane w 8 (fun _ b => b 1) 1 3, plane w 8 (fun _ b => b 0) 1 3]
  | _ => match dtypeGroup d with
    | some (p, z, n) => [plane w n (fun x b => mosaicElem d (x % p) b) p z]
    | none => []

/-! ### PWL decompanding, black level, shading mesh, CFA planes, log tone -/

/-- PWL decompanding of one code (R351). -/
def pwl (b : List Byte) (c : Int) : Int :=
  let e := byteAt b 0x11
  let segs := upto 0 (byteAt b 0x12)
  let s := segs.foldl (fun m i => if (field b (0x18 + 12 * i) 4 : Int) ≤ c then i else m) 0
  let lin := min ((field b (0x1C + 12 * s) 4 : Int) + (c - field b (0x18 + 12 * s) 4) * field b (0x20 + 12 * s) 4) (2 ^ e - 1)
  nw (lin * 2 ^ 20) (2 ^ e)

/-- PWL decompanding: the input must be CODE(IN_BITS). -/
def runPwl (b : List Byte) (ps : List Plane) : OpRes (List Plane) :=
  match ps with
  | [p] => if p.form = some (byteAt b 0x10) then .ok [mkPlane p.w p.h none (fun x y => pwl b (p.raw x y))] else dimLimit
  | _ => dimLimit

/-- CFA phase of an element (R352). -/
def cfaPhase (px py x y : Nat) : Nat := 2 * ((y + py) % 2) + (x + px) % 2

/-- Black level (R352). -/
def blackLevel (b : List Byte) (x y : Nat) (w : Int) : Int :=
  let p := cfaPhase (byteAt b 0x31) (byteAt b 0x32) x y
  let v := (w - sfield b (0x10 + 4 * p) 4) * field b (0x20 + 4 * p) 4
  nw (if byteAt b 0x30 = 1 && v < 0 then 0 else v) 65536

/-- Bilinear interpolation on a mesh: the sum of R354 before its division by 2^(SX + SY). -/
def meshSum (sx sy nx ny x y : Nat) (g : Nat → Nat → Int) : Int :=
  let i := x / 2 ^ sx
  let j := y / 2 ^ sy
  let fx : Int := (x - i * 2 ^ sx : Nat)
  let fy : Int := (y - j * 2 ^ sy : Nat)
  let at' (a c : Nat) : Int := g (min a (nx - 1)) (min c (ny - 1))
  (2 ^ sx - fx) * (2 ^ sy - fy) * at' i j + fx * (2 ^ sy - fy) * at' (i + 1) j +
    (2 ^ sx - fx) * fy * at' i (j + 1) + fx * fy * at' (i + 1) (j + 1)

/-- Shading mesh (R354). -/
def shade (b set : List Byte) (x y : Nat) (w : Int) : Int :=
  let sx := byteAt b 0x12
  let sy := byteAt b 0x13
  let nx := field b 0x14 2
  let ny := field b 0x16 2
  let m := if byteAt b 0x18 = 1 then 0 else cfaPhase (byteAt b 0x19) (byteAt b 0x1A) x y
  let g (i j : Nat) : Int := (field set (2 * ((m * ny + j) * nx + i)) 2 : Nat)
  nw (w * meshSum sx sy nx ny x y g) (2 ^ (sx + sy + 12))

/-- Position in a cell of phase `p` (R355). -/
def cellX (b : List Byte) (p : Nat) : Nat := (p % 2 + byteAt b 0x15) % 2
def cellY (b : List Byte) (p : Nat) : Nat := (p / 2 + byteAt b 0x16) % 2

/-- CFA planes (R355). -/
def runCfa (b : List Byte) (ps : List Plane) : OpRes (List Plane) :=
  match ps with
  | [s] =>
    if s.w % 2 ≠ 0 || s.h % 2 ≠ 0 then dimLimit
    else
      let w := s.w / 2
      let h := s.h / 2
      if byteAt b 0x14 = 0 then
        .ok ((upto 0 4).map (fun p => mkPlane w h s.form (fun x y => s.raw (2 * x + cellX b p) (2 * y + cellY b p))))
      else
        let colours := (upto 0 4).filter (fun c => (upto 0 4).any (fun p => byteAt b (0x10 + p) = c))
        .ok (colours.map (fun c =>
          let phases := (upto 0 4).filter (fun p => byteAt b (0x10 + p) = c)
          mkPlane w h none (fun x y =>
            nw ((phases.map (fun p => s.at (2 * x + cellX b p) (2 * y + cellY b p))).sum) phases.length)))
  | _ => dimLimit

/-- L[t] := rne(log2(1 + t/64) x 2^16, 0): from k = floor(2^17 log2((64 + t)/64)) (R356). -/
def logEntry (t : Nat) : Nat := (Nat.log2 ((64 + t) ^ 131072) - 786432 + 1) / 2

/-- Log tone (R357). -/
def logTone (b : List Byte) (w : Int) : Int :=
  let w := (max w (sfield b 0x10 4)).toNat
  let e := Nat.log2 w
  let r := (w - 2 ^ e) * 64
  let t := r / 2 ^ e
  let lg : Int := (((e : Int) - 20) * 65536 + logEntry t) * 2 ^ e + ((r - t * 2 ^ e : Nat) : Int) * ((logEntry (t + 1) : Int) - logEntry t)
  nw ((lg - sfield b 0x14 4 * 2 ^ e) * field b 0x18 4) (4096 * 2 ^ e)

/-! ### Colour conversion and chroma upsampling -/

/-- The values of a colour conversion: M, S, T, A, B. -/
structure ColourSet where
  m : List Int
  s : List Int
  t : List Int
  a : List Int
  b : List Int
  deriving DecidableEq, Repr

/-- Preset matrices (R359). -/
def presetMatrix (preset dir : Nat) : List Int :=
  match preset, dir with
  | 1, 0 => [16384, 0, 22970, 16384, -5638, -11700, 16384, 29032, 0]
  | 2, 0 => [16384, 0, 25802, 16384, -3069, -7670, 16384, 30402, 0]
  | _, 0 => [16384, 0, 24160, 16384, -2696, -9361, 16384, 30825, 0]
  | 1, _ => [4899, 9617, 1868, -2765, -5427, 8192, 8192, -6860, -1332]
  | 2, _ => [3483, 11718, 1183, -1877, -6315, 8192, 8192, -7441, -751]
  | _, _ => [4304, 11108, 972, -2288, -5904, 8192, 8192, -7533, -659]

/-- The values that a block gives or names (R358, R359). -/
def colourSet (b : List Byte) : ColourSet :=
  let preset := byteAt b 0x10
  let one : List Int := [16384, 16384, 16384]
  let zero : List Int := [0, 0, 0]
  if preset = 0 then
    { m := (upto 0 9).map (fun i => sfield b (0x18 + 2 * i) 2), s := (upto 0 3).map (fun i => sfield b (0x2A + 2 * i) 2),
      t := (upto 0 3).map (fun i => sfield b (0x30 + 2 * i) 2), a := (upto 0 3).map (fun i => sfield b (0x38 + 4 * i) 4),
      b := (upto 0 3).map (fun i => sfield b (0x44 + 4 * i) 4) }
  else
    let m := presetMatrix preset (byteAt b 0x11)
    match byteAt b 0x11, byteAt b 0x12 with
    | 0, 0 => { m, s := one, t := one, a := [0, 524288, 524288], b := zero }
    | 0, _ => { m, s := [19077, 18651, 18651], t := one, a := [65536, 524288, 524288], b := zero }
    | _, 0 => { m, s := one, t := one, a := zero, b := [0, 524288, 524288] }
    | _, _ => { m, s := one, t := [14071, 14392, 14392], a := zero, b := [65536, 524288, 524288] }

/-- OUT_FORM and OUT_BITS at an offset. -/
def outForm (b : List Byte) (off : Nat) : Option Nat := if byteAt b off = 1 then some (byteAt b (off + 1)) else none

/-- Colour conversion (R358). -/
def runColour (b : List Byte) (ps : List Plane) : OpRes (List Plane) :=
  match ps with
  | [p0, p1, p2] =>
    if p1.w ≠ p0.w || p2.w ≠ p0.w || p1.h ≠ p0.h || p2.h ≠ p0.h then dimLimit
    else
      let k := colourSet b
      let out := outForm b 0x13
      .ok ((upto 0 3).map (fun i => mkPlane p0.w p0.h out (fun x y =>
        let term (j : Nat) (p : Plane) : Int := k.m.getD (3 * i + j) 0 * k.s.getD j 0 * (p.at x y - k.a.getD j 0)
        store out (k.t.getD i 0 * (term 0 p0 + term 1 p1 + term 2 p2) + k.b.getD i 0 * 2 ^ 42) (2 ^ 42))))
  | _ => dimLimit

/-- Taps and weights in 1/128 of an output position over chroma indices (R360). -/
def chromaTaps (kernel : Nat) (midway : Bool) (i : Nat) : List (Int × Int) :=
  let k : Int := (i / 2 : Nat)
  let even := i % 2 = 0
  match kernel, midway with
  | 0, _ => [(k, 128)]
  | 1, false => if even then [(k, 128)] else [(k, 64), (k + 1, 64)]
  | 1, true => if even then [(k - 1, 32), (k, 96)] else [(k, 96), (k + 1, 32)]
  | _, false => if even then [(k, 128)] else [(k - 1, -8), (k, 72), (k + 1, 72), (k + 2, -8)]
  | _, true => if even then [(k - 2, -3), (k - 1, 29), (k, 111), (k + 1, -9)] else [(k - 1, -9), (k, 111), (k + 1, 29), (k + 2, -3)]

/-- Chroma upsampling (R360). -/
def runChroma (b : List Byte) (ps : List Plane) : OpRes (List Plane) :=
  match ps with
  | [l, cb, cr] =>
    let half := byteAt b 0x10 = 1
    let ch := if half then l.h / 2 else l.h
    if l.w % 2 ≠ 0 || (half && l.h % 2 ≠ 0) || cb.w ≠ l.w / 2 || cr.w ≠ l.w / 2 || cb.h ≠ ch || cr.h ≠ ch then dimLimit
    else
      let up (c : Plane) : Plane := mkPlane l.w l.h none (fun x y =>
        let hs := chromaTaps (byteAt b 0x11) false x
        let vs := if half then chromaTaps (byteAt b 0x11) (byteAt b 0x12 = 0) y else [((y : Int), 128)]
        nw ((vs.map (fun v => (hs.map (fun h => v.2 * h.2 * c.tap 1 0 h.1 v.1)).sum)).sum) 16384)
      .ok [l, up cb, up cr]
  | _ => dimLimit

/-! ### Geometric operators (R361-R369) -/

/-- Taps and weights at a source position in units of 2^-16 element; weights in units of 2^-19 (R361). -/
def sampleTaps (mode : Nat) (u : Int) : List (Int × Int) :=
  if mode = 0 then [(asr (u + 32768) 16, 524288)]
  else
    let i0 := asr u 16
    let ph0 := asr (u - i0 * 65536 + 512) 10
    let i := if ph0 = 64 then i0 + 1 else i0
    let t := if ph0 = 64 then 0 else ph0
    if mode = 1 then [(i, (64 - t) * 8192), (i + 1, t * 8192)]
    else
      let c := t * t * t
      let q := t * t * 64
      let l := t * 4096
      [(i - 1, -c + 2 * q - l), (i, 3 * c - 5 * q + 524288), (i + 1, -3 * c + 4 * q + l), (i + 2, c - q)]

/-- The element at a source position. -/
def sampleAt (p : Plane) (mode bord : Nat) (fill u v : Int) : Int :=
  nw (((sampleTaps mode v).map (fun y => ((sampleTaps mode u).map (fun x => x.2 * y.2 * p.tap bord fill x.1 y.1)).sum)).sum) (2 ^ 38)

/-- Number a list. -/
def enum {α : Type} (l : List α) : List (Nat × α) := List.zip (upto 0 l.length) l

/-- Whether a plane of the set is subsampled in x, in y. -/
def anySubX (ps : List Plane) : Bool := match ps with | p :: t => t.any (fun q => subOf p.w q.w = 2) | [] => false
def anySubY (ps : List Plane) : Bool := match ps with | p :: t => t.any (fun q => subOf p.h q.h = 2) | [] => false

/-- The rectangle of a Crop after its jitter: first column and line, width and height (R362). -/
def cropRect (e : OpEnv) (b : List Byte) : (Int × Int) × Nat × Nat :=
  let src := byteAt b 0x14
  let key := if src = 1 then e.param else e.ext
  let rec_ := 0x28 + 8 * e.view
  let x0 : Int := if src = 0 then sfield b rec_ 2 else (bits key 0 16 : Nat)
  let y0 : Int := if src = 0 then sfield b (rec_ + 2) 2 else (bits key 16 16 : Nat)
  let jx := field b 0x18 2
  let jy := field b 0x1A 2
  ((if jx = 0 then x0 else x0 + jit (e.word b 0) jx, if jy = 0 then y0 else y0 + jit (e.word b 1) jy),
   if src = 0 then field b 0x10 2 else bits key 32 16, if src = 0 then field b 0x12 2 else bits key 48 16)

/-- Crop (R362). -/
def runCrop (e : OpEnv) (b : List Byte) (ps : List Plane) : OpRes (List Plane) :=
  match ps with
  | [] => dimLimit
  | p0 :: _ =>
    if 4 < ps.length then dimLimit
    else
      let bord := byteAt b 0x15
      let rec_ := 0x28 + 8 * e.view
      let ((x1, y1), ow, oh) := cropRect e b
      let sx := anySubX ps
      let sy := anySubY ps
      if field b 0x10 2 < ow || field b 0x12 2 < oh || (sx && ow % 2 ≠ 0) || (sy && oh % 2 ≠ 0) then dimLimit
      else
        let x2 := if sx then 2 * fdiv x1 2 else x1
        let y2 := if sy then 2 * fdiv y1 2 else y1
        let fill (i : Nat) : Int := if i < 2 then sfield b (0x20 + 4 * i) 4 else sfield b (rec_ + 4 + 2 * (i - 2)) 2 * 256
        .ok ((enum ps).map (fun ip =>
          let p := ip.2
          let kx := subOf p0.w p.w
          let ky := subOf p0.h p.h
          mkPlane (ow / kx) (oh / ky) (copyForm bord p.form) (fun x y =>
            p.copyTap bord (fill ip.1) (fdiv x2 kx + x) (fdiv y2 ky + y))))

/-- Taps of one direction of a polyphase resize: table, input and output size, output index (R364). -/
def resizeTaps (b : List Byte) (tab iw ow x : Nat) : List (Int × Int) :=
  if tab = 0xFF then [((x : Int), 16384)]
  else
    let rec_ := 0x48 + 8 * tab
    let taps := byteAt b rec_
    let ph : Nat := 2 ^ byteAt b (rec_ + 1)
    let off := field b (rec_ + 4) 4
    let pos := fdiv ((((2 * x + 1) * iw : Nat) : Int) * 65536 - ow * 65536) (2 * ow)
    let i0 := asr pos 16
    let p0 := asr ((pos - i0 * 65536) * ph + 32768) 16
    let i := if p0 = (ph : Int) then i0 + 1 else i0
    let p : Nat := if p0 = (ph : Int) then 0 else p0.toNat
    (upto 0 taps).map (fun (k : Nat) => (i - (taps / 2 : Nat) + 1 + k, sfield b (off + 2 * (p * taps + k)) 2))

/-- The sizes that a resize allows in one direction (R363). -/
def resizeOk (tab n o : Nat) : Bool := n ≤ 8 * o && o ≤ 8 * n && (tab ≠ 0xFF || n = o)

/-- One plane through a resize block's record `i` (R363, R364). -/
def resizePlane (b : List Byte) (i : Nat) (p : Plane) : OpRes Plane :=
  let rec_ := 0x18 + 8 * i
  let ow := field b rec_ 2
  let oh := field b (rec_ + 2) 2
  let ht := byteAt b (rec_ + 4)
  let vt := byteAt b (rec_ + 5)
  let bord := byteAt b 0x12
  let out := outForm b 0x13
  if !resizeOk ht p.w ow || !resizeOk vt p.h oh then dimLimit
  else .ok (mkPlane ow oh out (fun x y =>
    store out (((resizeTaps b vt p.h oh y).map (fun v =>
      ((resizeTaps b ht p.w ow x).map (fun h => v.2 * h.2 * p.tap bord (fillAt b 0x38 i) h.1 v.1)).sum)).sum) (2 ^ 28)))

/-- All planes of a list through a function that may fail. -/
def allOk {α β : Type} (f : α → OpRes β) : List α → OpRes (List β)
  | [] => .ok []
  | x :: t => match f x, allOk f t with
    | .ok y, .ok l => .ok (y :: l)
    | .error e, _ => .error e
    | _, .error e => .error e

/-- Polyphase resize. -/
def runResize (b : List Byte) (ps : List Plane) : OpRes (List Plane) :=
  if ps.length ≠ byteAt b 0x10 then dimLimit else allOk (fun ip => resizePlane b ip.1 ip.2) (enum ps)

/-- Every plane has the size of the first. -/
def sameSize (ps : List Plane) : Bool := match ps with | p :: t => t.all (fun q => q.w = p.w && q.h = p.h) | [] => false

/-- Source position of an output element of a mesh warp (R366). -/
def warpPos (b set : List Byte) (x y : Nat) : Int × Int :=
  let sx := byteAt b 0x12
  let sy := byteAt b 0x13
  let nx := field b 0x14 2
  let ny := field b 0x16 2
  let node (off : Nat) (i j : Nat) : Int := sfield set (8 * (j * nx + i) + off) 4
  (rneDiv (meshSum sx sy nx ny x y (node 0)) (2 ^ (sx + sy)), rneDiv (meshSum sx sy nx ny x y (node 4)) (2 ^ (sx + sy)))

/-- Mesh warp (R366). -/
def runWarp (b set : List Byte) (ps : List Plane) : OpRes (List Plane) :=
  if !sameSize ps || 4 < ps.length then dimLimit
  else
    .ok ((enum ps).map (fun ip => mkPlane (field b 0x18 2) (field b 0x1A 2) none (fun x y =>
      sampleAt ip.2 (byteAt b 0x1C) (byteAt b 0x1D) (fillAt b 0x20 ip.1) (warpPos b set x y).1 (warpPos b set x y).2)))

/-- Source position of an output element of an affine transform (R367). -/
def affinePos (e : OpEnv) (b : List Byte) (x y : Nat) : Int × Int :=
  let m (k : Nat) : Int := sfield b (0x30 + 24 * e.view + 4 * k) 4
  let js := field b 0x18 2
  let jt := field b 0x1C 4
  let sc := if js = 0 then 0 else jit (e.word b 0) js
  let dx := if jt = 0 then 0 else jit (e.word b 1) jt
  let dy := if jt = 0 then 0 else jit (e.word b 2) jt
  let cx : Int := 2 * x - (field b 0x10 2 - 1)
  let cy : Int := 2 * y - (field b 0x12 2 - 1)
  (m 2 + dx + rneDiv ((m 0 * cx + m 1 * cy) * (65536 + sc)) 131072, m 5 + dy + rneDiv ((m 3 * cx + m 4 * cy) * (65536 + sc)) 131072)

/-- Affine transform (R367). -/
def runAffine (e : OpEnv) (b : List Byte) (ps : List Plane) : OpRes (List Plane) :=
  if !sameSize ps || 4 < ps.length then dimLimit
  else
    .ok ((enum ps).map (fun ip => mkPlane (field b 0x10 2) (field b 0x12 2) none (fun x y =>
      sampleAt ip.2 (byteAt b 0x14) (byteAt b 0x15) (fillAt b 0x20 ip.1) (affinePos e b x y).1 (affinePos e b x y).2)))

/-- One plane under an orientation code (R368). -/
def orientPlane (code : Nat) (p : Plane) : Plane :=
  let mx (x : Nat) : Nat := if bit code 0 then p.w - 1 - x else x
  let my (y : Nat) : Nat := if bit code 1 then p.h - 1 - y else y
  if bit code 2 then mkPlane p.h p.w p.form (fun x y => p.raw (mx y) (my x))
  else mkPlane p.w p.h p.form (fun x y => p.raw (mx x) (my y))

/-- Planes under an orientation code; a transpose of unequal subsampling is out of limits. -/
def orient (code : Nat) (ps : List Plane) : OpRes (List Plane) :=
  if bit code 2 && (match ps with | p :: t => t.any (fun q => subOf p.w q.w ≠ subOf p.h q.h) | [] => false) then dimLimit
  else .ok (ps.map (orientPlane code))

/-- Orientation code of a view after its drawn flip (R368). -/
def orientCode (e : OpEnv) (b : List Byte) : Nat :=
  let code := byteAt b (0x10 + e.view)
  let th := field b 0x18 4
  if th ≠ 0 && drawEvent (e.word b 0) th then Nat.xor code 1 else code

/-- Rotation and flip (R368). -/
def runOrient (e : OpEnv) (b : List Byte) (ps : List Plane) : OpRes (List Plane) := orient (orientCode e b) ps

/-- Width and height that Padding gives planes whose first is `w` x `h` (R369). -/
def padSize (b : List Byte) (w h : Nat) : Nat × Nat :=
  let full (o off n al : Nat) : Nat := if o = 0 then cdiv (off + n) al * al else o
  (full (field b 0x10 2) (field b 0x14 2) w (byteAt b 0x18), full (field b 0x12 2) (field b 0x16 2) h (byteAt b 0x19))

/-- Padding (R369). -/
def runPad (b : List Byte) (ps : List Plane) : OpRes (List Plane) :=
  match ps with
  | [] => dimLimit
  | p0 :: _ =>
    let ox := field b 0x14 2
    let oy := field b 0x16 2
    let (ow, oh) := padSize b p0.w p0.h
    let bord := byteAt b 0x1A
    let fits (k n off size : Nat) : Bool := off % k = 0 && size % k = 0 && off / k + n ≤ size / k
    if 4 < ps.length || ps.any (fun p => !fits (subOf p0.w p.w) p.w ox ow || !fits (subOf p0.h p.h) p.h oy oh) then dimLimit
    else .ok ((enum ps).map (fun ip =>
      let p := ip.2
      let kx := subOf p0.w p.w
      let ky := subOf p0.h p.h
      mkPlane (ow / kx) (oh / ky) (copyForm bord p.form) (fun x y =>
        p.copyTap bord (fillAt b 0x20 ip.1) ((x : Int) - (ox / kx : Nat)) ((y : Int) - (oy / ky : Nat)))))

/-! ### Checks of blocks (R344) -/

/-- A number lies in a range. -/
def inRange (lo v hi : Nat) : Bool := lo ≤ v && v ≤ hi

/-- OUT_FORM and OUT_BITS (R358, R363). -/
def outFormOk (b : List Byte) (off : Nat) : Bool :=
  (byteAt b off = 0 && byteAt b (off + 1) = 0) || (byteAt b off = 1 && inRange 8 (byteAt b (off + 1)) 16)

/-- Depth range of a LAYOUT (R345). -/
def layoutBits (lay n : Nat) : Bool := if lay = 2 then inRange 8 n 20 else inRange 8 n 16

/-- Raw unpack (R347). -/
def rawOk (b : List Byte) : Bool :=
  let src := byteAt b 0x10
  let lay := byteAt b 0x11
  let dt := byteAt b 0x12
  let dtUsed := src = 0 || ((src = 1 || src = 2) && lay = 0)
  b.length = 32 && src ≤ 3 && (if src = 1 || src = 2 then lay ≤ 5 else lay = 0) &&
    (if dtUsed then (dtypeGroup dt).isSome else dt = 0) && byteAt b 0x13 ≤ 1 && inRange 1 (field b 0x14 2) 16384 &&
    inRange 1 (field b 0x16 2) 8192 && zeros b 0x18 8

/-- PWL decompanding (R350). -/
def pwlOk (b : List Byte) : Bool :=
  let n := byteAt b 0x10
  let e := byteAt b 0x11
  let k := byteAt b 0x12
  let knee (s : Nat) := field b (0x18 + 12 * s) 4
  b.length = 216 && inRange 8 n 20 && inRange n e 24 && inRange 1 k 16 && zeros b 0x13 5 && knee 0 = 0 &&
    (upto 0 16).all (fun s =>
      if s < k then (s = 0 || knee (s - 1) < knee s) && knee s < 2 ^ n && field b (0x1C + 12 * s) 4 < 2 ^ e && field b (0x20 + 12 * s) 4 ≤ 65536
      else zeros b (0x18 + 12 * s) 12)

/-- Black level (R352). -/
def blackOk (b : List Byte) : Bool :=
  b.length = 56 && (upto 0 4).all (fun p => field b (0x20 + 4 * p) 4 ≤ 1048576) && byteAt b 0x30 ≤ 1 && byteAt b 0x31 ≤ 1 &&
    byteAt b 0x32 ≤ 1 && zeros b 0x33 5

/-- Shading mesh (R353). -/
def shadeOk (b : List Byte) : Bool :=
  b.length = 32 && inRange 3 (byteAt b 0x12) 9 && inRange 3 (byteAt b 0x13) 9 && inRange 2 (field b 0x14 2) 1025 &&
    inRange 2 (field b 0x16 2) 1025 && (byteAt b 0x18 = 1 || byteAt b 0x18 = 4) && byteAt b 0x19 ≤ 1 && byteAt b 0x1A ≤ 1 && zeros b 0x1B 5

/-- CFA planes (R355). -/
def cfaOk (b : List Byte) : Bool :=
  b.length = 24 && (upto 0 4).all (fun p => byteAt b (0x10 + p) ≤ 3) && byteAt b 0x14 ≤ 1 && byteAt b 0x15 ≤ 1 && byteAt b 0x16 ≤ 1 && zeros b 0x17 1

/-- Log tone (R356). -/
def logOk (b : List Byte) : Bool :=
  b.length = 32 && inRange 1 (field b 0x10 4) (2 ^ 23 - 1) && zeros b 0x1C 4

/-- Colour conversion (R358). -/
def colourOk (b : List Byte) : Bool :=
  b.length = 80 && byteAt b 0x10 ≤ 3 && byteAt b 0x11 ≤ 1 && byteAt b 0x12 ≤ 1 && outFormOk b 0x13 && zeros b 0x15 3 && zeros b 0x36 2 &&
    (if byteAt b 0x10 = 0 then byteAt b 0x11 = 0 && byteAt b 0x12 = 0 else zeros b 0x18 0x38)

/-- Chroma upsampling (R360). -/
def chromaOk (b : List Byte) : Bool :=
  b.length = 24 && byteAt b 0x10 ≤ 1 && byteAt b 0x11 ≤ 2 && (if byteAt b 0x10 = 1 then byteAt b 0x12 ≤ 1 else byteAt b 0x12 = 0) && zeros b 0x13 5

/-- Crop (R362). -/
def cropBlockOk (b : List Byte) : Bool :=
  b.length = 104 && inRange 1 (field b 0x10 2) 8192 && inRange 1 (field b 0x12 2) 8192 && byteAt b 0x14 ≤ 2 && byteAt b 0x15 ≤ 2 &&
    zeros b 0x16 2 && field b 0x18 2 ≤ 1024 && field b 0x1A 2 ≤ 1024 && zeros b 0x1C 4

/-- One table of a polyphase resize (R363). -/
def resizeTableOk (b : List Byte) (n : Nat) : Bool :=
  let rec_ := 0x48 + 8 * n
  let taps := byteAt b rec_
  let rows := 2 ^ byteAt b (rec_ + 1)
  let off := field b (rec_ + 4) 4
  (taps = 2 || taps = 4 || taps = 6 || taps = 8) && (byteAt b (rec_ + 1) = 5 || byteAt b (rec_ + 1) = 6) && zeros b (rec_ + 2) 2 && off % 8 = 0 &&
    off + 2 * rows * taps ≤ b.length &&
    (upto 0 rows).all (fun r => ((upto 0 taps).map (fun k => sfield b (off + 2 * (r * taps + k)) 2)).sum = 16384)

/-- End of a polyphase resize's last table. -/
def resizeEnd (b : List Byte) : Nat :=
  (upto 0 (byteAt b 0x11)).foldl (fun m n =>
    let rec_ := 0x48 + 8 * n
    max m (field b (rec_ + 4) 4 + 2 * 2 ^ byteAt b (rec_ + 1) * byteAt b rec_)) 0

/-- Polyphase resize (R363). -/
def resizeBlockOk (b : List Byte) : Bool :=
  let planes := byteAt b 0x10
  let tables := byteAt b 0x11
  let tab (t : Nat) : Bool := t < tables || t = 0xFF
  104 ≤ b.length && inRange 1 planes 4 && inRange 1 tables 4 && byteAt b 0x12 ≤ 2 && outFormOk b 0x13 && zeros b 0x15 3 &&
    (upto 0 planes).all (fun p =>
      let r := 0x18 + 8 * p
      inRange 1 (field b r 2) 8192 && inRange 1 (field b (r + 2) 2) 8192 && tab (byteAt b (r + 4)) && tab (byteAt b (r + 5))) &&
    (upto 0 4).all (fun p => zeros b (0x1E + 8 * p) 2) && (upto 0 tables).all (resizeTableOk b) && b.length = cdiv (resizeEnd b) 8 * 8

/-- Mesh warp (R366). -/
def warpOk (b : List Byte) : Bool :=
  let sx := byteAt b 0x12
  let sy := byteAt b 0x13
  let ow := field b 0x18 2
  let oh := field b 0x1A 2
  b.length = 48 && inRange 2 sx 7 && inRange 2 sy 7 && inRange 1 ow 8192 && inRange 1 oh 8192 && (ow - 1) / 2 ^ sx + 2 ≤ field b 0x14 2 &&
    (oh - 1) / 2 ^ sy + 2 ≤ field b 0x16 2 && byteAt b 0x1C ≤ 2 && byteAt b 0x1D ≤ 2 && zeros b 0x1E 2

/-- Affine transform (R367). -/
def affineOk (b : List Byte) : Bool :=
  b.length = 240 && inRange 1 (field b 0x10 2) 8192 && inRange 1 (field b 0x12 2) 8192 && byteAt b 0x14 ≤ 2 && byteAt b 0x15 ≤ 2 && zeros b 0x16 2 &&
    field b 0x18 2 ≤ 16384 && zeros b 0x1A 2 && field b 0x1C 4 ≤ 2 ^ 24

/-- Rotation and flip (R368). -/
def orientOk (b : List Byte) : Bool :=
  b.length = 32 && (upto 0 8).all (fun v => byteAt b (0x10 + v) ≤ 7) && field b 0x18 4 ≤ 65536 && zeros b 0x1C 4

/-- Padding (R369). -/
def padOk (b : List Byte) : Bool :=
  b.length = 48 && field b 0x10 2 ≤ 8192 && field b 0x12 2 ≤ 8192 && byteAt b 0x18 ≤ 64 && byteAt b 0x19 ≤ 64 &&
    (field b 0x10 2 ≠ 0 || byteAt b 0x18 ≠ 0) && (field b 0x12 2 ≠ 0 || byteAt b 0x19 ≠ 0) && byteAt b 0x1A ≤ 2 && zeros b 0x1B 5

/-- A coefficient set's size as the block that names it needs it: kind, SET_INDEX, bytes (R353, R366). -/
def pixelSet (op : Nat) (b : List Byte) : Option (Nat × Nat × Nat) :=
  if op = 0x0103 then some (1, field b 0x10 2, byteAt b 0x18 * field b 0x16 2 * field b 0x14 2 * 2)
  else if op = 0x0122 then some (2, field b 0x10 2, field b 0x16 2 * field b 0x14 2 * 8)
  else none

/-- The body of a pixel operator's block. -/
def pixelOk (op : Nat) (b : List Byte) : Bool :=
  match op with
  | 0x0100 => rawOk b | 0x0101 => pwlOk b | 0x0102 => blackOk b | 0x0103 => shadeOk b | 0x0104 => cfaOk b | 0x0105 => logOk b
  | 0x0110 => colourOk b | 0x0111 => chromaOk b | 0x0120 => cropBlockOk b | 0x0121 => resizeBlockOk b | 0x0122 => warpOk b
  | 0x0123 => affineOk b | 0x0124 => orientOk b | 0x0125 => padOk b | _ => false

/-- A pixel operator other than Raw unpack on planes. -/
def runPixel (op : Nat) (e : OpEnv) (b : List Byte) (ps : List Plane) : OpRes (List Plane) :=
  match op with
  | 0x0101 => runPwl b ps
  | 0x0102 => .ok (mapPlanes (blackLevel b) ps)
  | 0x0103 => .ok (mapPlanes (shade b ((coeffData e.coeffs 1 (field b 0x10 2)).getD [])) ps)
  | 0x0104 => runCfa b ps
  | 0x0105 => .ok (mapPlanes (fun _ _ w => logTone b w) ps)
  | 0x0110 => runColour b ps
  | 0x0111 => runChroma b ps
  | 0x0120 => runCrop e b ps
  | 0x0121 => runResize b ps
  | 0x0122 => runWarp b ((coeffData e.coeffs 2 (field b 0x10 2)).getD []) ps
  | 0x0123 => runAffine e b ps
  | 0x0124 => runOrient e b ps
  | _ => runPad b ps

end Sys2Proof.Machine
end

