-- ==== Sys2Proof/Machine/Flatpack.lean ====
section
/-! DEFINITION. Flatpack, the lossless format of one raw plane (09 R334-R336). -/

namespace Sys2Proof.Machine

/-! ### Bits, most significant first (R335) -/

/-- The `n` low bits of a number, most significant first. -/
def msb (v : Nat) : Nat → List Bool
  | 0 => []
  | n + 1 => bit v n :: msb v n

/-- The number that bits spell, most significant first. -/
def ofMsb (l : List Bool) : Nat := l.foldl (fun n b => 2 * n + b2n b) 0

/-- Bits as bytes, with zero bits up to a byte boundary. -/
def packBits : Nat → List Bool → List Byte
  | 0, _ => []
  | n + 1, l => BitVec.ofNat 8 (ofMsb (l.take 8 ++ List.replicate (8 - (l.take 8).length) false)) :: packBits n (l.drop 8)

/-- The bytes of a bit string. -/
def bitBytes (l : List Bool) : List Byte := packBits (cdiv l.length 8) l

/-- The bits of bytes. -/
def byteBits (l : List Byte) : List Bool := l.flatMap (fun b => msb b.toNat 8)

/-- Read `n` bits. -/
def getBits (n : Nat) (l : List Bool) : Option (Nat × List Bool) := if l.length < n then none else some (ofMsb (l.take n), l.drop n)

/-- Read one-bits up to a zero bit. -/
def getUnary : List Bool → Option (Nat × List Bool)
  | [] => none
  | false :: t => some (0, t)
  | true :: t => (getUnary t).map (fun p => (p.1 + 1, p.2))

/-! ### Prediction (R334) -/

/-- The prediction from the neighbours that are available, for `n`-bit samples. -/
def flatPred (n : Nat) (a b c : Option Int) : Int :=
  match a, b, c with
  | some a, some b, some c => if max a b ≤ c then min a b else if c ≤ min a b then max a b else a + b - c
  | some a, _, _ => a
  | none, some b, _ => b
  | none, none, _ => (2 ^ (n - 1) : Nat)

/-- The prediction of the sample after `done` (its line so far, newest first) with the line two above it in the segment. -/
def linePred (n : Nat) (above : Option (List Int)) (done : List Int) : Int :=
  let x := done.length
  flatPred n (done[1]?) (match above with | some l => l[x]? | none => none)
    (if x < 2 then none else match above with | some l => l[x - 2]? | none => none)

/-- m of a residual, and back. -/
def foldRes (e : Int) : Nat := if 0 ≤ e then (2 * e).toNat else (-2 * e - 1).toNat
def unfoldRes (m : Nat) : Int := if m % 2 = 0 then (m / 2 : Nat) else -((m / 2 : Nat) : Int) - 1

/-- The residuals of a line. -/
def lineRes (n : Nat) (above : Option (List Int)) : List Int → List Int → List Nat
  | _, [] => []
  | done, p :: t => foldRes (p - linePred n above done) :: lineRes n above (p :: done) t

/-! ### Coding (R335) -/

/-- cost(k) of a group. -/
def groupCost (ms : List Nat) (k : Nat) : Nat := (ms.map (fun m => m / 2 ^ k + 1 + k)).sum

/-- The smallest k with the least cost. -/
def bestK (n : Nat) (ms : List Nat) : Nat :=
  (upto 1 n).foldl (fun b k => if groupCost ms k < groupCost ms b then k else b) 0

/-- One group of samples with their residuals. -/
def codeGroup (n : Nat) (ps : List Int) (ms : List Nat) : List Bool :=
  let k := bestK n ms
  if groupCost ms k < ps.length * n then
    msb k 5 ++ ms.flatMap (fun m => List.replicate (m / 2 ^ k) true ++ [false] ++ msb m k)
  else msb 31 5 ++ ps.flatMap (fun p => msb p.toNat n)

/-- A line in groups of 16. -/
def codeGroups (n : Nat) : Nat → List Int → List Nat → List Bool
  | 0, _, _ => []
  | f + 1, ps, ms => codeGroup n (ps.take 16) (ms.take 16) ++ codeGroups n f (ps.drop 16) (ms.drop 16)

/-- One line. -/
def codeLine (n : Nat) (above : Option (List Int)) (ps : List Int) : List Bool :=
  codeGroups n (cdiv ps.length 16) ps (lineRes n above [] ps)

/-- The lines of a segment; `a` and `b` are the lines two and one above. -/
def codeLines (n : Nat) (a b : Option (List Int)) : List (List Int) → List Bool
  | [] => []
  | l :: t => codeLine n a l ++ codeLines n b (some l) t

/-- A segment's bytes. -/
def codeSegment (n : Nat) (lines : List (List Int)) : List Byte := bitBytes (codeLines n none none lines)

/-- The lines of a plane in segments of 64. -/
def segmentsOf : Nat → List (List Int) → List (List (List Int))
  | 0, _ => []
  | k + 1, l => l.take 64 :: segmentsOf k (l.drop 64)

/-- Lines of a plane. -/
def planeLines (p : Plane) : List (List Int) := (upto 0 p.h).map (fun y => (p.elems.drop (y * p.w)).take p.w)

/-- Running sums: the offset of each part. -/
def offsets : Nat → List (List Byte) → List Nat
  | _, [] => []
  | o, s :: t => o :: offsets (o + s.length) t

/-- Bytes before the data of a container of `k` segments. -/
def flatHead (k : Nat) : Nat := 64 + cdiv (4 * k) 64 * 64

/-- A container (R336). -/
def flatEncode (n : Nat) (p : Plane) : List Byte :=
  let segs := (segmentsOf (cdiv p.h 64) (planeLines p)).map (codeSegment n)
  let data := segs.flatMap id
  let h := leBytes 0x31504C46 4 ++ leBytes p.w 2 ++ leBytes p.h 2 ++ leBytes n 1 ++ leBytes 1 1 ++ leBytes segs.length 2 ++
    leBytes data.length 4 ++ leBytes (crc32c data) 4 ++ leBytes 0 40
  h ++ leBytes (crc32c h) 4 ++ slice ((offsets 0 segs).flatMap (leBytes · 4)) 0 (flatHead segs.length - 64) ++ data

/-! ### Decoding (R314, R336) -/

/-- The samples of a group that codes residuals with `k` low bits. -/
def readCoded (n k : Nat) (above : Option (List Int)) : Nat → List Int → List Bool → Option (List Int × List Bool)
  | 0, done, l => some (done, l)
  | g + 1, done, l =>
    match getUnary l with
    | none => none
    | some (q, l1) => match getBits k l1 with
      | none => none
      | some (r, l2) =>
        let p := linePred n above done + unfoldRes (q * 2 ^ k + r)
        if p < 0 || (2 ^ n : Nat) ≤ p then none else readCoded n k above g (p :: done) l2

/-- The samples of a group that holds them in `n` bits. -/
def readPlain (n : Nat) : Nat → List Int → List Bool → Option (List Int × List Bool)
  | 0, done, l => some (done, l)
  | g + 1, done, l => match getBits n l with
    | none => none
    | some (v, l1) => readPlain n g ((v : Int) :: done) l1

/-- The groups of a line of `w` samples. -/
def readGroups (n w : Nat) (above : Option (List Int)) : Nat → List Int → List Bool → Option (List Int × List Bool)
  | 0, done, l => some (done, l)
  | f + 1, done, l =>
    match getBits 5 l with
    | none => none
    | some (k, l1) =>
      let g := min 16 (w - done.length)
      match (if k = 31 then readPlain n g done l1 else if 21 ≤ k then none else readCoded n k above g done l1) with
      | none => none
      | some (d, l2) => readGroups n w above f d l2

/-- The lines of a segment. -/
def readLines (n w : Nat) : Nat → Option (List Int) → Option (List Int) → List Bool → Option (List (List Int) × List Bool)
  | 0, _, _, l => some ([], l)
  | h + 1, a, b, l =>
    match readGroups n w a (cdiv w 16) [] l with
    | none => none
    | some (d, l1) =>
      let line := d.reverse
      match readLines n w h b (some line) l1 with
      | none => none
      | some (rest, l2) => some (line :: rest, l2)

/-- A segment's lines; none where it is damaged (R336). -/
def readSegment (n w h : Nat) (seg : List Byte) : Option (List (List Int)) :=
  match readLines n w h none none (byteBits seg) with
  | some (lines, rest) => if rest.length < 8 && rest.all (!·) then some lines else none
  | none => none

/-- The fields of a container's header are valid; its table of segments is part of it (log 32). -/
def flatFieldsOk (u : List Byte) : Bool :=
  let w := field u 4 2
  let h := field u 6 2
  let n := byteAt u 8
  let k := field u 0xA 2
  let off (i : Nat) : Nat := field u (0x40 + 4 * i) 4
  64 ≤ u.length && field u 0 4 = 0x31504C46 && inRange 64 w 16384 && w % 2 = 0 && inRange 64 h 8192 && inRange 8 n 20 && byteAt u 9 = 1 &&
    k = cdiv h 64 && zeros u 0x14 0x28 && u.length = flatHead k + field u 0xC 4 &&
    off 0 = 0 && (upto 1 (k - 1)).all (fun i => off (i - 1) ≤ off i && off i ≤ field u 0xC 4)

/-- A decoded container: the plane, the lines' segments that were concealed, and the ERROR_CODE. -/
structure FlatOut where
  plane : Plane
  concealed : List Nat
  code : Nat
  deriving DecidableEq, Repr

/-- HEADER_CRC matches. -/
def flatCrcOk (u : List Byte) : Bool := field u 0x3C 4 = crc32c (slice u 0 0x3C)

/-- Decode a container whose header fields are valid; a header or data CRC that does not match conceals every segment (R313; log 32). -/
def flatDecode (u : List Byte) : FlatOut :=
  let w := field u 4 2
  let h := field u 6 2
  let n := byteAt u 8
  let k := field u 0xA 2
  let size := field u 0xC 4
  let data := slice u (flatHead k) size
  let off (i : Nat) : Nat := if i < k then field u (0x40 + 4 * i) 4 else size
  let crcBad := !flatCrcOk u || crc32c data ≠ field u 0x10 4
  let rows (i : Nat) : Nat := min 64 (h - 64 * i)
  let seg (i : Nat) : Option (List (List Int)) :=
    if crcBad then none else readSegment n w (rows i) (slice data (off i) (off (i + 1) - off i))
  let segs := (upto 0 k).map (fun i => (i, seg i))
  let grey (i : Nat) : List (List Int) := List.replicate (rows i) (List.replicate w ((2 ^ (n - 1) : Nat) : Int))
  let lost := segs.filterMap (fun p => if p.2.isNone then some p.1 else none)
  { plane := { w, h, form := some n, elems := (segs.flatMap (fun p => p.2.getD (grey p.1))).flatMap id }, concealed := lost,
    code := if crcBad then 8 else if lost.isEmpty then 0 else 1 }

end Sys2Proof.Machine
end

