-- ==== Sys2Proof/Machine/Encoder.lean ====
section
/-! DEFINITION. The encoder's decisions: modes and costs, transforms and quantising, motion search, rows and fallback, slices and tiles
(09 R315, R318-R324, R327). H.264, H.265 and JPEG fix the predictions, the reconstruction and the entropy coding, which are free here
(log 10). -/

namespace Sys2Proof.Machine

/-! ### The block (R315, R324) -/

/-- Fields of an Encode block that several rules read. -/
structure EncBlock where
  codec : Nat
  division : Nat
  orient : Nat
  sliceRows : Nat
  w : Nat
  h : Nat
  qpMax : Nat
  depth : Nat
  idr : Nat
  channel : Nat
  frameUs : Nat
  kbps : Nat
  bufMs : Nat
  maxAu : Nat
  deriving DecidableEq, Repr

/-- The fields (R315). -/
def encBlock (b : List Byte) : EncBlock :=
  { codec := byteAt b 0x10, division := byteAt b 0x11, orient := byteAt b 0x12, sliceRows := byteAt b 0x13, w := field b 0x14 2,
    h := field b 0x16 2, qpMax := byteAt b 0x1A, depth := byteAt b 0x1B, idr := field b 0x1C 2, channel := byteAt b 0x1E,
    frameUs := field b 0x20 4, kbps := field b 0x24 4, bufMs := field b 0x28 4, maxAu := field b 0x2C 4 }

/-- B and D of R323. -/
def EncBlock.buf (e : EncBlock) : Nat := e.kbps * e.bufMs
def EncBlock.drain (e : EncBlock) : Nat := e.kbps * e.frameUs / 1000

/-- Coding rows and columns (R324). -/
def EncBlock.rows (e : EncBlock) : Nat := cdiv e.h 64
def EncBlock.cols (e : EncBlock) : Nat := cdiv e.w 64

/-- ROW_MAX and ROW_FB. -/
def EncBlock.rowMax (e : EncBlock) : Nat := if e.codec = 3 then e.cols * 20480 else e.cols * 8192
def EncBlock.rowFb (e : EncBlock) : Nat := if e.codec = 3 then e.cols * 96 + 64 else e.cols * 8 + 64

/-- Units of 16x16 samples in both dimensions. -/
def EncBlock.unitsX (e : EncBlock) : Nat := cdiv e.w 16
def EncBlock.unitsY (e : EncBlock) : Nat := cdiv e.h 16

/-! ### Division (R327) -/

/-- Tile columns: `units` of them under TILES. -/
def EncBlock.tiles (e : EncBlock) (units : Nat) : Nat := if e.division = 2 then max units 1 else 1

/-- First column of a tile, of uniform spacing (log 112). -/
def EncBlock.tileStart (e : EncBlock) (units t : Nat) : Nat := t * e.cols / e.tiles units

/-- Tile of a column. -/
def EncBlock.tileOf (e : EncBlock) (units c : Nat) : Nat :=
  ((upto 0 (e.tiles units)).find? (fun t => decide (c < e.tileStart units (t + 1)))).getD 0

/-- Rows of each run that a slice may take: SLICE_ROWS rows, and under ROWS none crosses a band of ceil(K / u) rows (R315, R327). -/
def sliceRuns (e : EncBlock) (units : Nat) : List Nat :=
  let band := if e.division = 1 && 1 < units then cdiv e.rows units else e.rows
  let per := if e.sliceRows = 0 then band else e.sliceRows
  (upto 0 (cdiv e.rows (max band 1))).flatMap (fun j =>
    let n := min band (e.rows - j * band)
    (upto 0 (cdiv n (max per 1))).map (fun i => min per (n - i * per)))

/-- Each run with its first row. -/
def runStarts : Nat → List Nat → List (Nat × Nat)
  | _, [] => []
  | k, n :: t => (k, n) :: runStarts (k + n) t

/-- The slices: their tiles, first row and rows. Tiles without SLICE_ROWS share one slice; with it each tile is cut by itself
(log 112). -/
def slicesOf (e : EncBlock) (units : Nat) : List (List Nat × Nat × Nat) :=
  let ts := upto 0 (e.tiles units)
  let runs := runStarts 0 (sliceRuns e units)
  if e.sliceRows = 0 then runs.map (fun r => (ts, r.1, r.2)) else ts.flatMap (fun t => runs.map (fun r => ([t], r.1, r.2)))

/-- The slice that holds a row of a tile. -/
def sliceAt (e : EncBlock) (units k t : Nat) : Nat :=
  ((enum (slicesOf e units)).find? (fun p => p.2.1.any (· == t) && p.2.2.1 ≤ k && decide (k < p.2.2.1 + p.2.2.2))).elim 0 (·.1)

/-- The 16x16 units of coding row `k` in coding order: CTUs of 64x64 in z-order for H.265, lines of macroblocks for H.264 (R318). -/
def rowUnits (e : EncBlock) (k : Nat) : List (Nat × Nat) :=
  let l := if e.codec = 1 then
      (upto 0 e.cols).flatMap (fun c => (upto 0 16).map (fun i => (4 * c + i % 2 + 2 * (i / 4 % 2), 4 * k + i / 2 % 2 + 2 * (i / 8))))
    else (upto 0 4).flatMap (fun j => (upto 0 e.unitsX).map (fun c => (c, 4 * k + j)))
  l.filter (fun p => p.1 < e.unitsX && decide (p.2 < e.unitsY))

/-! ### One picture being coded -/

/-- What the decisions about a picture depend on. -/
structure EncPic where
  par : PicParams
  src : List Plane
  /-- The reference picture's planes, in whole units, and its units. -/
  ref : List (List Int)
  refUnits : List CodedUnit
  deriving DecidableEq, Repr

/-- The units coded so far with their reconstructed samples by plane. -/
abbrev Coded := List (CodedUnit × List (List Int))

def EncPic.block (c : EncPic) : EncBlock := encBlock c.par.bytes
def EncPic.qp (c : EncPic) : Nat := c.par.qp
def EncPic.idr (c : EncPic) : Bool := c.par.idr
def EncPic.units (c : EncPic) : Nat := c.par.cores

/-- Side of a unit in a plane. -/
def side (p : Nat) : Nat := if p = 0 then 16 else 8

/-- A source sample; beyond the picture's edge it is free. -/
def EncPic.source (c : EncPic) (p x y : Nat) : Int :=
  match c.src[p]? with
  | some s => if x < s.w && y < s.h then s.raw x y else (Config.beyond s.elems x y % 2 ^ c.block.depth : Nat)
  | none => 0

/-- The source samples of a unit in a plane. -/
def EncPic.sourceUnit (c : EncPic) (p col row : Nat) : List Int :=
  (upto 0 (side p)).flatMap (fun y => (upto 0 (side p)).map (fun x => c.source p (side p * col + x) (side p * row + y)))

/-- A reference sample: edges are repeated (R320; log 113 for places beyond the 64 samples). -/
def EncPic.refAt (c : EncPic) (p : Nat) (x y : Int) : Int :=
  let w := side p * c.block.unitsX
  let h := side p * c.block.unitsY
  (c.ref.getD p []).getD ((clampI y 0 (h - 1)).toNat * w + (clampI x 0 (w - 1)).toNat) 0

/-- A square of reference samples. -/
def EncPic.refSquare (c : EncPic) (p : Nat) (x y : Int) (n : Nat) : List Int :=
  (upto 0 n).flatMap (fun j => (upto 0 n).map (fun i => c.refAt p (x + i) (y + j)))

/-- The first `n` of a list, zeros behind its end. -/
def fitInts (n : Nat) (l : List Int) : List Int := (upto 0 n).map (fun i => l.getD i 0)

/-- Prediction of a unit in a plane with a vector: the samples themselves at whole ones, else the standard's filters (R320). -/
def EncPic.interPred (c : EncPic) (p col row : Nat) (v : Vec) : List Int :=
  let n := side p
  let q : Nat := 64 / n
  let ix := fdiv v.x q
  let iy := fdiv v.y q
  let fx := (v.x - q * ix).toNat
  let fy := (v.y - q * iy).toNat
  let x := ((n * col : Nat) : Int) + ix
  let y := ((n * row : Nat) : Int) + iy
  if fx = 0 && fy = 0 then c.refSquare p x y n
  else fitInts (n * n) (Config.interpolate c.block.codec c.block.depth p fx fy (c.refSquare p (x - 3) (y - 3) (n + 7)))

/-- Intra prediction of a unit in a plane: the chroma direction is derived for H.265 and DC for H.264 (R318). -/
def EncPic.intraPred (c : EncPic) (p : Nat) (u : CodedUnit) (m : UnitMode) (done : Coded) : List Int :=
  let dir := if p ≠ 0 && c.block.codec = 0 then .dc else m
  fitInts (side p * side p) (Config.intraPred c.block.codec c.block.depth dir p u done)

/-- Prediction of a unit in its mode. -/
def EncPic.predict (c : EncPic) (p : Nat) (u : CodedUnit) (done : Coded) : List Int :=
  if u.moves then c.interPred p u.col u.row u.vec else c.intraPred p u u.mode done

/-- SAD over luma between the source and a prediction (R318). -/
def EncPic.sad (c : EncPic) (col row : Nat) (pred : List Int) : Nat :=
  ((List.zip (c.sourceUnit 0 col row) pred).map (fun q => (q.1 - q.2).natAbs)).sum

/-! ### Costs (R318, R320) -/

/-- POW6 (R318). -/
def pow6 (r : Nat) : Nat := [65536, 73562, 82570, 92682, 104032, 116772].getD r 65536

/-- L16 of a QP. -/
def l16 (qp : Nat) : Nat := 2 ^ (qp / 6) * pow6 (qp % 6) / 16384

/-- EGBITS of a difference. -/
def egBits (v : Int) : Nat := 2 * Nat.log2 ((if 0 < v then 2 * v - 1 else -2 * v).toNat + 1) + 1

/-- J of a vector (R320). -/
def EncPic.motionCost (c : EncPic) (u : CodedUnit) (pred : Vec) (v : Vec) : Nat :=
  c.sad u.col u.row (c.interPred 0 u.col u.row v) + l16 c.qp * (egBits (v.x - pred.x) + egBits (v.y - pred.y)) / 16

/-! ### Motion search (R321, R322) -/

/-- The unit at a place that is coded already, in the same slice and tile. -/
def neighbour (done : List CodedUnit) (u : CodedUnit) (dx dy : Int) : Option CodedUnit :=
  done.find? (fun n => decide ((n.col : Int) = u.col + dx) && decide ((n.row : Int) = u.row + dy) && n.slice = u.slice && n.tile = u.tile)

/-- The vector of a neighbour that has one. -/
def vectorOf (n : Option CodedUnit) : List Vec := match n with | some u => if u.moves then [u.vec] else [] | none => []

/-- Put a number into a rising list. -/
def insertInt (x : Int) : List Int → List Int
  | [] => [x]
  | y :: t => if x ≤ y then x :: y :: t else y :: insertInt x t

/-- The lower median; 0 of nothing. -/
def lowerMedian (l : List Int) : Int := (l.foldl (fun m x => insertInt x m) []).getD ((l.length - 1) / 2) 0

/-- The global candidate: the median of every INTER vector of the reference picture. -/
def globalVec (ref : List CodedUnit) : Vec :=
  let l := ref.filter (·.mode == .inter)
  { x := lowerMedian (l.map (·.vec.x)), y := lowerMedian (l.map (·.vec.y)) }

/-- Round a vector to whole samples and clamp it around the unit and to the padded area. -/
def EncPic.settleVec (c : EncPic) (u : CodedUnit) (v : Vec) : Vec :=
  let one (a : Int) (reach : Int) (at_ n : Nat) : Int :=
    4 * clampI (clampI (rneDiv a 4) (-reach) reach) (-64 - (16 * at_ : Nat)) ((16 * n + 64 : Nat) - 16 - (16 * at_ : Nat))
  { x := one v.x 128 u.col c.block.unitsX, y := one v.y 64 u.row c.block.unitsY }

/-- The candidates in order, each once (R321). -/
def EncPic.candidates (c : EncPic) (u : CodedUnit) (done : List CodedUnit) : List Vec :=
  let right := neighbour done u 1 (-1)
  ([({} : Vec)] ++ vectorOf (neighbour done u (-1) 0) ++ vectorOf (neighbour done u 0 (-1)) ++
    vectorOf (if right.isSome then right else neighbour done u (-1) (-1)) ++
    vectorOf (c.refUnits.find? (fun n => n.col = u.col && n.row = u.row)) ++ [globalVec c.refUnits]).eraseDups.map (c.settleVec u)

/-- The first of least cost among `b` and the vectors that follow: a later one must be strictly below. -/
def lowest (cost : Vec → Nat) : Vec → List Vec → Vec
  | b, [] => b
  | b, v :: t => lowest cost (if cost v < cost b then v else b) t

/-- A vector moved. -/
def moveVec (v : Vec) (d : Int × Int) : Vec := { x := v.x + d.1, y := v.y + d.2 }

/-- Neighbours left, right, up and down at a distance. -/
def cross (n : Int) : List (Int × Int) := [(-n, 0), (n, 0), (0, -n), (0, n)]

/-- The eight neighbours at a distance, in row order from the top left. -/
def ring8 (n : Int) : List (Int × Int) := [(-n, -n), (0, -n), (n, -n), (-n, 0), (n, 0), (-n, n), (0, n), (n, n)]

/-- Integer steps while one is strictly better. -/
def integerSteps (cost : Vec → Nat) : Nat → Vec → Vec
  | 0, v => v
  | n + 1, v =>
    let b := lowest cost v ((cross 4).map (moveVec v))
    if b = v then v else integerSteps cost n b

/-- v* (R322). -/
def EncPic.search (c : EncPic) (u : CodedUnit) (pred : Vec) (done : List CodedUnit) : Vec :=
  let cost := c.motionCost u pred
  let first := match c.candidates u done with | v :: t => lowest cost v t | [] => {}
  let whole := integerSteps cost 16 first
  let halved := lowest cost whole ((ring8 2).map (moveVec whole))
  lowest cost halved ((ring8 1).map (moveVec halved))

/-! ### Choice of the mode (R318) -/

/-- The modes of a unit with their vectors and costs, in the order in which ties are settled. -/
def EncPic.choices (c : EncPic) (u : CodedUnit) (done : Coded) : List (CodedUnit × Nat) :=
  let before := done.map (·.1)
  let l := l16 c.qp
  let bits := if c.idr then 4 else 8
  let moving : List (CodedUnit × Nat) :=
    if c.idr then []
    else
      let s := Config.skipVector c.block.codec u before
      let p := Config.mvPredictor c.block.codec u before
      let v := c.search u p before
      [({ u with mode := .skip, vec := s }, c.sad u.col u.row (c.interPred 0 u.col u.row s) + l / 16),
       ({ u with mode := .inter, vec := v }, c.motionCost u p v + 2 * l / 16)]
  moving ++ ([UnitMode.dc, .planar, .hor, .ver].filter (fun m => m == .dc || Config.intraUsable c.block.codec m u before)).map (fun m =>
    ({ u with mode := m }, c.sad u.col u.row (c.intraPred 0 u m done) + bits * l / 16))

/-- The choice of lowest cost, the first of equals. -/
def cheapest : CodedUnit × Nat → List (CodedUnit × Nat) → CodedUnit × Nat
  | b, [] => b
  | b, x :: t => cheapest (if x.2 < b.2 then x else b) t

/-! ### Transforms and quantising (R319) -/

/-- One coefficient's level. -/
def quant (c : Int) (mult off shift : Nat) : Int := c.sign * ((c.natAbs * mult + off) / 2 ^ shift : Nat)

/-- The rounding offset of a shift: 171 or 85 parts of 512. -/
def roundOff (intra : Bool) (shift : Nat) : Nat := (if intra then 171 else 85) * 2 ^ (shift - 9)

/-- A separable transform of an N x N block: element (i, j) is the coefficient of horizontal index i and vertical index j. `a` and `b`
round its two stages. -/
def transform2 (n : Nat) (m : Nat → Nat → Int) (a b : Int → Int) (f : Nat → Nat → Int) (i j : Nat) : Int :=
  let sum (g : Nat → Int) : Int := ((upto 0 n).map g).sum
  if Config.columnsFirst then b (sum (fun x => m i x * a (sum (fun y => m j y * f x y))))
  else b (sum (fun y => m j y * a (sum (fun x => m i x * f x y))))

/-- The residual of a unit in a plane. -/
def residual (src pred : List Int) (n x y : Nat) : Int := src.getD (n * y + x) 0 - pred.getD (n * y + x) 0

/-- Every element of an N x N block, line by line. -/
def squareOf (n : Nat) (f : Nat → Nat → Int) : List Int := (upto 0 n).flatMap (fun y => (upto 0 n).map (fun x => f x y))

/-- The H.265 levels of an N x N block. -/
def hevcLevels (n depth qp : Nat) (intra : Bool) (f : Nat → Nat → Int) : List Int :=
  let lg := Nat.log2 n
  let s1 := lg + depth - 9
  let s2 := lg + 6
  let shift := 29 + qp / 6 - depth - lg
  let qs := [26214, 23302, 20560, 18396, 16384, 14564].getD (qp % 6) 0
  let rounded (s : Nat) (v : Int) : Int := asr (v + 2 ^ (s - 1)) s
  squareOf n (fun i j => quant (transform2 n (Config.transMatrix 1 n) (rounded s1) (rounded s2) f i j) qs (roundOff intra shift) shift)

/-- The multipliers of H.264 by position: both indices even, both odd, mixed. -/
def avcMult (qp i j : Nat) : Nat :=
  let k := if i % 2 = 0 && j % 2 = 0 then 0 else if i % 2 = 1 && j % 2 = 1 then 1 else 2
  ([[13107, 5243, 8066], [11916, 4660, 7490], [10082, 4194, 6554], [9362, 3647, 5825], [8192, 3355, 5243], [7282, 2893, 4559]].getD
    (qp % 6) []).getD k 0

/-- The H.264 coefficients of the 4x4 block at (bx, by). -/
def avcCoeff (f : Nat → Nat → Int) (bx bY i j : Nat) : Int :=
  transform2 4 (Config.transMatrix 0 4) id id (fun x y => f (4 * bx + x) (4 * bY + y)) i j

/-- The levels of a 4x4 block; its DC level is 0 where the DC coefficients are coded apart. -/
def avcBlock (qp : Nat) (intra apart : Bool) (f : Nat → Nat → Int) (bx bY : Nat) : List Int :=
  let shift := 15 + qp / 6
  squareOf 4 (fun i j => if apart && i = 0 && j = 0 then 0 else quant (avcCoeff f bx bY i j) (avcMult qp i j) (roundOff intra shift) shift)

/-- The H.264 levels of a unit's luma: its blocks, and for Intra16x16 the DC levels after the Hadamard. -/
def avcLuma (qp : Nat) (intra : Bool) (f : Nat → Nat → Int) : List (List Int) :=
  let shift := 15 + qp / 6
  let blocks := (upto 0 16).map (fun k => avcBlock qp intra intra f (k % 4) (k / 4))
  if intra then
    blocks ++ [squareOf 4 (fun i j =>
      quant (asr (transform2 4 (Config.transMatrix 0 0) id id (fun x y => avcCoeff f x y 0 0) i j) 1) (avcMult qp 0 0)
        (2 * roundOff intra shift) (shift + 1))]
  else blocks

/-- The H.264 levels of a chroma plane: its blocks and the DC levels. -/
def avcChroma (qp : Nat) (intra : Bool) (f : Nat → Nat → Int) : List (List Int) :=
  (upto 0 4).map (fun k => avcBlock qp intra true f (k % 2) (k / 2)) ++
    [fitInts 4 (Config.avcChromaDc qp intra ((upto 0 4).map (fun k => avcCoeff f (k % 2) (k / 2) 0 0)))]

/-- The levels of a unit in a plane. -/
def EncPic.levels (c : EncPic) (p : Nat) (u : CodedUnit) (pred : List Int) : List (List Int) :=
  let intra := !u.moves
  let f := residual (c.sourceUnit p u.col u.row) pred (side p)
  let qp := if p = 0 then c.qp else Config.chromaQp c.block.codec c.qp
  if c.block.codec = 1 then [hevcLevels (side p) c.block.depth qp intra f]
  else if p = 0 then avcLuma qp intra f else avcChroma qp intra f

/-! ### Units, rows and the picture -/

/-- Planes of a picture. -/
def planeNos : List Nat := [0, 1, 2]

/-- The unit at a place, before its decision. -/
def EncPic.unitAt (c : EncPic) (col row : Nat) : CodedUnit :=
  let t := c.block.tileOf c.units (col / 4)
  { col, row, slice := sliceAt c.block c.units (row / 4) t, tile := t, mode := .dc }

/-- A unit without a residual: its reconstruction is its prediction. -/
def EncPic.bareUnit (c : EncPic) (u : CodedUnit) (done : Coded) : CodedUnit × List (List Int) :=
  (u, planeNos.map (fun p => c.predict p u done))

/-- The PCM form of a unit holds its samples. -/
def EncPic.pcmUnit (c : EncPic) (u : CodedUnit) : CodedUnit × List (List Int) :=
  let l := planeNos.map (fun p => c.sourceUnit p u.col u.row)
  ({ u with mode := .pcm, vec := {}, levels := l }, l)

/-- A unit with its residual. -/
def EncPic.fullUnit (c : EncPic) (u : CodedUnit) (done : Coded) : CodedUnit × List (List Int) :=
  let each := planeNos.map (fun p =>
    let pred := c.predict p u done
    let l := c.levels p u pred
    (l, fitInts (side p * side p) (Config.rebuild c.block.codec c.block.depth c.qp p u.mode l pred)))
  ({ u with levels := each.flatMap (·.1) }, each.map (·.2))

/-- Decide a unit and code it; one larger than its PCM form becomes PCM (R318, R319). -/
def EncPic.codeOne (c : EncPic) (done : Coded) (at_ : Nat × Nat) : Coded :=
  let u := c.unitAt at_.1 at_.2
  let before := done.map (·.1)
  let best := match c.choices u done with | x :: t => (cheapest x t).1 | [] => u
  let r := if best.mode == .skip then c.bareUnit best done else c.fullUnit best done
  let pcm := c.pcmUnit u
  let big := decide (Config.unitBits c.par before pcm.1 < Config.unitBits c.par before r.1)
  done ++ [if big then pcm else r]

/-- A unit of a fallback row: SKIP in a P picture, INTRA DC without residual in an IDR picture (R324). -/
def EncPic.fallOne (c : EncPic) (done : Coded) (at_ : Nat × Nat) : Coded :=
  let u := c.unitAt at_.1 at_.2
  done ++ [if c.idr then c.bareUnit { u with mode := .dc } done
    else c.bareUnit { u with mode := .skip, vec := Config.skipVector c.block.codec u (done.map (·.1)) } done]

/-- What one coding row became: its bytes by tile, and whether it fell back. -/
structure RowOut where
  lens : List Nat
  fallback : Bool
  deriving DecidableEq, Repr

/-- The coding rows from row `k` on, with `u` bytes produced: `code` codes a row, normally or as fallback, and says how many bytes it
takes in each tile (R324). -/
def codeRows {α : Type} (e : EncBlock) (limit : Nat) (code : Nat → Bool → α → α × List Nat) : Nat → Nat → Nat → α → List RowOut × α
  | _, _, 0, a => ([], a)
  | k, u, n + 1, a =>
    let fb := decide (limit < u + e.rowMax + n * e.rowFb + 64)
    let r := code k fb a
    let more := codeRows e limit code (k + 1) (u + r.2.sum) n r.1
    ({ lens := r.2, fallback := fb } :: more.1, more.2)

/-- A tile's part of the bytes that a row may take. -/
def EncBlock.tileShare (e : EncBlock) (units t : Nat) (fb : Bool) : Nat :=
  (if fb then e.rowFb else e.rowMax) * (e.tileStart units (t + 1) - e.tileStart units t) / max e.cols 1

/-- One coding row of H.264 or H.265. -/
def EncPic.codeRow (c : EncPic) (k : Nat) (fb : Bool) (done : Coded) : Coded × List Nat :=
  let d := (rowUnits c.block k).foldl (if fb then c.fallOne else c.codeOne) done
  (d, (upto 0 (c.block.tiles c.units)).map (fun t =>
    min (Config.rowLen c.par (d.map (·.1)) k t) (c.block.tileShare c.units t fb)))

/-- A reconstructed plane from its units. -/
def EncPic.plane (c : EncPic) (done : Coded) (p : Nat) : List Int :=
  let n := side p
  (upto 0 (n * c.block.unitsY)).flatMap (fun y => (upto 0 (n * c.block.unitsX)).map (fun x =>
    match done.find? (fun d => d.1.col = x / n && d.1.row = y / n) with
    | some d => (d.2.getD p []).getD (n * (y % n) + x % n) 0
    | none => 0))

/-- The reconstruction of the coded picture: deblocked (R318). -/
def EncPic.recon (c : EncPic) (done : Coded) : List (List Int) :=
  let l := Config.deblock c.block.codec c.block.depth c.qp (done.map (·.1)) (planeNos.map (c.plane done))
  planeNos.map (fun p => fitInts (side p * side p * c.block.unitsX * c.block.unitsY) (l.getD p []))

/-! ### JPEG (R323, R324) -/

/-- The example tables scaled by a quality. -/
def jpegTables (q : Nat) : List (List Nat) :=
  let s := if q < 50 then 5000 / max q 1 else 200 - 2 * q
  [0, 1].map (fun c => (upto 0 64).map (fun i => max 1 (min 255 ((Config.jpegExample c i * s + 50) / 100))))

/-- One coding row of JPEG: a fallback row has blocks with a DC difference of 0 and no AC levels. -/
def jpegRow (b : List Byte) (units q : Nat) (src : List (List Int)) (k : Nat) (fb : Bool) (done : List (List Byte)) : List (List Byte) × List Nat :=
  let e := encBlock b
  let blocks := Config.jpegBlocks b units (jpegTables q) src k
  let coded := if fb then blocks.map (fun _ => ({ dc := 0, ac := [] } : JpegBlock)) else blocks
  let bytes := (Config.jpegBytes b units k coded).take (if fb then e.rowFb else e.rowMax)
  (done ++ [bytes], [bytes.length])

end Sys2Proof.Machine
end

