-- ==== Sys2Proof/Machine/Codec.lean ====
section
/-! DEFINITION. The codec operators: descriptors and sessions, decoding, encoding with its rate control and fallback, and what
their blocks must hold (09 R303-R328). H.264, H.265, AV1 and JPEG are standards outside the spec: what their syntax says and
codes is free (log 10). -/

namespace Sys2Proof.Machine

/-! ### Formats (R303, R309) -/

/-- The largest picture of a format. -/
def maxPicture (codec : Nat) : Nat × Nat :=
  match codec with | 3 => (8192, 8192) | 4 => (16384, 8192) | _ => (8192, 4320)

/-- Planes of a picture: 0 grey, 1 4:2:0, 2 4:2:2, 3 4:4:4. -/
def chromaSizes (chroma w h : Nat) : List (Nat × Nat) :=
  match chroma with
  | 0 => [(w, h)]
  | 1 => [(w, h), (w / 2, h / 2), (w / 2, h / 2)]
  | 2 => [(w, h), (w / 2, h), (w / 2, h)]
  | _ => [(w, h), (w, h), (w, h)]

/-- Sizes up to multiples of 64. -/
def up64 (n : Nat) : Nat := cdiv n 64 * 64

/-- MODE of a session: compressed above 2,088,960 samples. -/
def sessionMode (w h : Nat) : Nat := b2n (2088960 < w * h)

/-- Bytes that a slot needs (R309): samples of `bps` bytes, with the side table of compressed mode. -/
def slotNeed (codec chroma w h bps : Nat) : Nat :=
  let luma := up64 w * up64 h * bps
  let raw := if codec = 4 || chroma = 0 then luma else if chroma = 1 then luma * 3 / 2 else if chroma = 2 then luma * 2 else luma * 3
  cdiv (raw + sessionMode w h * (up64 w * up64 h / 128)) 4096 * 4096

/-- Bytes behind which padding stands up to `n` of them; it has no stated value (R309). -/
def padTo (n : Nat) (l : List Byte) : List Byte := l.take n ++ slice (Config.slotPad l) 0 (n - l.length)

/-- A line of samples of `bps` bytes, padded. -/
def slotLine (bps : Nat) (padded : Nat) (l : List Int) : List Byte := padTo (padded * bps) (l.flatMap (fun v => leBytes v.toNat bps))

/-- Element `y` of a list of lines. -/
def nthLine (l : List (List Int)) (y : Nat) : List Int := l.getD y []

/-- Samples of a padded line of interleaved chroma, for planes of width `cw` under one of width `w`. -/
def chromaLine (w cw : Nat) : Nat := 2 * (up64 w * cw / max w 1)

/-- The bytes of an uncompressed slot: Y, then interleaved CbCr; a plane alone for grey and flatpack. -/
def slotPicture (bps : Nat) (ps : List Plane) : List Byte :=
  match ps with
  | [y, cb, cr] =>
    let lb := planeLines cb
    let lr := planeLines cr
    padTo (up64 y.w * up64 y.h * bps) ((planeLines y).flatMap (slotLine bps (up64 y.w))) ++
      (upto 0 cb.h).flatMap (fun r =>
        slotLine bps (chromaLine y.w cb.w) ((List.zip (nthLine lb r) (nthLine lr r)).flatMap (fun p => [p.1, p.2])))
  | y :: _ => (planeLines y).flatMap (slotLine bps (up64 y.w))
  | [] => []

/-- The bytes of a slot that holds planes (R309): compressed mode has the GX's own form. -/
def slotBytes (mode bps need : Nat) (ps : List Plane) : List Byte :=
  padTo need (if mode = 1 then Config.packedSlot (ps.map (·.elems)) else slotPicture bps ps)

/-- The sample of plane `p` at (x, y) in a slot whose picture has luma of `w` x `h` and chroma of width `cw`. -/
def slotSample (mode bps w h cw : Nat) (l : List Byte) (p x y : Nat) : Nat :=
  if mode = 1 then Config.packedSample l p x y
  else if p = 0 then field l ((y * up64 w + x) * bps) bps
  else field l ((up64 w * up64 h + y * chromaLine w cw + 2 * x + (p - 1)) * bps) bps

/-! ### Descriptors and sessions (R306, R307) -/

/-- A bitstream descriptor's fields are valid (R306; log 33 for the address and length fields). -/
def auDescOk (d : List Byte) : Bool :=
  field d 0 4 = 0x31425343 && byteAt d 4 ≤ 4 && zeros d 5 3 && inRange 1 (field d 0x10 4) (64 * 2 ^ 20) && zeros d 0x14 4 &&
    field d 0x18 8 % 4096 = 0 && zeros d 0x20 16

/-- What a decode leaves (R306, R313). -/
structure DecOut where
  /-- ERROR_CODE. -/
  code : Nat
  planes : List Plane
  /-- Session block, slot and descriptor writes: address and bytes. -/
  writes : List (Nat × List Byte)
  /-- Slices concealed. -/
  slices : Nat
  deriving DecidableEq, Repr

/-- AU_COUNT of a session before the unit: 0 in a new one. -/
def sessionCount (sess : List Byte) : Nat := if field sess 0 4 = 0 then 0 else field sess 0x1C 4

/-- Slots of a session (R307). -/
def sessionSlots (sess : List Byte) : Nat := min 17 (field sess 0x10 2)

/-- Address of a slot. -/
def slotAddr (sess : List Byte) (k : Nat) : Nat := field sess 8 8 + k * field sess 0x14 4

/-! ### Marks (R310): their place in the private part is the GX's own (log 38) -/

/-- Number of a mark. -/
def markNum : SlotMark → Nat
  | .free => 0 | .short => 1 | .long => 2 | .av1 => 3 | .current => 4

/-- The mark of a number. -/
def slotMark (n : Nat) : SlotMark :=
  match n with | 1 => .short | 2 => .long | 3 => .av1 | 4 => .current | _ => .free

/-- The marks of a session's slots; a new session's are FREE. -/
def sessionMarks (sess : List Byte) : List SlotMark :=
  (upto 0 17).map (fun k => if field sess 0 4 = 0 then .free else slotMark (byteAt sess (0x48 + k)))

/-- The lowest-numbered FREE slot. -/
def takeSlot (sess : List Byte) : Option Nat := (upto 0 (sessionSlots sess)).find? (fun k => (sessionMarks sess).getD k .free == .free)

/-- The slot of the session's most recently decoded picture, and that picture's depth. -/
def lastPicture (sess : List Byte) : Option (Nat × Nat) :=
  if field sess 0 4 = 0 || byteAt sess 0x59 = 0xFF then none else some (byteAt sess 0x59, byteAt sess 0x5A)

/-- A slot takes the picture of the entry that runs: CURRENT until the entry completes. -/
def occupy (k : Nat) (l : List SlotMark) : List SlotMark := modNth l k (fun _ => .current)

/-- The marks after a decode: JPEG and flatpack slots are FREE again, the other standards mark their own. -/
def settleMarks (codec : Nat) (std : List Nat) (l : List SlotMark) : List SlotMark :=
  if 3 ≤ codec then l.map (fun m => if m == .current then .free else m) else (upto 0 17).map (fun k => slotMark (std.getD k 0 % 4))

/-- The marks after an encode: the new reconstruction is the one reference (R318). -/
def referMarks (l : List SlotMark) : List SlotMark := l.map (fun m => if m == .current then .short else .free)

/-- The private part with the marks, the last picture's slot and its depth in it. -/
def withMarks (priv : List Byte) (l : List SlotMark) (last depth : Nat) : List Byte :=
  splice priv 0x20 (l.map (fun m => BitVec.ofNat 8 (markNum m)) ++ [BitVec.ofNat 8 last, BitVec.ofNat 8 depth])

/-! ### Decoding (R311-R314) -/

/-- The syntax of an access unit, as far as the outcome needs it. -/
structure AuInfo where
  unsupported : Bool
  rap : Bool
  hidden : Bool
  grain : Bool
  w : Nat
  h : Nat
  depth : Nat
  chroma : Nat
  order : Nat
  damaged : Bool
  absent : Bool
  /-- The picture has a reference. -/
  refers : Bool
  slices : Nat
  deriving DecidableEq, Repr

/-- The syntax of a unit: read from the container for flatpack, else free (log 10). -/
def auInfoOf (codec : Nat) (sess u : List Byte) : AuInfo :=
  if codec = 4 then
    let o := flatDecode u
    { unsupported := !flatFieldsOk u, rap := true, hidden := false, grain := false, w := field u 4 2, h := field u 6 2, depth := byteAt u 8,
      chroma := 0, order := sessionCount sess, damaged := o.code ≠ 0, absent := false, refers := false, slices := o.concealed.length }
  else
    let i := Config.auInfo codec sess u
    let f (k : Nat) : Nat := i.getD k 0
    let ten := (codec = 1 || codec = 2) && f 6 % 2 = 1
    { unsupported := f 0 % 2 = 1, rap := codec = 3 || f 1 % 2 = 1, hidden := codec ≠ 3 && f 2 % 2 = 1, grain := codec = 2 && f 3 % 2 = 1,
      w := f 4, h := f 5, depth := if ten then 10 else 8,
      chroma := if codec = 3 then f 7 % 4 else if codec = 2 then 1 - f 7 % 2 else 1,
      order := if codec = 3 then sessionCount sess else f 8 % 2 ^ 32, damaged := f 9 % 2 = 1, absent := codec ≠ 3 && f 10 % 2 = 1,
      refers := codec ≠ 3 && f 11 % 2 = 1, slices := f 12 % 2 ^ 32 }

/-- What a decode reads besides the unit: the slots that the unit refers to, and the session's last picture. -/
structure RefData where
  slots : List (List Byte) := []
  last : Option (List Byte) := none
  deriving DecidableEq, Repr

/-- Bytes of a slot that a picture fills. -/
def AuInfo.need (i : AuInfo) (codec : Nat) : Nat := slotNeed codec i.chroma i.w i.h (cdiv i.depth 8)

/-- The planes of a decoded picture (R348); the units of damaged slices and of none are copied from the session's last picture, or grey in
a picture that has no reference (R314). -/
def auPlanes (codec : Nat) (sess u : List Byte) (refs : RefData) (i : AuInfo) : List Plane :=
  if codec = 4 then [(flatDecode u).plane]
  else
    let sizes := chromaSizes i.chroma i.w i.h
    let cw := match sizes with | _ :: c :: _ => c.1 | _ => 0
    (enum sizes).map (fun p =>
      mkPlane p.2.1 p.2.2 (some i.depth) (fun x y =>
        let decoded := Config.auSample codec sess u refs.slots p.1 x y % 2 ^ i.depth
        let lost := (i.damaged || i.absent) && Config.auLost codec sess u (x * i.w / max p.2.1 1 / 8) (y * i.h / max p.2.2 1 / 8)
        let v : Nat :=
          if !lost then decoded
          else if !i.refers then 2 ^ (i.depth - 1)
          else match refs.last, lastPicture sess with
            | some l, some (_, d) => slotSample (byteAt sess 0x25) (cdiv d 8) (field sess 0x20 2) (field sess 0x22 2) cw l p.1 x y
            | _, _ => decoded
        (v : Int)))

/-- The concealed 64x64 areas of a picture: those that hold a concealed unit (log 114). -/
def concealedAreas (codec : Nat) (sess u : List Byte) (i : AuInfo) : Nat :=
  if codec = 4 then (flatDecode u).concealed.length * cdiv i.w 64
  else ((upto 0 (cdiv i.h 64)).flatMap (fun ay => (upto 0 (cdiv i.w 64)).filter (fun ax =>
    (upto 0 64).any (fun k => let x := 8 * ax + k % 8; let y := 8 * ay + k / 8
      decide (8 * x < i.w) && decide (8 * y < i.h) && Config.auLost codec sess u x y)))).length

/-- GX_ID (00 R1, as GET_VERSION returns it). -/
def gxIdValue : Nat := 0x00020100

/-- The session block as the GX leaves it. -/
def sessionAfter (sess : List Byte) (kind codec count w h resync mode : Nat) (priv : List Byte) : List Byte :=
  leBytes 0x31534553 4 ++ leBytes kind 1 ++ leBytes codec 1 ++ leBytes 0 2 ++ slice sess 8 16 ++ leBytes gxIdValue 4 ++ leBytes count 4 ++
    leBytes w 2 ++ leBytes h 2 ++ leBytes resync 1 ++ leBytes mode 1 ++ leBytes 0 2 ++ slice priv 0 4056

/-- ERROR_CODE of a decode (R313); the order where several apply is log 34. -/
def decodeCode (b d sess : List Byte) (i : AuInfo) : Nat :=
  let codec := byteAt d 4
  let fresh := field sess 0 4 = 0
  let big := maxPicture codec
  if !fresh && (field sess 0 4 ≠ 0x31534553 || field sess 0x18 4 ≠ gxIdValue || byteAt sess 4 ≠ 0) then 4
  else if (!fresh && byteAt sess 5 ≠ codec) || !bit (byteAt b 0x10) codec then 9
  else if !fresh && byteAt sess 0x24 = 1 && !i.rap then 5
  else if i.unsupported || i.w < 64 || i.h < 64 then 2
  else if field b 0x14 2 < i.w || field b 0x16 2 < i.h || big.1 < i.w || big.2 < i.h then 3
  else if field sess 0x14 4 < i.need codec then 7
  else if (takeSlot sess).isNone then 6
  else if i.absent then 10
  else if i.damaged && codec ≠ 4 then 1 else 0

/-- A code with which a picture is delivered. -/
def codeShows (code : Nat) : Bool := code = 0 || code = 1 || code = 8 || code = 10

/-- The slots that a decode reads: those that the unit refers to, and that of the session's last picture where it conceals. -/
def slotReads (codec : Nat) (sess u : List Byte) (i : AuInfo) : List (Nat × Nat) × Option (Nat × Nat) :=
  if 3 ≤ codec then ([], none)
  else (((Config.auRefs codec sess u).filter (· < sessionSlots sess)).map (fun k => (slotAddr sess k, i.need codec)),
    if (i.damaged || i.absent) && i.refers then (lastPicture sess).map (fun p => (slotAddr sess p.1, i.need codec)) else none)

/-- Decode one access unit: descriptor address and bytes, session bytes, unit, and the slots read. -/
def runDecode (b : List Byte) (addr : Nat) (d sess u : List Byte) (refs : RefData) : DecOut :=
  let codec := byteAt d 4
  let i := auInfoOf codec sess u
  let c0 := decodeCode b d sess i
  let code := if codec = 4 && c0 = 0 then (flatDecode u).code else c0
  let picture := codeShows code
  let concealed := picture && code ≠ 0
  let fresh := field sess 0 4 = 0
  let slot := (takeSlot sess).getD 0
  let ps := if picture then auPlanes codec sess u refs i else []
  let resync := if picture then (if i.rap || fresh then 0 else byteAt sess 0x24)
    else if code = 5 || code = 4 || code = 9 then byteAt sess 0x24 else 1
  let size := picture && (i.rap || fresh)
  let w := if size then i.w else field sess 0x20 2
  let h := if size then i.h else field sess 0x22 2
  let mode := if size then sessionMode i.w i.h else byteAt sess 0x25
  let marks := sessionMarks sess
  let priv := if picture then
      withMarks (slice (Config.sessionState codec sess u) 0 4056) (settleMarks codec (Config.auMarks codec sess u) (occupy slot marks)) slot i.depth
    else withMarks (sess.drop 0x28) marks (match lastPicture sess with | some p => p.1 | none => 0xFF) (byteAt sess 0x5A)
  let sessW := if code = 4 || code = 9 then []
    else [(field d 0x18 8, sessionAfter sess 0 codec (sessionCount sess + 1) w h resync mode priv)]
  let slotW := if picture then [(slotAddr sess slot, slotBytes (if codec = 4 then 0 else mode) (cdiv i.depth 8) (i.need codec) ps)] else []
  let rflags := b2n (picture && i.rap) + 2 * b2n concealed + 4 * b2n (picture && i.hidden) + 8 * b2n (picture && i.grain) + 16 * b2n (code = 5)
  let res := leBytes (if picture then i.order else 0) 4 ++ leBytes (if picture then i.w else 0) 2 ++ leBytes (if picture then i.h else 0) 2 ++
    leBytes rflags 2 ++ leBytes code 1 ++ leBytes (if picture then slot else 0) 1 ++
    leBytes (if concealed then concealedAreas codec sess u i else 0) 4
  { code, planes := ps, writes := sessW ++ slotW ++ [(addr + 0x30, res)], slices := if concealed then i.slices else 0 }

/-! ### Rate control (R323) -/

/-- est(q) for the bits and QP of the last picture of the type. -/
def rateEst (pb pq : Nat) (q : Nat) : Nat :=
  let d : Int := (q : Int) - pq
  let a := fdiv d 6
  let r := (d - 6 * a).toNat
  if 0 ≤ a then pb * 65536 / (pow6 r * 2 ^ a.toNat) else pb * 65536 * 2 ^ (-a).toNat / pow6 r

/-- The first q from `q` on whose estimate is within T, at most QP_MAX. -/
def rateSearch (pb pq : Nat) (t : Int) (q : Nat) : Nat → Nat
  | 0 => q
  | n + 1 => if t < (rateEst pb pq q : Nat) then rateSearch pb pq t (q + 1) n else q

/-- QP of a unit. -/
def unitQp (b : List Byte) (st : EncState) (idr : Bool) : Nat :=
  let e := encBlock b
  let q := if idr then byteAt b 0x18 else byteAt b 0x19
  let pb := if idr then st.pbI else st.pbP
  let pq := if idr then st.pqI else st.pqP
  if e.codec = 4 || e.kbps = 0 || pb = 0 then q
  else rateSearch pb pq ((e.buf : Int) - st.f - (e.buf / 8 : Nat)) q (e.qpMax - q)

/-- LIMIT. -/
def unitLimit (b : List Byte) (st : EncState) : Nat :=
  let e := encBlock b
  if e.kbps = 0 then e.maxAu else min e.maxAu ((e.buf - st.f) / 8)

/-- A coded unit (R318-R325). -/
structure EncOut where
  unit : List Byte
  /-- Slices: rows and bytes. -/
  slices : List (Nat × List Byte)
  qp : Nat
  idr : Bool
  forced : Bool
  fallbackRows : Nat
  cap : Bool
  /-- F and FRAME_INDEX before the unit, and the encoder state after it. -/
  fBefore : Nat
  index : Nat
  after : EncState
  deriving DecidableEq, Repr

/-- A unit is IDR: every IDR_PERIODth, and the first after a forced one; JPEG and flatpack units stand alone (R318, R329). -/
def unitIdr (b : List Byte) (st : EncState) : Bool :=
  let e := encBlock b
  e.codec = 3 || e.codec = 4 || st.forceIdr || st.frameIndex % max e.idr 1 = 0

/-- What a unit is coded under. -/
def picParams (b : List Byte) (units q : Nat) (st : EncState) : PicParams :=
  { bytes := b, cores := units, qp := q, idr := unitIdr b st, index := st.frameIndex }

/-- The coded rows of a picture: by row the bytes of each tile and whether it fell back, with the bytes before and behind them, the
reconstruction and the units. -/
structure PicOut where
  head : List Byte := []
  tail : List Byte := []
  rows : List (List (List Byte) × Bool) := []
  ref : List (List Int) := []
  units : List CodedUnit := []
  deriving DecidableEq, Repr

/-- Code the rows of an H.264 or H.265 picture (R318-R324). -/
def codePicture (b : List Byte) (units q : Nat) (st : EncState) (ps : List Plane) : PicOut :=
  let e := encBlock b
  let par := picParams b units q st
  let c : EncPic := { par, src := ps, ref := st.ref, refUnits := st.units }
  let head := if par.idr then (Config.encHead par []).take 1024 else []
  let r := codeRows e (unitLimit b st) c.codeRow 0 head.length e.rows []
  let l := r.2.map (·.1)
  { head, ref := c.recon r.2, units := l.map (fun u => { u with levels := [] }),
    rows := (enum r.1).map (fun p => ((enum p.2.lens).map (fun x =>
      slice (Config.rowBytes par l p.1 x.1) 0 x.2), p.2.fallback)) }

/-- Code the rows of a JPEG picture (R323, R324). -/
def codeJpeg (b : List Byte) (units q : Nat) (st : EncState) (ps : List Plane) : PicOut :=
  let e := encBlock b
  let head := (Config.encHead (picParams b units q st) (jpegTables q)).take 1024
  let r := codeRows e (unitLimit b st) (jpegRow b units q (ps.map (·.elems))) 0 head.length e.rows []
  { head, tail := (Config.encTail b).take 64, rows := (List.zip r.2 r.1).map (fun p => ([p.1], p.2.fallback)) }

/-- The bytes of a slice: of each of its tiles, row by row. -/
def sliceBytes (rows : List (List (List Byte) × Bool)) (x : List Nat × Nat × Nat) : List Byte :=
  x.1.flatMap (fun t => ((rows.drop x.2.1).take x.2.2).flatMap (fun r => r.1.getD t []))

/-- Code one unit from planes of the coded size. -/
def codeUnit (b : List Byte) (units : Nat) (st : EncState) (ps : List Plane) : EncOut :=
  let e := encBlock b
  let idr := unitIdr b st
  let q := unitQp b st idr
  let o := if e.codec = 4 then {} else if e.codec = 3 then codeJpeg b units q st ps else codePicture b units q st ps
  let parts := if e.codec = 4 then [] else slicesOf e units
  let n := parts.length
  let slices := (enum parts).map (fun p =>
    (p.2.2.2, (if p.1 = 0 then o.head else []) ++ sliceBytes o.rows p.2 ++ (if p.1 + 1 = n then o.tail else [])))
  let unit := if e.codec = 4 then (match ps with | p :: _ => flatEncode (p.form.getD e.depth) p | [] => []) else slices.flatMap (·.2)
  let bits := 8 * unit.length
  let rate := e.codec ≠ 4 && e.kbps ≠ 0
  { unit, slices, qp := q, idr, forced := st.forceIdr, fallbackRows := (o.rows.filter (·.2)).length,
    cap := rate && decide (e.buf - st.f < bits), fBefore := st.f, index := st.frameIndex,
    after := { f := if rate then st.f + bits - e.drain else st.f, pbI := if idr then bits else st.pbI, pbP := if idr then st.pbP else bits,
               pqI := if idr then q else st.pqI, pqP := if idr then st.pqP else q, frameIndex := (st.frameIndex + 1) % 2 ^ 32, forceIdr := false,
               ref := o.ref, units := o.units } }

/-- F after a unit that is not coded (R326). -/
def skipUnit (b : List Byte) (st : EncState) : EncState := { st with f := st.f - (encBlock b).drain }

/-- The encode view: the 64-byte header and the unit (R325). -/
def encodeView (b : List Byte) (o : EncOut) (slicesDropped : Bool) : List Byte :=
  let fl := b2n o.idr + 2 * b2n o.forced + 4 * b2n (o.fallbackRows ≠ 0) + 8 * b2n o.cap + 16 * b2n slicesDropped
  leBytes 0x31554143 4 ++ leBytes (encBlock b).codec 1 ++ leBytes fl 1 ++ leBytes o.qp 1 ++ leBytes 0 1 ++ leBytes o.unit.length 4 ++
    leBytes o.index 4 ++ leBytes (min o.fBefore 0xFFFFFFFF) 4 ++ leBytes o.fallbackRows 2 ++ leBytes o.slices.length 2 ++
    leBytes (crc32c o.unit) 4 ++ leBytes 0 4 ++ leBytes 0 32 ++ o.unit

/-- The picture that an Encode stage codes: scaled by its resize block, then oriented, and of the form it takes (R317). -/
def encSource (b : List Byte) (resize : Option (List Byte)) (ps : List Plane) : OpRes (List Plane) :=
  let e := encBlock b
  let sizes := if e.codec = 4 then [(e.w, e.h)] else if e.codec = 3 && ps.length = 1 then [(e.w, e.h)] else chromaSizes 1 e.w e.h
  let scaled : OpRes (List Plane) := match resize with
    | some r => runResize r ps
    | none => .ok ps
  match scaled with
  | .error x => .error x
  | .ok qs => match orient e.orient qs with
    | .error x => .error x
    | .ok rs =>
      if (match ps with | p :: _ => p.w = field b 0x30 2 && p.h = field b 0x32 2 | [] => false) &&
          rs.map (fun p => (p.w, p.h)) = sizes && rs.all (fun p => match p.form with | some n => if e.codec = 4 then inRange 8 n 20 else n = e.depth | none => false) then .ok rs
      else dimLimit

/-! ### Slice records (R332) -/

/-- A slice record; `flags` are SFLAGS. -/
def sliceRecord (stream flags codec counter index slice_ rows : Nat) (bytes : List Byte) : List Byte :=
  let r := leBytes 0x31434C53 4 ++ leBytes stream 2 ++ leBytes flags 1 ++ leBytes codec 1 ++ leBytes counter 8 ++ leBytes index 4 ++
    leBytes slice_ 2 ++ leBytes rows 2 ++ leBytes bytes.length 4 ++ leBytes (crc32c bytes) 4 ++ bytes
  slice r 0 (up64 r.length)

/-- Writes of a unit's slices: ring offset and bytes, each with PRODUCED after it; and whether slices were dropped. -/
def sliceWrites (size consumed : Nat) (pad : Nat → List Byte) : List (List Byte) → Nat → List (Nat × List Byte × Nat) × Bool
  | [], _ => ([], false)
  | r :: t, p =>
    let room := size - p % size
    let skip := if room < r.length then room else 0
    if consumed + size < p + skip + r.length then ([], true)
    else
      let q := p + skip
      let more := sliceWrites size consumed pad t (q + r.length)
      let padW := if skip = 0 then [] else [(p % size, pad skip, q)]
      (padW ++ (q % size, r, q + r.length) :: more.1, more.2)

/-! ### Checks of the codec blocks (R311, R315, R316) -/

/-- Decode. -/
def decodeOk (b : List Byte) : Bool :=
  b.length = 32 && inRange 1 (byteAt b 0x10) 31 && zeros b 0x11 3 && inRange 64 (field b 0x14 2) 16384 && inRange 64 (field b 0x16 2) 8192 &&
    zeros b 0x18 8

/-- Fields of an Encode block (R315; log 35 for the depths). -/
def encodeFieldsOk (b : List Byte) : Bool :=
  let e := encBlock b
  let big := maxPicture e.codec
  let qi := byteAt b 0x18
  let qp := byteAt b 0x19
  b.length = 64 && (e.codec = 0 || e.codec = 1 || e.codec = 3 || e.codec = 4) && e.division ≤ 3 && e.orient ≤ 7 && e.sliceRows ≤ 4 &&
    inRange 64 e.w big.1 && inRange 64 e.h big.2 && inRange 64 (field b 0x30 2) 16384 && inRange 64 (field b 0x32 2) 8192 &&
    (if e.codec = 3 then inRange 1 qi 100 && e.qpMax ≤ 100 else qi ≤ 51 && e.qpMax ≤ 51) && qp ≤ 51 && qi ≤ e.qpMax && qp ≤ e.qpMax &&
    (e.depth = 8 || e.depth = 10) && 1 ≤ e.idr &&
    (e.channel < 16 || e.channel = 0xFF) && zeros b 0x1F 1 && inRange 1000 e.frameUs 1000000 &&
    (e.kbps = 0 || inRange 64 e.kbps 1000000) && inRange 10 e.bufMs 10000 && zeros b 0x36 10 && (e.codec ≠ 4 || e.w % 2 = 0)

/-- The least MAX_AU_BYTES (R324, R336); `n` is the depth of a flatpack unit's samples. -/
def minAu (b : List Byte) (n : Nat) : Nat :=
  let e := encBlock b
  if e.codec = 4 then 128 + 5 * e.rows + cdiv (e.h * cdiv e.w 16 * (5 + 16 * n)) 8
  else 1024 + e.rows * e.rowFb + e.rowMax

/-- The size after scaling (R316): no enlargement, no shrinking below 1/8. -/
def encSizesOk (b : List Byte) (resize : Option (List Byte)) : Bool :=
  let e := encBlock b
  let sw := field b 0x30 2
  let sh := field b 0x32 2
  let size := match resize with | some r => (field r 0x18 2, field r 0x1A 2) | none => (sw, sh)
  let out := if bit e.orient 2 then (size.2, size.1) else size
  out = (e.w, e.h) && size.1 ≤ sw && size.2 ≤ sh && sw ≤ 8 * size.1 && sh ≤ 8 * size.2

end Sys2Proof.Machine
end

