-- ==== Sys2Proof/Machine/Ops.lean ====
section
/-! DEFINITION. Named operations over the state: the passing of time, access to numbered parts, the data that memory
returns, and free values. -/

namespace Sys2Proof.Machine

/-! ### Time and free values -/

/-- TIME_QUALITY outside holdover (03 R94). -/
def freeQuality (loaded selKclk everValid : Bool) : Nat := if !loaded || (selKclk && !everValid) then 2 else 0

/-- A written REF_SEL takes effect at its KCLK edge: the time base slews to that reference, and one that is lost begins a holdover at once
(03 R90, R92; log 102). KCLK has no edge while it is lost. -/
def TimeBase.switch (t : TimeBase) : TimeBase :=
  match t.selNext with
  | some (k, due, rate) =>
    if t.now < due || t.kclkLost then t
    else if !k && t.timeLost then
      { t with selNext := none, selKclk := k, quality := 1, rate := if t.quality = 1 then t.rate else t.goodRate,
               count := if t.quality = 1 then t.count else 0, evt := Nat.lor t.evt 4, keepHoldover := false }
    else { t with selNext := none, selKclk := k, rate,
                  quality := if t.quality = 1 then 1 else freeQuality t.loaded k t.everValid }
  | none => t

/-- Time passes before a command: the time base counts while GX_PORST_N is deasserted (03 R88; log 2). -/
def advance (dt : Nat) (s : State) : State :=
  if s.chip.porstN then { s with tb := TimeBase.switch { s.tb with now := (s.tb.now + dt) % 2 ^ 64 } } else s

/-- The time base now. -/
def State.now (s : State) : Nat := s.tb.now

/-- The number of the next free value; `useFree` counts it as used (log 5). -/
def State.freeNo (s : State) : Nat := s.chip.freeCtr

/-- Count `n` free values as used (log 5). -/
def useFree (n : Nat) (s : State) : State := { s with chip := { s.chip with freeCtr := s.chip.freeCtr + n } }

/-- A mapping applied where a condition holds. -/
def when (b : Bool) (f : State → State) (s : State) : State := if b then f s else s

/-- A function over states repeated over a list. -/
def forEach {α : Type} (l : List α) (f : α → State → State) (s : State) : State :=
  match l with
  | [] => s
  | x :: t => forEach t f (f x s)

/-! ### Numbered parts -/

/-- Mailbox `b`: 0-255 context pages, 256 management. -/
def State.box (s : State) (b : Nat) : Mbox := Tbl.getD s.boxes b {}
/-- Change a mailbox. -/
def modBox (b : Nat) (f : Mbox → Mbox) (s : State) : State := { s with boxes := Tbl.set s.boxes b (f (s.box b)) }

/-- Context `c`. -/
def State.ctx (s : State) (c : Nat) : Ctx := Tbl.getD s.ctxs c {}
/-- Change a context. -/
def modCtx (c : Nat) (f : Ctx → Ctx) (s : State) : State := { s with ctxs := Tbl.set s.ctxs c (f (s.ctx c)) }

/-- Key of ring `n` of context `c`. -/
def ringKey (c n : Nat) : Nat := 4 * c + n
/-- Ring `n` of context `c`. -/
def State.ring (s : State) (c n : Nat) : Ring := Tbl.getD s.rings (ringKey c n) {}
/-- Change a ring. -/
def modRing (c n : Nat) (f : Ring → Ring) (s : State) : State :=
  { s with rings := Tbl.set s.rings (ringKey c n) (f (s.ring c n)) }

/-- Sensor port `p`. -/
def State.port (s : State) (p : Nat) : Port := Tbl.getD s.ports p {}
/-- Change a sensor port. -/
def modPort (p : Nat) (f : Port → Port) (s : State) : State := { s with ports := Tbl.set s.ports p (f (s.port p)) }

/-- Event target `t`. -/
def State.target (s : State) (t : Nat) : Target := Tbl.getD s.events.targets t {}
/-- Change an event target. -/
def modTarget (t : Nat) (f : Target → Target) (s : State) : State :=
  { s with events := { s.events with targets := Tbl.set s.events.targets t (f (s.target t)) } }

/-- Semaphore `n`. -/
def State.sem (s : State) (n : Nat) : Sem := Tbl.getD s.control.sems n {}
/-- Change a semaphore. -/
def modSem (n : Nat) (f : Sem → Sem) (s : State) : State :=
  { s with control := { s.control with sems := Tbl.set s.control.sems n (f (s.sem n)) } }

/-- Change a stream that is present. -/
def modStream (i : Nat) (f : Stream → Stream) (s : State) : State := { s with streams := Tbl.adjust s.streams i f }
/-- Change a sync group that is present. -/
def modGroup (g : Nat) (f : Group → Group) (s : State) : State := { s with groups := Tbl.adjust s.groups g f }
/-- Change a binding that is present. -/
def modBinding (h : Nat) (f : Binding → Binding) (s : State) : State := { s with bindings := Tbl.adjust s.bindings h f }
/-- Change a gathering that is present. -/
def modWork (w : Nat) (f : Work → Work) (s : State) : State := { s with works := Tbl.adjust s.works w f }
/-- Change a stock pool that is present. -/
def modPool (k : Nat) (f : Pool → Pool) (s : State) : State := { s with pools := Tbl.adjust s.pools k f }

/-- Quire `q`. -/
def State.quire (s : State) (q : Nat) : Quire := s.press.quires.getD q {}
/-- Change a quire. -/
def modQuire (q : Nat) (f : Quire → Quire) (s : State) : State :=
  { s with press := { s.press with quires := modNth s.press.quires q f } }

/-- A quire is GATED: its store, its coefficients and its instruction stores are lost (03 R76). -/
def gateQuire (q : Nat) (s : State) : State :=
  modQuire q (fun x => { x with st := .gated, idle := 0, micro := [], stale := true })
    { s with mem := { s.mem with segments := s.mem.segments.map (fun g => if g.quire = q then { g with reloading := true } else g) } }

/-- Another activity than `k` holds the token of a quire (14 R476). -/
def tokenHeld (s : State) (q k : Nat) : Bool := match Tbl.get? s.mem.tokens q with | some x => x ≠ k | none => false
/-- An activity takes the token of a quire. -/
def takeToken (q k : Nat) (s : State) : State := { s with mem := { s.mem with tokens := Tbl.set s.mem.tokens q k } }
/-- An activity gives the token of a quire back. -/
def giveToken (q k : Nat) (s : State) : State :=
  if Tbl.get? s.mem.tokens q = some k then { s with mem := { s.mem with tokens := Tbl.erase s.mem.tokens q } } else s

/-- A quire is ON from now on. One that returns from GATED has its store zeroed on the way, and the coefficient segments that have their
home in it are read again: a reload begins, with the quire's token where no other activity holds it (03 R77, 13 R429; log 51). -/
def quireOn (q : Nat) (s : State) : State :=
  let s1 := modQuire q (fun x => { x with st := .on, idle := 0, stale := false }) s
  if (s.quire q).st == .gated && s.mem.segments.any (fun g => g.quire = q && g.reloading) && !Tbl.has s.mem.tokens q then takeToken q 1 s1 else s1

/-- Packet ring `r`. -/
def State.pring (s : State) (r : Nat) : PktRing := s.pkt.rings.getD r {}
/-- Change a packet ring. -/
def modPring (r : Nat) (f : PktRing → PktRing) (s : State) : State :=
  { s with pkt := { s.pkt with rings := modNth s.pkt.rings r f } }

/-- Encode channel `k`. -/
def State.chan (s : State) (k : Nat) : Channel := s.codec.channels.getD k {}
/-- Change an encode channel. -/
def modChan (k : Nat) (f : Channel → Channel) (s : State) : State :=
  { s with codec := { s.codec with channels := modNth s.codec.channels k f } }

/-- A fast clock. -/
def State.clk (s : State) : Clk → ClkState
  | .aclk => s.power.aclk | .vclk => s.power.vclk | .mclk => s.power.mclk | .cclk => s.power.cclk
/-- Change a fast clock. -/
def modClk (c : Clk) (f : ClkState → ClkState) (s : State) : State :=
  match c with
  | .aclk => { s with power := { s.power with aclk := f s.power.aclk } }
  | .vclk => { s with power := { s.power with vclk := f s.power.vclk } }
  | .mclk => { s with power := { s.power with mclk := f s.power.mclk } }
  | .cclk => { s with power := { s.power with cclk := f s.power.cclk } }

/-- A supply rail. -/
def State.rail (s : State) : Rail → RailState
  | .array => s.power.array | .ctrl => s.power.ctrl | .mram => s.power.mram | .keep => s.power.keep
/-- Change a supply rail. -/
def modRail (r : Rail) (f : RailState → RailState) (s : State) : State :=
  match r with
  | .array => { s with power := { s.power with array := f s.power.array } }
  | .ctrl => { s with power := { s.power with ctrl := f s.power.ctrl } }
  | .mram => { s with power := { s.power with mram := f s.power.mram } }
  | .keep => { s with power := { s.power with keep := f s.power.keep } }

/-- Add a gathering; the result's `workNext` has become one more than its number. -/
def addWork (w : Work) (s : State) : State :=
  { s with works := Tbl.set s.works s.workNext w, workNext := s.workNext + 1 }

/-! ### Sets held as rising lists -/

/-- Membership of a number. -/
def mem (l : List Nat) (x : Nat) : Bool := l.any (· == x)

/-- The numbers of a rising list that lie in a 32-bit word as bits (word `k` holds 32k .. 32k + 31). -/
def wordOf (l : List Nat) (k : Nat) : Nat := maskOf 32 (fun i => mem l (32 * k + i))

/-! ### Data that memory returns (02 R38; log 8) -/

/-- The byte at an address. -/
def extByte (m : ExtMem) (a : Nat) : Byte :=
  match m.segs.find? (fun g => g.1 ≤ a && a < g.1 + g.2.length) with
  | some g => g.2.getD (a - g.1) 0
  | none => m.fill

/-- `n` bytes from an address. -/
def extRead (m : ExtMem) (a : Nat) : Nat → List Byte
  | 0 => []
  | n + 1 => extByte m a :: extRead m (a + 1) n

/-- Some byte of a stretch returns an error response or poison. -/
def extBad (m : ExtMem) (a n : Nat) : Bool := m.bad.any (fun b => b.1 < a + n && a < b.1 + b.2)

/-! ### Conditions that several rules share -/

/-- A binding's image of one generation. -/
def Binding.image? (b : Binding) (gen : Nat) : Option Image := Tbl.get? b.gens gen

/-- The binding is admitted: its promise stands or begins at the next period start (07 R227). -/
def Binding.admitted (b : Binding) : Bool := b.cls.isSome && b.st != .loaded

/-- A LIVE binding is admitted. -/
def State.liveAdmitted (s : State) : Bool := s.bindings.any (fun b => b.2.admitted && b.2.cls == some 0)

/-- Attached streams in stream safe state (14 R493). -/
def State.streamsSafe (s : State) : Nat := (s.streams.filter (fun p => p.2.st == .safe)).length

/-- The main domain runs: both resets are deasserted, the internal main reset is released (step 6 of 03 R75), and it is in none of
the states of 02 R45, which last on a wake from KEEP until step 8. While the control complex boots otherwise, the registers and
mailboxes answer, and requests wait (05 R140). -/
def State.mainUp (s : State) : Bool :=
  s.chip.porstN && s.chip.rstN && (s.power.wake == .idle || s.power.wake == .booting) && s.power.state != .keep

/-- Firmware runs and answers (05 R140). -/
def State.fwRuns (s : State) : Bool := s.mainUp && s.control.fwUp

/-- SLOT_CYCLES at an operating point (03 R82). -/
def slotCycles (opp : Nat) : Nat := if opp = 0 then 2744 else if opp = 1 then 2156 else 1372

/-- ACLK, VCLK, MCLK and CCLK in MHz at an operating point (03 R82). -/
def clkMhz (opp : Nat) : Clk → Nat
  | .aclk => if opp = 0 then 1400 else if opp = 1 then 1100 else 700
  | .vclk => if opp = 0 then 900 else if opp = 1 then 700 else 450
  | .mclk => if opp = 0 then 1000 else if opp = 1 then 800 else 500
  | .cclk => 1600

/-- Bookable ACLK cycles of a slot at an operating point (03 R82). -/
def bookable (opp : Nat) : Nat := if opp = 0 then 2572 else if opp = 1 then 2021 else 1286

/-- The operating point that slots are booked at: the slowest of those concerned while a change is under way or its return has not been
acknowledged (03 R83, R551). -/
def State.bookPoint (s : State) : Nat :=
  let p := if s.power.oppWait then max s.power.oppPending s.power.oppCurrent else s.power.oppCurrent
  match s.power.oppBookAt with
  | some q => max q p
  | none => p

/-- A change of operating point is under way, or its return has not been acknowledged: OPP_REQ stays until an OPP_ACK is seen, or, for a
change itself, until its 100 us have passed (03 R83, R551). -/
def State.oppBusy (s : State) : Bool := s.power.oppWait || s.power.oppBookAt.isSome

/-- The press period in ns (07 R223): PERIOD_SLOTS slots of 2 us. -/
def State.periodNs (s : State) : Nat := s.press.period * 2000

end Sys2Proof.Machine
end

