-- ==== Sys2Proof/Machine/Collector.lean ====
section
/-! DEFINITION. The fault collector: records, escalation, the fault pin, the first-fault capture, the log and the fault
IBI (14 R462-R470, R553, R554). Reactions are in Reactions.lean. -/

namespace Sys2Proof.Machine

/-- The scope of a FATAL reaction to the fault (14 R462, R554). -/
def scopeOf (f : FaultIn) : Scope :=
  if f.bestEffort then .loc
  else if f.src < 16 then .control
  else if f.src < 80 then .quire
  else if f.src < 104 then .unit
  else if f.src < 109 then .stream
  else if f.src < 112 then .loc
  else if f.src < 116 then .device
  else if f.src < 119 then .keep
  else if f.src = 120 then (if f.part = 1 then .control else .device)
  else if f.src = 121 then .device
  else if f.src = 122 then (if f.part = 0 then .control else if f.part = 1 then .keep else .device)
  else if f.src = 123 then (if f.cause = 0x16 then .device else .loc)
  else if f.src = 124 then (if f.cause = 0x23 then .stream else .device)
  else if f.src = 125 then .unit
  else .loc

/-- The pin class of a record that a fault of this origin has brought to a class (14 R464). -/
def pinClassOf (cls : Nat) (scope : Scope) (bestEffort : Bool) : Nat :=
  if cls = 3 then (if scope == .device || scope == .stream then 3 else 2)
  else if cls = 2 then (if bestEffort then 1 else 2)
  else 1

/-- The fault counts towards escalation (14 R465). -/
def counts (f : FaultIn) : Bool := !f.ongoing && !f.bestEffort

/-- The record that a fault makes of a source's record, and the class for the log with its ESCALATED bit (14 R465, R553). -/
def recordFor (r? : Option Record) (f : FaultIn) (now : Nat) : Record × Nat × Bool :=
  let scope := scopeOf f
  let fresh : Record := { cls := f.cls, pin := pinClassOf f.cls scope f.bestEffort, counting := counts f, escalated := false,
                          scope, cause := f.cause, detail := f.detail, time := now }
  match r? with
  | none => (fresh, f.cls, false)
  | some r =>
    if r.cls < f.cls then ({ fresh with pin := max r.pin fresh.pin }, f.cls, false)
    else if f.cls < r.cls then (r, f.cls, false)
    else if f.cls = 3 then (r, 3, false)
    else if counts f && r.counting then
      ({ r with cls := f.cls + 1, pin := pinClassOf (f.cls + 1) scope false, escalated := true, scope, cause := f.cause,
                detail := f.detail, time := now }, f.cls + 1, true)
    else if counts f then
      ({ r with counting := true, pin := max r.pin fresh.pin, scope, time := now }, f.cls, false)
    else ({ r with pin := max r.pin fresh.pin }, f.cls, false)

/-- The log entry of a fault (14 R469, R493). -/
def logEntryOf (f : FaultIn) (cls : Nat) (esc : Bool) (now : Nat) : LogEntry :=
  { injected := f.injected, escalated := esc, scope := scopeOf f, cls, cause := f.cause, source := f.src,
    detail := f.detail, time := now }

/-- The code of a scope in FAULT_FIRST_INFO (14 R493). -/
def scopeCode : Scope → Nat
  | .device => 0 | .stream => 1 | .control => 2 | .quire => 3 | .unit => 4 | .keep => 5 | .loc => 6

/-- A FAULT_LOG_LO or FAULT_FIRST_INFO word with VALID = 1 (14 R493). -/
def infoWord (e : LogEntry) : Nat :=
  2 ^ 31 + 2 ^ 30 * b2n e.injected + 2 ^ 29 * b2n e.escalated + 2 ^ 26 * scopeCode e.scope + 2 ^ 24 * e.cls + 2 ^ 16 * e.cause + e.source

/-- Queue an entry; a full log discards the newest and sets LOG_OVR (14 R469). -/
def pushLog (e : LogEntry) (s : State) : State :=
  if s.faults.log.length < 64 then { s with faults := { s.faults with log := s.faults.log ++ [e] } }
  else { s with faults := { s.faults with logOvr := true } }

/-! ### The pin -/

/-- The highest pin class at PULSE_MIN or above among the records. -/
def pinClassHeld (s : State) : Nat :=
  (s.faults.records.filter (fun p => s.faults.pulseMin ≤ p.2.pin)).foldl (fun m p => max m p.2.pin) 0

/-- Start a pulse at once: GX_FAULT_N falls or stays low, and the class does not fall (14 R470). -/
def pulseNow (s : State) : State :=
  let c := max (if s.faults.pinLow then s.faults.pinClass else 0) (pinClassHeld s)
  { s with faults := { s.faults with pinLow := true, pulse := true, pulseWaits := false, pinClass := c } }

/-- Start a pulse, after the minimum high time and after keeper initialisation (02 R56, 14 R470). -/
def startPulse (s : State) : State :=
  if !s.chip.keeperInit || (!s.faults.pinLow && s.faults.highHold) then
    { s with faults := { s.faults with pulseWaits := true } }
  else pulseNow s

/-- While the pin is low its class shows the highest class held (14 R470). -/
def refreshPin (s : State) : State :=
  if s.chip.keeperInit && s.faults.pinLow then
    { s with faults := { s.faults with pinClass := max s.faults.pinClass (pinClassHeld s) } }
  else s

/-! ### The IBI (16 R532) -/

/-- A fault IBI is pending from now on, or its payload is replaced by one of higher class, or equal class and lower source. -/
def noteIbi (e : LogEntry) (s : State) : State :=
  if !s.mgmt.enint || s.mgmt.dynAddr.isNone || e.cls < s.mgmt.ibiClass then s
  else match s.mgmt.ibiFault with
    | none => { s with mgmt := { s.mgmt with ibiFault := some e } }
    | some o =>
      if o.cls < e.cls || (o.cls = e.cls && e.source < o.source) then { s with mgmt := { s.mgmt with ibiFault := some e } }
      else s

/-! ### One fault, one period -/

/-- Whether the fault's class is the one its source's record has after it. -/
def reactionOf (r? : Option Record) (r : Record) (f : FaultIn) : Bool :=
  r.cls = 3 && (match r? with | none => true | some o => o.cls ≠ 3 || f.cls = 3)

/-- Keep the time of a corrected fault of a quire, which ranks the spares (07 R229). -/
def markQuire (f : FaultIn) (s : State) : State :=
  if 16 ≤ f.src && f.src < 80 && f.cls = 1 then modQuire (f.src - 16) (fun q => { q with marks := q.marks ++ [s.now] }) s else s

/-- Record, log and show one fault. The result's list gains the fault where the class taken is FATAL. -/
def collect1 (f : FaultIn) (s : State) : State :=
  let o := Tbl.get? s.faults.records f.src
  let (r, cls, esc) := recordFor o f s.now
  let s1 := pushLog (logEntryOf f cls esc s.now)
    (markQuire f { s with faults := { s.faults with records := Tbl.set s.faults.records f.src r } })
  let raised := match o with | none => true | some q => q.cls < r.cls
  let pinUp := match o with | none => true | some q => q.pin < r.pin
  let s2 := when raised (noteIbi { (logEntryOf f r.cls r.escalated s.now) with scope := r.scope }) s1
  refreshPin (when (pinUp && decide (s.faults.pulseMin ≤ r.pin)) startPulse s2)

/-- Of two faults of one source in one period the one that counts: the higher class, then the one that counts towards
escalation (14 R465). -/
def worse (a b : FaultIn) : FaultIn :=
  if a.cls < b.cls || (a.cls = b.cls && !counts a && counts b) then b else a

/-- Put a fault into a list by ascending source, one fault per source. -/
def insertFault (f : FaultIn) : List FaultIn → List FaultIn
  | [] => [f]
  | g :: t => if f.src < g.src then f :: g :: t else if f.src = g.src then worse g f :: t else g :: insertFault f t

/-- The faults of one period as the collector takes them. -/
def periodFaults (fs : List FaultIn) : List FaultIn := fs.foldl (fun l f => insertFault f l) []

/-- Among new records the one the capture shows: the highest class, then the lowest source (14 R467). -/
def firstOf : List FaultIn → Option FaultIn
  | [] => none
  | f :: t => match firstOf t with
    | none => some f
    | some g => if g.cls ≤ f.cls then some f else some g

/-- The first-fault capture of a period (14 R467). -/
def captureFirst (news : List FaultIn) (s : State) : State :=
  match s.faults.first, firstOf news with
  | none, some f =>
    let cap : FirstFault := { info := logEntryOf f f.cls false s.now, sticky := s.faults.records.map (·.1) }
    { s with faults := { s.faults with first := some cap } }
  | _, _ => s

/-- Record the faults of one keeper-oscillator period (14 R465-R470). -/
def collect (fs : List FaultIn) (s : State) : State :=
  let l := periodFaults fs
  captureFirst (l.filter (fun f => !Tbl.has s.faults.records f.src)) (forEach l collect1 s)

/-- The faults of a period whose FATAL reaction is to be carried out. -/
def reactionsOf (fs : List FaultIn) (s : State) : List FaultIn :=
  (periodFaults fs).filter (fun f =>
    let o := Tbl.get? s.faults.records f.src
    reactionOf o (recordFor o f s.now).1 f)

/-- Raise a source's record to FATAL for a retirement (14 R480): no ESCALATED bit; a FATAL record stays. -/
def raiseFatal (src cause detail : Nat) (s : State) : State :=
  match Tbl.get? s.faults.records src with
  | some r =>
    if r.cls = 3 then s
    else
      let f : FaultIn := { src, cls := 3, cause, detail }
      let r' : Record := { r with cls := 3, pin := max r.pin (pinClassOf 3 (scopeOf f) false), counting := true,
                                  escalated := false, scope := scopeOf f, cause, detail }
      let s1 := pushLog (logEntryOf f 3 false s.now) { s with faults := { s.faults with records := Tbl.set s.faults.records src r' } }
      let s2 := noteIbi (logEntryOf f 3 false s.now) s1
      refreshPin (when (decide (r.pin < r'.pin) && decide (s.faults.pulseMin ≤ r'.pin)) startPulse s2)
  | none => collect [{ src, cls := 3, cause, detail }] s

end Sys2Proof.Machine
end

