-- ==== Sys2Proof/Machine/Txs.lean ====
section
/-! DEFINITION. Memory transactions: cutting into 256-byte blocks, ports, tags, the bandwidth regulator and the order of
issue (02 R30-R38, 13 R433-R437). -/

namespace Sys2Proof.Machine

/-- port(A) (13 R433). -/
def portOf (a : Nat) : Nat :=
  Nat.xor (Nat.xor (bits a 8 2) (bits a 10 2)) (Nat.xor (bits a 16 2) (bits a 24 2))

/-- What all transactions of one transfer share. -/
structure TxAttr where
  rd : Bool := false
  ctx : Nat := 0
  sys : Bool := false
  cls : Nat := 3
  prio : Nat := 2
  mirror : Bool := false
  /-- Class bucket and context bucket charged (13 R436). -/
  meter : Option (Nat × Nat) := none
  /-- Placed on port 0 whatever the address (02 R58, 04 R102). -/
  port0 : Bool := false
  /-- Stretches of bytes, by address and length, whose values the GX knows to be bad (02 R37). -/
  poison : List (Nat × Nat) := []
  deriving DecidableEq, Repr

/-- PRIO of a class's work (13 R435). -/
def prioOf (cls : Nat) : Nat := if cls = 0 then 3 else if cls = 1 then 2 else if cls = 2 then 1 else 0

/-- The attributes of a context's work of a class (13 R435, R436). -/
def workAttr (ctx cls : Nat) : TxAttr :=
  { ctx, cls, prio := prioOf cls, meter := if cls = 0 then none else some (cls, ctx) }

/-- The 64-bit words, by address, that the bytes `[a, a + n)` touch and that a stretch of bad bytes touches (02 R37). -/
def poisonWords (l : List (Nat × Nat)) (a n : Nat) : List Nat :=
  if l.isEmpty then []
  else ((upto (a / 8) ((a + n - 1) / 8 - a / 8 + 1)).map (8 * ·)).filter (fun w => l.any (fun p => p.1 < w + 8 && w < p.1 + p.2))

/-- The transaction over the stretch `[a, a + n)`, which lies within one 256-byte block. -/
def mkTx (t : TxAttr) (p : Purpose) (a n : Nat) (data : List Byte) (s : State) : Tx :=
  { id := s.txNext, port := if t.port0 then 0 else portOf a, tag := none, rd := t.rd, addr := a / 64 * 64,
    lines := (a + n - 1) / 64 - a / 64 + 1, ctx := t.ctx, sys := t.sys, cls := t.cls, prio := t.prio,
    data := if t.rd then [] else [(a, data)], mirror := t.mirror, meter := t.meter, purpose := p, issued := 0,
    uses := (a, n), poison := if t.rd then [] else poisonWords t.poison a n }

/-- Add a transaction to those that wait. -/
def pushTx (x : Tx) (s : State) : State := { s with txs := s.txs ++ [x], txNext := s.txNext + 1 }

/-- Cut a transfer of `n` bytes at `a` into transactions of one 256-byte block each (13 R433). -/
def cutTxs (t : TxAttr) (p : Purpose) (a n : Nat) (data : List Byte) : Nat → State → State
  | 0, s => s
  | fuel + 1, s =>
    if n = 0 then s else
      let k := min n (256 - a % 256)
      cutTxs t p (a + k) (n - k) (data.drop k) fuel (pushTx (mkTx t p a k (data.take k) s) s)

/-- Number of transactions that a transfer is cut into. -/
def cutCount (a n : Nat) : Nat := if n = 0 then 0 else (a + n - 1) / 256 - a / 256 + 1

/-! ### Regulator -/

/-- The bucket of a class 1-3. -/
def classBucket (s : State) (c : Nat) : Bucket :=
  if c = 1 then s.mem.class1 else if c = 2 then s.mem.class2 else s.mem.class3

/-- Change the bucket of a class. -/
def modClassBucket (c : Nat) (f : Bucket → Bucket) (s : State) : State :=
  if c = 1 then { s with mem := { s.mem with class1 := f s.mem.class1 } }
  else if c = 2 then { s with mem := { s.mem with class2 := f s.mem.class2 } }
  else { s with mem := { s.mem with class3 := f s.mem.class3 } }

/-- The bucket of a context. -/
def ctxBucket (s : State) (c : Nat) : Bucket := Tbl.getD s.mem.ctxBuckets c {}

/-- Change the bucket of a context. -/
def modCtxBucket (c : Nat) (f : Bucket → Bucket) (s : State) : State :=
  { s with mem := { s.mem with ctxBuckets := Tbl.set s.mem.ctxBuckets c (f (ctxBucket s c)) } }

/-- A bucket lets `n` lines issue: it is disabled or holds them (13 R436). -/
def Bucket.lets (b : Bucket) (n : Nat) : Bool := b.live == 0 || n ≤ b.level

/-- A bucket gives up `n` lines. -/
def Bucket.take (b : Bucket) (n : Nat) : Bucket := { b with level := b.level - n }

/-- One refill: a new RATE and DEPTH take effect, the level grows by RATE and is cut to DEPTH (13 R436, R449). -/
def Bucket.refill (b : Bucket) : Bucket := { b with live := b.rate, level := min (b.level + b.rate) b.depth }

/-! ### Issue -/

/-- The share of tags that a transaction counts in (13 R434): 0 LIVE, 1 SYS other than shelf, 2 every other. -/
def Tx.share (x : Tx) : Nat :=
  if x.sys && x.meter.isNone then 1 else if x.cls = 0 && !x.mirror then 0 else 2

/-- Tags in use on a port. -/
def tagsInUse (s : State) (port : Nat) : List Nat :=
  s.txs.filterMap (fun x => if x.port = port then x.tag else none)

/-- Tags that a share uses on a port. -/
def shareUse (s : State) (port share : Nat) : Nat :=
  (s.txs.filter (fun x => x.port = port && x.tag.isSome && x.share = share)).length

/-- A tag is free for the transaction (02 R33, 13 R434). -/
def tagFree (s : State) (x : Tx) : Bool :=
  (tagsInUse s x.port).length < 1024 &&
    (if x.share = 1 then shareUse s x.port 1 < 64 else if x.share = 2 then shareUse s x.port 2 < 704 else true)

/-- An overlapping transaction is outstanding and one of the two is a write (02 R35, 13 R433). -/
def overlaps (s : State) (x : Tx) : Bool :=
  s.txs.any (fun y => y.tag.isSome && y.addr < x.addr + 64 * x.lines && x.addr < y.addr + 64 * y.lines && (!x.rd || !y.rd))

/-- The buckets let the transaction issue (13 R436). -/
def bucketsLet (s : State) (x : Tx) : Bool :=
  match x.meter with
  | none => true
  | some (c, ctx) => (classBucket s c).lets x.lines && (ctxBucket s ctx).lets x.lines

/-- From the start of device safe state only SYS traffic that no entry causes is issued (14 R487, R488). -/
def gateOpen (s : State) (x : Tx) : Bool := s.faults.safe == .normal || (x.sys && x.meter.isNone)

/-- The transaction may issue now. -/
def mayIssue (s : State) (x : Tx) : Bool := gateOpen s x && tagFree s x && !overlaps s x && bucketsLet s x

/-- The free tags of a port. -/
def freeTags (s : State) (port : Nat) : List Nat :=
  let used := tagsInUse s port
  (upto 0 1024).filter (fun t => !mem used t)

/-- The tag that transaction `x` takes: any free one (log 7). -/
def pickTag (s : State) (x : Tx) : Nat :=
  let f := freeTags s x.port
  f.getD (Config.tagChoice x.id % f.length) 0

/-- Charge the buckets for a transaction. -/
def charge (x : Tx) (s : State) : State :=
  match x.meter with
  | none => s
  | some (c, ctx) => modCtxBucket ctx (·.take x.lines) (modClassBucket c (·.take x.lines) s)

/-- Give a waiting transaction its tag: it is outstanding from now on. -/
def issueTx (x : Tx) (s : State) : State :=
  charge x { s with txs := s.txs.map (fun y => if y.id = x.id then { y with tag := some (pickTag s x), issued := s.now } else y) }

/-- A waiting transaction `y` of the same class and port keeps `x` waiting (13 R437; log 13): the same context's older one,
or an older one that its class bucket or the tags hold back. -/
def queuedBehind (x y : Tx) : Bool :=
  y.port = x.port && y.share = x.share && y.cls = x.cls && y.mirror == x.mirror && (y.ctx = x.ctx || x.share = 1)

/-- Issue what may issue among waiting transactions, oldest first (13 R437). -/
def pumpList : List Tx → List Tx → State → State
  | [], _, s => s
  | x :: t, behind, s =>
    if !(behind.any (queuedBehind x ·)) && mayIssue s x then pumpList t behind (issueTx x s)
    else pumpList t (x :: behind) s

/-- Issue every waiting transaction that may issue. -/
def pump (s : State) : State := pumpList (s.txs.filter (·.tag.isNone)) [] s

/-- Present a transfer: cut, queue and issue. -/
def transfer (t : TxAttr) (p : Purpose) (a n : Nat) (data : List Byte) (s : State) : State :=
  pump (cutTxs t p a n data (cutCount a n) s)

/-- Present the reads of several stretches, in order: each is cut and queued, and what may issue is issued (13 R432, R433). -/
def readTxs (t : TxAttr) (p : Purpose) (l : List (Nat × Nat)) (s : State) : State :=
  pump (forEach l (fun x s => cutTxs { t with rd := true } p x.1 x.2 [] (cutCount x.1 x.2) s) s)

/-- The number of transactions that the reads of several stretches are cut into. -/
def readCount (l : List (Nat × Nat)) : Nat := (l.map (fun x => cutCount x.1 x.2)).sum

/-- Attributes of the reads that firmware and the boot ROM make of firmware images: SYS traffic of port 0 and class 3
(02 attributes, 04 R102, 13 R435, R436). -/
def sysRead : TxAttr := { sys := true, cls := 3, prio := 2, port0 := true }

/-- Attributes of the image reads of LOAD_BINDING and LOAD_COEFF: the context's tag, class 3, PRIO 2 and no bucket (13 R435, R436). -/
def imageRead (ctx : Nat) : TxAttr := { ctx, cls := 3, prio := 2 }

/-- Poison of a beat lies in bytes that the work uses (02 R38): bit i stands for bytes 8i to 8i + 7 of the line. -/
def Tx.poisoned (x : Tx) (beat poison : Nat) : Bool :=
  (upto 0 8).any (fun i =>
    bit poison i && decide (x.addr + 64 * beat + 8 * i < x.uses.1 + x.uses.2) && decide (x.uses.1 < x.addr + 64 * beat + 8 * i + 8))

/-- Remove a transaction. -/
def dropTx (id : Nat) (s : State) : State := { s with txs := s.txs.filter (·.id ≠ id) }

/-- The outstanding transaction with a tag on a port. -/
def findTx (s : State) (port tag : Nat) : Option Tx := s.txs.find? (fun x => x.port = port && x.tag = some tag)

/-- GX_MEM_IDLE: no transaction is outstanding on any port (02 table of memory ports). -/
def State.memIdle (s : State) : Bool := s.txs.all (·.tag.isNone)

end Sys2Proof.Machine
end

