-- ==== Sys2Proof/Machine/Stock.lean ====
section
/-! DEFINITION. Stock pools and the guard stage: choosing, issuing and returning buffers (01 R20, 06 R195, R197,
13 R438, R439), and the check of every line against guard windows (06 R180-R184). -/

namespace Sys2Proof.Machine

/-! ### Stock -/

/-- Key of the pool of a size class in a set of a context. -/
def poolKey (c set cls : Nat) : Nat := (c * 16 + set) * 8 + cls

/-- Buffer size of a size class (05 R162). -/
def bufSize (cls : Nat) : Nat := 4096 * 4 ^ cls

/-- The set that a pool handle names, where its context is `c` (05 R162). -/
def poolSet (h c : Nat) : Option Nat :=
  if h / 2 ^ 24 = c && h % 2 ^ 16 = 0 && bits h 16 8 < 16 then some (bits h 16 8) else none

/-- Keys of the pools that a set holds, smallest buffers first. -/
def setPools (s : State) (c set : Nat) : List Nat :=
  (upto 0 8).filterMap (fun k => if Tbl.has s.pools (poolKey c set k) then some (poolKey c set k) else none)

/-- The set exists: it holds a pool. -/
def setExists (s : State) (c set : Nat) : Bool := !(setPools s c set).isEmpty

/-- The handle names an existing set of the context (06 R198 check 13). -/
def poolOk (s : State) (c h : Nat) : Bool :=
  match poolSet h c with
  | some set => setExists s c set
  | none => false

/-- The smallest pool of the set whose buffers hold `need` bytes; DESTROY_POOL has stopped issue from no such pool
(01 R20, 05 R163). -/
def choosePool (s : State) (c set need : Nat) : Option Nat :=
  (setPools s c set).find? (fun k => need ≤ bufSize (k % 8) && (match Tbl.get? s.pools k with | some p => !p.destroying | none => false))

/-- The lowest number from `n` on that a rising table does not hold. -/
def lowestFree {α : Type} : Tbl α → Nat → Nat
  | [], n => n
  | (k, _) :: t, n => if k = n then lowestFree t (n + 1) else n

/-- The buffer stock would issue from a pool: key, number, address (13 R438). -/
def freeBuf (s : State) (key : Nat) : Option (Nat × Nat × Nat) :=
  match Tbl.get? s.pools key with
  | none => none
  | some p =>
    let i := lowestFree p.bufs 0
    if i < p.count then some (key, i, p.base + i * bufSize (key % 8)) else none

/-- The buffer for `need` bytes from a set; none when no pool is large enough or the chosen one is empty (06 R195). -/
def offerBuf (s : State) (c set need : Nat) : Option (Nat × Nat × Nat) :=
  match choosePool s c set need with
  | none => none
  | some k => freeBuf s k

/-- Give a buffer a state; none makes it FREE. -/
def setBuf (key i : Nat) (st : Option BufState) (s : State) : State :=
  modPool key (fun p => { p with bufs := match st with | some b => Tbl.set p.bufs i b | none => Tbl.erase p.bufs i }) s

/-- Stock takes a buffer back unless it is quarantined. -/
def returnBuf (b : Option (Nat × Nat × Nat)) (s : State) : State :=
  match b with
  | none => s
  | some (k, i, _) =>
    match Tbl.get? s.pools k with
    | some p => if Tbl.get? p.bufs i = some .quarantined then s else setBuf k i none s
    | none => s

/-- A buffer is delivered to host software (06 R197). -/
def deliverBuf (b : Option (Nat × Nat × Nat)) (s : State) : State :=
  match b with
  | none => s
  | some (k, i, _) =>
    match Tbl.get? s.pools k with
    | some p => if Tbl.get? p.bufs i = some .quarantined then s else setBuf k i (some .host) s
    | none => s

/-- The buffer of a set that starts at an address: pool key, number and state (none is FREE). -/
def bufAt (s : State) (c set addr : Nat) : Option (Nat × Nat × Option BufState) :=
  (setPools s c set).findSome? (fun k =>
    match Tbl.get? s.pools k with
    | none => none
    | some p =>
      let z := bufSize (k % 8)
      if p.base ≤ addr && addr < p.base + p.count * z && (addr - p.base) % z = 0 then
        some (k, (addr - p.base) / z, Tbl.get? p.bufs ((addr - p.base) / z))
      else none)

/-! ### The guard stage -/

/-- A window grants the access to a line (06 R181). -/
def Guard.grants (g : Guard) (wr : Bool) (a : Nat) : Bool :=
  (if wr then g.wr else g.rd) && g.base ≤ a && a ≤ g.limit

/-- A line passes when some enabled window grants it (06 R181). -/
def lineOk (gs : List Guard) (wr : Bool) (a : Nat) : Bool := gs.any (·.grants wr a)

/-- The first refused line among `n` lines from `a`. -/
def refusedLine (gs : List Guard) (wr : Bool) (a : Nat) : Nat → Option Nat
  | 0 => none
  | n + 1 => if lineOk gs wr a then refusedLine gs wr (a + 64) n else some a

/-- Lines that `n` bytes from `a` touch. -/
def linesOf (a n : Nat) : Nat := if n = 0 then 0 else (a + n - 1) / 64 - a / 64 + 1

/-- The first refused line of a stretch. -/
def guardCheck (gs : List Guard) (wr : Bool) (a n : Nat) : Option Nat := refusedLine gs wr (a / 64 * 64) (linesOf a n)

/-- A refusal: counted, and captured while CTX_EVT.GUARD is 0 (06 R180, R184). -/
def refuse (c : Nat) (wr : Bool) (line : Nat) (s : State) : State :=
  modCtx c (fun x =>
    let x := { x with nGuard := x.nGuard + 1 }
    if x.evtGuard then x else { x with evtGuard := true, gfAddr := line % 2 ^ 48, gfWrite := wr }) s

end Sys2Proof.Machine
end

