-- ==== Sys2Proof/Machine/Spine.lean ====
section
/-! DEFINITION. The spine: gatherings, colophons and their commit protocol, ring completions and receipts (01 R20, R21,
06 R199-R214, 14 R450-R454). -/

namespace Sys2Proof.Machine

/-! ### Fields of a ring entry (06 R192) -/

/-- OPCODE. -/
def Entry.op (e : Entry) : Nat := byteAt e.bytes 0
/-- FLAGS. -/
def Entry.flags (e : Entry) : Nat := byteAt e.bytes 1
/-- FIRST. -/
def Entry.isFirst (e : Entry) : Bool := bit e.flags 0
/-- LAST. -/
def Entry.isLast (e : Entry) : Bool := bit e.flags 1
/-- FENCE. -/
def Entry.hasFence (e : Entry) : Bool := bit e.flags 2
/-- EVENT. -/
def Entry.hasEvent (e : Entry) : Bool := bit e.flags 3
/-- KEY_SLOT. -/
def Entry.keySlot (e : Entry) : Nat := bits e.flags 4 4
/-- CHAIN_LEN. -/
def Entry.chainField (e : Entry) : Nat := field e.bytes 2 2
/-- USER_TAG. -/
def Entry.tag (e : Entry) : Nat := field e.bytes 4 4
/-- BINDING_HANDLE. -/
def Entry.handle (e : Entry) : Nat := field e.bytes 8 4
/-- ENTRY_POINT. -/
def Entry.point (e : Entry) : Nat := field e.bytes 0x0C 2
/-- SYNC_GROUP. -/
def Entry.sync (e : Entry) : Nat := field e.bytes 0x0E 2
/-- INPUT0. -/
def Entry.in0 (e : Entry) : Nat := field e.bytes 0x10 8
/-- INPUT1. -/
def Entry.in1 (e : Entry) : Nat := field e.bytes 0x18 8
/-- PARAM. -/
def Entry.param (e : Entry) : Nat := field e.bytes 0x20 8
/-- DRAW_POSITION. -/
def Entry.drawPos (e : Entry) : Nat := field e.bytes 0x28 8
/-- OUT_POOL. -/
def Entry.pool (e : Entry) : Nat := field e.bytes 0x30 4
/-- DEADLINE_US. -/
def Entry.deadlineUs (e : Entry) : Nat := field e.bytes 0x34 4
/-- EXTENSION. -/
def Entry.ext (e : Entry) : Nat := field e.bytes 0x38 8

/-- Entries of the ring, N. -/
def Ring.size (r : Ring) : Nat := 2 ^ r.log2
/-- Address of the slot of a count (06 R186). -/
def Ring.slotAddr (r : Ring) (c : Nat) : Nat := r.base + 64 * (c % r.size)
/-- A count as the registers show it. -/
def Ring.shown (r : Ring) (c : Nat) : Nat := if r.st == .none then 0 else c % (2 * r.size)
/-- The fetched entry of a count. -/
def Ring.entry? (r : Ring) (c : Nat) : Option Entry := r.entries.find? (·.count = c)

/-- Change the entry of a count. -/
def modEntry (c n count : Nat) (f : Entry → Entry) (s : State) : State :=
  modRing c n (fun r => { r with entries := r.entries.map (fun e => if e.count = count then f e else e) }) s

/-- The error bits of RINGn_STAT. -/
def Ring.errBits (r : Ring) : List Bool := [r.dbErr, r.fetchErr, r.cplErr, r.ctlErr, r.receiptLost]

/-- Change a ring; an error bit that rises sets CTX_EVT.RING_ERR[n] (06 R178). -/
def modRingErr (c n : Nat) (f : Ring → Ring) (s : State) : State :=
  let a := s.ring c n
  let b := f a
  let up := (List.zipWith (fun x y => !x && y) a.errBits b.errBits).any id
  let s1 := modRing c n (fun _ => b) s
  if up then modCtx c (fun x => { x with evtErr := x.evtErr ||| BitVec.ofNat 4 (2 ^ n) }) s1 else s1

/-- A ring enters STOPPED on FETCH_ERR or CPL_ERR; a RING_RESET in progress goes on from STOPPED (06 R213). -/
def stopRing (c n : Nat) (fetch : Bool) (status : Nat) (s : State) : State :=
  modRingErr c n (fun r =>
    let r := { r with
      enable := false, errStatus := status, fetchErr := r.fetchErr || fetch, cplErr := r.cplErr || !fetch,
      aborting := false, abortDue := false }
    if r.reset.isSome then { r with st := .aborting, ctlReset := true } else { r with st := .stopped }) s

/-! ### Statuses -/

/-- The first applying status in the order of 14 R452. -/
def rankStatus (l : List Nat) : Nat := ([1, 8, 9, 6, 7, 0x0B].find? (mem l)).getD 0

/-- All statuses that apply to a gathering. -/
def Work.allStatuses (w : Work) : List Nat := w.statuses ++ w.members.flatMap (·.statuses)

/-- STATUS of the colophon. -/
def Work.status (w : Work) : Nat := rankStatus w.allStatuses

/-- STATUS of one member (06 R196). -/
def memberStatus (w : Work) (m : Member) : Nat := rankStatus (w.statuses ++ m.statuses)

/-- DETAIL of a status (06 R205). -/
def detailOf (status defect : Nat) : Nat := if status = 9 then defect else if status = 7 then 1 else 0

/-- Views of a member with VALID = 0: its own and those shed (07 R244). -/
def memberInvalid (w : Work) (m : Member) : List Nat := (upto 0 w.views).filter (fun v => mem m.invalid v || mem w.shed v)

/-- The VALID mask of a gathering: bit v while view v is valid in every member (14 R450). -/
def Work.validMask (w : Work) : Nat := maskOf 8 (fun v => v < w.views && w.members.all (fun m => !mem (memberInvalid w m) v))

/-- Folios of all members. -/
def Work.allFolios (w : Work) : Nat := (w.members.map (·.folios)).sum

/-! ### Colophons (14 R450-R453) -/

/-- SEQUENCE and stitch of the chain that a gathering belongs to. -/
def chainOf (s : State) (w : Work) : Nat × Nat :=
  match w.kind with
  | .chain c n _ _ => Tbl.getD s.chains (ringKey c n) (0, 0)
  | .draw c n _ => Tbl.getD s.chains (ringKey c n) (0, 0)
  | .live i | .missing i | .terminal i => match Tbl.get? s.streams i with | some t => (t.seq, t.stitch) | none => (0, 0)
  | .mirror i => match Tbl.get? s.streams i with | some t => (t.mirrorSeq, t.mirrorStitch) | none => (0, 0)
  | .block _ => (0, 0)

/-- The chain after a gathering has taken SEQUENCE `q` and its colophon's CRC is `crc`. -/
def setChain (w : Work) (q crc : Nat) (s : State) : State :=
  let q' := (q + 1) % 2 ^ 32
  match w.kind with
  | .chain c n _ _ => { s with chains := Tbl.set s.chains (ringKey c n) (q', crc) }
  | .draw c n _ => { s with chains := Tbl.set s.chains (ringKey c n) (q', crc) }
  | .live i | .missing i | .terminal i => modStream i (fun t => { t with seq := q', stitch := crc }) s
  | .mirror i => modStream i (fun t => { t with mirrorSeq := q', mirrorStitch := crc }) s
  | .block _ => s

/-- BINDING_ID of a gathering: 0 for DRAW entries and mirrors. -/
def bindingIdOf (s : State) (w : Work) : Nat :=
  match Tbl.get? s.bindings w.binding with
  | some b => match b.image? w.gen with | some i => i.bindingId | none => 0
  | none => 0

/-- The folio payload in folio order, as written. -/
def Work.written (w : Work) : List Byte := w.folios.flatMap (·.2)

/-- Bytes 0x00-0x77 of a colophon (14 R450). -/
def colophonHead (s : State) (w : Work) (seq stitch : Nat) : List Byte :=
  leBytes 0x31464C43 4 ++ leBytes w.ctx 1 ++ leBytes w.cls 1 ++ leBytes w.streamId 2 ++
  leBytes (bindingIdOf s w) 4 ++ leBytes w.gen 4 ++ leBytes w.counter 8 ++ leBytes w.exposure 8 ++ leBytes w.frameEnd 8 ++
  leBytes (w.tFolios.getD s.now) 8 ++ leBytes (match w.key with | some k => k.id | none => 0) 8 ++ leBytes w.drawPos 8 ++
  leBytes w.views 1 ++ leBytes w.validMask 1 ++ leBytes s.tb.quality 1 ++ leBytes w.status 1 ++
  leBytes w.allFolios 4 ++ leBytes (crc64 w.written) 8 ++ leBytes stitch 4 ++ leBytes seq 4 ++ leBytes 0 32

/-- The commit word (14 R450). -/
def commitWord (seq : Nat) : Nat := 0xC0100000 + seq % 65536

/-- The 128 bytes of a colophon. -/
def colophonOf (s : State) (w : Work) (seq stitch : Nat) : List Byte :=
  let h := colophonHead s w seq stitch ++ leBytes (commitWord seq) 4
  h ++ leBytes (crc32c h) 4

/-- Address of a gathering's colophon: the end of its last folio is 128-byte aligned (01 R20). -/
def Work.colophonAddr (w : Work) : Nat :=
  match w.buffer with
  | some (_, _, a) => a + 4096 * w.total
  | none => 0

/-- The stretches of its buffer that hold bytes known to be bad (02 R37). -/
def Work.badBytes (w : Work) : List (Nat × Nat) :=
  match w.buffer with
  | some (_, _, a) => w.poison.map (fun p => (a + p.1, p.2))
  | none => []

/-- Attributes of a gathering's writes (02 R37; 08 R282, R300; 13 R435, R436). -/
def workTx (w : Work) : TxAttr :=
  match w.kind with
  | .mirror _ => { ctx := w.ctx, cls := 0, prio := 2, mirror := true, meter := some (1, w.ctx), poison := w.badBytes }
  | .block _ => { ctx := w.ctx, cls := 1, prio := 2, meter := some (1, w.ctx) }
  | _ => { workAttr w.ctx w.cls with poison := w.badBytes }

/-- Remove the transactions of a gathering that have not been issued. -/
def dropWaiting (wid : Nat) (s : State) : State :=
  { s with txs := s.txs.filter (fun x => x.tag.isSome || !(match x.purpose with
      | .zero w | .folio w _ | .colophon w | .commit w | .result w | .input w | .lookup w _ => w = wid
      | .points _ w | .header _ w | .queue _ w => w = wid
      | _ => false)) }

/-- Forget a gathering. -/
def dropWork (wid : Nat) (s : State) : State := dropWaiting wid { s with works := Tbl.erase s.works wid }

/-! ### State changes of a ring (06 R210-R212) -/

/-- A fetched entry of the ring is still running; a receipt runs nothing (06 R208, R211). -/
def Ring.busy (r : Ring) : Bool :=
  r.cplLines ≠ 0 || r.entries.any (fun e => e.phase == .writing || (e.phase == .running && e.op ≠ 5))

/-- Read data of fetches issued for a ring will be discarded. -/
def forgetFetches (c n : Nat) (s : State) : State :=
  let mine (x : Tx) : Bool := match x.purpose with | .fetch c' n' _ _ => c' = c && n' = n | _ => false
  let kept := s.txs.filter (fun x => x.tag.isSome || !mine x)
  { s with txs := kept.map (fun x => if mine x then { x with purpose := .read c } else x) }

/-- The gatherings of a ring's entries. -/
def ringWorks (s : State) (c n : Nat) : List Nat :=
  s.works.filterMap (fun p => match p.2.kind with
    | .chain c' n' _ _ => if c' = c ∧ n' = n then some p.1 else none
    | .draw c' n' _ => if c' = c ∧ n' = n then some p.1 else none
    | _ => none)

/-- Drop a gathering that has not committed: its buffer returns to stock. -/
def killWork (wid : Nat) (s : State) : State :=
  match Tbl.get? s.works wid with
  | some w => dropWork wid (returnBuf w.buffer s)
  | none => s

/-- The LIVE completions of a ring that have not been written: the backlog, and what receipts already carry. -/
def Ring.unwritten (r : Ring) : Bool := !r.backlog.isEmpty || r.entries.any (·.taken)

/-- Set the counts to 0 and discard every fetched entry and unwritten completion (06 R211, R212). A reset out of STOPPED drops the LIVE
completions too, with RECEIPT_LOST; any other leaves the backlog for the receipts to come (06 R209). A replaced draw key is no longer
named by a count of this ring (05 R165), and the ring's colophon chain begins again (14 R453). -/
def zeroRing (c n : Nat) (s : State) : State :=
  let s1 := forEach (ringWorks s c n) killWork (forgetFetches c n s)
  let s2 := modRingErr c n (fun r => { r with
      tail := 0, head := 0, done := 0, issued := 0, arrived := [], entries := [], abortDue := false, aborting := false,
      ctlReset := false, cplLines := 0, broken := false, receiptLost := r.receiptLost || (r.ctlReset && r.unwritten),
      backlog := if r.ctlReset then [] else r.backlog }) s1
  let s3 := modCtx c (fun x => { x with
    keys := x.keys.map (fun k => { k with old := k.old.map (fun o => (o.1, o.2.filter (·.1 ≠ n))) }) }) s2
  { s3 with
    chains := Tbl.erase s3.chains (ringKey c n),
    boxes := s3.boxes.map (fun b => (b.1, { b.2 with drain := b.2.drain.filter (·.1 ≠ ringKey c n) })) }

/-- An abort has ended: every issued fetch has returned and DONE = HEAD (06 R210). A register reset ends when nothing runs
(06 R211). While a RING_RESET is in progress its own end row acts. -/
def ringSettle (c n : Nat) (s : State) : State :=
  let r := s.ring c n
  if r.reset.isSome then s
  else if r.ctlReset then
    (if r.busy then s else modRing c n (fun r => { r with st := .paused, enable := false }) (zeroRing c n s))
  else if r.aborting && r.done = r.head && r.issued = r.head then
    modRing c n (fun r => { r with st := .paused, aborting := false, abortDue := false }) s
  else s

/-! ### Completions (06 R203, R206) -/

/-- Bytes of a completion; CHECK is the CRC-32C of bytes 0x00-0x37, so ENERGY_UJ at 0x38 is outside it. -/
def completionBytes (e : Entry) : List Byte :=
  let fl := b2n e.isFirst + 2 * b2n e.isLast + 16 * b2n e.late + 32 * b2n e.degraded + 64 * b2n e.invalidViews
  let h := leBytes e.status 1 ++ leBytes fl 1 ++ leBytes e.detail 2 ++ leBytes e.tag 4 ++ leBytes e.buffer 8 ++
    leBytes e.bytesOut 4 ++ leBytes e.folios 4 ++ leBytes e.colophon 8 ++ leBytes e.tAccept 8 ++ leBytes e.tDone 8 ++
    leBytes e.seq 8
  h ++ leBytes e.energy 4 ++ leBytes (crc32c h) 4

/-- What is settled when the completion write is issued: T_COMPLETE without a committed colophon, and LATE of a started
entry past its deadline (06 R201, R203). -/
def finalEntry (now : Nat) (e : Entry) : Entry :=
  { e with tDone := if e.tDone = 0 then now else e.tDone,
           late := e.late || (e.started && e.deadline ≠ 0 && e.deadline < now) }

/-- Entries from a count on whose outcome stands, at most `k` of them. -/
def endedRun (r : Ring) (count : Nat) : Nat → List Entry
  | 0 => []
  | k + 1 =>
    match r.entry? count with
    | some e => if e.phase == .ended then e :: endedRun r (count + 1) k else []
    | none => []

/-- Slots from the slot of a count to the end of its 256-byte block, up to 4: a burst never crosses it, so it never
crosses from slot N - 1 to slot 0 (06 R188, R206, 13 R433). -/
def burstRoom (r : Ring) (count : Nat) : Nat := 4 - count % r.size % 4

/-- The completion burst that may be issued. -/
def completionRun (r : Ring) : List Entry := endedRun r r.done (burstRoom r r.done)

/-- The leading entries of a run whose slots their snapshots let be written (06 R183). -/
def passingRun (r : Ring) : List Entry → List Entry
  | [] => []
  | e :: t => if lineOk e.guards true (r.slotAddr e.count) then e :: passingRun r t else []

/-- Class of a completion write: LIVE on a stream ring, else that of the first entry. -/
def completionClass (r : Ring) (e : Entry) : Nat := if r.stream then 0 else e.cls

/-- Issue the completion burst of a ring if one may be issued; a ring under a register reset ends that reset instead, once nothing
runs (06 R206, R211, R213, 14 R487). -/
def issueCompletions (c n : Nat) (s : State) : State :=
  let r := s.ring c n
  if r.ctlReset then ringSettle c n s
  else if r.cplLines ≠ 0 || r.st == .stopped || r.st == .none || s.faults.safe != .normal then s
  else
    match completionRun r with
    | [] => s
    | e :: t =>
      match passingRun r ((e :: t).map (finalEntry s.now)) with
      | [] => stopRing c n false 3 (refuse c true (r.slotAddr e.count) s)
      | p :: ps =>
        let run := p :: ps
        let s1 := modRing c n (fun r => { r with
          cplLines := run.length,
          entries := r.entries.map (fun e => match run.find? (·.count = e.count) with
            | some f => { f with phase := .writing } | none => e) }) s
        transfer (workAttr c (completionClass r p)) (.completion c n p.count run.length) (r.slotAddr p.count)
          (64 * run.length) (run.flatMap completionBytes) s1

/-- An entry's outcome stands; its completion follows in order. -/
def endEntry (c n count : Nat) (f : Entry → Entry) (s : State) : State :=
  issueCompletions c n (modEntry c n count (fun e => { f e with phase := .ended }) s)

/-- The outcome of an entry with a status and no output. -/
def plainOutcome (status detail : Nat) (e : Entry) : Entry :=
  { e with status, detail, buffer := 0, bytesOut := 0, folios := 0, colophon := 0, tDone := 0 }

/-- Samples that complete CONTAINED_FAULT are counted (05 R171, 06 R196). -/
def countContained (k : Nat) (s : State) : State := { s with faults := { s.faults with nContained := s.faults.nContained + k } }

/-- An entry ends with a status and no output. -/
def endPlain (c n count status detail : Nat) (s : State) : State :=
  endEntry c n count (plainOutcome status detail) (countContained (b2n (status = 8)) s)

/-! ### Receipts (06 R208, R209) -/

/-- The oldest fetched receipt that no gathering has taken. -/
def freeReceipt (r : Ring) : Option Entry :=
  r.entries.find? (fun e => e.op = 5 && !e.taken && (e.phase == .ready || e.phase == .running))

/-- Write a gathering's completion into a receipt. -/
def fillReceipt (c n count : Nat) (q : Receipt) : State → State :=
  endEntry c n count (fun e => { q.entry with count := e.count, bytes := e.bytes, order := e.order,
                                              guards := if q.entry.guards.isEmpty then e.guards else q.entry.guards,
                                              first := e.first, chainLen := e.chainLen, taken := true, cls := 0 })

/-- Write the backlog, oldest first, into receipts that are free. -/
def serveBacklog (c n : Nat) : Nat → State → State
  | 0, s => s
  | fuel + 1, s =>
    let r := s.ring c n
    match r.backlog, freeReceipt r with
    | q :: t, some e => serveBacklog c n fuel (fillReceipt c n e.count q (modRing c n (fun r => { r with backlog := t }) s))
    | _, _ => s

/-- A gathering's completion takes a receipt, after every completion in the backlog; else it joins the backlog, or is dropped with
RECEIPT_LOST (06 R209). -/
def deliverReceipt (c n : Nat) (q : Receipt) (s : State) : State :=
  let s := serveBacklog c n 16 s
  let r := s.ring c n
  if r.st == .none then s
  else match freeReceipt r with
    | some e => fillReceipt c n e.count q s
    | none =>
      if r.backlog.length < 16 then modRing c n (fun r => { r with backlog := r.backlog ++ [q] }) s
      else modRingErr c n (fun r => { r with receiptLost := true }) s

/-! ### Ends of gatherings -/

/-- The completion fields of member `m` of a gathering. -/
def memberOutcome (w : Work) (m : Member) (status colophon buffer tDone : Nat) (e : Entry) : Entry :=
  { e with status, detail := detailOf status m.defect, buffer, bytesOut := m.bytes, folios := m.folios, colophon, tDone,
           committed := tDone ≠ 0, degraded := !w.shed.isEmpty, invalidViews := !(memberInvalid w m).isEmpty,
           energy := cdiv m.energyNj 1000 }

/-- The outcome of member number `k`; `forced` replaces the status of every member. -/
def endMembers (w : Work) (c n first : Nat) (forced : Option Nat) (colophon buffer tDone : Nat) : List Member → Nat → State → State
  | [], _, s => s
  | m :: t, k, s =>
    endMembers w c n first forced colophon buffer tDone t (k + 1)
      (endEntry c n (first + k) (memberOutcome w m (forced.getD (memberStatus w m)) colophon buffer tDone) s)

/-- A blank entry, for the fields of a receipt. -/
def blankEntry : Entry := {}

/-- The completion of a stream's gathering. -/
def receiptOf (w : Work) (forced : Option Nat) (colophon buffer tDone : Nat) : Entry :=
  let m : Member := w.members.headD { bytes := 0, folios := 0, statuses := [], defect := 0, invalid := [], energyNj := 0, viewStart := [] }
  { memberOutcome w m (forced.getD w.status) colophon buffer tDone blankEntry with
      seq := w.seq.getD 0, tAccept := w.tStart, late := w.late, guards := w.guards }

/-- Views that a gathering delivers with VALID = 0. -/
def Work.invalidCount (w : Work) : Nat := (w.members.map (fun m => (memberInvalid w m).length)).sum

/-- The gathering's frame is not settled yet: intake still needs it when the gathering itself has ended. -/
def Work.frameOpen (w : Work) : Bool := match w.kind, w.frame with | .live _, some f => !f.settled | _, _ => false

/-- Samples of a gathering that complete CONTAINED_FAULT: its members, or the gathering itself where it has none. -/
def Work.contained (w : Work) (forced : Option Nat) : Nat :=
  match w.kind with
  | .mirror _ | .block _ => 0
  | _ => if w.members.isEmpty then b2n (forced.getD w.status = 8) else (w.members.filter (fun m => forced.getD (memberStatus w m) = 8)).length

/-- End a gathering: its entries or its receipt carry the outcome. -/
def endWork (wid : Nat) (forced : Option Nat) (colophon buffer tDone : Nat) (s : State) : State :=
  match Tbl.get? s.works wid with
  | none => s
  | some w =>
    let open_ := w.frameOpen
    let s := countContained (w.contained forced) s
    let s1 := if open_ then dropWaiting wid (modWork wid (fun w => { w with phase := .done, buffer := none, queue := [] }) s) else dropWork wid s
    match w.kind with
    | .chain c n first _ => endMembers w c n first forced colophon buffer tDone w.members 0 s1
    | .draw c n count => endMembers w c n count forced colophon buffer tDone w.members 0 s1
    | .live i | .missing i | .terminal i | .mirror i =>
      match Tbl.get? s1.streams i with
      | none => s1
      | some t =>
        let s2 := modStream i (fun t => { t with cur := if t.cur = some wid && !open_ then none else t.cur,
                                                 mirror := if t.mirror = some wid then none else t.mirror,
                                                 nInvalid := t.nInvalid + w.invalidCount }) s1
        deliverReceipt t.ctx t.ring { entry := receiptOf w forced colophon buffer tDone, stream := i } s2
    | .block _ => s1

/-- A gathering ends without a colophon: stock takes its buffer back and every member carries the status (06 R184, R196). -/
def failWork (wid status : Nat) (s : State) : State :=
  match Tbl.get? s.works wid with
  | none => s
  | some w => endWork wid (some status) 0 0 0 (returnBuf w.buffer (modWork wid (fun w => { w with
      members := w.members.map (fun m => { m with bytes := 0, folios := 0, invalid := [] }), shed := [] }) s))

/-- A mirror copy is abandoned (08 R283). -/
def abandonMirror (wid : Nat) (s : State) : State :=
  match Tbl.get? s.works wid with
  | some w =>
    match w.kind with
    | .mirror i =>
      let s1 := match Tbl.get? s.streams i with
        | some t => modPort t.port (fun p => { p with mirrorDrops := sat32 (p.mirrorDrops + 1) }) s
        | none => s
      dropWork wid (modStream i (fun t => { t with mirror := if t.mirror = some wid then none else t.mirror }) (returnBuf w.buffer s1))
    | _ => s
  | none => s

/-- A point block is abandoned: its packets count as dropped with the next block (08 R300). -/
def abandonBlock (wid : Nat) (s : State) : State :=
  match Tbl.get? s.works wid with
  | some w =>
    match w.kind, w.block with
    | .block r, some (b, _) =>
      dropWork wid (modPring r (fun p => { p with dropped := p.dropped + b.packets + b.dropped }) (returnBuf w.buffer s))
    | _, _ => s
  | none => s

/-- A write of a gathering was refused by the guard (06 R184). -/
def refuseWork (wid line : Nat) (s : State) : State :=
  match Tbl.get? s.works wid with
  | none => s
  | some w =>
    let s1 := refuse w.ctx true line s
    match w.kind with
    | .mirror _ => abandonMirror wid s1
    | .block _ => abandonBlock wid { s1 with pkt := { s1.pkt with evt := s1.pkt.evt ||| 8 } }
    | _ => failWork wid 3 s1

/-- Bytes of the leading transactions of a transfer all of whose lines pass (06 R181). -/
def passBytes (gs : List Guard) (wr : Bool) (a n : Nat) : Nat → Nat
  | 0 => 0
  | fuel + 1 =>
    let k := min n (256 - a % 256)
    if n = 0 || (guardCheck gs wr a k).isSome then 0 else k + passBytes gs wr (a + k) (n - k) fuel

/-- The member that folio `i` of a gathering belongs to. -/
def memberOf : List Member → Nat → Nat
  | [], _ => 0
  | m :: t, i => if i < m.folios then 0 else 1 + memberOf t (i - m.folios)

/-- The snapshot of member `k` of a gathering: its entry's own, or the gathering's (06 R183). -/
def memberGuards (s : State) (w : Work) (k : Nat) : List Guard :=
  match w.kind with
  | .chain c n first _ => match (s.ring c n).entry? (first + k) with | some e => e.guards | none => w.guards
  | _ => w.guards

/-- The snapshot that a write of a gathering is checked against: a folio's is that of its own entry, any other write's that of
the gathering, which for a chain is its FIRST entry's (06 R183; log 94). -/
def writeGuards (s : State) (w : Work) (p : Purpose) : List Guard :=
  match p with
  | .folio _ i => memberGuards s w (memberOf w.members i)
  | _ => w.guards

/-- A write of a gathering checked against a snapshot, transaction by transaction: those before the first refused one are presented,
nothing after it (06 R181, R184). -/
def guardedWrite (gs : List Guard) (wid : Nat) (p : Purpose) (a n : Nat) (data : List Byte) (s : State) : State :=
  match Tbl.get? s.works wid with
  | none => s
  | some w =>
    let k := passBytes gs true a n (cutCount a n)
    let s1 := transfer (workTx w) p a k (data.take k) (modWork wid (fun w => { w with pendingTx := w.pendingTx + cutCount a k }) s)
    match guardCheck gs true (a + k) (n - k) with
    | some line => refuseWork wid line s1
    | none => s1

/-- A guarded write of a gathering. -/
def workWrite (wid : Nat) (p : Purpose) (a n : Nat) (data : List Byte) (s : State) : State :=
  match Tbl.get? s.works wid with
  | none => s
  | some w => guardedWrite (writeGuards s w p) wid p a n data s

/-- The zero write over the colophon, after the buffer is issued (14 R454). -/
def zeroWrite (wid : Nat) (s : State) : State :=
  match Tbl.get? s.works wid with
  | none => s
  | some w => workWrite wid (.zero wid) w.colophonAddr 128 (List.replicate 128 0)
      (modWork wid (fun w => { w with phase := .zeroing }) s)

/-- Issue the colophon's first transaction: bytes 0x00-0x77 and 0x7C-0x7F (01 R21). -/
def startColophon (wid : Nat) (s : State) : State :=
  match Tbl.get? s.works wid with
  | none => s
  | some w =>
    let w := { w with tFolios := some (w.tFolios.getD s.now) }
    let (seq, stitch) := chainOf s w
    let col := colophonOf s w seq stitch
    let a := w.colophonAddr
    let s1 := setChain w seq (leNat (col.drop 0x7C))
      (modWork wid (fun _ => { w with phase := .colophon, seq := some seq, colophon := col, pendingTx := 1 }) s)
    let x := mkTx (workTx w) (.colophon wid) a 128 [] s1
    pump (pushTx { x with data := [(a, col.take 0x78), (a + 0x7C, col.drop 0x7C)] } s1)

/-- Issue the commit word (01 R21). -/
def writeCommit (wid : Nat) (s : State) : State :=
  match Tbl.get? s.works wid with
  | none => s
  | some w => transfer (workTx w) (.commit wid) (w.colophonAddr + 0x78) 4 (leBytes (commitWord (w.seq.getD 0)) 4)
      (modWork wid (fun w => { w with phase := .commit, pendingTx := 1 }) s)

/-- The frame of the gathering, where it has one, is closed with its defects settled (08 R274). -/
def Work.frameDone (w : Work) : Bool := match w.frame with | some f => f.settled | none => true

/-- Every folio of the gathering has been written and answered. -/
def Work.foliosDone (w : Work) : Bool := w.phase == .working && w.pendingTx = 0 && w.folios.length = w.total && w.frameDone

/-- Start the colophon when every folio has been answered (01 R21). -/
def tryColophon (wid : Nat) (s : State) : State :=
  match Tbl.get? s.works wid with
  | some w => if w.foliosDone then startColophon wid s else s
  | none => s

/-- Write one folio of a gathering whose zero write has been answered (01 R21). -/
def writeFolio (wid index : Nat) (bytes : List Byte) (s : State) : State :=
  match Tbl.get? s.works wid with
  | none => s
  | some w =>
    match w.buffer with
    | none => s
    | some (_, _, a) => workWrite wid (.folio wid index) (a + 4096 * index) 4096 bytes
        (modWork wid (fun w => { w with folios := Tbl.set w.folios index bytes }) s)

/-- Folios that became ready before the zero write was answered are presented in order (14 R454). -/
def flushFolios (wid : Nat) (s : State) : State :=
  match Tbl.get? s.works wid with
  | some w =>
    if w.phase == .working then
      forEach w.queue (fun q => writeFolio wid q.1 q.2) (modWork wid (fun w => { w with queue := [] }) s)
    else s
  | none => s

/-- The zero write of a LIVE gathering goes out when its first strip starts, since only then is there a snapshot to check it against
(06 R183, 14 R454; log 67); where no strip has started yet, the windows in force serve. -/
def openZero (wid : Nat) (s : State) : State :=
  match Tbl.get? s.works wid with
  | some w =>
    match w.kind with
    | .live _ =>
      if w.phase == .collecting && w.buffer.isSome then
        zeroWrite wid (modWork wid (fun w => { w with guards := if w.guards.isEmpty then (s.ctx w.ctx).guards else w.guards }) s)
      else s
    | _ => s
  | none => s

/-- A folio is ready: it is presented once the zero write has been answered (14 R454). -/
def putFolio (wid index : Nat) (bytes : List Byte) (s : State) : State :=
  flushFolios wid (modWork wid (fun w => { w with queue := Tbl.set w.queue index bytes }) (openZero wid s))

/-- The folio has been produced. -/
def Work.hasFolio (w : Work) (i : Nat) : Bool := Tbl.has w.folios i || Tbl.has w.queue i

/-- The 4,096-byte folios of a payload. -/
def foliosOf (payload : List Byte) : Nat → List (List Byte)
  | 0 => []
  | k + 1 => slice payload 0 4096 :: foliosOf (payload.drop 4096) k

/-- Write folios from an index on. -/
def writeFolios (wid : Nat) : List (List Byte) → Nat → State → State
  | [], _, s => s
  | f :: t, i, s => writeFolios wid t (i + 1) (writeFolio wid i f s)

/-- Views that contain a folio of a member, by the member's first folios of views. -/
def viewOfFolio (starts : List Nat) (i : Nat) : Nat := (starts.filter (· ≤ i)).length - 1

/-- Mark a status and an invalid view at folio `i` of a gathering. -/
def markFolio (status : Nat) (i : Nat) : List Member → List Member
  | [] => []
  | m :: t =>
    if i < m.folios then { m with statuses := status :: m.statuses, invalid := viewOfFolio m.viewStart i :: m.invalid } :: t
    else m :: markFolio status (i - m.folios) t

/-- A gathering's commit word has its response: the buffer is the host's and the outcome follows; a LIVE gathering more than 150 us after
its frame end is late (01 R21, 06 R197, 07 R246). -/
def committed (wid : Nat) (s : State) : State :=
  match Tbl.get? s.works wid with
  | none => s
  | some w =>
    let stream : Option Nat := match w.kind with | .live i | .missing i | .terminal i => some i | _ => none
    let late := stream.isSome && w.frameEnd ≠ 0 && decide (w.frameEnd + 150000 < s.now)
    let s1 := modWork wid (fun w => { w with late := w.late || late }) (deliverBuf w.buffer s)
    let s2 := when late (modStream (stream.getD 0) (fun t => { t with nLate := t.nLate + 1 }))
      { s1 with press := { s1.press with lateCnt := if late then sat32 (s1.press.lateCnt + 1) else s1.press.lateCnt,
                                         evt := if late then s1.press.evt ||| 1 else s1.press.evt } }
    endWork wid none w.colophonAddr (match w.buffer with | some (_, _, a) => a | none => 0) s.now s2

/-- A colophon transaction failed: no valid colophon is taken to stand, the outcome is CONTAINED_FAULT with COLOPHON_ADDR as
usual, and stock takes the buffer back (02 R38, 06 R197; log 15). -/
def colophonFailed (wid : Nat) (s : State) : State :=
  match Tbl.get? s.works wid with
  | none => s
  | some w =>
    endWork wid (some 8) w.colophonAddr (match w.buffer with | some (_, _, a) => a | none => 0) 0
      (returnBuf w.buffer s)

/-- All entries of a chain or DRAW as they are: each started. -/
def startEntries (w : Work) (s : State) : State :=
  match w.kind with
  | .chain c n first len =>
    modRing c n (fun r => { r with entries := r.entries.map (fun e =>
      if first ≤ e.count && e.count < first + len then { e with started := true, phase := .running } else e) }) s
  | .draw c n count => modEntry c n count (fun e => { e with started := true, phase := .running }) s
  | _ => s

end Sys2Proof.Machine
end

