-- ==== Sys2Proof/Machine/Rings.lean ====
section
/-! DEFINITION. Work rings: doorbells, control writes, fetching, the checks of fetched entries, chains, and the entries
that need no stages (06 R185-R214). -/

namespace Sys2Proof.Machine

/-! ### State changes of a ring -/

/-- An entry whose commit word has been issued keeps its own status under an abort (06 R210). -/
def commitIssued (s : State) (e : Entry) : Bool :=
  e.committed || (match e.work with
    | some w => (match Tbl.get? s.works w with | some x => x.phase == .commit | none => false)
    | none => false)

/-- What the press has charged to an entry so far, in uJ rounded up: its own member's stages (06 R203, 07 R238). -/
def entryCharge (s : State) (e : Entry) : Nat :=
  match (e.work.bind (Tbl.get? s.works)).bind (fun w => w.members[e.count - e.first]?) with
  | some m => cdiv m.energyNj 1000
  | none => e.energy

/-- Complete every fetched entry of an aborting ring that has not completed with ABORTED, in order, each with what it has been charged
(06 R203, R210). -/
def abortEntries (c n : Nat) (s : State) : State :=
  let es := (s.ring c n).entries.filter (fun e => e.phase != .writing && !commitIssued s e)
  let s1 := forEach es (fun e => modEntry c n e.count (fun x => { plainOutcome 1 0 x with energy := entryCharge s e, phase := .ended })) s
  ringSettle c n (issueCompletions c n (forEach (es.filterMap (·.work)) killWork s1))

/-- The slot boundary after an ABORT write (06 R210). -/
def abortBoundary (c n : Nat) (s : State) : State :=
  if (s.ring c n).aborting then abortEntries c n (modRing c n (fun r => { r with abortDue := true }) s) else s

/-! ### Ring registers (06 R185) -/

/-- Code of a ring's state. -/
def RState.code : RState → Nat
  | .none => 0 | .run => 1 | .paused => 2 | .aborting => 3 | .stopped => 4 | .draining => 5

/-- RINGn_STAT. -/
def ringStat (r : Ring) : Nat :=
  fld 16 r.errStatus + flag 12 r.receiptLost + flag 11 r.ctlErr + flag 10 r.cplErr + flag 9 r.fetchErr + flag 8 r.dbErr +
    flag 4 r.stream + r.st.code

/-- The words of a ring's block; counts show modulo 2N. -/
def ringRead (r : Ring) (off : Nat) : Nat :=
  let count (n : Nat) : Nat := if r.st == .none then 0 else n % (2 * r.size)
  match off with
  | 0x00 => half r.base 0
  | 0x04 => half r.base 1
  | 0x08 => r.log2
  | 0x0C => count r.tail
  | 0x10 => count r.head
  | 0x14 => count r.done
  | 0x18 => flag 2 r.ctlReset + flag 1 r.aborting + b2n r.enable
  | 0x1C => ringStat r
  | _ => 0

/-! ### Register writes -/

/-- A doorbell write (06 R187, R214). -/
def doorbell (c n v : Nat) (s : State) : State :=
  let r := s.ring c n
  if r.st == .none || (s.ctx c).st != .opened then s
  else
    let m := 2 * r.size
    let d := (v + m - r.done % m) % m
    if r.reset.isNone && v < m && d ≤ r.size && r.tail - r.done ≤ d then modRing c n (fun r => { r with tail := r.done + d }) s
    else modRingErr c n (fun r => { r with dbErr := true }) s

/-- A RINGn_CTL write (06 R210, R211, R214). -/
def ringCtl (c n v : Nat) (s : State) : State :=
  let r := s.ring c n
  let en := bit v 0
  let abort := bit v 1
  let reset := bit v 2
  let err := modRingErr c n (fun r => { r with ctlErr := true })
  if r.st == .none || (s.ctx c).st != .opened then s
  else if r.reset.isSome || (abort && reset) then err s
  else if abort then
    match r.st with
    | .run | .paused => modRing c n (fun r => { r with enable := false, st := .aborting, aborting := true, abortDue := false }) s
    | .aborting => s
    | _ => err s
  else if reset then
    match r.st with
    | .stopped => ringSettle c n (modRing c n (fun r => { r with st := .aborting, ctlReset := true }) s)
    | .paused =>
      if r.done = r.head && r.issued = r.head then modRing c n (fun r => { r with st := .paused, enable := false }) (zeroRing c n s)
      else err s
    | _ => err s
  else if en == r.enable then s
  else
    match r.st with
    | .run => modRing c n (fun r => { r with enable := false, st := .paused }) s
    | .paused => modRing c n (fun r => { r with enable := true, st := .run }) s
    | _ => err s

/-! ### Fetching (06 R188-R191) -/

/-- Fetched SUBMIT and DRAW entries that have not completed. -/
def heldEntries (s : State) : Nat :=
  (s.rings.map (fun p => (p.2.entries.filter (fun e => e.op = 1 || e.op = 6)).length)).sum

/-- Fetching may take place at all: not in device safe state, not while the GX goes to KEEP (03 R73, 14 R488). -/
def fetchOn (s : State) : Bool := s.mainUp && s.power.state != .enteringKeep && s.faults.safe == .normal

/-- A ring may fetch (06 R189). -/
def mayFetch (s : State) (k : Nat) : Bool :=
  let r := Tbl.getD s.rings k {}
  fetchOn s && r.st == .run && r.enable && r.reset.isNone && r.issued < r.tail && r.head - r.done < 256 && heldEntries s < 4096

/-- The next ring in round-robin order that may fetch. -/
def nextRing (s : State) : Option Nat :=
  let ks := s.rings.map (·.1)
  match (ks.filter (s.fetchRr < ·)).find? (mayFetch s) with
  | some k => some k
  | none => ks.find? (mayFetch s)

/-- Leading slots of a burst that the windows in force let be read (06 R181, R191). -/
def readableSlots (gs : List Guard) (r : Ring) (count : Nat) : Nat → Nat
  | 0 => 0
  | k + 1 => if lineOk gs false (r.slotAddr count) then 1 + readableSlots gs r (count + 1) k else 0

/-- Issue one fetch burst of a ring (06 R188, R191; attributes 13 R435, R436). -/
def fetchBurst (c n : Nat) (s : State) : State :=
  let r := s.ring c n
  let want := min (r.tail - r.issued) (burstRoom r r.issued)
  let k := readableSlots (s.ctx c).guards r r.issued want
  if k = 0 then stopRing c n true 3 (refuse c false (r.slotAddr r.issued) s)
  else
    transfer { rd := true, ctx := c, cls := 1, prio := 2, meter := some (1, c) } (.fetch c n r.issued k) (r.slotAddr r.issued) (64 * k) []
      (modRing c n (fun r => { r with issued := r.issued + k }) s)

/-- One turn of the fetch round robin (06 R189). -/
def fetchTurn (s : State) : State :=
  match nextRing s with
  | none => s
  | some k => fetchBurst (k / 4) (k % 4) { s with fetchRr := k }

/-! ### Checks of fetched entries (06 R193, R194, R198) -/

/-- Which fields each opcode uses (06 R193): INPUT0, INPUT1, PARAM, DRAW_POSITION, OUT_POOL, DEADLINE_US, EXTENSION, and the
pair BINDING_HANDLE and ENTRY_POINT. -/
def usesField (op fieldOff : Nat) : Bool :=
  if op = 1 then true
  else if op = 2 then fieldOff = 0x10 || fieldOff = 0x30
  else if op = 3 then fieldOff = 0x10 || fieldOff = 0x20
  else if op = 4 then fieldOff = 0x20
  else if op = 6 then fieldOff = 0x20 || fieldOff = 0x28 || fieldOff = 0x30 || fieldOff = 0x38
  else false

/-- Offset and value of the fields of check 4 in order. -/
def checkFields (e : Entry) : List (Nat × Nat) :=
  [(0x08, e.handle), (0x0C, e.point), (0x10, e.in0), (0x18, e.in1), (0x20, e.param), (0x28, e.drawPos), (0x30, e.pool),
   (0x34, e.deadlineUs), (0x38, e.ext)]

/-- The entry point of a number. -/
def Image.point? (i : Image) (num : Nat) : Option EntryPt := i.entries.find? (·.num = num)

/-- The binding that an entry of context `c` names, which is one of its own (06 R176). -/
def entryBinding (s : State) (c : Nat) (e : Entry) : Option Binding :=
  if e.handle / 2 ^ 24 = c then Tbl.get? s.bindings e.handle else none

/-- The image in force of a binding. -/
def Binding.image (b : Binding) : Option Image := b.image? b.gen

/-- The image that an entry runs: its binding's, in the generation in force when it was fetched (01 R26). -/
def entryImg (s : State) (c : Nat) (e : Entry) : Option Image := (entryBinding s c e).bind (·.image? e.gen)

/-- The entry point that an entry names in that generation. -/
def entryPoint (s : State) (c : Nat) (e : Entry) : Option EntryPt := (entryImg s c e).bind (·.point? e.point)

/-- The first failing field of check 4: an unused field that is not 0, SYNC_GROUP that is not 0xFFFF, or a field of kind 0
that is not 0 (06 R193, R198, 07 R217). -/
def unusedField (s : State) (c : Nat) (e : Entry) : Option Nat :=
  let kindZero (off : Nat) : Bool :=
    e.op = 1 && (match entryPoint s c e with
      | some p => (off = 0x10 && p.kind0 = 0) || (off = 0x18 && p.kind1 = 0) || (off = 0x20 && p.paramKind = 0) || (off = 0x38 && p.extKind = 0)
      | none => false)
  let bad := (checkFields e).filterMap (fun f =>
    if (!usesField e.op f.1 || kindZero f.1) && f.2 ≠ 0 then some f.1
    else if e.op = 4 && f.1 = 0x20 && 16 ≤ f.2 then some f.1 else none)
  let bad := if e.sync ≠ 0xFFFF then bad ++ [0x0E] else bad
  bad.foldl (fun (m : Option Nat) x => match m with | none => some x | some y => some (min x y)) none

/-- The draw key that a slot holds for the entry of count `count` of ring `n` (05 R165, 12 R408). -/
def keyFor (k : KeySlot) (n count : Nat) : Option DrawKey :=
  match k.old.reverse.find? (fun o => match o.2.find? (·.1 = n) with | some t => count < t.2 | none => false) with
  | some o => o.1
  | none => k.cur

/-- The draw key of an entry. -/
def entryKey (s : State) (c n : Nat) (e : Entry) : Option DrawKey := keyFor ((s.ctx c).keys.getD e.keySlot {}) n e.count

/-- A crop key with a width and a height (07 R217). -/
def cropOk (p : Nat) : Bool := bits p 32 16 ≠ 0 && bits p 48 16 ≠ 0

/-- An input of an address kind is in range and aligned (06 R198 check 11). -/
def inputOk (kind v alignLog2 : Nat) : Bool := kind = 0 || kind = 3 || (v < 2 ^ 48 && v % 2 ^ alignLog2 = 0)

/-- A binding's stages of an entry point read only sets that are present (07 R220). -/
def setsPresent (i : Image) (p : EntryPt) : Bool :=
  ((i.stages.drop p.firstStage).take p.stageRun).all (fun t =>
    ((i.coeffs.drop t.coeffFirst).take t.coeffRun).all (·.data.isSome))

/-- Class that a SUBMIT runs under (07 R216). -/
def submitClass (b : Binding) (p : EntryPt) : Nat := if b.admitted && b.cls == some 1 then 1 else p.beClass

/-- Bytes of a DRAW entry's values (12 R414). -/
def drawBytes (e : Entry) : Nat := if bits e.param 0 8 = 2 then cdiv (bits e.param 32 32) 8 else 4 * bits e.param 32 32

/-- PARAM and EXTENSION of a DRAW entry (12 R413). -/
def drawParamOk (e : Entry) : Bool :=
  1 ≤ bits e.param 32 32 && bits e.param 32 32 ≤ 16777216 && bits e.param 8 8 = 0 && bits e.param 0 8 < 4
def drawExtOk (e : Entry) : Bool := if bits e.param 0 8 = 2 then e.ext ≤ 65536 else e.ext = 0

/-- A CHAIN_LEN that a first member may have on the ring (06 R194, R198). -/
def chainLenOk (r : Ring) (n : Nat) : Bool := 1 ≤ n && n ≤ 64 && n ≤ r.size

/-- Checks 1-3 of one entry as member `k` of a chain of `len` that began with `f`. Where CHAIN_LEN itself is out of range, it is check 3
that fails, not the place of LAST (06 R193, R194, R198). -/
def structChecks (r : Ring) (f e : Entry) (k len : Nat) : List (Bool × Nat × Nat) :=
  [ (1 ≤ e.op && e.op ≤ 6, 2, 0x00),
    (e.isFirst == (k = 0) && (e.op = 1 || len = 1) && (e.isLast == (k + 1 = len) || (e.op = 1 && !chainLenOk r f.chainField)) &&
      (f.chainField = len || !chainLenOk r f.chainField) &&
      (k = 0 || (e.handle = f.handle && e.point = f.point && e.pool = f.pool && e.keySlot = f.keySlot)), 2, 0x01),
    (if e.isFirst then chainLenOk r e.chainField && (e.op = 1 || e.chainField = 1) else e.chainField = 0, 2, 0x02) ]

/-- Checks 4-13 of one entry of ring `n` of context `c` (06 R198). -/
def fieldChecks (s : State) (c n : Nat) (r : Ring) (e : Entry) : List (Bool × Nat × Nat) :=
  let b := entryBinding s c e
  let p := entryPoint s c e
  let sub := e.op = 1
  [ ((unusedField s c e).isNone, 2, (unusedField s c e).getD 0),
    (!r.stream || e.op = 5, 2, 0x00),
    (!sub || e.handle / 2 ^ 24 = c, 2, 0x08),
    (!sub || (match b with | some b => b.st != .retiring | none => false), 0x0C, 0),
    (!sub || (match b with | some b => !(b.admitted && b.cls == some 0) | none => true), 2, 0x08),
    (!sub || (match p with | some p => !p.stream | none => false), 2, 0x0C),
    (!sub || (match b, p with | some b, some p => submitClass b p ≠ 0 | _, _ => true), 0x0C, 0),
    (!sub || (match entryImg s c e, p with | some i, some p => setsPresent i p | _, _ => true), 0x0C, 0),
    (!((sub && (match p with | some p => p.draws | none => false)) || e.op = 6) || (entryKey s c n e).isSome, 2, 0x01),
    ((!sub || (match p with | some p => inputOk p.kind0 e.in0 p.alignLog2 | none => true)) &&
      (e.op ≠ 2 || !poolOk s c e.pool || (match poolSet e.pool c with | some set => (bufAt s c set e.in0).isSome | none => true)), 2, 0x10),
    (!sub || (match p with | some p => inputOk p.kind1 e.in1 p.alignLog2 | none => true), 2, 0x18),
    ((!sub || (match p with | some p => Nat.land e.param p.paramMask = e.param && (p.paramKind ≠ 1 || cropOk e.param) | none => true)) &&
      (e.op ≠ 6 || drawParamOk e), 2, 0x20),
    ((!sub || (match p with | some p => Nat.land e.ext p.extMask = e.ext && (p.extKind ≠ 1 || cropOk e.ext) | none => true)) &&
      (e.op ≠ 6 || drawExtOk e), 2, 0x38),
    (!(sub || e.op = 2 || e.op = 6) || poolOk s c e.pool, 2, 0x30) ]

/-- The first failing check: status and DETAIL. -/
def firstFail (l : List (Bool × Nat × Nat)) : Option (Nat × Nat) :=
  match l.find? (fun x => !x.1) with
  | some x => some x.2
  | none => none

/-- The result of R198 for one member of a chain; a fetch error is CONTAINED_FAULT (06 R191). -/
def checkEntry (s : State) (c n : Nat) (f e : Entry) (k len : Nat) : Option (Nat × Nat) :=
  let r := s.ring c n
  if e.badFetch then some (8, 0) else firstFail (structChecks r f e k len ++ fieldChecks s c n r e)

/-- The results of all members, in order. -/
def checkMembers (s : State) (c n : Nat) (f : Entry) (len : Nat) : List Entry → Nat → List (Option (Nat × Nat))
  | [], _ => []
  | e :: t, k => checkEntry s c n f e k len :: checkMembers s c n f len t (k + 1)

/-- How a failing chain completes (06 R191, R196, R198): all with the status of the lowest failing member, a fetch error
before all; MALFORMED members that passed carry DETAIL 0xFF. -/
def chainVerdict (res : List (Option (Nat × Nat))) : Option Nat :=
  if res.any (· == some (8, 0)) then some 8
  else match res.find? (·.isSome) with
    | some (some p) => some p.1
    | _ => none

/-- DETAIL of one member of a failing chain. -/
def chainDetail (status : Nat) (own : Option (Nat × Nat)) : Nat :=
  if status ≠ 2 then 0 else match own with
    | some (2, d) => d
    | _ => 0xFF

/-- End the members of a failing chain. -/
def failMembers (c n status : Nat) : List (Nat × Option (Nat × Nat)) → State → State
  | [], s => s
  | (count, own) :: t, s => failMembers c n status t (endPlain c n count status (chainDetail status own) s)

/-- First folios of the views of a sample: each view takes an equal whole number of folios (07 R216; log 16). -/
def viewStarts (views folios : Nat) : List Nat := (upto 0 views).map (fun v => v * (folios / max views 1))

/-- A member of `bytes` payload and `views` views. -/
def newMember (bytes views : Nat) : Member :=
  { bytes, folios := bytes / 4096, statuses := [], defect := 0, invalid := [], energyNj := 0, viewStart := viewStarts views (bytes / 4096) }

/-- Accept a chain: stock issues its buffer, its gathering begins, and its colophon's place is zeroed (06 R195, R198 check 14,
14 R454). -/
def acceptChain (c n : Nat) (w : Work) (set : Nat) (counts : List Nat) (s : State) : State :=
  let need := 4096 * w.total + 128
  let failAll (status : Nat) := failMembers c n status (counts.map (fun k => (k, none))) s
  if bufSize 7 < need then failAll 5
  else match offerBuf s c set need with
    | none => failAll 4
    | some b =>
      let wid := s.workNext
      let s1 := addWork { w with buffer := some b } (setBuf b.1 b.2.1 (some .issued) s)
      let s2 := modRing c n (fun r => { r with entries := r.entries.map (fun e =>
        if mem counts e.count then { e with phase := .ready, work := some wid, key := w.key, cls := w.cls } else e) }) s1
      zeroWrite wid s2

/-- The gathering of a chain of SUBMITs whose members are `f :: t`: each sample has the size that its own generation gives it (01 R26); the
colophon's GENERATION and VIEWS are those of the FIRST member (log 94). -/
def chainWork (s : State) (c n : Nat) (f : Entry) (t : List Entry) : Work :=
  let len := t.length + 1
  match entryBinding s c f, entryPoint s c f with
  | some b, some p =>
    let ms := (f :: t).map (fun e => newMember (match entryPoint s c e with | some q => q.outBytes | none => p.outBytes) p.views)
    { kind := .chain c n f.count len, ctx := c, cls := submitClass b p, streamId := 0xFFF0 + n, binding := f.handle, gen := f.gen,
      entry := p.num, guards := f.guards, key := if p.draws then entryKey s c n f else none, drawPos := f.drawPos,
      frameEnd := s.now, views := p.views, total := (ms.map (·.folios)).sum, members := ms }
  | _, _ => { kind := .chain c n f.count len }

/-- The gathering of a DRAW entry (12 R413, R414): class BULK, no views. -/
def drawWork (s : State) (c n : Nat) (e : Entry) : Work :=
  let folios := cdiv (drawBytes e) 4096
  { kind := .draw c n e.count, ctx := c, cls := 2, streamId := 0xFFF0 + n, guards := e.guards, key := entryKey s c n e,
    drawPos := e.drawPos, frameEnd := s.now, total := folios, members := [newMember (4096 * folios) 0] }

/-- A pending generation of a binding of context `c` that is not admitted LIVE takes force for the SUBMITs fetched from now on
(01 R26, 06 R176). -/
def promoteFor (c : Nat) (e : Entry) (s : State) : State :=
  if e.op = 1 && e.handle / 2 ^ 24 = c then
    modBinding e.handle (fun b => match b.pending with
      | some g => if b.admitted && b.cls == some 0 then b else { b with gen := g, pending := none }
      | none => b) s
  else s

/-- A fetched entry with the generation of its binding that is in force at the fetch (01 R26). -/
def fetchedGen (s : State) (c : Nat) (e : Entry) : Entry :=
  { e with gen := if e.op = 1 then (match entryBinding s c e with | some b => b.gen | none => 0) else 0 }

/-- Check a whole chain, or a lone entry, once its last member has been fetched (06 R194-R198). -/
def finishChain (c n : Nat) (ms : List Entry) (s : State) : State :=
  match ms with
  | [] => s
  | f :: t =>
    let len := ms.length
    let s0 := modRing c n (fun r => { r with entries := r.entries.map (fun e =>
      if mem (ms.map (·.count)) e.count then { e with
        tAccept := s.now, first := f.count, chainLen := len, phase := .ready,
        deadline := if f.deadlineUs = 0 || f.op ≠ 1 then 0 else s.now + 1000 * f.deadlineUs } else e) }) s
    let res := checkMembers s c n f len (f :: t) 0
    match chainVerdict res with
    | some status => failMembers c n status (List.zip (ms.map (·.count)) res) s0
    | none =>
      let set := (poolSet f.pool c).getD 0
      if f.op = 1 then acceptChain c n (chainWork s c n f t) set (ms.map (·.count)) s0
      else if f.op = 6 then acceptChain c n (drawWork s c n f) set [f.count] s0
      else if f.op = 5 && (s0.ring c n).stream then serveBacklog c n 16 s0
      else s0

/-- The members of the chain that is being gathered, in order. -/
def openChain (r : Ring) : List Entry := r.entries.filter (·.phase == .gathering)

/-- A lone or first entry: it begins a chain, or is checked by itself. -/
def beginChain (c n : Nat) (e : Entry) (s : State) : State :=
  if !e.badFetch && e.op = 1 && e.isFirst && !e.isLast && 2 ≤ e.chainField && e.chainField ≤ 64 && e.chainField ≤ (s.ring c n).size then s
  else finishChain c n [e] s

/-- The entry lies in a chain whose FIRST member came with a fetch error: a SUBMIT with FIRST = 0 after it, up to LAST
(06 R191; log 108). -/
def inBroken (r : Ring) (e : Entry) : Bool := r.broken && !e.badFetch && e.op = 1 && !e.isFirst

/-- An entry where no chain is open (06 R191, R194). -/
def beginOrFail (c n : Nat) (e : Entry) (s : State) : State :=
  if inBroken (s.ring c n) e then endPlain c n e.count 8 0 (modRing c n (fun r => { r with broken := !e.isLast }) s)
  else beginChain c n e (modRing c n (fun r => { r with broken := e.badFetch }) s)

/-- Take a fetched entry into its chain (06 R194; log 17 for a chain that another FIRST or another opcode breaks off). -/
def joinChain (c n : Nat) (opened : List Entry) (e : Entry) (s : State) : State :=
  match opened with
  | [] => beginOrFail c n e s
  | f :: _ =>
    if !e.badFetch && (e.isFirst || e.op ≠ 1) then beginChain c n e (finishChain c n opened s)
    else if (!e.badFetch && e.isLast) || opened.length + 1 = f.chainField then finishChain c n (opened ++ [e]) s
    else s

/-- ENTRY_FETCHED: HEAD passes the next arrived entry, which takes the generation in force, and the entry is checked (01 R26, 06 R188,
R198). An entry of an aborting ring or a closing context completes ABORTED (06 R175, R210). -/
def entryFetched (c n : Nat) (s : State) : State :=
  let r := s.ring c n
  match r.arrived.find? (·.count = r.head) with
  | none => s
  | some l =>
    let e : Entry := { count := r.head, bytes := if l.bad then List.replicate 64 0 else l.bytes, badFetch := l.bad, seq := r.fetched,
                       order := s.fetchOrder, guards := (s.ctx c).guards, first := r.head }
    let opened := openChain r
    let ends := r.aborting || (s.ctx c).st == .closing
    let s0 := if ends then s else promoteFor c e s
    let e := fetchedGen s0 c e
    let s1 := modRing c n (fun r => { r with
      head := r.head + 1, fetched := r.fetched + 1, arrived := r.arrived.filter (·.count ≠ r.head), entries := r.entries ++ [e] })
      { s0 with fetchOrder := s0.fetchOrder + 1 }
    if ends then ringSettle c n (endPlain c n e.count 1 0 s1) else joinChain c n opened e s1

/-! ### Readiness and the entries that need no stages -/

/-- No FENCE holds the entry back: its own FENCE flag, or a FENCE entry of lower count (06 R199, R200). -/
def unfenced (r : Ring) (e : Entry) : Bool :=
  (!e.hasFence || r.done = e.count) && r.entries.all (fun x => !(x.op = 4 && x.count < e.count))

/-- The entry is ready to start. -/
def entryReady (s : State) (c n count : Nat) : Option Entry :=
  let r := s.ring c n
  match r.entry? count with
  | some e => if e.phase == .ready && unfenced r e && !(r.aborting && r.abortDue) && !r.ctlReset then some e else none
  | none => none

/-- Another FREE_BUFFER of the context for the same buffer was fetched before (13 R439). -/
def olderFree (s : State) (c : Nat) (e : Entry) : Bool :=
  (upto 0 4).any (fun n => (s.ring c n).entries.any (fun x =>
    x.op = 2 && x.in0 = e.in0 && x.pool = e.pool && x.order < e.order && (x.phase == .ready || x.phase == .gathering)))

/-- FREE_BUFFER (06 R197, 13 R439). -/
def freeBuffer (c n count : Nat) (s : State) : State :=
  match entryReady s c n count with
  | none => s
  | some e =>
    if e.op ≠ 2 || olderFree s c e then s
    else match poolSet e.pool c with
      | none => endPlain c n count 2 0x10 s
      | some set => match bufAt s c set e.in0 with
        | some (k, i, some .host) =>
          endEntry c n count (fun x => { x with status := 0, detail := 0, buffer := e.in0, started := true }) (setBuf k i none s)
        | some (_, _, none) => endPlain c n count 0x0F 0 s
        | _ => endPlain c n count 2 0x10 s

/-- A lookup pins the entry: some read of its data, named by its first chunk, has not completed (13 R442). -/
def shelfPinned (s : State) (x : ShelfEntry) : Bool :=
  s.txs.any (fun t => match t.purpose with | .lookup _ k => x.chunks.head? = some k | _ => false)

/-- Chunks of shelf entries that are invisible and unpinned are free: drop them (13 R442). -/
def sweepShelf (s : State) : State :=
  { s with shelf := { s.shelf with entries := s.shelf.entries.filter (fun x => x.visible || shelfPinned s x || x.fill ≠ 0) } }

/-- Make the shelf entries that satisfy `p` invisible. -/
def hideShelf (p : ShelfEntry → Bool) (s : State) : State :=
  sweepShelf { s with shelf := { s.shelf with
    entries := s.shelf.entries.map (fun x => if p x && x.visible then { x with visible := false } else x) } }

/-- Evict every entry that satisfies `p`: fills of them that are in flight never become visible (05 R169). -/
def flushShelf (p : ShelfEntry → Bool) (s : State) : State :=
  hideShelf p { s with shelf := { s.shelf with entries := s.shelf.entries.filter (fun x => x.visible || x.fill = 0 || !p x) } }

/-- SHELF_EVICT (06 R193, 13 R442). -/
def shelfEvict (c n count : Nat) (s : State) : State :=
  match entryReady s c n count with
  | none => s
  | some e =>
    if e.op ≠ 3 then s
    else
      let hit (x : ShelfEntry) : Bool := x.visible && x.ctx = c && x.source = e.in0 && x.crop = e.param
      let found := s.shelf.entries.any hit
      endPlain c n count 0 (b2n found) (hideShelf hit s)

/-- Every entry fetched before a FENCE on its own ring and the rings of its mask has completed (06 R200). -/
def fenceMet (s : State) (c n : Nat) (e : Entry) : Bool :=
  (upto 0 4).all (fun k => !(k = n || bit e.param k) || (s.ring c k).entries.all (fun x => e.order ≤ x.order))

/-- FENCE (06 R200). -/
def fenceEntry (c n count : Nat) (s : State) : State :=
  match (s.ring c n).entry? count with
  | some e => if e.op = 4 && e.phase == .ready && fenceMet s c n e then endPlain c n count 0 0 s else s
  | none => s

/-- NOP: OK, or on a stream ring a receipt that the backlog may fill at once (06 R193, R208, R209). -/
def nopEntry (c n count : Nat) (s : State) : State :=
  match entryReady s c n count with
  | none => s
  | some e =>
    if e.op ≠ 5 then s
    else if (s.ring c n).stream then serveBacklog c n 16 (modEntry c n count (fun x => { x with phase := .running }) s)
    else endPlain c n count 0 0 s

/-- ENTRY_DEADLINE: an entry that has not started by its deadline completes DEADLINE_MISS; a chain as a whole (06 R201). -/
def entryDeadline (c n count : Nat) (s : State) : State :=
  match (s.ring c n).entry? count with
  | none => s
  | some e =>
    if e.phase != .ready || e.deadline = 0 || s.now < e.deadline || e.started then s
    else match e.work with
      | some w =>
        let ks := (upto e.first e.chainLen)
        forEach ks (fun k => endPlain c n k 7 0) (killWork w s)
      | none => endPlain c n count 7 0 s

/-! ### Completion responses (06 R206) -/

/-- Counters of a completed entry (05 R171). -/
def countEntry (e : Entry) (x : Ctx) : Ctx :=
  { x with nDone := x.nDone + 1, nMiss := x.nMiss + b2n (e.status = 7), nEmpty := x.nEmpty + b2n (e.status = 4),
           energyUj := x.energyUj + e.energy, bytes := x.bytes + e.bytesOut }

/-- The response of a completion burst: DONE passes it, CTX_EVT.CPL[n] is set, and the next burst may go. -/
def completionDone (c n first slots : Nat) (s : State) : State :=
  let r := s.ring c n
  let es := r.entries.filter (fun e => first ≤ e.count && e.count < first + slots)
  let s1 := modRing c n (fun r => { r with
    done := first + slots, cplLines := 0, entries := r.entries.filter (fun e => !(first ≤ e.count && e.count < first + slots)) }) s
  let s2 := modCtx c (fun x =>
    let x := es.foldl (fun x e => countEntry e x) x
    if es.any (·.hasEvent) then { x with evtCpl := x.evtCpl ||| BitVec.ofNat 4 (2 ^ n) } else x) s1
  ringSettle c n (issueCompletions c n s2)

/-- The completion write failed: the ring stops with CPL_ERR (02 R38, 06 R213). -/
def completionFailed (c n : Nat) (s : State) : State :=
  let s1 := modRing c n (fun r => { r with cplLines := 0, entries := r.entries.map (fun e =>
    if e.phase == .writing then { e with phase := .ended } else e) }) s
  ringSettle c n (stopRing c n false 8 s1)

end Sys2Proof.Machine
end

