-- ==== Sys2Proof/Machine/Numbers.lean ====
section
/-! DEFINITION. Exact numbers and the stored formats: reading an element, and narrowing to a format (00 R10-R15, 11
R370-R375). -/

namespace Sys2Proof.Machine

/-! ### Exact numbers -/

/-- An exact value num/den, den > 0; the quotient of different fractions may be equal. -/
structure Frac where
  num : Int
  den : Nat
  deriving DecidableEq, Repr

/-- An integer. -/
def Frac.ofInt (n : Int) : Frac := { num := n, den := 1 }
/-- m x 2^e. -/
def Frac.pow2 (m : Int) (e : Int) : Frac := if 0 ≤ e then { num := m * 2 ^ e.toNat, den := 1 } else { num := m, den := 2 ^ (-e).toNat }
/-- Sum, product and difference. -/
def Frac.add (a b : Frac) : Frac := { num := a.num * b.den + b.num * a.den, den := a.den * b.den }
def Frac.mul (a b : Frac) : Frac := { num := a.num * b.num, den := a.den * b.den }
def Frac.sub (a b : Frac) : Frac := { num := a.num * b.den - b.num * a.den, den := a.den * b.den }
/-- a < b, a = b. -/
def Frac.lt (a b : Frac) : Bool := a.num * b.den < b.num * a.den
def Frac.same (a b : Frac) : Bool := a.num * b.den == b.num * a.den

/-- floor(log2 |a|) for a ≠ 0. -/
def Frac.log2 (a : Frac) : Int :=
  let n := a.num.natAbs
  let d : Int := Nat.log2 n - (Nat.log2 a.den : Int)
  if 0 ≤ d then (if n < a.den * 2 ^ d.toNat then d - 1 else d) else (if n * 2 ^ (-d).toNat < a.den then d - 1 else d)

/-- A value as the tensor operators read it: an exact number, NaN or an infinity. -/
inductive Num where
  | nan
  | inf (neg : Bool)
  | fin (q : Frac)
  deriving DecidableEq, Repr

/-- Product; an infinity keeps or flips its sign, infinity times 0 is NaN. -/
def Num.mul (a b : Num) : Num :=
  match a, b with
  | .fin x, .fin y => .fin (x.mul y)
  | .nan, _ => .nan
  | _, .nan => .nan
  | .inf s, .fin y => if y.num = 0 then .nan else .inf (s != decide (y.num < 0))
  | .fin x, .inf s => if x.num = 0 then .nan else .inf (s != decide (x.num < 0))
  | .inf s, .inf t => .inf (s != t)

/-! ### Floating-point formats (11 R371) -/

/-- Exponent bits and fraction bits of formats 3-7. -/
def fpBits (fmt : Nat) : Nat × Nat :=
  match fmt with | 3 => (5, 10) | 4 => (8, 7) | 5 => (8, 23) | 6 => (4, 3) | _ => (5, 2)

/-- EMIN. -/
def fpEmin (fmt : Nat) : Int := match fmt with | 3 => -14 | 4 => -126 | 5 => -126 | 6 => -6 | _ => -14

/-- Code of MAXF. -/
def fpMax (fmt : Nat) : Nat := match fmt with | 3 => 0x7BFF | 4 => 0x7F7F | 5 => 0x7F7FFFFF | 6 => 0x7E | _ => 0x7B

/-- The canonical NaN. -/
def fpNan (fmt : Nat) : Nat := match fmt with | 3 => 0x7E00 | 4 => 0x7FC0 | 5 => 0x7FC00000 | 6 => 0x7F | _ => 0x7E

/-- Code of infinity; E4M3 has none and gives NaN (11 R374). -/
def fpInf (fmt : Nat) : Nat := match fmt with | 3 => 0x7C00 | 4 => 0x7F80 | 5 => 0x7F800000 | 6 => 0x7F | _ => 0x7C

/-- Weight of the sign bit. -/
def fpSign (fmt : Nat) : Nat := 2 ^ ((fpBits fmt).1 + (fpBits fmt).2)

/-- The value of a code of formats 3-7. -/
def fpRead (fmt code : Nat) : Num :=
  let (eb, mb) := fpBits fmt
  let e := bits code mb eb
  let m := bits code 0 mb
  let neg := bit code (eb + mb)
  let mag : Frac := if e = 0 then Frac.pow2 m (fpEmin fmt - mb) else Frac.pow2 (2 ^ mb + m : Nat) (fpEmin fmt + (e - 1) - mb)
  let val : Num := .fin (if neg then { mag with num := -mag.num } else mag)
  if fmt = 6 then (if e = 15 && m = 7 then .nan else val)
  else if e = 2 ^ eb - 1 then (if m = 0 then .inf neg else .nan)
  else val

/-- Round num/den to an integer: half to even, or stochastically with a 16-bit value (00 R14, 11 R376). -/
def roundBy (u : Option Nat) (num : Int) (den : Nat) : Int :=
  match u with | none => rneDiv num den | some u => rstoDiv num den u 16

/-- fconv: the code of a value in formats 3-7 (11 R374). -/
def fconv (fmt : Nat) (sat : Bool) (u : Option Nat) (v : Num) : Nat :=
  let signOf (neg : Bool) : Nat := if neg then fpSign fmt else 0
  let ovf (neg : Bool) : Nat := if sat then signOf neg + fpMax fmt else if fmt = 6 then fpNan 6 else signOf neg + fpInf fmt
  match v with
  | .nan => fpNan fmt
  | .inf neg => ovf neg
  | .fin q =>
    if q.num = 0 then 0
    else
      let mb := (fpBits fmt).2
      let e := max q.log2 (fpEmin fmt)
      let y := q.mul (Frac.pow2 1 (mb - e))
      let m := roundBy u y.num y.den
      let neg := decide (q.num < 0)
      let code := ((e - fpEmin fmt) * 2 ^ mb + m.natAbs).toNat
      if fpMax fmt < code then ovf neg else signOf neg + code

/-! ### Integer formats and elements (11 R370, R373, R378) -/

/-- Bytes of an element of a stored format. -/
def fmtBytes (fmt : Nat) : Nat := match fmt with | 0 => 4 | 3 => 2 | 4 => 2 | 5 => 4 | 11 => 2 | _ => 1

/-- The format is B32. -/
def isB32 (fmt : Nat) : Bool := fmt = 8 || fmt = 9 || fmt = 10

/-- Element format of a B32 format: 6, 7, or 2 for int8. -/
def b32Elem (fmt : Nat) : Nat := if fmt = 8 then 6 else if fmt = 9 then 7 else 2

/-- iconv: the code of a value in formats 0-2 with a zero point (11 R373). -/
def iconv (fmt : Nat) (zero : Int) (u : Option Nat) (v : Num) : Nat :=
  let wrap (x : Int) : Nat := code x (8 * fmtBytes fmt)
  let top : Int := if fmt = 0 then 2 ^ 23 - 1 else if fmt = 1 then 255 else 127
  let low : Int := if fmt = 0 then -(2 ^ 23) else if fmt = 1 then 0 else -128
  match v with
  | .nan => wrap (if fmt = 0 then 0 else zero)
  | .inf neg => wrap (if neg then low else top)
  | .fin q =>
    let n := roundBy u (if fmt = 0 then q.num * 2 ^ 20 else q.num) q.den
    wrap (clampI (if fmt = 0 then n else n + zero) low top)

/-- The value of a stored element with IN_SCALE 1 and IN_ZERO 0; `scale` is the block's scale byte for B32 (11 R370). -/
def readElem (fmt code scale : Nat) : Num :=
  match fmt with
  | 0 => .fin (Frac.pow2 (signed code 32) (-20))
  | 1 => .fin (Frac.ofInt code)
  | 2 => .fin (Frac.ofInt (signed code 8))
  | 11 => .fin (Frac.ofInt code)
  | 8 | 9 => if scale = 0xFF then .nan else (fpRead (b32Elem fmt) code).mul (.fin (Frac.pow2 1 ((scale : Int) - 127)))
  | 10 => if scale = 0xFF then .nan else .fin (Frac.pow2 (signed code 8) ((scale : Int) - 127))
  | _ => fpRead fmt code

/-- The same through a descriptor's IN_SCALE and IN_ZERO (11 R378). -/
def readScaled (fmt code scale inScale : Nat) (inZero : Int) : Num :=
  if fmt = 11 then readElem fmt code scale
  else
    let v := if fmt = 1 || fmt = 2 then (match readElem fmt code scale with
      | .fin q => .fin (q.sub (Frac.ofInt inZero)) | x => x) else readElem fmt code scale
    v.mul (fpRead 5 inScale)

/-- An fp32 bit pattern is finite. -/
def fp32Finite (b : Nat) : Bool := match fpRead 5 b with | .fin _ => true | _ => false
/-- An fp32 bit pattern is finite and not zero. -/
def fp32NonZero (b : Nat) : Bool := match fpRead 5 b with | .fin q => q.num ≠ 0 | _ => false
/-- An fp32 bit pattern is finite and above 0. -/
def fp32Positive (b : Nat) : Bool := match fpRead 5 b with | .fin q => 0 < q.num | _ => false

/-! ### Conversion records (11 R372-R375) -/

/-- A conversion record. -/
structure Conv where
  fmt : Nat
  stochastic : Bool
  sat : Bool
  scale : Nat
  zero : Int
  deriving DecidableEq, Repr

/-- The record at an offset of a block. -/
def convAt (b : List Byte) (off : Nat) : Conv :=
  { fmt := byteAt b off, stochastic := byteAt b (off + 1) = 1, sat := byteAt b (off + 2) = 1, scale := field b (off + 4) 4,
    zero := signed (field b (off + 8) 4) 32 }

/-- The ranges of a conversion record (11 R372). -/
def convOk (b : List Byte) (off : Nat) : Bool :=
  let c := convAt b off
  c.fmt ≤ 10 && byteAt b (off + 1) ≤ 1 && byteAt b (off + 2) ≤ 1 && (c.sat || (3 ≤ c.fmt && c.fmt ≤ 7)) && byteAt b (off + 3) = 0 &&
    fp32NonZero c.scale && field b (off + 0xC) 4 = 0 &&
    (if c.fmt = 1 then 0 ≤ c.zero && c.zero ≤ 255 else if c.fmt = 2 then -128 ≤ c.zero && c.zero ≤ 127 else c.zero = 0)

/-- Narrow one value that is already scaled, for formats other than B32; `u` gives the element's 16-bit word. -/
def Conv.narrow (c : Conv) (u : Nat) (v : Num) : Nat :=
  let r := if c.stochastic then some u else none
  if c.fmt ≤ 2 then iconv c.fmt c.zero r v else fconv c.fmt c.sat r v

/-- One B32 block of scaled values, with the element words: element codes and scale byte (11 R375). -/
def b32Block (c : Conv) (us : List Nat) (vs : List Num) : List Nat × Nat :=
  let zero := (vs.map (fun _ => 0), 0)
  if vs.any (fun v => match v with | .fin _ => false | _ => true) then (zero.1, 0xFF)
  else
    let amax := vs.foldl (fun (m : Frac) v => match v with
      | .fin q => let a : Frac := { q with num := q.num.natAbs }; if m.lt a then a else m
      | _ => m) (Frac.ofInt 0)
    if amax.num = 0 then zero
    else
      let emax : Int := if c.fmt = 8 then 8 else if c.fmt = 9 then 15 else 6
      let s := (clampI (amax.log2 - emax + 127) 0 254).toNat
      let el (u : Nat) (v : Num) : Nat :=
        let w := v.mul (.fin (Frac.pow2 1 (127 - (s : Int))))
        let r := if c.stochastic then some u else none
        if c.fmt = 10 then iconv 2 0 r w else fconv (b32Elem c.fmt) true r w
      (List.zipWith el us vs, s)

/-- B32 blocks of 32 over a list. -/
def b32Blocks (c : Conv) : Nat → List Nat → List Num → List Nat × List Nat
  | 0, _, _ => ([], [])
  | fuel + 1, us, vs =>
    if vs.isEmpty then ([], [])
    else
      let b := b32Block c (us.take 32) (vs.take 32)
      let t := b32Blocks c fuel (us.drop 32) (vs.drop 32)
      (b.1 ++ t.1, b.2 :: t.2)

/-- Narrow exact values by a record: v := x x SCALE, then R373-R375. `u i` is the 16-bit value of element `i`; element codes and
B32 scale bytes result. -/
def Conv.run (c : Conv) (u : Nat → Nat) (xs : List Num) : List Nat × List Nat :=
  let vs := xs.map (fun x => x.mul (fpRead 5 c.scale))
  let us := (upto 0 xs.length).map (fun i => if c.stochastic then u i else 0)
  if isB32 c.fmt then b32Blocks c (xs.length / 32 + 1) us vs else (List.zipWith c.narrow us vs, [])

end Sys2Proof.Machine
end

