-- ==== Sys2Proof/Machine/Tensor.lean ====
section
/-! DEFINITION. The tensor operators: what their blocks must hold, and the tensors they compute (11 R370-R402, 12 R415,
R416). -/

namespace Sys2Proof.Machine

/-! ### Tensors (11 R370, R375, R399, R400) -/

/-- How a Layout stage places a tensor: tile extents, shard dimension, shards. -/
structure Tiling where
  tile : List Nat
  dim : Nat
  shards : Nat
  deriving DecidableEq, Repr

/-- A tensor: sizes, stored format, element codes in row-major order, B32 scale bytes, and what later stages need of it. -/
structure Tensor where
  dims : List Nat
  fmt : Nat
  codes : List Nat
  scales : List Nat := []
  /-- IN_SCALE and IN_ZERO of a descriptor; 1 and 0 for a stage's output. -/
  inScale : Nat := 0x3F800000
  inZero : Int := 0
  /-- Patchify grid (GH, GW). -/
  grid : Option (Nat × Nat) := none
  /-- Bytes before the elements (Pillarise's index). -/
  header : List Byte := []
  tiling : Option Tiling := none
  /-- Bytes that Batch reports, where they differ from the bytes placed (Gather). -/
  reported : Option Nat := none
  deriving DecidableEq, Repr

/-- Number of elements of a shape. -/
def volume (dims : List Nat) : Nat := dims.foldl (· * ·) 1

/-- Row-major index of an index vector. -/
def rowMajor (dims idx : List Nat) : Nat := (List.zip dims idx).foldl (fun n p => n * p.1 + p.2) 0

/-- Index vector of a row-major index. -/
def indexOf (dims : List Nat) (n : Nat) : List Nat :=
  (dims.foldr (fun d (p : Nat × List Nat) => (p.1 / d, p.1 % d :: p.2)) (n, [])).2

/-- Values of the elements (11 R378). -/
def Tensor.values (t : Tensor) : List Num :=
  (enum t.codes).map (fun p => readScaled t.fmt p.2 (t.scales.getD (p.1 / 32) 0) t.inScale t.inZero)

/-- Bytes up to the next multiple of 4,096. -/
def folioUp (n : Nat) : Nat := cdiv n 4096 * 4096

/-- Put byte strings at offsets into a string of zeros. -/
def placeBytes (n : Nat) (l : List (Nat × List Byte)) : List Byte := l.foldl (fun bs p => splice bs p.1 p.2) (List.replicate n 0)

/-- Shape of one shard and its number of tiles per dimension. -/
def Tiling.shard (t : Tiling) (dims : List Nat) : List Nat :=
  (enum dims).map (fun p => if p.1 = t.dim then cdiv p.2 t.shards else p.2)

/-- SHARD_BYTES (11 R399). -/
def Tiling.shardBytes (t : Tiling) (dims : List Nat) (e : Nat) : Nat :=
  folioUp (volume (List.zipWith cdiv (t.shard dims) t.tile) * volume t.tile * e)

/-- Offset of an element within its shard, and its shard (11 R399). -/
def Tiling.offset (t : Tiling) (dims : List Nat) (e n : Nat) : Nat × Nat :=
  let idx := indexOf dims n
  let sh := t.shard dims
  let l := sh.getD t.dim 1
  let s := idx.getD t.dim 0 / l
  let i := (enum idx).map (fun p => if p.1 = t.dim then p.2 - s * l else p.2)
  let tile := rowMajor (List.zipWith cdiv sh t.tile) (List.zipWith (· / ·) i t.tile)
  let inner := rowMajor t.tile (List.zipWith (· % ·) i t.tile)
  (s, (tile * volume t.tile + inner) * e)

/-- The placed bytes of a tensor (11 R375, R399, R400). -/
def Tensor.bytes (t : Tensor) : List Byte :=
  let e := fmtBytes t.fmt
  match t.tiling with
  | none =>
    let d := t.header ++ t.codes.flatMap (leBytes · e)
    if isB32 t.fmt then d ++ List.replicate (folioUp d.length - d.length) 0 ++ t.scales.map (BitVec.ofNat 8) else d
  | some g =>
    let sb := g.shardBytes t.dims e
    let scb := folioUp (cdiv sb 32)
    let elems := (enum t.codes).map (fun p => let o := g.offset t.dims e p.1; (o.1 * sb + o.2, leBytes p.2 e))
    if isB32 t.fmt then
      let sc := (enum t.scales).map (fun p =>
        let o := g.offset t.dims e (32 * p.1)
        (g.shards * sb + o.1 * scb + o.2 / 32, leBytes p.2 1))
      placeBytes (g.shards * (sb + scb)) (elems ++ sc)
    else placeBytes (g.shards * sb) elems

/-! ### Tensor descriptors (11 R377, R378) -/

/-- A descriptor's fields are valid (MALFORMED where not). -/
def tensorDescOk (d : List Byte) : Bool :=
  let f := byteAt d 4
  let n := byteAt d 5
  let z := sfield d 0x3C 4
  field d 0 4 = 0x31524E54 && f ≤ 11 && inRange 1 n 4 && zeros d 6 2 && zeros d 0x24 4 && zeros d (8 + 4 * n) (4 * (4 - n)) &&
    zeros d (0x18 + 4 * (n - 1)) (4 * (4 - n)) && fp32NonZero (field d 0x38 4) &&
    (if f = 1 then 0 ≤ z && z ≤ 255 else if f = 2 then -128 ≤ z && z ≤ 127 else z = 0) && (isB32 f || field d 0x30 8 = 0)

/-- SIZE and STRIDE of a descriptor. -/
def tensorDims (d : List Byte) : List Nat := (upto 0 (byteAt d 5)).map (fun k => field d (8 + 4 * k) 4)
def tensorStrides (d : List Byte) : List Nat :=
  (upto 0 (byteAt d 5 - 1)).map (fun k => field d (0x18 + 4 * k) 4) ++ [fmtBytes (byteAt d 4)]

/-- Each stride covers the span of the dimension within it. -/
def stridesOk : List Nat → List Nat → Bool
  | _ :: n :: ns, a :: b :: bs => n * b ≤ a && stridesOk (n :: ns) (b :: bs)
  | _, _ => true

/-- A descriptor's sizes are within limits (DIM_LIMIT where not). -/
def tensorSizeOk (d : List Byte) : Bool :=
  let dims := tensorDims d
  dims.all (0 < ·) && volume dims ≤ 2 ^ 28 && stridesOk dims (tensorStrides d) && (!isB32 (byteAt d 4) || dims.getLastD 0 % 32 = 0)

/-- Address of element `n` of a described tensor. -/
def tensorAddr (d : List Byte) (n : Nat) : Nat :=
  field d 0x28 8 + (List.zipWith (· * ·) (indexOf (tensorDims d) n) (tensorStrides d)).sum

/-- The stretches of memory that a described tensor occupies: its innermost rows, then its scale bytes. -/
def tensorReads (d : List Byte) : List (Nat × Nat) :=
  let dims := tensorDims d
  let row := dims.getLastD 1
  (upto 0 (volume dims / max row 1)).map (fun k => (tensorAddr d (k * row), row * fmtBytes (byteAt d 4))) ++
    (if isB32 (byteAt d 4) then [(field d 0x30 8, volume dims / 32)] else [])

/-- A described tensor, given the bytes of memory. -/
def tensorFrom (d : List Byte) (rd : Nat → Nat → List Byte) : Tensor :=
  let dims := tensorDims d
  let f := byteAt d 4
  { dims, fmt := f, codes := (upto 0 (volume dims)).map (fun n => leNat (rd (tensorAddr d n) (fmtBytes f))),
    scales := if isB32 f then (rd (field d 0x30 8) (volume dims / 32)).map (·.toNat) else [],
    inScale := field d 0x38 4, inZero := sfield d 0x3C 4 }

/-! ### Normalise and augmentation (11 R379-R384) -/

/-- Number of elements of the planes before plane `c`. -/
def planeBase (ps : List Plane) (c : Nat) : Nat := ((ps.take c).map (fun p => p.w * p.h)).sum

/-- Every plane through a function of its number, linear index and element as W24. -/
def mapElems (f : Nat → Nat → Int → Int) (ps : List Plane) : List Plane :=
  (enum ps).map (fun ip => mkPlane ip.2.w ip.2.h none (fun x y => f ip.1 (planeBase ps ip.1 + y * ip.2.w + x) (ip.2.at x y)))

/-- Normalise (R379). -/
def runNormalise (b : List Byte) (ps : List Plane) : OpRes (List Plane) :=
  if 4 < ps.length then dimLimit
  else .ok (mapElems (fun c _ w => nw ((w - fillAt b 0x10 c) * fillAt b 0x20 c + fillAt b 0x30 c * 65536) 65536) ps)

/-- The block affects the view. -/
def viewMasked (e : OpEnv) (b : List Byte) : Bool := bit (byteAt b 0x10) e.view

/-- Photometric jitter (R380). -/
def runJitter (e : OpEnv) (b : List Byte) (ps : List Plane) : OpRes (List Plane) :=
  if ps.length ≠ byteAt b 0x11 || !sameSize ps then dimLimit
  else if !viewMasked e b then .ok ps
  else
    let th := field b 0x2C 4
    if th = 0 || !drawEvent (e.word b 0) th then .ok ps
    else
      let j (k off : Nat) : Int := if field b off 4 = 0 then 0 else jit (e.word b k) (field b off 4)
      let bb := j 1 0x14
      let c := 65536 + j 2 0x18
      let s := 65536 + j 3 0x1C
      let piv := sfield b 0x20 4
      -- t_k in units of 2^-16
      let t (k x y : Nat) : Int := match ps[k]? with | some p => (p.at x y - piv) * c + (piv + bb) * 65536 | none => 0
      let lw (k : Nat) : Int := sfield b (0x24 + 2 * k) 2
      .ok ((enum ps).map (fun ip => mkPlane ip.2.w ip.2.h none (fun x y =>
        if ps.length = 3 then
          let lum := lw 0 * t 0 x y + lw 1 * t 1 x y + lw 2 * t 2 x y
          -- Y + (t - Y) * s / 2^16 over 2^46
          nw (lum * 65536 + (t ip.1 x y * 16384 - lum) * s) (2 ^ 46)
        else nw (t ip.1 x y) 65536)))

/-- Noise (R381). -/
def runNoise (e : OpEnv) (b : List Byte) (ps : List Plane) : OpRes (List Plane) :=
  if 4 < ps.length then dimLimit
  else if !viewMasked e b then .ok ps
  else
    let th := field b 0x14 4
    if th = 0 || !drawEvent (e.word b 0) th then .ok ps
    else
      let p := e.base b
      .ok (mapElems (fun c i w =>
        let sd := fillAt b 0x18 c * 65536 + fillAt b 0x28 c * max w 0
        nw (w * 2 ^ 32 + sd * elemNormal e.key p e.view i) (2 ^ 32)) ps)

/-- A rectangle drawn from four words over a plane of w x h; the limits stand at an offset: x0, y0, width, height (R382). -/
def drawRect (b : List Byte) (off : Nat) (u1 u2 u3 u4 w h : Nat) : Nat × Nat × Nat × Nat :=
  let lo (k : Nat) := field b (off + 2 * k) 2
  let rw := min (lo 0 + u1 * (lo 1 - lo 0 + 1) / 2 ^ 32) w
  let rh := min (lo 2 + u2 * (lo 3 - lo 2 + 1) / 2 ^ 32) h
  (u3 * (w - rw + 1) / 2 ^ 32, u4 * (h - rh + 1) / 2 ^ 32, rw, rh)

/-- A point lies in a rectangle. -/
def inRect (r : Nat × Nat × Nat × Nat) (x y : Nat) : Bool := r.1 ≤ x && x < r.1 + r.2.2.1 && r.2.1 ≤ y && y < r.2.1 + r.2.2.2

/-- Erase (R382). -/
def runErase (e : OpEnv) (b : List Byte) (ps : List Plane) : OpRes (List Plane) :=
  if 4 < ps.length || !sameSize ps then dimLimit
  else if !viewMasked e b then .ok ps
  else
    let th := field b 0x14 4
    let w := (ps.map (·.w)).headD 0
    let h := (ps.map (·.h)).headD 0
    let rects := (upto 0 (byteAt b 0x11)).filterMap (fun r =>
      let u (k : Nat) := e.word b (5 * r + k)
      if th = 0 || !drawEvent (u 0) th then none else some (drawRect b 0x18 (u 1) (u 2) (u 3) (u 4) w h))
    .ok ((enum ps).map (fun ip => mkPlane w h none (fun x y =>
      if rects.any (inRect · x y) then fillAt b 0x20 ip.1 else ip.2.at x y)))

/-- Mix of a view's input with its partner's (R383, R384). -/
def runMix (e : OpEnv) (b : List Byte) (ps qs : List Plane) : OpRes (List Plane) :=
  if !viewMasked e b then .ok ps
  else if ps.length ≠ qs.length || (List.zipWith (fun p q => p.w = q.w && p.h = q.h) ps qs).any (!·) then dimLimit
  else if byteAt b 0x11 = 0 then
    let lo := field b 0x14 4
    let l : Int := (lo + e.word b 0 * (field b 0x18 4 - lo + 1) / 2 ^ 32 : Nat)
    .ok (List.zipWith (fun p q => mkPlane p.w p.h none (fun x y => nw (l * p.at x y + (65536 - l) * q.at x y) 65536)) ps qs)
  else
    .ok (List.zipWith (fun p q =>
      let r := drawRect b 0x1C (e.word b 1) (e.word b 2) (e.word b 3) (e.word b 4) p.w p.h
      mkPlane p.w p.h none (fun x y => if inRect r x y then q.at x y else p.at x y)) ps qs)

/-! ### Quantise, Patchify, Embed, Position tags (11 R385-R389) -/

/-- The 16-bit stochastic value of element `i` (R376). -/
def OpEnv.stoch (e : OpEnv) (b : List Byte) (i : Nat) : Nat := elemWord e.key (e.base b) e.view i / 65536

/-- Narrow values by a record into a tensor; B32 needs an innermost size that is a multiple of 32. -/
def narrowTo (e : OpEnv) (b : List Byte) (c : Conv) (dims : List Nat) (xs : List Num) : OpRes Tensor :=
  if isB32 c.fmt && dims.getLastD 0 % 32 ≠ 0 then dimLimit
  else
    let r := c.run (e.stoch b) xs
    .ok { dims, fmt := c.fmt, codes := r.1, scales := r.2 }

/-- A W24 element as an exact value. -/
def w24Num (w : Int) : Num := .fin (Frac.pow2 w (-20))

/-- Planes as a tensor in one of two orders (R385). -/
def planesTensor (order : Nat) (ps : List Plane) : List Nat × List Num :=
  let w := (ps.map (·.w)).headD 0
  let h := (ps.map (·.h)).headD 0
  if order = 0 then
    ([ps.length, h, w], ps.flatMap (fun p => (upto 0 h).flatMap (fun y => (upto 0 w).map (fun x => w24Num (p.at x y)))))
  else
    ([h, w, ps.length], (upto 0 h).flatMap (fun y => (upto 0 w).flatMap (fun x => ps.map (fun p => w24Num (p.at x y)))))

/-- Quantise of planes. -/
def quantPlanes (e : OpEnv) (b : List Byte) (ps : List Plane) : OpRes Tensor :=
  if !sameSize ps then dimLimit
  else
    let t := planesTensor (byteAt b 0x11) ps
    narrowTo e b (convAt b 0x18) t.1 t.2

/-- Quantise of a tensor, which keeps its shape. -/
def quantTensor (e : OpEnv) (b : List Byte) (t : Tensor) : OpRes Tensor :=
  match narrowTo e b (convAt b 0x18) t.dims t.values with
  | .ok r => .ok { r with grid := t.grid }
  | .error x => .error x

/-- Patchify (R386). -/
def runPatchify (b : List Byte) (ps : List Plane) : OpRes Tensor :=
  let p := byteAt b 0x10
  let n := byteAt b 0x12
  let w := (ps.map (·.w)).headD 0
  let h := (ps.map (·.h)).headD 0
  if ps.length ≠ n || !sameSize ps || w % p ≠ 0 || h % p ≠ 0 || w = 0 || h = 0 || 4096 < n * p * p then dimLimit
  else
    let gw := w / p
    let gh := h / p
    let el (t d : Nat) : Nat :=
      let (c, dy, dx) := if byteAt b 0x11 = 0 then (d % n, d / n / p, d / n % p) else (d / (p * p), d / p % p, d % p)
      match ps[c]? with | some q => code (q.at (t % gw * p + dx) (t / gw * p + dy)) 32 | none => 0
    .ok { dims := [gw * gh, n * p * p], fmt := 0, grid := some (gh, gw),
          codes := (upto 0 (gw * gh)).flatMap (fun t => (upto 0 (n * p * p)).map (el t)) }

/-- Embed of the stored integers of a Quantise output (R387, R388). -/
def runEmbed (e : OpEnv) (b : List Byte) (set : List Byte) (x : Tensor) : OpRes Tensor :=
  let din := field b 0x12 2
  let dout := field b 0x14 2
  match x.dims with
  | [t, d] =>
    if d ≠ din || x.fmt ≠ 2 then dimLimit
    else
      let el (k j : Nat) : Num :=
        let row := (x.codes.drop (k * din)).take din
        let acc := (enum row).foldl (fun (a : Int) p => a + signed p.2 8 * signed (byteAt set (j * din + p.1)) 8) (sfield b (0x28 + 4 * j) 4)
        let a := fpRead 5 (fconv 5 true none (.fin (Frac.ofInt acc)))
        fpRead 5 (fconv 5 false none (a.mul (fpRead 5 (field b (0x28 + 4 * dout + 4 * j) 4))))
      match narrowTo e b (convAt b 0x18) [t, dout] ((upto 0 t).flatMap (fun k => (upto 0 dout).map (el k))) with
      | .ok r => .ok { r with grid := x.grid }
      | .error y => .error y
  | _ => dimLimit

/-- Position tags of a Patchify output over an image of its grid (R389). -/
def runTags (b : List Byte) (patch : Nat) (view : Nat) (x : Tensor) : OpRes Tensor :=
  match x.grid with
  | none => dimLimit
  | some (gh, gw) =>
    let vw := field b 0x1C 2
    let x0 := field b 0x18 2
    let y0 := field b 0x1A 2
    let vh := field b 0x1E 2
    let tag (t : Nat) : List Nat :=
      let px := t % gw
      let py := t / gw
      let ov (a n lo m : Nat) : Nat := min (a + n) (lo + m) - max a lo
      let inside := ov (px * patch) patch x0 vw * ov (py * patch) patch y0 vh
      let fl := if vw = 0 then 0 else if inside = 0 then 1 else if inside < patch * patch then 2 else 0
      [(px + field b 0x14 2) % 65536, (py + field b 0x16 2) % 65536, byteAt b 0x12 * 256 + view, fl]
    .ok { dims := [gh * gw, 4], fmt := 11, codes := (upto 0 (gh * gw)).flatMap tag }

/-! ### Point blocks: Pillarise and Range image (11 R390-R394, 08 R296) -/

/-- A point of a stored point block. -/
structure PtRec where
  x : Int
  y : Int
  z : Int
  tRel : Nat
  range : Int
  az : Nat
  el : Int
  intensity : Nat
  ring : Nat
  ret : Nat
  user0 : Int
  deriving DecidableEq, Repr

/-- The 64-byte header of a point block passes MAGIC and HEADER_CRC (08 R296). -/
def ptHeaderOk (h : List Byte) : Bool := field h 0 4 = 0x31425450 && field h 0x3C 4 = crc32c (slice h 0 0x3C)

/-- Point `i` of the point records. -/
def ptAt (d : List Byte) (i : Nat) : PtRec :=
  let o := 32 * i
  { x := sfield d o 4, y := sfield d (o + 4) 4, z := sfield d (o + 8) 4, tRel := field d (o + 0xC) 4, range := sfield d (o + 0x10) 4,
    az := field d (o + 0x14) 2, el := sfield d (o + 0x16) 2, intensity := field d (o + 0x18) 2, ring := byteAt d (o + 0x1A),
    ret := byteAt d (o + 0x1B), user0 := sfield d (o + 0x1C) 4 }

/-- The points of a block's records. -/
def ptList (d : List Byte) (n : Nat) : List PtRec := (upto 0 n).map (ptAt d)

/-- Mean of a coordinate over points. -/
def ptMean (f : PtRec → Int) (l : List PtRec) : Frac := { num := (l.map f).sum, den := max l.length 1 }

/-- Feature of a point: codes 0-8 and 14 of R391; the rest is Pillarise's own. -/
def ptFeature (code : Nat) (p : PtRec) : Int :=
  match code with
  | 0 => p.x | 1 => p.y | 2 => p.z | 3 => p.intensity | 4 => p.range | 5 => p.ring | 6 => p.ret | 7 => p.tRel | 8 => p.user0 | _ => 1

/-- Feature of a point in its pillar (R391). -/
def pillarFeature (b : List Byte) (code ix iy : Nat) (kept : List PtRec) (p : PtRec) : Frac :=
  let centre (o cell i : Nat) : Frac := { num := 2 * sfield b o 4 + (2 * i + 1) * (field b cell 4 : Nat), den := 2 }
  match code with
  | 9 => (Frac.ofInt p.x).sub (centre 0x1C 0x24 ix)
  | 10 => (Frac.ofInt p.y).sub (centre 0x20 0x28 iy)
  | 11 => (Frac.ofInt p.x).sub (ptMean (·.x) kept)
  | 12 => (Frac.ofInt p.y).sub (ptMean (·.y) kept)
  | 13 => (Frac.ofInt p.z).sub (ptMean (·.z) kept)
  | c => Frac.ofInt (ptFeature c p)

/-- Cell of a point, and whether it is kept by R392 step 1. -/
def pillarCell (b : List Byte) (p : PtRec) : Option Nat :=
  let ix := fdiv (p.x - sfield b 0x1C 4) (field b 0x24 4)
  let iy := fdiv (p.y - sfield b 0x20 4) (field b 0x28 4)
  let gx := field b 0x10 2
  if 0 ≤ ix && ix < gx && 0 ≤ iy && iy < field b 0x12 2 && sfield b 0x2C 4 ≤ p.z && p.z ≤ sfield b 0x30 4 then some (iy.toNat * gx + ix.toNat)
  else none

/-- Pillarise (R390-R392): the features and the index. -/
def runPillarise (e : OpEnv) (b : List Byte) (pts : List PtRec) : OpRes (List Tensor) :=
  let maxp := byteAt b 0x14
  let nf := byteAt b 0x15
  let maxn := field b 0x18 4
  let gx := field b 0x10 2
  let cells : Tbl (List PtRec) := pts.foldl (fun t p => match pillarCell b p with
    | some c => Tbl.set t c (Tbl.getD t c [] ++ [p])
    | none => t) []
  let out := (pts.filter (fun p => (pillarCell b p).isNone)).length
  let kept := cells.take maxn
  let nKept := (kept.map (fun c => min c.2.length maxp)).sum
  let over_ := pts.length - out - nKept
  let c := convAt b 0x88
  let slot (cell : Nat × List PtRec) (k : Nat) : List Num :=
    let ps := cell.2.take maxp
    match ps[k]? with
    | none => []
    | some p => (upto 0 nf).map (fun f =>
        (Num.fin (pillarFeature b (byteAt b (0x38 + f)) (cell.1 % gx) (cell.1 / gx) ps p)).mul (fpRead 5 (field b (0x48 + 4 * f) 4)))
  let feature (n k f : Nat) : Nat :=
    match kept[n]? with
    | none => 0
    | some cell => match (slot cell k)[f]? with
      | none => 0
      | some v => c.narrow (if c.stochastic then e.stoch b ((n * maxp + k) * nf + f) else 0) (v.mul (fpRead 5 c.scale))
  let codes := (upto 0 maxn).flatMap (fun n => (upto 0 maxp).flatMap (fun k => (upto 0 nf).map (feature n k)))
  let index (n : Nat) : List Nat := match kept[n]? with
    | some cell => [cell.1 % gx, cell.1 / gx, min cell.2.length maxp, 0]
    | none => [0xFFFF, 0xFFFF, 0, 0]
  .ok [ { dims := [maxn, maxp, nf], fmt := c.fmt, codes },
        { dims := [maxn, 4], fmt := 11, codes := (upto 0 maxn).flatMap index,
          header := leBytes kept.length 4 ++ leBytes nKept 4 ++ leBytes out 4 ++ leBytes over_ 4 } ]

/-- Row of a point (R394). -/
def rangeRow (b : List Byte) (p : PtRec) : Option Nat :=
  let rows := field b 0x10 2
  let r : Int := if byteAt b 0x14 = 0 then p.ring
    else
      let lo := sfield b 0x18 2
      let hi := sfield b 0x1A 2
      if lo ≤ p.el && p.el < hi then fdiv ((hi - 1 - p.el) * rows) (hi - lo) else -1
  if 0 ≤ r && r < rows then some r.toNat else none

/-- Range image (R393, R394). -/
def runRange (e : OpEnv) (b : List Byte) (pts : List PtRec) : OpRes Tensor :=
  let rows := field b 0x10 2
  let cols := field b 0x12 2
  let nc := byteAt b 0x15
  let cells : Tbl PtRec := pts.foldl (fun t p => match rangeRow b p with
    | some r =>
      let k := r * cols + (p.az + 65536 - field b 0x16 2) % 65536 * cols / 65536
      (match Tbl.get? t k with
        | some q => if p.range < q.range then Tbl.set t k p else t
        | none => Tbl.set t k p)
    | none => t) []
  let val (ch k : Nat) : Num :=
    let raw : Int := match Tbl.get? cells k with | some p => ptFeature (byteAt b (0x20 + ch)) p | none => sfield b (0x48 + 4 * ch) 4
    (Num.fin (Frac.ofInt raw)).mul (fpRead 5 (field b (0x28 + 4 * ch) 4))
  narrowTo e b (convAt b 0x68) [nc, rows, cols] ((upto 0 nc).flatMap (fun ch => (upto 0 (rows * cols)).map (val ch)))

/-! ### Gather, Scatter, Transpose tile, Layout (11 R395-R399) -/

/-- Data as (R, C, D) (R395). -/
def asRCD (t : Tensor) : Option (Nat × Nat × Nat) :=
  if isB32 t.fmt then none
  else match t.grid, t.dims with
    | some (gh, gw), [_, d] => some (gh, gw, d)
    | _, [r, c, d] => some (r, c, d)
    | _, [r, c] => some (r, c, 1)
    | _, _ => none

/-- The block list: pairs (BX, BY); a tensor of FMT 11 and shape (K, 2). -/
def blockList (t : Tensor) (maxK : Nat) : Option (List (Nat × Nat)) :=
  match t.dims with
  | [k, 2] => if t.fmt = 11 && k ≤ maxK then some ((upto 0 k).map (fun i => (t.codes.getD (2 * i) 0, t.codes.getD (2 * i + 1) 0))) else none
  | _ => none

/-- Gather (R395). -/
def runGather (b : List Byte) (t lst : Tensor) : OpRes Tensor :=
  let br := field b 0x12 2
  let bc := field b 0x14 2
  let maxK := field b 0x18 4
  match asRCD t, blockList lst maxK with
  | some (r, c, d), some bl =>
    let blk (k : Nat) : List Nat := match bl[k]? with
      | none => List.replicate (br * bc * d) 0
      | some (bx, by_) => (upto 0 br).flatMap (fun i => (upto 0 bc).flatMap (fun j =>
          let y := by_ * br + i
          let x := bx * bc + j
          if y < r && x < c then (t.codes.drop ((y * c + x) * d)).take d else List.replicate d 0))
    .ok { dims := [maxK, br, bc, d], fmt := t.fmt, codes := (upto 0 maxK).flatMap blk,
          reported := some (bl.length * br * bc * d * fmtBytes t.fmt) }
  | _, _ => dimLimit

/-- Scatter (R396). -/
def runScatter (b : List Byte) (t lst : Tensor) : OpRes Tensor :=
  let br := field b 0x12 2
  let bc := field b 0x14 2
  let gr := field b 0x1C 2
  let gc := field b 0x1E 2
  match t.dims, blockList lst (field b 0x18 4) with
  | [k', h, w, d], some bl =>
    if isB32 t.fmt || h ≠ br || w ≠ bc || k' < bl.length then dimLimit
    else
      let cell (y x : Nat) : List Nat :=
        match ((enum bl).filter (fun p => p.2 = (x / bc, y / br))).getLast? with
        | some p => (t.codes.drop (((p.1 * br + y % br) * bc + x % bc) * d)).take d
        | none => List.replicate d 0
      .ok { dims := [gr * br, gc * bc, d], fmt := t.fmt,
            codes := (upto 0 (gr * br)).flatMap (fun y => (upto 0 (gc * bc)).flatMap (cell y)) }
  | _, _ => dimLimit

/-- Transpose tile (R397). -/
def runTranspose (t : Tensor) : OpRes Tensor :=
  let tr (n r c : Nat) (dims : List Nat) : OpRes Tensor :=
    .ok { t with
      dims, grid := none, tiling := none, inScale := 0x3F800000, inZero := 0,
      codes := (upto 0 n).flatMap (fun k => (upto 0 c).flatMap (fun x => (upto 0 r).map (fun y => t.codes.getD ((k * r + y) * c + x) 0))) }
  if isB32 t.fmt then dimLimit
  else match t.dims with
    | [r, c] => tr 1 r c [c, r]
    | [n, r, c] => tr n r c [n, c, r]
    | _ => dimLimit

/-- Layout and sharding (R398). -/
def runLayout (b : List Byte) (t : Tensor) : OpRes Tensor :=
  let n := byteAt b 0x11
  let g : Tiling := { tile := (upto 0 n).map (fun k => field b (0x14 + 2 * k) 2), dim := byteAt b 0x12, shards := byteAt b 0x13 }
  if t.dims.length ≠ n || t.dims.getD g.dim 0 < g.shards || (isB32 t.fmt &&
      (g.tile.getLastD 0 % 32 ≠ 0 || (g.dim + 1 = n && (g.shard t.dims).getLastD 0 % 32 ≠ 0))) then dimLimit
  else .ok { t with
    tiling := some g, inScale := 0x3F800000, inZero := 0 }

/-! ### Batch (11 R401, R402) -/

/-- Parts of a Batch block: stage and first folio. -/
def batchParts (b : List Byte) : List (Nat × Nat) :=
  (upto 0 (byteAt b 0x11)).map (fun k => (field b (0x18 + 8 * k) 2, field b (0x1C + 8 * k) 4))

/-- The tensor that part `k` places: of a stage with two outputs, the first part that names it places the first, the next the
second (log 31). -/
def partTensor (parts : List (Nat × Nat)) (k : Nat) (outs : List Tensor) : Option Tensor :=
  let before := ((parts.take k).filter (fun p => some p.1 = (parts[k]?).map (·.1))).length
  match outs[before]? with
  | some t => some t
  | none => outs.getLast?

/-- One view: the parts' bytes at their folios, and the header (R402). -/
def runBatch (b : List Byte) (e : OpEnv) (viewBytes : Nat) (outs : Nat → List Tensor) : OpRes (List Byte) :=
  let parts := batchParts b
  let tens := (upto 0 parts.length).map (fun k => partTensor parts k (outs (parts.getD k (0, 0)).1))
  if tens.any (·.isNone) then dimLimit
  else
    let placed := (enum tens).map (fun p => match p.2 with
      | some t => ((parts.getD p.1 (0, 0)).2 * 4096, t.bytes, t.reported.getD t.bytes.length)
      | none => (0, [], 0))
    let ends := (placed.drop 1).map (·.1) ++ [viewBytes]
    if (List.zipWith (fun (p : Nat × List Byte × Nat) m => decide (m < p.1 + p.2.1.length)) placed ends).any id then dimLimit
    else
      let hdr := if byteAt b 0x10 = 0 then []
        else [(0, leBytes 0x31575654 4 ++ leBytes e.view 1 ++ leBytes parts.length 1 ++ leBytes 0 2 ++ leBytes e.pos 8 ++
          slice (placed.flatMap (fun p => leBytes (p.1 / 4096) 4 ++ leBytes p.2.2 4)) 0 48)]
      .ok (placeBytes viewBytes (hdr ++ placed.map (fun p => (p.1, p.2.1))))

/-! ### Categorical sampling (12 R415, R416) -/

/-- X2(f): k is floor(2^(31 - f/65536)), found bit by bit (R416). -/
def exp2Bits (f : Nat) : Nat → Nat → Nat
  | 0, k => k
  | n + 1, k =>
    let c := k + 2 ^ n
    exp2Bits f n (if c ^ 65536 ≤ 2 ^ (31 * 65536 - f) then c else k)

/-- X2(f) := rne(2^(30 - f/65536), 0). -/
def exp2 (f : Nat) : Nat := (exp2Bits f 32 0 + 1) / 2

/-- The weight of a score's distance. -/
def catWeight (a : Nat) : Nat := if 31 ≤ a / 65536 then 0 else exp2 (a % 65536) / 2 ^ (a / 65536)

/-- Insertion by an order. -/
def insertBy {α : Type} (le : α → α → Bool) (x : α) : List α → List α
  | [] => [x]
  | y :: t => if le x y then x :: y :: t else y :: insertBy le x t

/-- Sort by an order, earlier elements first among equals. -/
def sortBy {α : Type} (le : α → α → Bool) (l : List α) : List α := l.foldr (insertBy le) []

/-- Candidates of a row: index and a_i. -/
def catCandidates (invT : Nat) (row : List Num) : List (Nat × Nat) :=
  if row.any (· == .inf false) then (enum row).filterMap (fun p => if p.2 == .inf false then some (p.1, 0) else none)
  else
    let z := (enum row).filterMap (fun p => match p.2 with
      | .fin q => (match (Num.fin q).mul (fpRead 5 invT) with | .fin r => some (p.1, r) | _ => none)
      | _ => none)
    match z with
    | [] => []
    | z0 :: t =>
      let top := t.foldl (fun m p => if m.lt p.2 then p.2 else m) z0.2
      z.map (fun p =>
        let d := (top.sub p.2).mul (Frac.ofInt 94548)
        (p.1, min (rneDiv d.num d.den).toNat (2 ^ 21)))

/-- The shortest prefix whose weight reaches the share of the total. -/
def topPrefix (topP total : Nat) : Nat → List (Nat × Nat) → List (Nat × Nat)
  | _, [] => []
  | acc, x :: t => if topP * total ≤ (acc + x.2) * 65536 then [x] else x :: topPrefix topP total (acc + x.2) t

/-- The first index whose cumulative weight exceeds `t`. -/
def pickWeighted (t : Nat) : Nat → List (Nat × Nat) → Nat
  | _, [] => 0xFFFFFFFF
  | acc, x :: l => if t < acc + x.2 then x.1 else pickWeighted t (acc + x.2) l

/-- One row: INDEX, KEPT, RFLAGS (R416). -/
def catRow (e : OpEnv) (b : List Byte) (r : Nat) (row : List Num) : List Nat :=
  let cand := catCandidates (field b 0x18 4) row
  if cand.isEmpty then [0xFFFFFFFF, 0, 1]
  else if byteAt b 0x11 = 1 then [(match cand.find? (·.2 = 0) with | some p => p.1 | none => 0), 1, 0]
  else
    let k := field b 0x12 2
    let kept := if k = 0 then cand else (sortBy (fun p q => p.2 < q.2 || (p.2 = q.2 && p.1 ≤ q.1)) cand).take k
    let ws := kept.map (fun p => (p.1, catWeight p.2))
    let order := if k = 0 then ws else sortBy (fun p q => q.2 < p.2 || (p.2 = q.2 && p.1 ≤ q.1)) ws
    let final := topPrefix (field b 0x14 4) ((order.map (·.2)).sum) 0 order
    let y := drawQuad e.key 3 (e.base b) r 0 (field b 0x1C 2)
    let u := y.a.toNat + 2 ^ 32 * y.b.toNat
    [pickWeighted (u * ((final.map (·.2)).sum) / 2 ^ 64) 0 final, final.length, 0]

/-- Categorical sampling (R415). -/
def runCategorical (e : OpEnv) (b : List Byte) (t : Tensor) : OpRes Tensor :=
  match t.dims with
  | [r, v] =>
    if v = 0 || 65536 < v || field b 0x20 4 < r then dimLimit
    else
      let vals := t.values
      .ok { dims := [r, 8], fmt := 11, codes := (upto 0 r).flatMap (fun k =>
        ((catRow e b k ((vals.drop (k * v)).take v)) ++ [0]).flatMap (fun w => [w % 65536, w / 65536])) }
  | _ => dimLimit

/-! ### Checks of blocks -/

/-- Mix and Erase rectangles (R382). -/
def rectOk (b : List Byte) (off : Nat) : Bool :=
  let f (k : Nat) := field b (off + 2 * k) 2
  (upto 0 4).all (fun k => inRange 1 (f k) 8192) && f 0 ≤ f 1 && f 2 ≤ f 3

/-- Photometric jitter (R380). -/
def jitterOk (b : List Byte) : Bool :=
  let n := byteAt b 0x11
  b.length = 48 && (n = 1 || n = 3) && zeros b 0x12 2 && field b 0x14 4 ≤ 2 ^ 20 && field b 0x18 4 ≤ 32768 && field b 0x1C 4 ≤ 65536 &&
    (n = 3 || field b 0x1C 4 = 0) && zeros b 0x2A 2 && field b 0x2C 4 ≤ 65536 &&
    (if n = 3 then sfield b 0x24 2 + sfield b 0x26 2 + sfield b 0x28 2 = 16384 else zeros b 0x24 6)

/-- Noise (R381). -/
def noiseOk (b : List Byte) : Bool :=
  b.length = 56 && zeros b 0x11 3 && field b 0x14 4 ≤ 65536 &&
    (upto 0 4).all (fun c => inRange 0 (field b (0x18 + 4 * c) 4) (2 ^ 20) && inRange 0 (field b (0x28 + 4 * c) 4) 65536)

/-- Erase (R382). -/
def eraseOk (b : List Byte) : Bool :=
  b.length = 48 && inRange 1 (byteAt b 0x11) 2 && zeros b 0x12 2 && field b 0x14 4 ≤ 65536 && rectOk b 0x18

/-- Mix (R383). -/
def mixOk (b : List Byte) : Bool :=
  b.length = 40 && byteAt b 0x11 ≤ 1 && inRange 1 (byteAt b 0x12) 7 && zeros b 0x13 1 && field b 0x14 4 ≤ field b 0x18 4 &&
    field b 0x18 4 ≤ 65536 && rectOk b 0x1C && zeros b 0x24 4

/-- Quantise (R385). -/
def quantOk (b : List Byte) : Bool := b.length = 40 && byteAt b 0x10 ≤ 2 && byteAt b 0x11 ≤ 1 && zeros b 0x12 6 && convOk b 0x18

/-- Patchify (R386). -/
def patchOk (b : List Byte) : Bool :=
  let p := byteAt b 0x10
  b.length = 24 && (p = 8 || p = 14 || p = 16 || p = 32) && byteAt b 0x11 ≤ 1 && inRange 1 (byteAt b 0x12) 4 && zeros b 0x13 5 &&
    byteAt b 0x12 * p * p ≤ 4096

/-- Embed (R387). -/
def embedOk (b : List Byte) : Bool :=
  let d := field b 0x14 2
  inRange 1 (field b 0x12 2) 4096 && inRange 1 d 1024 && b.length = 40 + 8 * d && zeros b 0x16 2 && convOk b 0x18 &&
    (upto 0 d).all (fun j => (sfield b (0x28 + 4 * j) 4).natAbs ≤ 2 ^ 30 && fp32Finite (field b (0x28 + 4 * d + 4 * j) 4))

/-- Position tags (R389). -/
def tagsOk (b : List Byte) : Bool := b.length = 32 && zeros b 0x13 1

/-- Pillarise (R390, R391). -/
def pillarOk (b : List Byte) : Bool :=
  let nf := byteAt b 0x15
  b.length = 152 && inRange 1 (field b 0x10 2) 1024 && inRange 1 (field b 0x12 2) 1024 && inRange 1 (byteAt b 0x14) 32 && inRange 1 nf 16 &&
    zeros b 0x16 2 && inRange 1 (field b 0x18 4) 65536 && inRange 1 (field b 0x24 4) (2 ^ 20) && inRange 1 (field b 0x28 4) (2 ^ 20) &&
    sfield b 0x2C 4 ≤ sfield b 0x30 4 && zeros b 0x34 4 && (upto 0 16).all (fun k => if k < nf then byteAt b (0x38 + k) ≤ 14 else byteAt b (0x38 + k) = 0) &&
    (upto 0 16).all (fun k => fp32Finite (field b (0x48 + 4 * k) 4)) && convOk b 0x88 && !isB32 (byteAt b 0x88)

/-- Range image (R393). -/
def rangeOk (b : List Byte) : Bool :=
  let nc := byteAt b 0x15
  b.length = 120 && inRange 1 (field b 0x10 2) 256 && inRange 1 (field b 0x12 2) 8192 && byteAt b 0x14 ≤ 1 && inRange 1 nc 8 &&
    (if byteAt b 0x14 = 1 then sfield b 0x18 2 < sfield b 0x1A 2 else zeros b 0x18 4) && zeros b 0x1C 4 &&
    (upto 0 8).all (fun (k : Nat) => byteAt b (0x20 + k) ≤ 8 || byteAt b (0x20 + k) = 14) && (upto 0 8).all (fun k => fp32Finite (field b (0x28 + 4 * k) 4)) && convOk b 0x68

/-- Gather and Scatter (R395). -/
def gatherOk (op : Nat) (b : List Byte) : Bool :=
  b.length = 32 && byteAt b 0x10 ≤ 1 && zeros b 0x11 1 && inRange 1 (field b 0x12 2) 256 && inRange 1 (field b 0x14 2) 256 && zeros b 0x16 2 &&
    inRange 1 (field b 0x18 4) 65536 &&
    (if op = 0x0241 then inRange 1 (field b 0x1C 2) 8192 && inRange 1 (field b 0x1E 2) 8192 else zeros b 0x1C 4)

/-- Transpose tile (R397). -/
def transOk (b : List Byte) : Bool := b.length = 24 && byteAt b 0x10 ≤ 1 && zeros b 0x11 7

/-- Layout and sharding (R398). -/
def layoutOk (b : List Byte) : Bool :=
  let n := byteAt b 0x11
  b.length = 32 && byteAt b 0x10 ≤ 2 && inRange 1 n 4 && byteAt b 0x12 < n && inRange 1 (byteAt b 0x13) 64 && zeros b 0x1C 4 &&
    (upto 0 4).all (fun k => if k < n then inRange 1 (field b (0x14 + 2 * k) 2) 1024 else field b (0x14 + 2 * k) 2 = 1)

/-- Batch (R401): the fields of its own block. -/
def batchOk (b : List Byte) : Bool :=
  let n := byteAt b 0x11
  b.length = 72 && byteAt b 0x10 ≤ 1 && inRange 1 n 6 && zeros b 0x12 6 &&
    (upto 0 6).all (fun k => if k < n then zeros b (0x1A + 8 * k) 2 else zeros b (0x18 + 8 * k) 8)

/-- Categorical sampling (12 R415). -/
def catOk (b : List Byte) : Bool :=
  b.length = 40 && byteAt b 0x10 ≤ 2 && byteAt b 0x11 ≤ 1 && field b 0x12 2 ≤ 1024 && inRange 1 (field b 0x14 4) 65536 &&
    fp32Positive (field b 0x18 4) && zeros b 0x1E 2 && inRange 1 (field b 0x20 4) 65536 && zeros b 0x24 4 &&
    (field b 0x12 2 ≠ 0 || field b 0x14 4 = 65536)

/-- The body of a tensor operator's or the categorical sampling block. -/
def tensorOk (op : Nat) (b : List Byte) : Bool :=
  match op with
  | 0x0200 => b.length = 64 | 0x0201 => jitterOk b | 0x0202 => noiseOk b | 0x0203 => eraseOk b | 0x0204 => mixOk b | 0x0210 => quantOk b
  | 0x0220 => patchOk b | 0x0221 => embedOk b | 0x0222 => tagsOk b | 0x0230 => pillarOk b | 0x0231 => rangeOk b
  | 0x0240 => gatherOk op b | 0x0241 => gatherOk op b | 0x0242 => transOk b | 0x0243 => layoutOk b | 0x0250 => batchOk b
  | 0x0300 => catOk b | _ => false

end Sys2Proof.Machine
end

