-- ==== Sys2Proof/Machine/Pipeline.lean ====
section
/-! DEFINITION. The stages of an entry point run over one sample: what they read, what each leaves, and the folio payload
(07 R216-R219; 10 R345-R349; 11 R377, R378, R401; 12 R410). Both replicas, every replay and every placement give these bits
(01 R25). -/

namespace Sys2Proof.Machine

/-! ### What a stage leaves -/

/-- The output of a stage for one view. -/
inductive StageOut where
  | nothing
  | planes (ps : List Plane)
  | tensors (ts : List Tensor)
  | bytes (l : List Byte)
  deriving DecidableEq, Repr

/-- Planes, where planes are required (10 R344). -/
def StageOut.asPlanes : StageOut → OpRes (List Plane)
  | .planes ps => .ok ps
  | _ => dimLimit

/-- A tensor, where a tensor is required. -/
def StageOut.asTensor : StageOut → OpRes Tensor
  | .tensors (t :: _) => .ok t
  | _ => dimLimit

/-- The tensors of an output. -/
def StageOut.tensorList : StageOut → List Tensor
  | .tensors ts => ts
  | _ => []

/-- Chain two steps that may fail. -/
def OpRes.andThen {α β : Type} (r : OpRes α) (f : α → OpRes β) : OpRes β :=
  match r with
  | .ok x => f x
  | .error e => .error e

/-- What running a sample's stages needs. -/
structure RunEnv where
  image : Image
  ep : EntryPt
  key : Nat
  pos : Nat
  in0 : Nat
  in1 : Nat
  param : Nat
  ext : Nat
  gs : List Guard
  mem : ExtMem
  /-- A stream's frame: data type, width, height, lines as landed. -/
  frame : Option (Nat × Nat × Nat × List (List Byte)) := none
  /-- The encoder state of a stream; of an encode session the units of its reference. -/
  enc : EncState := {}
  /-- The shelf entry that a lookup has read, by view. -/
  stored : Option (List StageOut) := none
  deriving DecidableEq, Repr

/-- What the stages have done so far. -/
structure Run where
  outs : Tbl (List StageOut) := []
  /-- Statuses that apply with every view invalid. -/
  statuses : List Nat := []
  /-- Memory writes besides folios. -/
  writes : List (Nat × List Byte) := []
  /-- The status and DETAIL that end the sample. -/
  fail : Option (Nat × Nat) := none
  /-- ERROR_CODE of a decode, and slices concealed. -/
  decode : Option (Nat × Nat) := none
  /-- A coded unit with its block. -/
  enc : Option (List Byte × EncOut) := none
  deriving DecidableEq, Repr

/-! ### Reading inputs -/

/-- Read memory: a guard refusal is GUARD_VIOLATION with the refused line, an error response or poison CONTAINED_FAULT with
the address (06 R184, 02 R38). -/
def readMem (e : RunEnv) (a n : Nat) : OpRes (List Byte) :=
  match guardCheck e.gs false a n with
  | some line => .error (3, line)
  | none => if extBad e.mem a n then .error (8, a) else .ok (extRead e.mem a n)

/-- Read several stretches; the result answers for any part of them. -/
def readAll (e : RunEnv) (l : List (Nat × Nat)) : OpRes (List (List Byte)) := allOk (fun p => readMem e p.1 p.2) l

/-- A stretch must also be writable. -/
def mustWrite (e : RunEnv) (a n : Nat) : OpRes Unit :=
  match guardCheck e.gs true a n with
  | some line => .error (3, line)
  | none => .ok ()

/-- Planes of a layout: start, pitch, bytes of a line, lines (10 R345). -/
def imagePlanes (d : List Byte) : List (Nat × Nat × Nat × Nat) :=
  let w := field d 8 2
  let h := field d 0xA 2
  let z := if byteAt d 5 = 8 then 1 else 2
  let p (i line lines : Nat) : Nat × Nat × Nat × Nat := (field d (0x10 + 8 * i) 8, field d (0x28 + 4 * i) 4, line, lines)
  match byteAt d 4 with
  | 0 => [p 0 (lineBytes (byteAt d 6) w) h]
  | 1 => [p 0 (2 * w) h]
  | 2 => [p 0 (4 * w) h]
  | 3 => [p 0 (w * z) h, p 1 (w * z) (h / 2)]
  | 4 => [p 0 (w * z) h, p 1 (w * z) h, p 2 (w * z) h]
  | _ => [p 0 (w * z) h, p 1 (w / 2 * z) (h / 2), p 2 (w / 2 * z) (h / 2)]

/-- The fields of an image descriptor are valid (10 R346, first row). -/
def imageDescOk (d : List Byte) : Bool :=
  let lay := byteAt d 4
  let unused (i : Nat) : Bool := field d (0x10 + 8 * i) 8 = 0 && field d (0x28 + 4 * i) 4 = 0
  field d 0 4 = 0x31474D49 && lay ≤ 5 && zeros d 7 1 && zeros d 0xC 4 && zeros d 0x34 12 &&
    (if lay = 0 then (match dtypeGroup (byteAt d 6) with | some g => byteAt d 5 = g.2.2 | none => false)
     else byteAt d 6 = 0 && layoutBits lay (byteAt d 5)) &&
    (lay = 4 || lay = 5 || unused 2) && (3 ≤ lay || unused 1)

/-- The sizes of an image descriptor are within limits (10 R346, second row). -/
def imageSizeOk (d : List Byte) (maxW maxH : Nat) : Bool :=
  let lay := byteAt d 4
  let w := field d 8 2
  let h := field d 0xA 2
  1 ≤ w && w ≤ 8192 && 1 ≤ h && h ≤ 8192 && w ≤ maxW && h ≤ maxH && (!(lay = 3 || lay = 5) || (w % 2 = 0 && h % 2 = 0)) &&
    (lay ≠ 0 || (match dtypeGroup (byteAt d 6) with | some g => w % g.1 = 0 | none => false)) &&
    (imagePlanes d).all (fun p => p.2.2.2 ≤ 1 || p.2.2.1 ≤ p.2.1)

/-- The stretches of the image, line by line, plane by plane. -/
def imageReads (d : List Byte) : List (Nat × Nat) :=
  (imagePlanes d).flatMap (fun p => (upto 0 p.2.2.2).map (fun y => (p.1 + y * p.2.1, p.2.2.1)))

/-- Planes of an image from its lines (10 R348). -/
def imageFrom (d : List Byte) (lines : List (List Byte)) : List Plane :=
  let w := field d 8 2
  let h := field d 0xA 2
  let n := byteAt d 5
  let z := if n = 8 then 1 else 2
  let el (size first step off : Nat) (x y : Nat) : Int := (field (lines.getD (first + y) []) (size * (step * x + off)) size % 2 ^ n : Nat)
  match byteAt d 4 with
  | 0 => unpackLines (byteAt d 6) w h (fun y => lines.getD y [])
  | 1 => [mkPlane w h (some n) (el 2 0 1 0)]
  | 2 => [mkPlane w h (some n) (el 4 0 1 0)]
  | 3 => [mkPlane w h (some n) (el z 0 1 0), mkPlane (w / 2) (h / 2) (some n) (el z h 2 0), mkPlane (w / 2) (h / 2) (some n) (el z h 2 1)]
  | 4 => [mkPlane w h (some n) (el z 0 1 0), mkPlane w h (some n) (el z h 1 0), mkPlane w h (some n) (el z (2 * h) 1 0)]
  | _ => [mkPlane w h (some n) (el z 0 1 0), mkPlane (w / 2) (h / 2) (some n) (el z h 1 0),
          mkPlane (w / 2) (h / 2) (some n) (el z (h + h / 2) 1 0)]

/-- DETAIL of an input: its offset in the entry. -/
def inputOff (second : Bool) : Nat := if second then 0x18 else 0x10

/-- Read the image that an input names; a LAYOUT and DTYPE that the block asks for, and its largest size (10 R346). -/
def readImage (e : RunEnv) (second : Bool) (want : Option (Nat × Nat)) (maxW maxH : Nat) : OpRes (List Plane) :=
  (readMem e (if second then e.in1 else e.in0) 64).andThen (fun d =>
    if !imageDescOk d || (match want with | some l => byteAt d 4 ≠ l.1 | none => false) then .error (2, inputOff second)
    else if !imageSizeOk d maxW maxH || (match want with | some l => l.1 = 0 && byteAt d 6 ≠ l.2 | none => false) then dimLimit
    else (readAll e (imageReads d)).andThen (fun ls => .ok (imageFrom d ls)))

/-- Read the tensor that an input names (11 R378). -/
def readTensor (e : RunEnv) (second : Bool) : OpRes Tensor :=
  (readMem e (if second then e.in1 else e.in0) 64).andThen (fun d =>
    if !tensorDescOk d then .error (2, inputOff second)
    else if !tensorSizeOk d then dimLimit
    else
      let rs := tensorReads d
      (readAll e rs).andThen (fun ls =>
        let m : ExtMem := { segs := (List.zip rs ls).map (fun p => (p.1.1, p.2)) }
        .ok (tensorFrom d (fun a n => extRead m a n))))

/-- Read the point block that an input of kind 5 names (08 R296, 11 R390). -/
def readPoints (e : RunEnv) : OpRes (List PtRec) :=
  let a := if e.ep.kind0 = 5 then e.in0 else e.in1
  (readMem e a 64).andThen (fun h =>
    if !ptHeaderOk h then .error (9, 3)
    else (readMem e (a + 64) (32 * field h 8 4)).andThen (fun d =>
      if crc32c d ≠ field h 0x38 4 then .error (9, 3) else .ok (ptList d (field h 8 4))))

/-! ### Stages -/

/-- Stage `k` of an image with its block. -/
def stageOf (i : Image) (k : Nat) : Option (StageRec × Opb) :=
  match i.stages[k]? with
  | some t => (i.opbs[t.opb]?).map (fun o => (t, o))
  | none => none

/-- Operator of stage `k`. -/
def stageOp (i : Image) (k : Nat) : Nat := match stageOf i k with | some p => p.2.op | none => 0

/-- Stages of an entry point. -/
def EntryPt.stageList (p : EntryPt) : List Nat := upto p.firstStage p.stageRun

/-- The operator's environment for a view. -/
def RunEnv.op (e : RunEnv) (v : Nat) : OpEnv :=
  { key := e.key, pos := e.pos, view := v, param := e.param, ext := e.ext, coeffs := e.image.coeffs }

/-- The views of the entry point. -/
def RunEnv.views (e : RunEnv) : List Nat := upto 0 e.ep.views

/-- The input of stage `k` for a view: the preceding stage's output. -/
def stageInput (e : RunEnv) (r : Run) (k v : Nat) : StageOut :=
  if k = e.ep.firstStage then (match e.stored with | some l => l.getD v .nothing | none => .nothing)
  else (Tbl.getD r.outs (k - 1) []).getD v .nothing

/-- The most recent stage before `k` in the entry point that satisfies `p`. -/
def recentStage (e : RunEnv) (k : Nat) (p : Nat → Bool) : Option Nat := (upto e.ep.firstStage (k - e.ep.firstStage)).reverse.find? p

/-- Planes as W24 where the block asks for it. -/
def rawForm (b : List Byte) (ps : List Plane) : List Plane :=
  if byteAt b 0x13 = 1 then ps.map (fun p => { p with form := none, elems := p.elems.map (toW24 p.form) }) else ps

/-- Raw unpack (10 R347-R349). -/
def runRaw (e : RunEnv) (b : List Byte) (inp : StageOut) : OpRes (List Plane) :=
  let maxW := field b 0x14 2
  let maxH := field b 0x16 2
  let fits (ps : List Plane) : OpRes (List Plane) :=
    if (match ps with | p :: _ => p.w ≤ maxW && p.h ≤ maxH | [] => false) then .ok (rawForm b ps) else dimLimit
  match byteAt b 0x10 with
  | 0 => match e.frame with
    | some (d, w, h, lines) => if d = byteAt b 0x12 then fits (unpackLines d w h (fun y => lines.getD y [])) else dimLimit
    | none => dimLimit
  | 1 => (readImage e false (some (byteAt b 0x11, byteAt b 0x12)) maxW maxH).andThen fits
  | 2 => (readImage e true (some (byteAt b 0x11, byteAt b 0x12)) maxW maxH).andThen fits
  | _ => inp.asPlanes.andThen fits

/-- The tensor that a block's SOURCE names. -/
def sourceTensor (e : RunEnv) (b : List Byte) (inp : StageOut) : OpRes Tensor :=
  match byteAt b 0x10 with
  | 0 => inp.asTensor
  | 1 => readTensor e false
  | _ => readTensor e true

/-- One result as a stage output. -/
def onePlanes (r : OpRes (List Plane)) : OpRes StageOut := r.andThen (fun ps => .ok (.planes ps))
/-- One tensor as a stage output. -/
def oneTensor (r : OpRes Tensor) : OpRes StageOut := r.andThen (fun t => .ok (.tensors [t]))

/-- Bytes of one view of the payload. -/
def EntryPt.viewBytes (p : EntryPt) : Nat := p.outBytes / max p.views 1

/-- A stage other than Decode and Encode for view `v`. -/
def runOp (e : RunEnv) (r : Run) (k : Nat) (o : Opb) (v : Nat) : OpRes StageOut :=
  let b := o.bytes
  let inp := stageInput e r k v
  let planes (f : List Plane → OpRes (List Plane)) : OpRes StageOut := onePlanes (inp.asPlanes.andThen f)
  match o.op with
  | 0x0100 => onePlanes (runRaw e b inp)
  | 0x0200 => planes (runNormalise b)
  | 0x0201 => planes (runJitter (e.op v) b)
  | 0x0202 => planes (runNoise (e.op v) b)
  | 0x0203 => planes (runErase (e.op v) b)
  | 0x0204 => planes (fun ps => ((stageInput e r k ((v + byteAt b 0x12) % max e.ep.views 1)).asPlanes).andThen (runMix (e.op v) b ps))
  | 0x0210 => match byteAt b 0x10, inp with
    | 0, .planes ps => oneTensor (quantPlanes (e.op v) b ps)
    | _, _ => oneTensor ((sourceTensor e b inp).andThen (quantTensor (e.op v) b))
  | 0x0220 => oneTensor (inp.asPlanes.andThen (runPatchify b))
  | 0x0221 => match recentStage e k (fun j => stageOp e.image j = 0x0210) with
    | some j => oneTensor (((Tbl.getD r.outs j []).getD v .nothing).asTensor.andThen
        (runEmbed (e.op v) b ((coeffData e.image.coeffs 0 (field b 0x10 2)).getD [])))
    | none => dimLimit
  | 0x0222 =>
    let j := field b 0x10 2
    let patch := match stageOf e.image j with | some q => byteAt q.2.bytes 0x10 | none => 0
    oneTensor (((Tbl.getD r.outs j []).getD v .nothing).asTensor.andThen (runTags b patch v))
  | 0x0230 => (readPoints e).andThen (fun pts => (runPillarise (e.op v) b pts).andThen (fun ts => .ok (.tensors ts)))
  | 0x0231 => oneTensor ((readPoints e).andThen (runRange (e.op v) b))
  | 0x0240 => oneTensor ((sourceTensor e b inp).andThen (fun t => (readTensor e true).andThen (runGather b t)))
  | 0x0241 => oneTensor ((sourceTensor e b inp).andThen (fun t => (readTensor e true).andThen (runScatter b t)))
  | 0x0242 => oneTensor ((sourceTensor e b inp).andThen runTranspose)
  | 0x0243 => oneTensor ((sourceTensor e b inp).andThen (runLayout b))
  | 0x0250 => (runBatch b (e.op v) e.ep.viewBytes (fun j => ((Tbl.getD r.outs j []).getD v .nothing).tensorList)).andThen (fun l => .ok (.bytes l))
  | 0x0300 => oneTensor ((sourceTensor e b inp).andThen (runCategorical (e.op v) b))
  | op => planes (runPixel op (e.op v) b)

/-! ### Decode and Encode stages -/

/-- A bitstream descriptor that an input of kind 2 names: DETAIL is after the input number (09 R306). -/
def readDesc (e : RunEnv) (second : Bool) : OpRes (List Byte) :=
  let a := if second then e.in1 else e.in0
  (readMem e a 64).andThen (fun d => (mustWrite e a 64).andThen (fun _ => if auDescOk d then .ok d else .error (2, inputOff second)))

/-- Decode (09 R306-R314): the descriptors, the session, the unit and the slots it refers to, and what they leave. -/
def decodeStage (e : RunEnv) (b : List Byte) : OpRes DecOut :=
  (readDesc e false).andThen (fun d =>
    (if e.ep.kind1 = 2 then readDesc e true else .ok []).andThen (fun _ =>
      (readMem e (field d 0x18 8) 4096).andThen (fun sess =>
        (mustWrite e (field d 0x18 8) 4096).andThen (fun _ =>
          (readMem e (field d 8 8) (field d 0x10 4)).andThen (fun u =>
            let i := auInfoOf (byteAt d 4) sess u
            let l := if codeShows (decodeCode b d sess i) then slotReads (byteAt d 4) sess u i else ([], none)
            (readAll e l.1).andThen (fun slots => (readAll e l.2.toList).andThen (fun last =>
              .ok (runDecode b e.in0 d sess u { slots, last := last.head? }))))))))

/-- The run after a Decode stage: every view has the picture. -/
def afterDecode (e : RunEnv) (r : Run) (k : Nat) (o : DecOut) : Run :=
  let shown := codeShows o.code
  { r with
    outs := Tbl.set r.outs k (e.views.map (fun _ => .planes o.planes)), writes := r.writes ++ o.writes, decode := some (o.code, o.slices),
    statuses := if o.code ≠ 0 && shown then 6 :: r.statuses else r.statuses,
    fail := if shown then r.fail else some (if o.code = 3 then 5 else 6, 0) }

/-- Encoder state in the private part of an encode session, in the GX's own layout (09 R307; log 38). Its reference is in a slot, and the
reference's units are kept under the session's key. -/
def encFromSession (sess : List Byte) (units : List CodedUnit) : EncState :=
  if field sess 0 4 = 0 then {}
  else { f := field sess 0x28 8, pbI := field sess 0x30 8, pbP := field sess 0x38 8, pqI := byteAt sess 0x40, pqP := byteAt sess 0x41,
         frameIndex := field sess 0x44 4, units }

/-- The private part that holds an encoder state and the slots' marks. -/
def encToSession (st : EncState) (marks : List SlotMark) (last depth : Nat) : List Byte :=
  withMarks (leBytes st.f 8 ++ leBytes st.pbI 8 ++ leBytes st.pbP 8 ++ leBytes st.pqI 1 ++ leBytes st.pqP 1 ++ leBytes 0 2 ++
    leBytes st.frameIndex 4) marks last depth

/-- An encode session can be used: new, or the GX's own with the block's format, and large enough (09 R307, R317; log 36). -/
def encSessionOk (b sess : List Byte) : Bool :=
  let e := encBlock b
  (field sess 0 4 = 0 || (field sess 0 4 = 0x31534553 && field sess 0x18 4 = gxIdValue && byteAt sess 4 = 1 && byteAt sess 5 = e.codec)) &&
    inRange 2 (field sess 0x10 2) 17 && slotNeed e.codec 1 e.w e.h (cdiv e.depth 8) ≤ field sess 0x14 4

/-- The resize block that an Encode block names. -/
def encResize (i : Image) (b : List Byte) : Option (List Byte) :=
  if field b 0x34 2 = 0xFFFF then none else (i.opbs[field b 0x34 2]?).map (·.bytes)

/-- The planes that an Encode stage takes: of a stream those before it, else the image that INPUT0 names (09 R317). -/
def encInput (e : RunEnv) (r : Run) (k : Nat) (b : List Byte) : OpRes (List Plane) :=
  let src := if e.ep.stream then (stageInput e r k 0).asPlanes else readImage e false none (field b 0x30 2) (field b 0x32 2)
  src.andThen (encSource b (encResize e.image b))

/-- Bytes of a slot that an encoder's reconstruction fills (09 R309). -/
def EncBlock.need (x : EncBlock) : Nat := slotNeed x.codec 1 x.w x.h (cdiv x.depth 8)

/-- The slot that holds an encode session's reference, where the next unit is a P picture (09 R310, R318). -/
def referenceSlot (b sess : List Byte) : List (Nat × Nat) :=
  if unitIdr b (encFromSession sess []) then []
  else (((upto 0 (sessionSlots sess)).find? (fun k => (sessionMarks sess).getD k .free == .short)).map (fun k =>
    (slotAddr sess k, (encBlock b).need))).toList

/-- Sizes of the reconstruction's planes: whole units (log 113). -/
def reconSizes (x : EncBlock) : List (Nat × Nat) := chromaSizes 1 (16 * x.unitsX) (16 * x.unitsY)

/-- The planes of a slot that holds a reconstruction. -/
def referencePlanes (x : EncBlock) (mode : Nat) (l : List Byte) : List (List Int) :=
  (enum (reconSizes x)).map (fun p => (mkPlane p.2.1 p.2.2 none (fun i j =>
    (slotSample mode (cdiv x.depth 8) x.w x.h (8 * x.unitsX) l p.1 i j : Nat))).elems)

/-- A reconstruction as planes. -/
def reconPlanes (x : EncBlock) (l : List (List Int)) : List Plane :=
  (List.zip (reconSizes x) l).map (fun p => { w := p.1.1, h := p.1.2, form := some x.depth, elems := p.2 })

/-- Encode: a stream's unit continues the channel's state; any other unit that of the session EXTENSION names. No unit is longer than
MAX_AU_BYTES (09 R324; log 35 for flatpack). -/
def encodeStage (e : RunEnv) (r : Run) (k units : Nat) (b : List Byte) : OpRes (EncOut × List (Nat × List Byte)) :=
  let x := encBlock b
  if e.ep.stream then (encInput e r k b).andThen (fun ps =>
    let o := codeUnit b units e.enc ps
    if x.maxAu < o.unit.length then dimLimit else .ok (o, []))
  else
    (readMem e e.ext 4096).andThen (fun sess => (mustWrite e e.ext 4096).andThen (fun _ =>
      if !encSessionOk b sess then dimLimit
      else (encInput e r k b).andThen (fun ps => (readAll e (referenceSlot b sess)).andThen (fun l =>
        let ref := match l with | s :: _ => referencePlanes x (byteAt sess 0x25) s | [] => []
        let o := codeUnit b units { encFromSession sess e.enc.units with ref } ps
        let mode := if o.idr then sessionMode x.w x.h else byteAt sess 0x25
        let video := decide (x.codec ≤ 1)
        let slot := (takeSlot sess).getD 0
        let marks := if video then referMarks (occupy slot (sessionMarks sess)) else sessionMarks sess
        let recon := if video then [(slotAddr sess slot, slotBytes mode (cdiv x.depth 8) x.need (reconPlanes x o.after.ref))] else []
        let priv := encToSession o.after marks (if video then slot else 0xFF) x.depth
        if x.maxAu < o.unit.length then dimLimit
        else .ok (o, recon ++ [(e.ext, sessionAfter sess 1 x.codec (sessionCount sess + 1) x.w x.h 0 mode priv)])))))

/-! ### The stretches of memory that a sample reads (13 R432) -/

/-- Address of an input. -/
def RunEnv.inAddr (e : RunEnv) (second : Bool) : Nat := if second then e.in1 else e.in0

/-- Stretches of an image: its descriptor and its lines. -/
def imageStretches (e : RunEnv) (second : Bool) : List (Nat × Nat) :=
  (e.inAddr second, 64) :: imageReads (extRead e.mem (e.inAddr second) 64)

/-- Stretches of a tensor: its descriptor and its rows. -/
def tensorStretches (e : RunEnv) (second : Bool) : List (Nat × Nat) :=
  (e.inAddr second, 64) :: tensorReads (extRead e.mem (e.inAddr second) 64)

/-- Stretches of a point block: its header and its records. -/
def pointStretches (e : RunEnv) : List (Nat × Nat) :=
  let a := if e.ep.kind0 = 5 then e.in0 else e.in1
  [(a, 64), (a + 64, 32 * field (extRead e.mem a 64) 8 4)]

/-- Stretches of a bitstream: the descriptors, its session, its access unit and the slots it refers to (09 R306, R309, R314). -/
def unitStretches (e : RunEnv) (b : List Byte) : List (Nat × Nat) :=
  let d := extRead e.mem e.in0 64
  let sess := extRead e.mem (field d 0x18 8) 4096
  let u := extRead e.mem (field d 8 8) (field d 0x10 4)
  let i := auInfoOf (byteAt d 4) sess u
  let l := if codeShows (decodeCode b d sess i) then slotReads (byteAt d 4) sess u i else ([], none)
  [(e.in0, 64)] ++ (if e.ep.kind1 = 2 then [(e.in1, 64)] else []) ++ [(field d 0x18 8, 4096), (field d 8 8, field d 0x10 4)] ++ l.1 ++ l.2.toList

/-- The tensor that a block's SOURCE reads from memory. -/
def sourceStretches (e : RunEnv) (b : List Byte) : List (Nat × Nat) :=
  if byteAt b 0x10 = 0 then [] else tensorStretches e (byteAt b 0x10 ≠ 1)

/-- What stage `k` reads from memory; its operator says which inputs (10 R346, 11 R378, 09 R306, R317). -/
def stageStretches (e : RunEnv) (k : Nat) : List (Nat × Nat) :=
  match stageOf e.image k with
  | none => []
  | some (_, o) =>
    let b := o.bytes
    match o.op with
    | 0x0100 => if byteAt b 0x10 = 1 then imageStretches e false else if byteAt b 0x10 = 2 then imageStretches e true else []
    | 0x0210 | 0x0242 | 0x0243 | 0x0300 => sourceStretches e b
    | 0x0230 | 0x0231 => pointStretches e
    | 0x0240 | 0x0241 => sourceStretches e b ++ tensorStretches e true
    | 0x0400 => unitStretches e b
    | 0x0401 => if e.ep.stream then [] else (e.ext, 4096) :: imageStretches e false ++ referenceSlot b (extRead e.mem e.ext 4096)
    | _ => []

/-- What a sample reads, each stretch once (10 R346, 11 R378). -/
def inputReads (e : RunEnv) : List (Nat × Nat) := (e.ep.stageList.flatMap (stageStretches e)).eraseDups

/-! ### Running an entry point -/

/-- Run stage `k`. -/
def runStage (e : RunEnv) (k : Nat) (r : Run) : Run :=
  if r.fail.isSome then r
  else match stageOf e.image k with
    | none => { r with fail := some (5, 0) }
    | some (t, o) =>
      if o.op = 0x0400 then
        match decodeStage e o.bytes with
        | .ok d => afterDecode e r k d
        | .error x => { r with fail := some x }
      else if o.op = 0x0401 then
        match encodeStage e r k t.units o.bytes with
        | .ok (x, ws) => { r with
            enc := some (o.bytes, x), writes := r.writes ++ ws, outs := Tbl.set r.outs k (e.views.map (fun _ => .bytes x.unit)) }
        | .error x => { r with fail := some x }
      else
        match allOk (runOp e r k o) e.views with
        | .ok l => { r with outs := Tbl.set r.outs k l }
        | .error x => { r with fail := some x }

/-- Run the stages of an entry point. -/
def runStages (e : RunEnv) : List Nat → Run → Run
  | [], r => r
  | k :: t, r => runStages e t (runStage e k r)

/-- The last stage of an entry point. -/
def EntryPt.lastStage (p : EntryPt) : Nat := p.firstStage + p.stageRun - 1

/-- What a view's last stage leaves, where that stage is no Batch: the bytes of its tensor from the view's first byte on, which no
step ever cuts (11 R400, R547), or planes, for which the spec gives no stored form (log 68). -/
def placeLast (n : Nat) : StageOut → OpRes StageOut
  | .tensors (t :: _) => if n < t.bytes.length then dimLimit else .ok (.bytes t.bytes)
  | .planes ps => .ok (.bytes (slice (Config.placedPlanes (ps.map (·.elems))) 0 n))
  | o => .ok o

/-- Place what the last stage leaves, where it is neither Batch nor Encode. -/
def placeOutputs (e : RunEnv) (r : Run) : Run :=
  let k := e.ep.lastStage
  if r.fail.isSome || mem [0x0250, 0x0401] (stageOp e.image k) then r
  else match allOk (fun v => placeLast e.ep.viewBytes ((Tbl.getD r.outs k []).getD v .nothing)) e.views with
    | .ok l => { r with outs := Tbl.set r.outs k l }
    | .error x => { r with fail := some x }

/-- All stages. -/
def runEntry (e : RunEnv) : Run := placeOutputs e (runStages e e.ep.stageList {})

/-- Whether an entry point codes pictures. -/
def EntryPt.encodes (p : EntryPt) (i : Image) : Bool := p.stageList.any (fun k => stageOp i k = 0x0401)

/-- The encode view: the last view of an entry point with an Encode stage (09 R325; log 37). -/
def EntryPt.encodeView (p : EntryPt) (i : Image) : Option Nat := if p.encodes i then some (p.views - 1) else none

/-- The bytes of a view: the encode view, or what was placed in it (log 37); the rest of it is 0 (11 R401). -/
def viewPayload (e : RunEnv) (r : Run) (dropped : Bool) (v : Nat) : List Byte :=
  let n := e.ep.viewBytes
  match (if e.ep.encodeView e.image = some v then r.enc else none) with
  | some (b, o) => slice (encodeView b o dropped) 0 n
  | none =>
    match (Tbl.getD r.outs e.ep.lastStage []).getD v .nothing with
    | .bytes l => if stageOp e.image e.ep.lastStage = 0x0401 then List.replicate n 0 else slice l 0 n
    | _ => List.replicate n 0

/-- The folio payload of a sample (07 R216). -/
def payloadOf (e : RunEnv) (r : Run) (dropped : Bool) : List Byte := slice (e.views.flatMap (viewPayload e r dropped)) 0 e.ep.outBytes

/-! ### Stored outputs of the shelf (13 R441): the GX's own form (log 39) -/

/-- Words of an integer list with its length. -/
def wordsOf (l : List Nat) : List Nat := l.length :: l

/-- Words of a stage output. -/
def StageOut.words : StageOut → List Nat
  | .nothing => [0]
  | .planes ps => 1 :: ps.length :: ps.flatMap (fun p =>
      [p.w, p.h, match p.form with | some n => n + 1 | none => 0] ++ p.elems.map (fun v => code v 32))
  | .tensors ts => 2 :: ts.length :: ts.flatMap (fun t =>
      wordsOf t.dims ++ [t.fmt] ++ wordsOf t.codes ++ wordsOf t.scales ++ wordsOf (match t.grid with | some g => [g.1, g.2] | none => []) ++
        wordsOf (t.header.map (·.toNat)) ++ wordsOf (match t.tiling with | some g => g.dim :: g.shards :: g.tile | none => []) ++
        wordsOf (match t.reported with | some n => [n] | none => []))
  | .bytes l => 3 :: wordsOf (l.map (·.toNat))

/-- The stored bytes of a stage's output over all views. -/
def storedBytes (l : List StageOut) : List Byte := (l.length :: l.flatMap (·.words)).flatMap (leBytes · 4)

/-- Take a counted list of words. -/
def takeCounted : List Nat → List Nat × List Nat
  | [] => ([], [])
  | n :: t => (t.take n, t.drop n)

/-- Read planes. -/
def takePlanes : Nat → List Nat → List Plane × List Nat
  | 0, l => ([], l)
  | n + 1, l =>
    match l with
    | w :: h :: f :: t =>
      let p : Plane := { w, h, form := if f = 0 then none else some (f - 1), elems := (t.take (w * h)).map (fun v => signed v 32) }
      let r := takePlanes n (t.drop (w * h))
      (p :: r.1, r.2)
    | _ => ([], [])

/-- Read tensors. -/
def takeTensors : Nat → List Nat → List Tensor × List Nat
  | 0, l => ([], l)
  | n + 1, l =>
    let (dims, l) := takeCounted l
    let fmt := l.headD 0
    let (codes, l) := takeCounted (l.drop 1)
    let (scales, l) := takeCounted l
    let (grid, l) := takeCounted l
    let (header, l) := takeCounted l
    let (tiling, l) := takeCounted l
    let (rep, l) := takeCounted l
    let t : Tensor := { dims, fmt, codes, scales, grid := (match grid with | [a, b] => some (a, b) | _ => none),
                        header := header.map (BitVec.ofNat 8),
                        tiling := (match tiling with | d :: s :: tile => some { tile, dim := d, shards := s } | _ => none), reported := rep.head? }
    let r := takeTensors n l
    (t :: r.1, r.2)

/-- Read one output. -/
def takeOut : List Nat → StageOut × List Nat
  | 1 :: n :: t => let r := takePlanes n t; (.planes r.1, r.2)
  | 2 :: n :: t => let r := takeTensors n t; (.tensors r.1, r.2)
  | 3 :: t => let r := takeCounted t; (.bytes (r.1.map (BitVec.ofNat 8)), r.2)
  | _ :: t => (.nothing, t)
  | [] => (.nothing, [])

/-- Read `n` outputs. -/
def takeOuts : Nat → List Nat → List StageOut
  | 0, _ => []
  | n + 1, l => let r := takeOut l; r.1 :: takeOuts n r.2

/-- The words of a byte string. -/
def bytesToWords : Nat → List Byte → List Nat
  | 0, _ => []
  | n + 1, l => field l 0 4 :: bytesToWords n (l.drop 4)

/-- The stage output that stored bytes hold. -/
def storedFrom (l : List Byte) : List StageOut :=
  match bytesToWords (l.length / 4) l with
  | n :: t => takeOuts n t
  | [] => []

end Sys2Proof.Machine
end

