-- ==== Sys2Proof/Machine/Sizes.lean ====
section
/-! DEFINITION. What the fields of an image say about a stage's output before any sample: its planes' forms and largest sizes,
and the largest size of its tensors (11 R401, R547; 10 R350). -/

namespace Sys2Proof.Machine

/-- What is known of a plane: its largest size, and its form where the image fixes it. -/
structure AbsPlane where
  w : Nat
  h : Nat
  form : Option (Option Nat)
  deriving DecidableEq, Repr

/-- What is known of a tensor: its dimensions at their largest values (none where some dimension has no bound), its stored
format where the image fixes it. -/
structure AbsTensor where
  dims : Option (List Nat)
  fmt : Option Nat
  grid : Option (Nat × Nat) := none
  header : Nat := 0
  tiling : Option Tiling := none
  deriving DecidableEq, Repr

/-- What is known of a stage's output. -/
inductive AbsOut where
  | nothing
  /-- Planes; `counted` where the image fixes their number. -/
  | planes (counted : Bool) (l : List AbsPlane)
  | tensors (l : List AbsTensor)
  deriving DecidableEq, Repr

/-- A tensor of which nothing is known. -/
def AbsTensor.unknown : AbsTensor := { dims := none, fmt := none }

/-- Planes of a data type or a descriptor's layout at a size. -/
def absRaw (b : List Byte) : AbsOut :=
  let w := field b 0x14 2
  let h := field b 0x16 2
  let form (n : Option Nat) : Option (Option Nat) := if byteAt b 0x13 = 1 then some none else n.map some
  let mk (n : Option Nat) (l : List (Nat × Nat)) : AbsOut := .planes true (l.map (fun p => { w := p.1, h := p.2, form := form n }))
  let byType (d : Nat) : AbsOut :=
    let n := (dtypeGroup d).map (·.2.2)
    if d = 0x1E || d = 0x1F then mk n [(w, h), (w / 2, h), (w / 2, h)] else if d = 0x24 then mk n [(w, h), (w, h), (w, h)] else mk n [(w, h)]
  match byteAt b 0x10, byteAt b 0x11 with
  | 0, _ => byType (byteAt b 0x12)
  | 3, _ => .planes false [{ w, h, form := form none }]
  | _, 0 => byType (byteAt b 0x12)
  | _, 1 => mk none [(w, h)]
  | _, 2 => mk none [(w, h)]
  | _, 4 => mk none [(w, h), (w, h), (w, h)]
  | _, _ => mk none [(w, h), (w / 2, h / 2), (w / 2, h / 2)]

/-- Planes changed one by one. -/
def absMap (f : AbsPlane → AbsPlane) : AbsOut → AbsOut
  | .planes k l => .planes k (l.map f)
  | _ => .nothing

/-- Three planes of the first one's size. -/
def absThree (form : Option (Option Nat)) : AbsOut → AbsOut
  | .planes _ (p :: _) => .planes true (List.replicate 3 { p with form })
  | _ => .nothing

/-- The tensor that a block's SOURCE names; one read through a descriptor has no bound. -/
def absSource (b : List Byte) (prev : AbsOut) : AbsTensor :=
  match byteAt b 0x10, prev with
  | 0, .tensors (t :: _) => t
  | _, _ => .unknown

/-- (R, C, D) of a tensor's largest shape (11 R395). -/
def absDepth (t : AbsTensor) : Option Nat :=
  match t.dims, t.grid with
  | some [_, d], some _ => some d
  | some [_, _, d], _ => some d
  | some [_, _], none => some 1
  | _, _ => none

/-- The output of a stage that runs block `o`, after the stages before it. -/
def absStage (views : Nat) (o : Opb) (outs : Tbl AbsOut) (quant : Option Nat) (prev : AbsOut) : AbsOut :=
  let b := o.bytes
  let one (t : AbsTensor) : AbsOut := .tensors [t]
  let w24 (p : AbsPlane) : AbsPlane := { p with form := some none }
  let sized (w h : Nat) : AbsOut := absMap (fun p => { p with w, h, form := some none }) prev
  match o.op with
  | 0x0100 => absRaw b
  | 0x0101 => absMap w24 prev
  | 0x0102 => absMap w24 prev
  | 0x0103 => absMap w24 prev
  | 0x0104 => match prev with
    | .planes _ (p :: _) =>
      let q : AbsPlane := { p with w := p.w / 2, h := p.h / 2 }
      if byteAt b 0x14 = 0 then .planes true (List.replicate 4 q)
      else .planes true (((upto 0 4).filter (fun c => (upto 0 4).any (fun j => byteAt b (0x10 + j) = c))).map (fun _ => w24 q))
    | _ => .nothing
  | 0x0105 => absMap w24 prev
  | 0x0110 => absThree (some (outForm b 0x13)) prev
  | 0x0111 => absThree none prev
  | 0x0120 => match prev with
    | .planes c (p0 :: t) =>
      let form (p : AbsPlane) : Option (Option Nat) := if byteAt b 0x15 = 0 then some none else p.form
      .planes c ((p0 :: t).map (fun p =>
        { w := field b 0x10 2 / subOf p0.w p.w, h := field b 0x12 2 / subOf p0.h p.h, form := form p }))
    | _ => .nothing
  | 0x0121 => .planes true ((upto 0 (byteAt b 0x10)).map (fun i =>
      { w := field b (0x18 + 8 * i) 2, h := field b (0x1A + 8 * i) 2, form := some (outForm b 0x13) }))
  | 0x0122 => sized (field b 0x18 2) (field b 0x1A 2)
  | 0x0123 => sized (field b 0x10 2) (field b 0x12 2)
  | 0x0124 =>
    let codes := (upto 0 (max views 1)).map (fun v => bit (byteAt b (0x10 + v)) 2)
    absMap (fun p =>
      { p with w := max (if codes.any (fun c => !c) then p.w else 0) (if codes.any id then p.h else 0),
               h := max (if codes.any (fun c => !c) then p.h else 0) (if codes.any id then p.w else 0) }) prev
  | 0x0125 => match prev with
    | .planes c (p0 :: t) =>
      let full (o off n al : Nat) : Nat := if o = 0 then cdiv (off + n) al * al else o
      let ow := full (field b 0x10 2) (field b 0x14 2) p0.w (byteAt b 0x18)
      let oh := full (field b 0x12 2) (field b 0x16 2) p0.h (byteAt b 0x19)
      .planes c ((p0 :: t).map (fun p =>
        { w := ow / subOf p0.w p.w, h := oh / subOf p0.h p.h, form := if byteAt b 0x1A = 0 then some none else p.form }))
    | _ => .nothing
  | 0x0200 => absMap w24 prev
  | 0x0201 => absMap w24 prev
  | 0x0202 => absMap w24 prev
  | 0x0203 => absMap w24 prev
  | 0x0204 => absMap w24 prev
  | 0x0210 =>
    let fmt := some (byteAt b 0x18)
    match byteAt b 0x10, prev with
    | 0, .planes true (p :: t) =>
      one { dims := some (if byteAt b 0x11 = 0 then [t.length + 1, p.h, p.w] else [p.h, p.w, t.length + 1]), fmt }
    | 0, .planes _ _ => one { dims := none, fmt }
    | _, _ => let t := absSource b prev; one { dims := t.dims, fmt, grid := t.grid }
  | 0x0220 => match prev with
    | .planes _ (p :: _) =>
      let z := byteAt b 0x10
      one { dims := some [(p.w / z) * (p.h / z), byteAt b 0x12 * z * z], fmt := some 0, grid := some (p.h / z, p.w / z) }
    | _ => one .unknown
  | 0x0221 => match quant.map (fun j => Tbl.getD outs j .nothing) with
    | some (.tensors (t :: _)) =>
      one { dims := t.dims.map (fun d => [d.headD 0, field b 0x14 2]), fmt := some (byteAt b 0x18), grid := t.grid }
    | _ => one { dims := none, fmt := some (byteAt b 0x18) }
  | 0x0222 => match Tbl.getD outs (field b 0x10 2) .nothing with
    | .tensors (t :: _) => one { dims := t.dims.map (fun d => [d.headD 0, 4]), fmt := some 11 }
    | _ => one { dims := none, fmt := some 11 }
  | 0x0230 =>
    let n := field b 0x18 4
    .tensors [ { dims := some [n, byteAt b 0x14, byteAt b 0x15], fmt := some (byteAt b 0x88) }, { dims := some [n, 4], fmt := some 11, header := 16 } ]
  | 0x0231 => one { dims := some [byteAt b 0x15, field b 0x10 2, field b 0x12 2], fmt := some (byteAt b 0x68) }
  | 0x0240 =>
    let t := absSource b prev
    one { dims := (absDepth t).map (fun d => [field b 0x18 4, field b 0x12 2, field b 0x14 2, d]), fmt := t.fmt }
  | 0x0241 =>
    let t := absSource b prev
    one { dims := match t.dims with
            | some [_, _, _, d] => some [field b 0x1C 2 * field b 0x12 2, field b 0x1E 2 * field b 0x14 2, d]
            | _ => none, fmt := t.fmt }
  | 0x0242 =>
    let t := absSource b prev
    one { dims := match t.dims with | some [r, c] => some [c, r] | some [n, r, c] => some [n, c, r] | _ => none, fmt := t.fmt }
  | 0x0243 =>
    let t := absSource b prev
    let n := byteAt b 0x11
    one { t with tiling := some { tile := (upto 0 n).map (fun j => field b (0x14 + 2 * j) 2), dim := byteAt b 0x12, shards := byteAt b 0x13 } }
  | 0x0300 => one { dims := some [field b 0x20 4, 8], fmt := some 11 }
  | 0x0400 => .planes false [{ w := field b 0x14 2, h := field b 0x16 2, form := none }]
  | _ => .nothing

/-- Outputs of the stages of an entry point, and what is known of the input of each. -/
def absRun (i : Image) (views : Nat) : List Nat → Tbl AbsOut → Tbl AbsOut → Option Nat → AbsOut → Tbl AbsOut × Tbl AbsOut
  | [], outs, ins, _, _ => (outs, ins)
  | k :: t, outs, ins, quant, prev =>
    match stageOf i k with
    | none => (outs, ins)
    | some (_, o) =>
      let r := absStage views o outs quant prev
      absRun i views t (Tbl.set outs k r) (Tbl.set ins k prev) (if o.op = 0x0210 then some k else quant) r

/-- Outputs and inputs of an entry point's stages. -/
def EntryPt.absOuts (p : EntryPt) (i : Image) : Tbl AbsOut × Tbl AbsOut := absRun i p.views p.stageList [] [] none .nothing

/-- Bytes of a tensor at its largest size; none where it has none (11 R547). -/
def AbsTensor.largest (t : AbsTensor) : Option Nat :=
  match t.dims, t.fmt with
  | some dims, some fmt =>
    let e := fmtBytes fmt
    some (match t.tiling with
      | none =>
        let d := t.header + volume dims * e
        if isB32 fmt then folioUp d + cdiv (volume dims) 32 else d
      | some g =>
        let sb := g.shardBytes dims e
        if isB32 fmt then g.shards * (sb + folioUp (cdiv sb 32)) else g.shards * sb)
  | _, _ => none

end Sys2Proof.Machine
end

