-- ==== Sys2Proof/Machine/Binding.lean ====
section
/-! DEFINITION. Binding images: reading and structural validation, CHECK codes 0x01 to 0x0C (07 R215-R222, R548, R549). -/

namespace Sys2Proof.Machine

/-! ### Sections (R215, R548) -/

/-- A stretch of the image that a header field names. -/
structure Section where
  off : Nat
  len : Nat
  /-- 1 a slot table, 2 an energy table, 0 any other. -/
  kind : Nat
  deriving DecidableEq, Repr

/-- The operator parameter blocks from an offset, end to end; none where a SIZE leaves them without an extent. -/
def readBlocks (bs : List Byte) : Nat → Nat → Option (List Opb × Nat)
  | 0, off => some ([], off)
  | n + 1, off =>
    let size := field bs (off + 4) 4
    if size < 16 || 65536 < size || size % 8 ≠ 0 || bs.length < off + size then none
    else match readBlocks bs n (off + size) with
      | some (l, e) => some ({ op := field bs off 2, drawBase := field bs (off + 8) 4, bytes := slice bs off size } :: l, e)
      | none => none

/-- Header counts: stages, entry points, blocks, coefficient records. -/
def hdrStages (bs : List Byte) : Nat := field bs 0x16 2
def hdrEntries (bs : List Byte) : Nat := field bs 0x18 2
def hdrBlocks (bs : List Byte) : Nat := field bs 0x1A 2
def hdrCoeffs (bs : List Byte) : Nat := field bs 0x1C 2
/-- SLOT_OFF, SLOT_COUNT and ENERGY_OFF of a point. -/
def hdrSlotOff (bs : List Byte) (n : Nat) : Nat := field bs (0x50 + 4 * n) 4
def hdrSlotCount (bs : List Byte) (n : Nat) : Nat := field bs (0x5C + 4 * n) 4
def hdrEnergyOff (bs : List Byte) (n : Nat) : Nat := field bs (0x68 + 4 * n) 4

/-- The sections of the image after the header; an energy table whose offset is 0 is missing, and left to CHECK 0x0C. -/
def sectionsOf (bs : List Byte) (blocksEnd : Nat) : List Section :=
  [ { off := field bs 0x38 4, len := 32 * hdrStages bs, kind := 0 }, { off := field bs 0x3C 4, len := 64 * hdrEntries bs, kind := 0 },
    { off := field bs 0x40 4, len := blocksEnd - field bs 0x40 4, kind := 0 }, { off := field bs 0x44 4, len := 16 * hdrCoeffs bs, kind := 0 },
    { off := field bs 0x48 4, len := field bs 0x4C 4, kind := 0 } ] ++
  (upto 0 3).map (fun n => { off := hdrSlotOff bs n, len := 24 * hdrSlotCount bs n, kind := 1 }) ++
  ((upto 0 3).filter (fun n => !(hdrEnergyOff bs n = 0))).map (fun n => { off := hdrEnergyOff bs n, len := 4 * hdrSlotCount bs n, kind := 2 })

/-- A section lies in the image, aligned, outside the header; an empty one has offset 0. -/
def sectionOk (size : Nat) (x : Section) : Bool :=
  if x.len = 0 then x.off = 0 else x.off % 64 = 0 && 256 ≤ x.off && x.off + x.len ≤ size

/-- Two sections do not share bytes, or are one table named twice. -/
def disjointSections (x y : Section) : Bool :=
  x.len = 0 || y.len = 0 || x.off + x.len ≤ y.off || y.off + y.len ≤ x.off || (x.kind ≠ 0 && x == y)

/-- Every pair of a list satisfies a relation. -/
def allPairs {α : Type} (r : α → α → Bool) : List α → Bool
  | [] => true
  | x :: t => t.all (r x) && allPairs r t

/-! ### Records -/

/-- The class bit of a number. -/
def classBit (classes c : Nat) : Bool := bit classes c
/-- CLASSES has LIVE or PROMPT. -/
def plannedClasses (classes : Nat) : Bool := bit classes 0 || bit classes 1

/-- Entry-point record at `r`. -/
def readEntry (r : List Byte) : EntryPt :=
  { num := field r 0 2, beClass := byteAt r 2, stream := bit (byteAt r 3) 0, draws := bit (byteAt r 3) 1, shelf := bit (byteAt r 3) 2,
    firstStage := field r 4 2, stageRun := field r 6 2, kind0 := byteAt r 8, kind1 := byteAt r 9, alignLog2 := byteAt r 0x0A, views := byteAt r 0x0B,
    paramKind := byteAt r 0x0C, extKind := byteAt r 0x0D, outBytes := field r 0x10 4, paramMask := field r 0x18 8, extMask := field r 0x20 8,
    energyNj := (upto 0 3).map (fun n => field r (0x28 + 4 * n) 4) }

/-- CHECK 0x07 for one record (R216, R217); a shelf source needs the SHELF flag and the crop key in PARAM. -/
def entryRecOk (classes stages : Nat) (r : List Byte) : Bool :=
  let e := readEntry r
  let shelfIn := e.kind0 = 3 || e.kind1 = 3
  (e.beClass = 0 || ((e.beClass = 2 || e.beClass = 3) && classBit classes e.beClass)) && byteAt r 3 < 8 && 1 ≤ e.stageRun &&
    e.firstStage + e.stageRun ≤ stages && e.kind0 ≤ 5 && e.kind1 ≤ 5 && inRange 6 e.alignLog2 12 && inRange 1 e.views 8 &&
    e.paramKind ≤ 2 && e.extKind ≤ 2 && zeros r 0x0E 2 && e.outBytes % 4096 = 0 && zeros r 0x14 4 && zeros r 0x34 12 &&
    (!shelfIn || (e.shelf && e.paramKind = 1))

/-- Stage record at `r`. -/
def readStage (r : List Byte) : StageRec :=
  { opb := field r 0 2, unit := byteAt r 2, barrier := byteAt r 3 = 1, leaves := field r 4 2, units := field r 6 2, codeStart := field r 8 4,
    codeLen := field r 0x0C 4, coeffFirst := field r 0x10 2, coeffRun := field r 0x12 2 }

/-- CHECK 0x08 for one record (R218). -/
def stageRecOk (bs r : List Byte) : Bool :=
  let t := readStage r
  let maxLeaves := if plannedClasses (field bs 6 2) then 32 * byteAt bs 0x14 else 32
  t.opb < hdrBlocks bs && t.unit ≤ 3 && byteAt r 3 ≤ 1 && (if t.unit = 0 then inRange 1 t.leaves maxLeaves else t.leaves = 0) &&
    (if t.unit = 1 then inRange 1 t.units 16 else if t.unit = 2 then inRange 1 t.units 8 else t.units = 0) && t.codeLen ≤ 8192 &&
    t.codeStart + t.codeLen ≤ field bs 0x4C 4 && t.coeffFirst + t.coeffRun ≤ hdrCoeffs bs && zeros r 0x14 12

/-- Coefficient-table record at `r` of an image read from address `a`, with the data the image holds (R220). -/
def readCoeff (bs r : List Byte) (a : Nat) : CoeffRec :=
  let off := field r 8 4
  let size := field r 4 4
  { index := field r 0 2, kind := byteAt r 2, resident := byteAt r 3 = 1, size, addr := if off = 0 then 0 else a + off, crc := field r 0x0C 4,
    data := if off = 0 then none else some (slice bs off size) }

/-- A record's data lies in the image and matches its CRC. -/
def coeffRecOk (bs r : List Byte) : Bool :=
  let off := field r 8 4
  let size := field r 4 4
  byteAt r 2 ≤ 2 && byteAt r 3 ≤ 1 && (off = 0 || (off + size ≤ bs.length && crc32c (slice bs off size) = field r 0x0C 4))

/-- Slot record at `r` with its energy. -/
def readSlot (r : List Byte) (energy : Nat) : SlotRec :=
  { first := field r 0 4, run := field r 4 4, stage := field r 8 2, relQuire := byteAt r 0x0A, replay := bit (byteAt r 0x0B) 0,
    leafMask := field r 0x0C 4, cycles := field r 0x10 2, energyNj := energy }

/-- Number of bits set in a 32-bit mask. -/
def popcount (m : Nat) : Nat := ((upto 0 32).filter (bit m)).length

/-- CHECK 0x0B for one record of the table of point `n` (R221, R549). -/
def slotRecOk (bs r : List Byte) (n : Nat) : Bool :=
  let t := readSlot r 0
  let period := field bs 0x10 4
  t.first < period && inRange 1 t.run (period - t.first) && t.stage < hdrStages bs && byteAt r 0x0B ≤ 1 &&
    (if t.relQuire = 0xFF then t.replay else !t.replay && t.relQuire < byteAt bs 0x14) && t.leafMask ≠ 0 &&
    (!t.replay || popcount t.leafMask = byteAt bs 0x15) && inRange 1 t.cycles (bookable n) && zeros r 0x12 6

/-- Runs of two records share a slot. -/
def slotsMeet (x y : SlotRec) : Bool := x.first < y.first + y.run && y.first < x.first + x.run

/-- Two records do not book one leaf in one slot. -/
def slotPairOk (x y : SlotRec) : Bool := x.relQuire ≠ y.relQuire || !slotsMeet x y || Nat.land x.leafMask y.leafMask = 0

/-! ### CHECK 0x09: operator parameter blocks -/

/-- The set that a block names: kind, SET_INDEX, and the size it needs (R220, 10 R353, R366, 11 R387). -/
def blockSet (o : Opb) : Option (Nat × Nat × Nat) :=
  if o.op = 0x0221 then some (0, field o.bytes 0x10 2, field o.bytes 0x12 2 * field o.bytes 0x14 2) else pixelSet o.op o.bytes

/-- A block by itself: operator, version, reserved header field, size and body (R219). -/
def blockOk (o : Opb) : Bool :=
  field o.bytes 2 2 = 1 && zeros o.bytes 0x0C 4 &&
    (if o.op = 0x0400 then decodeOk o.bytes else if o.op = 0x0401 then encodeFieldsOk o.bytes
     else if o.op < 0x0200 then pixelOk o.op o.bytes else tensorOk o.op o.bytes)

/-- What an Encode block needs of the image (09 R316). -/
def encodeBlockOk (i : Image) (o : Opb) : Bool :=
  let e := encBlock o.bytes
  let named := field o.bytes 0x34 2
  let scaler := match i.opbs[named]? with | some r => r.op == 0x0121 | none => false
  (named = 0xFFFF || scaler) && encSizesOk o.bytes (encResize i o.bytes) && (e.division < 2 || e.codec = 1) &&
    (e.channel = 0xFF || (e.codec ≠ 4 && bit i.classes 0)) && minAu o.bytes e.depth ≤ e.maxAu

/-- The set a block names has a record (R220). -/
def setNamed (i : Image) (o : Opb) : Bool :=
  match blockSet o with
  | some (k, x, _) => i.coeffs.any (fun c => c.kind = k && c.index = x)
  | none => true

/-- Stage `k` runs operator `op`. -/
def runsOp (i : Image) (op k : Nat) : Bool := stageOp i k = op

/-- A PWL stage's plane is CODE(IN_BITS), as far as the image fixes it (10 R350). -/
def pwlInputOk (b : List Byte) : AbsOut → Bool
  | .planes true [p] => match p.form with | some f => f == some (byteAt b 0x10) | none => true
  | _ => true

/-- The parts of a Batch stage (11 R401, R547). -/
def batchStageOk (p : EntryPt) (k : Nat) (b : List Byte) (outs : Tbl AbsOut) : Bool :=
  let parts := batchParts b
  let view := p.viewBytes
  let tensorsOf (j : Nat) : List AbsTensor := match Tbl.getD outs j .nothing with | .tensors l => l | _ => []
  let size (n : Nat) : Option Nat :=
    let j := (parts.getD n (0, 0)).1
    let before := ((parts.take n).filter (fun q => q.1 = j)).length
    match (tensorsOf j)[before]? with
    | some t => t.largest
    | none => match (tensorsOf j).getLast? with | some t => t.largest | none => none
  k + 1 = p.firstStage + p.stageRun && p.outBytes % (4096 * p.views) = 0 &&
    parts.all (fun q => p.firstStage ≤ q.1 && q.1 < k && !(tensorsOf q.1).isEmpty) &&
    (upto 0 parts.length).all (fun n =>
      let off := (parts.getD n (0, 0)).2
      let lim := match parts[n + 1]? with | some q => q.2 * 4096 | none => view
      (match parts[n + 1]? with | some q => off < q.2 | none => true) && off * 4096 < view &&
        (match size n with | some z => off * 4096 + z ≤ lim | none => true)) &&
    (byteAt b 0x10 = 0 || (parts.getD 0 (0, 0)).2 ≠ 0)

/-- One stage of an entry point against the image: the relations that the spec names as CHECK 0x09 conditions. -/
def stageRelOk (i : Image) (p : EntryPt) (outs ins : Tbl AbsOut) (k : Nat) : Bool :=
  match stageOf i k with
  | none => true
  | some (st, o) =>
    let b := o.bytes
    let before := upto p.firstStage (k - p.firstStage)
    match o.op with
    | 0x0100 =>
      (byteAt b 0x10 ≠ 0 || (k = p.firstStage && p.stream)) && (byteAt b 0x10 ≠ 3 || (k ≠ p.firstStage && runsOp i 0x0400 (k - 1)))
    | 0x0101 => pwlInputOk b (Tbl.getD ins k .nothing)
    | 0x0204 => byteAt b 0x12 < p.views
    | 0x0221 => match before.reverse.find? (runsOp i 0x0210) with
      | some j => (match stageOf i j with | some q => byteAt q.2.bytes 0x18 = 2 | none => false)
      | none => false
    | 0x0222 => mem before (field b 0x10 2) && runsOp i 0x0220 (field b 0x10 2)
    | 0x0243 => !(match Tbl.getD outs k .nothing with | .tensors (t :: _) => (match t.fmt with | some f => isB32 f | none => false) | _ => false) ||
        field b (0x14 + 2 * (byteAt b 0x11 - 1)) 2 % 32 = 0
    | 0x0250 => batchStageOk p k b outs
    | 0x0400 => k = p.firstStage && p.kind0 = 2 && !(p.stream && bit i.classes 0)
    | 0x0401 =>
      let e := encBlock b
      let n := match Tbl.getD ins k .nothing with | .planes _ (x :: _) => (x.form.bind id).getD e.depth | _ => e.depth
      cdiv (64 + e.maxAu) 4096 ≤ p.viewBytes / 4096 && !(bit i.classes 0 && p.stream && (1 < e.orient || 4 < st.units)) &&
        (e.division ≠ 0 || st.units = 1) && minAu b n ≤ e.maxAu
    | _ => true

/-- Every stage of an entry point. -/
def entryRelOk (i : Image) (p : EntryPt) : Bool :=
  let a := p.absOuts i
  p.stageList.all (stageRelOk i p a.1 a.2)

/-! ### The whole image -/

/-- Records of a section. -/
def records (bs : List Byte) (off size : Nat) (n : Nat) : List (List Byte) := (upto 0 n).map (fun k => slice bs (off + k * size) size)

/-- The slot table of a point. -/
def slotTable (bs : List Byte) (n : Nat) : List SlotRec :=
  (enum (records bs (hdrSlotOff bs n) 24 (hdrSlotCount bs n))).map (fun p => readSlot p.2 (field bs (hdrEnergyOff bs n + 4 * p.1) 4))

/-- CHECK 0x05: counts and ranges of the header (R215). -/
def headerRanges (bs : List Byte) : Bool :=
  let live := bit (field bs 6 2) 0
  let plan := plannedClasses (field bs 6 2)
  (if plan then inRange 500 (field bs 0x10 4) 131072 && inRange 1 (byteAt bs 0x14) 60 else field bs 0x10 4 = 0 && byteAt bs 0x14 = 0) &&
    (if live then inRange 1 (byteAt bs 0x15) 32 && inRange 150 (field bs 0x30 4) 10000 else byteAt bs 0x15 = 0 && field bs 0x30 4 = 0) &&
    inRange 1 (hdrStages bs) 64 && inRange 1 (hdrEntries bs) 64 && inRange 1 (hdrBlocks bs) 256 && hdrCoeffs bs ≤ 256 && field bs 0x20 4 ≤ 2048

/-- The image that the bytes describe, read from address `a`. -/
def imageOf (bs : List Byte) (a : Nat) (opbs : List Opb) : Image :=
  { classes := field bs 6 2, bindingId := field bs 8 4, periodSlots := field bs 0x10 4, quires := byteAt bs 0x14, replayLeaves := byteAt bs 0x15,
    qstoreKib := field bs 0x20 4, coeffKib := field bs 0x24 4, rdBytes := field bs 0x28 4, wrBytes := field bs 0x2C 4, abandonUs := field bs 0x30 4,
    codeHash := beNat (slice bs 0x80 48), code := (a + field bs 0x48 4, field bs 0x4C 4), entries := (records bs (field bs 0x3C 4) 64 (hdrEntries bs)).map readEntry,
    stages := (records bs (field bs 0x38 4) 32 (hdrStages bs)).map readStage, opbs,
    coeffs := (records bs (field bs 0x44 4) 16 (hdrCoeffs bs)).map (readCoeff bs · a), slots := (upto 0 3).map (slotTable bs) }

/-- Numbers of a list are all different. -/
def noRepeats : List Nat → Bool
  | [] => true
  | x :: t => !mem t x && noRepeats t

/-- The last stage of every entry point has a barrier (R218). -/
def lastBarriers (i : Image) : Bool :=
  i.entries.all (fun p => match i.stages[p.firstStage + p.stageRun - 1]? with | some t => t.barrier | none => false)

/-- CHECK 0x0A. -/
def coeffsOk (bs : List Byte) (i : Image) : Bool :=
  (records bs (field bs 0x44 4) 16 (hdrCoeffs bs)).all (coeffRecOk bs) && noRepeats (i.coeffs.map (fun c => c.kind * 65536 + c.index)) &&
    i.coeffKib = ((i.coeffs.filter (·.resident)).map (fun c => cdiv c.size 1024)).sum &&
    i.opbs.all (fun o => match blockSet o with
      | some (k, x, z) => i.coeffs.all (fun c => !(c.kind = k && c.index = x) || c.size = z)
      | none => true)

/-- CHECK 0x0B. -/
def slotsOk (bs : List Byte) (i : Image) : Bool :=
  (upto 0 3).all (fun n =>
    (records bs (hdrSlotOff bs n) 24 (hdrSlotCount bs n)).all (fun r => slotRecOk bs r n) && allPairs slotPairOk (i.slots.getD n [])) &&
    (!plannedClasses i.classes || i.slots.any (fun l => !l.isEmpty)) &&
    (bit i.classes 0 || i.slots.all (fun l => l.all (fun r => !r.replay)))

/-- Each view of a sample takes an equal whole number of folios (R216; log 16). An entry point that ends in a Batch stage is left to that
stage's own check, 0x09 (11 R401). -/
def viewsWhole (i : Image) (p : EntryPt) : Bool :=
  stageOp i (p.firstStage + p.stageRun - 1) = 0x0250 || p.outBytes % (4096 * p.views) = 0

/-- Structural validation of the bytes of a request of IMAGE_SIZE `size`, read from address `a`: the image, or the CHECK code of the
first failure (R222). -/
def validate (bs : List Byte) (size a : Nat) : Except Nat Image :=
  if size < 256 || field bs 0 4 ≠ 0x35444E42 || crc32c (slice bs 0 0xFC) ≠ field bs 0xFC 4 then .error 1
  else if field bs 4 2 ≠ 5 then .error 2
  else if field bs 0x0C 4 ≠ size || !(zeros bs 0x1E 2 && zeros bs 0x74 12 && zeros bs 0xB0 76) || field bs 6 2 = 0 || 16 ≤ field bs 6 2 then .error 3
  else match readBlocks bs (hdrBlocks bs) (field bs 0x40 4) with
    | none => .error 4
    | some (opbs, blocksEnd) =>
      let secs := sectionsOf bs blocksEnd
      if !(secs.all (sectionOk bs.length) && allPairs disjointSections secs) then .error 4
      else if !headerRanges bs then .error 5
      else if Config.sha384 (slice bs (field bs 0x48 4) (field bs 0x4C 4)) ≠ beNat (slice bs 0x80 48) then .error 6
      else
        let i := imageOf bs a opbs
        let recsE := records bs (field bs 0x3C 4) 64 (hdrEntries bs)
        let recsS := records bs (field bs 0x38 4) 32 (hdrStages bs)
        if !(recsE.all (entryRecOk i.classes (hdrStages bs)) && noRepeats (i.entries.map (·.num)) && i.entries.all (viewsWhole i)) then .error 7
        else if !(recsS.all (stageRecOk bs) && lastBarriers i) then .error 8
        else if !(i.opbs.all (fun o => blockOk o && setNamed i o && (o.op ≠ 0x0401 || encodeBlockOk i o)) && i.entries.all (entryRelOk i)) then .error 9
        else if !coeffsOk bs i then .error 0x0A
        else if !slotsOk bs i then .error 0x0B
        else if (upto 0 3).any (fun n => hdrSlotCount bs n ≠ 0 && hdrEnergyOff bs n = 0) then .error 0x0C
        else .ok i

end Sys2Proof.Machine
end

