-- ==== Sys2Proof/Machine/Blocks.lean ====
section
/-! DEFINITION. Point blocks: deskew, the bytes of points and headers, the start of a block's publication, and a packet ring that stops
(08 R286, R295-R300). -/

namespace Sys2Proof.Machine

/-- Attributes of a packet ring's transactions (R300; 13 R435, R436). -/
def pktTx (rd : Bool) (ctx : Nat) : TxAttr := { rd, ctx, cls := 1, prio := 2, meter := some (1, ctx) }

/-- Events of PKT_EVT become 1. -/
def pktEvt (mask : Nat) (s : State) : State := { s with pkt := { s.pkt with evt := s.pkt.evt ||| BitVec.ofNat 8 mask } }

/-- T_REF of a block (R299). -/
def refTime (x : PktRec) (first last : Int) : Int :=
  if x.deskewRef = 0 then first else if x.deskewRef = 1 then last else fdiv (first + last) 2

/-- The point in the sensor frame at t_ref (R299). -/
def deskew (m : Motion) (tRef : Int) (p : Point) : Point :=
  let d := tRef - p.t
  let g : Int := 1000000000
  let q : Int := 16777216
  { p with
    x := satS (rneDiv ((p.x * g - m.vx * d) * q + m.wz * d * p.y) 16777216000000000) 32,
    y := satS (rneDiv ((p.y * g - m.vy * d) * q - m.wz * d * p.x) 16777216000000000) 32,
    z := satS (rneDiv (p.z * g - m.vz * d) 1000000000) 32 }

/-- The 32 bytes of a point record (R296). -/
def pointBytes (first : Int) (p : Point) : List Byte :=
  leBytes (code p.x 32) 4 ++ leBytes (code p.y 32) 4 ++ leBytes (code p.z 32) 4 ++ leBytes (code (p.t - first) 32) 4 ++
    leBytes (code p.range 32) 4 ++ leBytes p.az 2 ++ leBytes (code p.el 16) 2 ++ leBytes p.intensity 2 ++ leBytes p.ring 1 ++
    leBytes p.ret 1 ++ leBytes (code p.user0 32) 4

/-- Times of the first and last point of a block. -/
def Block.span (b : Block) : Int × Int := ((b.points.head?.map (·.t)).getD 0, (b.points.getLast?.map (·.t)).getD 0)

/-- The point records of a block. -/
def Block.body (b : Block) : List Byte := b.points.flatMap (pointBytes b.span.1)

/-- The 64-byte header of a block. -/
def blockHeader (x : PktRec) (r seq motionGen : Nat) (b : Block) : List Byte :=
  let t64 (t : Int) : List Byte := leBytes (code t 64) 8
  let h := leBytes 0x31425450 4 ++ leBytes r 1 ++ leBytes b.quality 1 ++ leBytes b.flags 2 ++ leBytes b.points.length 4 ++
    leBytes b.packets 4 ++ leBytes seq 8 ++ t64 b.span.1 ++ t64 b.span.2 ++ t64 (refTime x b.span.1 b.span.2) ++ leBytes b.dropped 4 ++
    leBytes motionGen 4 ++ leBytes (crc32c b.body) 4
  h ++ leBytes (crc32c h) 4

/-- Write the points of a closed block: its gathering begins. The motion record's GEN is kept in the gathering's GEN field. -/
def publishBlock (r gen : Nat) (b : Block) (s : State) : State :=
  match (s.pring r).setup with
  | none => s
  | some (x, _) =>
    let wid := s.workNext
    let w : Work := { kind := .block r, ctx := x.ctx, cls := 1, gen, guards := (s.ctx x.ctx).guards, phase := .working,
                      buffer := some b.buffer, block := some (b, 0), tStart := s.now }
    let body := b.body
    workWrite wid (.points r wid) (b.buffer.2.2 + 64) body.length body (addWork w s)

/-- Deskew a closed block with a motion record, stale or not, and write it. -/
def deskewBlock (r : Nat) (m : Motion) (stale : Bool) (b : Block) (s : State) : State :=
  match (s.pring r).setup with
  | none => s
  | some (x, _) =>
    let b' := { b with points := b.points.map (deskew m (refTime x b.span.1 b.span.2)), flags := Nat.lor b.flags (if stale then 3 else 1) }
    publishBlock r m.gen b' (when stale (pktEvt 32) s)

/-! ### A ring that stops (R286) -/

/-- PKT_ERR records an error of a ring, and RING_ERR is set (08 R284). -/
def notePktErr (r code : Nat) (s : State) : State := { s with pkt := { s.pkt with errCode := code, errRing := r, evt := s.pkt.evt ||| 2 } }

/-- The open block of a ring closes with BFLAGS bits: the block as it is published (R295). -/
def closedBlock (s : State) (p : PktRing) (flags : Nat) (b : Block) : Block :=
  { b with flags := Nat.lor b.flags flags, dropped := p.dropped, quality := s.tb.quality }

/-- A packet ring stops for an error with a PKT_ERR code, as at a disable: its open block closes and is published, and then RUN falls
(R286, R300, R301). A block that needs its motion record awaits MOTION_RECORD_RETRY for the first read of it (log 44). -/
def stopPktRing (r code : Nat) (s : State) : State :=
  let p := s.pring r
  if !p.run then s
  else
    let s1 := notePktErr r code (modPring r (fun p => { p with enable := false, stopping := true }) s)
    match p.block, p.setup with
    | some b, some (x, _) =>
      let s2 := modPring r (fun p => { p with block := none, dropped := 0 }) s1
      if x.motionAddr = 0 then publishBlock r 0 (closedBlock s p 128 b) s2
      else modPring r (fun p => { p with closing := p.closing ++ [closedBlock s p 128 b] }) s2
    | _, _ => s1

end Sys2Proof.Machine
end

