-- ==== Sys2Proof/Machine/Reactions.lean ====
section
/-! DEFINITION. What faults lead to: effects of contained faults, stream safe state, device safe state, retirement and
control restarts (04 R111-R115; 14 R462, R466, R480-R489). -/

namespace Sys2Proof.Machine

/-! ### Streams -/

/-- A stream leaves its sync group; the group goes on with the other members (05 R160). -/
def leaveGroup (i : Nat) (s : State) : State :=
  { s with groups := s.groups.map (fun p => (p.1, { p.2 with
      members := p.2.members.filter (· ≠ i), joined := p.2.joined.filter (· ≠ i), seen := p.2.seen.filter (· ≠ i) })) }

/-- The gatherings of a stream that are not mirrors. -/
def streamWorks (s : State) (i : Nat) : List Nat :=
  s.works.filterMap (fun p => match p.2.kind with | .live j | .missing j | .terminal j => if i = j then some p.1 else none | _ => none)

/-- The gathering in progress whose buffer and times a terminal gathering takes: the newest whose colophon is not started. -/
def openGathering (s : State) (i : Nat) : Option (Nat × Work) :=
  ((streamWorks s i).reverse.filterMap (fun w => match Tbl.get? s.works w with
    | some x => if x.phase == .colophon || x.phase == .commit then none else some (w, x)
    | none => none)).head?

/-- Drop the gatherings of a stream whose colophon is not started; their buffers return to stock. -/
def killOpen (i : Nat) (s : State) : State :=
  forEach (streamWorks s i) (fun w s => match Tbl.get? s.works w with
    | some x => if x.phase == .colophon || x.phase == .commit then s else killWork w s
    | none => s) s

/-- A mirror copy stops without a mark. -/
def killMirror (i : Nat) (s : State) : State :=
  match Tbl.get? s.streams i with
  | some t => match t.mirror with
    | some w => modStream i (fun t => { t with mirror := none }) (killWork w s)
    | none => s
  | none => s

/-- Entry point of a stream in the generation in force. -/
def streamPoint (s : State) (t : Stream) : Option EntryPt :=
  match Tbl.get? s.bindings t.binding with
  | some b => match b.image with | some i => i.point? t.entry | none => none
  | none => none

/-- A terminal gathering: FOLIOS 0, VALID 0, status CONTAINED_FAULT (14 R484). `buf` is its buffer, `o` the gathering that was
in progress. -/
def terminalWork (s : State) (i : Nat) (t : Stream) (buf : Nat × Nat × Nat) (o : Option Work) : Work :=
  let p := streamPoint s t
  let views := match p with | some p => p.views | none => 0
  let m : Member := { bytes := 0, folios := 0, statuses := [8], defect := 0, invalid := upto 0 views, energyNj := 0, viewStart := [] }
  { kind := .terminal i, ctx := t.ctx, cls := 0, streamId := i, binding := t.binding, entry := t.entry,
    gen := match o with
      | some w => w.gen
      | none => (match Tbl.get? s.bindings t.binding with | some b => b.gen | none => 0),
    guards := match o with | some w => if w.guards.isEmpty then (s.ctx t.ctx).guards else w.guards | none => (s.ctx t.ctx).guards,
    key := match o with | some w => w.key | none => none,
    drawPos := match o with | some w => w.drawPos | none => t.drawPos,
    buffer := some buf, views, total := 0, counter := match o with | some w => w.counter | none => t.counter,
    exposure := match o with | some w => w.exposure | none => 0, frameEnd := match o with | some w => w.frameEnd | none => 0,
    tStart := match o with | some w => w.tStart | none => s.now, members := [m] }

/-- A stream enters stream safe state (14 R484). -/
def streamSafe (i : Nat) (s : State) : State :=
  match Tbl.get? s.streams i with
  | none => s
  | some t =>
    if t.st == .safe then s
    else
      let o := openGathering s i
      -- the buffer of the gathering in progress, or a newly issued one
      let s1 := match o with | some (w, _) => modWork w (fun x => { x with buffer := none }) s | none => s
      let s2 := killMirror i (leaveGroup i (killOpen i s1))
      let s3 := modStream i (fun t => { t with st := .safe, cur := none }) s2
      let buf := match o with
        | some (_, w) => (match w.buffer with | some b => some b | none => (match poolSet t.outPool t.ctx with | some set => offerBuf s3 t.ctx set 128 | none => none))
        | none => (match poolSet t.outPool t.ctx with | some set => offerBuf s3 t.ctx set 128 | none => none)
      let s4 := match buf with
        | some b => zeroWrite s3.workNext (addWork (terminalWork s3 i t b (o.map (·.2))) (setBuf b.1 b.2.1 (some .issued) s3))
        | none => s3
      collect [{ src := 124, cls := 3, cause := 0x23, detail := i }] s4

/-- Attached streams of a sensor port. -/
def portStreams (s : State) (p : Nat) : List Nat := s.streams.filterMap (fun x => if x.2.port = p then some x.1 else none)

/-- A port is stopped and its streams enter stream safe state (14 R462). -/
def stopPort (p : Nat) (s : State) : State :=
  let s1 := modPort p (fun x => { x with st := .off, rxEn := false, laneEn := 0, qualLeft := 0 }) s
  forEach (portStreams s p) streamSafe s1

/-! ### Device safe state (14 R486-R489) -/

/-- The transaction may still be presented after the commit gate has closed. -/
def Tx.passesGate (x : Tx) : Bool := x.tag.isSome || (x.sys && x.meter.isNone)

/-- Device safe state is entered: the commit gate closes and every other reaction is superseded. -/
def enterSafe (cause : Nat) (s : State) : State :=
  if s.faults.safe != .normal then s
  else
    let c := s.control
    let stop := c.restarting
    { s with
      faults := { s.faults with safe := .entering, safeCause := cause, migrations := [] },
      txs := s.txs.filter Tx.passesGate,
      control := if stop then { c with pair0 := .stopped, pair1 := .stopped, restarting := false } else c }

/-- The last steps of R487 once every outstanding transaction is answered or has timed out. -/
def finishSafe (s : State) : State :=
  if s.faults.safe == .entering && s.txs.all (fun x => x.tag.isNone || x.timedOut) then
    { s with
      faults := { s.faults with safe := .deviceSafe },
      codec := { s.codec with on := 0, busy := 0, live := 0 },
      power := { s.power with
        vclk := { s.power.vclk with req := false },
        oppPrev := s.power.oppPending, oppPending := 2, oppReturn := false, oppWanted := none,
        oppWait := s.power.oppPending != 2 || s.power.oppWait },
      press := { s.press with running := false, quires := s.press.quires.map (fun q => { q with st := .gated, micro := [], stale := true }) } }
  else s

/-! ### Control restarts (04 R112-R115) -/

/-- A watchdog starts or is reset with a limit; that of a halted pair does not advance (04 R118). -/
def watchdogFrom (now limit : Nat) (halted : Bool) : Watchdog :=
  { limit, due := now + limit, left := if halted then some limit else none }

/-- Both watchdogs start with a boot, with the limit of 1 ms (04 R118). -/
def bootWatchdogs (s : State) : State :=
  { s with control := { s.control with
      wd0 := watchdogFrom s.now 1000000 s.control.halt0, wd1 := watchdogFrom s.now 1000000 s.control.halt1 } }

/-- Start a control restart for a cause of CC_STAT.LAST_CAUSE; `fatal` marks a fault that is FATAL to the control complex, which
stops the complex while a restart is under way (04 R115). DEBUG_CTL keeps its bits: a pair that is halted stays halted (R127). A record
write that the keep-store holds back for a mailbox goes on (15 R507); firmware's own requests end with it (log 100). -/
def controlRestart (cause : Nat) (fatal : Bool) (s : State) : State :=
  let c := s.control
  if c.restarting then
    (if fatal then { s with control := { c with pair0 := .stopped, pair1 := .stopped, restarting := false, fwUp := false } }
     else s)
  else if fatal && c.pair0 == .stopped && c.pair1 == .stopped then s
  else
    bootWatchdogs { s with
      control := { c with
        pair0 := .boot, pair1 := .boot, restarting := true, fwUp := false, lastCause := cause, restartCnt := sat32 (c.restartCnt + 1),
        bootCode := 1 },
      faults := { s.faults with nRestarts := s.faults.nRestarts + 1 },
      keep := { s.keep with compact := none, waiting := s.keep.waiting.filter (fun q => match q.origin with
        | .i3c | .challenge _ | .mailbox _ => true | _ => false) } }

/-! ### Retirement (14 R480-R483) -/

/-- A quire is retired: it keeps its reservations until its work has been handed over (14 R481). -/
def retireQuire (q : Nat) (s : State) : State :=
  if mem s.faults.retired q then s
  else { s with faults := { s.faults with retired := insertNat q s.faults.retired, nRetired := s.faults.nRetired + 1 } }

/-- A trim engine (80-95) or codec core (96-103) is retired (14 R483). -/
def retireUnit (src : Nat) (s : State) : State :=
  if 80 ≤ src && src < 104 then { s with faults := { s.faults with unitsRetired := insertNat (src - 80) s.faults.unitsRetired } } else s

/-- A draw lane that failed its known-answer test leaves service (12 R417, R418). -/
def dropLane (lane : Nat) (s : State) : State :=
  { s with draw := { s.draw with inService := s.draw.inService &&& ~~~(BitVec.ofNat 4 (2 ^ lane)), evt := s.draw.evt ||| 2 } }

/-- A draw key slot is erased; its context must set it again (12 R417). -/
def eraseKey (detail : Nat) (s : State) : State :=
  let t := modCtx (detail / 16) (fun x => { x with keys := modNth x.keys (detail % 16) (fun _ => {}) }) s
  { t with draw := { t.draw with evt := t.draw.evt ||| 1 } }

/-- The data of a gathering was hit: all its views carry VALID = 0 and CONTAINED_FAULT (09 R337, 12 R417, 13 R448; log 18). -/
def hitWork (wid : Nat) : State → State :=
  modWork wid (fun w => { w with members := w.members.map (fun m => { m with statuses := 8 :: m.statuses, invalid := upto 0 w.views }) })

/-- Intake qualifies a port that is UP or QUALIFYING again, from two frames, and its open frames become CORRUPT (08 R274, R301). -/
def requalifyPort (p : Nat) (s : State) : State :=
  let s1 := forEach (portStreams s p) (fun i s => match Tbl.get? s.streams i with
    | some t => (match t.cur with
      | some w => modWork w (fun x => { x with frame := x.frame.map (fun f => { f with corrupt := true }) }) s
      | none => s)
    | none => s) s
  if (s.port p).st == .up || (s.port p).st == .qualifying then modPort p (fun x => { x with st := .qualifying, qualLeft := 2, goodWins := 0 }) s1 else s1

/-- MEM_FAULT_CAUSE codes of the memory system's own faults (13 R449): from source and cause of R463. -/
def memFaultCode (f : FaultIn) : Nat :=
  if 16 ≤ f.src && f.src < 80 then
    (if f.cause = 2 then 1 else if f.cause = 4 then 3 else if f.cause = 3 then 4 else if f.cause = 0x21 then 9 else 0)
  else if 112 ≤ f.src && f.src < 116 then
    (if f.cause = 0x1F then 5 else if f.cause = 0x20 then 7 else 0)
  else 0

/-- MEM_FAULT_CAUSE shows the last memory-system fault. -/
def noteMemFault (code src : Nat) (s : State) : State :=
  if code = 0 then s else { s with mem := { s.mem with faultCause := code, faultSource := src } }

/-- A stock state entry failed parity: its buffer becomes QUARANTINED (13 R439). -/
def stockParity (part : Nat) (s : State) : State :=
  let s1 := setBuf (part / 2 ^ 20) (part % 2 ^ 20) (some .quarantined) s
  { s1 with mem := { s1.mem with evt := s1.mem.evt ||| 10 } }

/-- The I3C target loses its dynamic address and ENINT (16 R527). -/
def loseAddr (s : State) : State :=
  { s with mgmt := { s.mgmt with
      dynAddr := none, enint := false, evt := if s.mgmt.dynAddr.isSome || s.mgmt.enint then s.mgmt.evt ||| 1 else s.mgmt.evt } }

/-- A fault of a migration's target before any binding has been handed over cancels the migration: the work stays where it is, and
the tokens are released (14 R479; log 61). -/
def cancelMigrations (q : Nat) (s : State) : State :=
  let used := s.bindings.any (fun p => mem (p.2.quiresA ++ p.2.quiresB) q)
  if used then s
  else forEach (s.faults.migrations.filter (·.dst = q)) (fun m s =>
    { s with
      faults := { s.faults with migrations := s.faults.migrations.filter (·.dst ≠ q) },
      mem := { s.mem with tokens := Tbl.erase (Tbl.erase s.mem.tokens m.src) m.dst } }) s

/-- What a fault does besides its record and the reaction of its class. -/
def faultEffect (f : FaultIn) (s : State) : State :=
  let s := noteMemFault (memFaultCode f) f.src s
  let s := if 16 ≤ f.src && f.src < 80 then cancelMigrations (f.src - 16) s else s
  if f.cls = 1 then s
  else if f.src = 127 then loseAddr s
  else if f.src = 107 then requalifyPort f.detail s
  else if f.src = 110 && f.cls = 2 then stopPktRing f.part 6 s
  else if f.src = 118 && f.cls = 3 then { s with keep := { s.keep with indexBad := true } }
  else if f.src = 125 && f.cause = 8 then dropLane f.detail s
  else if f.src = 125 && f.cause = 3 then eraseKey f.detail (if f.part = 0 then s else hitWork (f.part - 1) s)
  else if 112 ≤ f.src && f.src < 116 && f.cause = 0x1F then stockParity f.part s
  else if 16 ≤ f.src && f.src < 104 && f.part ≠ 0 then hitWork (f.part - 1) s
  else s

/-- LAST_CAUSE of a control restart that a fault causes (04 R129). -/
def restartCauseOf (f : FaultIn) : Nat := if f.src = 120 then 0x43 else if f.src = 122 then 0x44 else f.src

/-- Carry out the reaction of a FATAL fault (14 R462); in device safe state a fault changes nothing further (R488). -/
def react (f : FaultIn) (s : State) : State :=
  if s.faults.safe != .normal then s
  else match scopeOf f with
    | .device => enterSafe 1 s
    | .stream => if f.src < 109 then stopPort f.detail s else s
    | .control => controlRestart (restartCauseOf f) true s
    | .quire => retireQuire (f.src - 16) s
    | .unit => retireUnit f.src s
    | .keep => { s with keep := { s.keep with writesOff := true, evt := s.keep.evt ||| 1 } }
    | .loc =>
      if f.src = 109 || f.src = 110 then forEach (upto 0 8) (fun r => stopPktRing r 6) s
      else s

/-- Faults of one period: device safe state comes first, since it supersedes the others (14 R466). -/
def report (fs : List FaultIn) (s : State) : State :=
  let rs := reactionsOf fs s
  let s1 := forEach (periodFaults fs) faultEffect (collect fs s)
  let dev := rs.filter (fun f => scopeOf f == .device)
  forEach (dev ++ rs.filter (fun f => scopeOf f != .device)) react s1

/-- One fault. -/
def report1 (src cls cause detail : Nat) (bestEffort : Bool) : State → State :=
  report [{ src, cls, cause, detail, bestEffort }]

end Sys2Proof.Machine
end

