-- ==== Sys2Proof/Machine/KeepOps.lean ====
section
/-! DEFINITION. The keep-store: record format and validity, record writes, pairs and counters, the boot scan, the journal and
its compaction (15 R494-R509). -/

namespace Sys2Proof.Machine

/-! ### Records (15 R494-R496) -/

/-- First slot and number of slots of a region. -/
def regionOf (r : Nat) : Option (Nat × Nat) :=
  match r with
  | 0 => some (0, 64)
  | 1 => some (64, 64)
  | 2 => some (128, 1536)
  | 3 => some (1664, 2048)
  | 4 => some (3712, 64)
  | _ => none

/-- The 64 bytes of a slot. -/
def Keep.slotBytes (k : Keep) (slot : Nat) : List Byte := k.mem.readBytes (64 * slot) 64

/-- SEQ of a slot's bytes. -/
def slotSeq (b : List Byte) : Nat := field b 0x38 4

/-- The conditions of R496 but for region 2's own. -/
def slotOk (slot : Nat) (b : List Byte) : Bool :=
  field b 0x3E 2 = 0x4B43 && field b 0x3C 2 = slot && 1 ≤ slotSeq b && slotSeq b ≤ 0xFFFFFFFE &&
    field b 0x34 4 = crc32c (slice b 0 0x34 ++ slice b 0x38 8)

/-- A slot is valid under R496 without region 2's conditions. -/
def Keep.valid (k : Keep) (slot : Nat) : Bool := !k.indexBad && !k.eccBad.any (· == slot) && slotOk slot (k.slotBytes slot)

/-- DATA of a slot that is valid, else 52 zero bytes. -/
def Keep.dataOf (k : Keep) (slot : Nat) (ok : Bool) : List Byte := if ok then (k.slotBytes slot).take 52 else List.replicate 52 0

/-- The current copy of a pair: the valid copy with the higher SEQ (15 R499). -/
def Keep.current (k : Keep) (a : Nat) : Option Nat :=
  match k.valid a, k.valid (a + 1) with
  | true, true => some (if slotSeq (k.slotBytes a) < slotSeq (k.slotBytes (a + 1)) then a + 1 else a)
  | true, false => some a
  | false, true => some (a + 1)
  | false, false => none

/-- The copy that a write of the pair goes to. -/
def Keep.other (k : Keep) (a : Nat) : Nat := if k.current a = some a then a + 1 else a

/-- DATA of the current copy of a pair, zeros when there is none. -/
def Keep.pairData (k : Keep) (a : Nat) : List Byte :=
  match k.current a with
  | some i => k.dataOf i true
  | none => List.replicate 52 0

/-- First slot of counter `i`. -/
def counterSlot (i : Nat) : Nat := 64 + 2 * i

/-- Value of counter `i` (15 R500). -/
def Keep.counter (k : Keep) (i : Nat) : Nat := field (k.pairData (counterSlot i)) 0 8

/-! ### The journal (15 R502, R504) -/

/-- A journal slot is valid: R496 with the conditions of R504. -/
def Keep.journalValid (k : Keep) (rec_ : Nat) : Bool :=
  let slot := 128 + rec_
  let seq := slotSeq (k.slotBytes slot)
  let below := k.counter 2
  let comp := k.counter 3
  k.valid slot && below ≤ seq &&
    (comp ≤ below || (match k.current (counterSlot 3) with | some i => seq ≤ slotSeq (k.slotBytes i) | none => true))

/-- Journal records that are valid: SEQ and record number. -/
def Keep.journal (k : Keep) : List (Nat × Nat) :=
  (upto 0 1536).filterMap (fun r => if k.journalValid r then some (slotSeq (k.slotBytes (128 + r)), r) else none)

/-- The entry of highest SEQ. -/
def highest : List (Nat × Nat) → Option (Nat × Nat)
  | [] => none
  | x :: t => match highest t with
    | some y => if x.1 < y.1 then some y else some x
    | none => some x

/-- HEAD: the record that follows the valid one with the highest SEQ (15 R503). -/
def Keep.head (k : Keep) : Nat := match highest k.journal with | some x => (x.2 + 1) % 1536 | none => 0

/-- Free journal slots. -/
def Keep.journalFree (k : Keep) : Nat := 1536 - k.journal.length

/-- Validity of any slot: region 2 with its own conditions, reserved slots never. -/
def Keep.slotValid (k : Keep) (slot : Nat) : Bool :=
  if 128 ≤ slot && slot < 1664 then k.journalValid (slot - 128) else if 3776 ≤ slot then false else k.valid slot

/-- The debug-unlock record: the valid record of region 4 with the lowest number and a LEVEL_MAX of 1 or 2 (15 R501). -/
def Keep.unlockRecord (k : Keep) : Option (List Byte) :=
  ((upto 3712 64).find? (fun s => k.valid s && (byteAt (k.slotBytes s) 0x30 = 1 || byteAt (k.slotBytes s) 0x30 = 2))).map
    (fun s => (k.slotBytes s).take 52)

/-- Region 4 holds a valid record (05 R172). -/
def Keep.region4Used (k : Keep) : Bool := (upto 3712 64).any k.valid

/-! ### Record writes (15 R497, R498, R507-R509) -/

/-- Outcome of a write request. -/
inductive KRes where
  | done | low | off | waits
  deriving DecidableEq, Repr

/-- The commit word of a slot. -/
def commitBytes (slot seq : Nat) : List Byte := leBytes seq 4 ++ leBytes slot 2 ++ leBytes 0x4B43 2

/-- The nine words of a record write in order: address and bytes. -/
def recordWords (slot seq : Nat) (data : List Byte) : List (Nat × List Byte) :=
  let d := slice data 0 52
  let c := commitBytes slot seq
  let body := d ++ leBytes (crc32c (d ++ c)) 4
  (64 * slot + 0x38, List.replicate 8 0) :: (upto 0 7).map (fun i => (64 * slot + 8 * i, slice body (8 * i) 8)) ++ [(64 * slot + 0x38, c)]

/-- Write words. -/
def putWords (m : Mem) : List (Nat × List Byte) → Mem
  | [] => m
  | (a, b) :: t => putWords (m.writeBytes a b) t

/-- KEEP_ERR shows a keep-store fault. -/
def keepErr (cause slot : Nat) (s : State) : State := { s with keep := { s.keep with errCause := cause, errSlot := slot } }

/-- A write is answered LOW_VOLTAGE. -/
def lowVoltage (s : State) : State := { s with keep := { s.keep with evt := s.keep.evt ||| 2 } }

/-- Every word has been written: KEEP_SEQ advances; the slot's words verify. -/
def wroteAll (slot : Nat) (data : List Byte) (s : State) : State :=
  { s with keep := { s.keep with
    mem := putWords s.keep.mem (recordWords slot s.keep.seq data), seq := s.keep.seq + 1, eccBad := s.keep.eccBad.filter (· ≠ slot) } }

/-- Carry out a record write whose words verify as `out` says. A word that fails twice holds unknown bytes and leaves the slot
invalid. -/
def doWrite (slot : Nat) (data : List Byte) (out : KOut) (s : State) : KRes × State :=
  let words := recordWords slot s.keep.seq data
  match out with
  | .ok => (.done, wroteAll slot data s)
  | .retried => (.done, report1 117 1 0x26 0 false (keepErr 0x26 slot (wroteAll slot data s)))
  | .failed k =>
    if 8 < k then (.done, wroteAll slot data s)
    else
      let m := putWords s.keep.mem (words.take k)
      let a := (words.getD k (0, [])).1
      let s1 := { s with keep := { s.keep with
        mem := m.writeBytes a (slice (Config.freeBytes s.freeNo) 0 8), eccBad := insertNat slot s.keep.eccBad } }
      (.off, report1 117 3 0x26 0 false (keepErr 0x26 slot (useFree 1 s1)))
  | .cut k =>
    if 8 ≤ k then (.done, wroteAll slot data s)
    else (.low, lowVoltage { s with keep := { s.keep with mem := putWords s.keep.mem (words.take (k + 1)) } })

/-- Writes are refused: WRITES_OFF, or KEEP_SEQ is spent (15 R498, R509). -/
def Keep.refuses (k : Keep) : Bool := k.writesOff || 0xFFFFFFFF ≤ k.seq

/-- The supply allows no write at all (15 R507). -/
def mramDown (s : State) : Bool := s.power.mram.fail || !s.power.mram.pg

/-- A record write is requested: refused, held back by a warning or an earlier request, or carried out (15 R498, R507). -/
def requestWrite (origin : KOrigin) (slot : Nat) (data : List Byte) (out : KOut) (s : State) : KRes × State :=
  if s.keep.refuses then (.off, s)
  else if mramDown s then (.low, lowVoltage s)
  else if s.power.mram.warn || !s.keep.waiting.isEmpty then
    (.waits, { s with keep := { s.keep with waiting := s.keep.waiting ++ [{ origin, slot, data, time := s.now }] } })
  else doWrite slot data out s

/-- A counter write: refused below the present value, nothing to do at it, else a write of the copy that is not current
(15 R500). -/
def requestCounter (origin : KOrigin) (i v : Nat) (out : KOut) (s : State) : KRes × State :=
  if v < s.keep.counter i then (.off, s)
  else if v = s.keep.counter i then (.done, s)
  else requestWrite origin (s.keep.other (counterSlot i)) (leBytes v 8 ++ List.replicate 44 0) out s

/-- DATA of a boot record (15 R499). -/
def bootData (activeB trial trialB : Bool) (attempts : Nat) : List Byte :=
  [BitVec.ofNat 8 (b2n activeB), BitVec.ofNat 8 (b2n trial), BitVec.ofNat 8 (b2n trialB), BitVec.ofNat 8 attempts] ++ List.replicate 48 0

/-- Fields of the boot record: ACTIVE_SLOT is B, TRIAL, TRIAL_SLOT is B, ATTEMPTS. -/
def Keep.boot (k : Keep) : Bool × Bool × Bool × Nat :=
  let d := k.pairData 0
  (byteAt d 0 = 1, byteAt d 1 = 1, byteAt d 2 = 1, byteAt d 3)

/-- A write of the boot record goes to the copy that is not current. -/
def requestBoot (origin : KOrigin) (activeB trial trialB : Bool) (attempts : Nat) (out : KOut) (s : State) : KRes × State :=
  requestWrite origin (s.keep.other 0) (bootData activeB trial trialB attempts) out s

/-! ### Reads (05 R172, 15 R496) -/

/-- The 52 bytes that a read of a record returns. -/
def readRecord (s : State) (slot : Nat) : List Byte := s.keep.dataOf slot (s.keep.slotValid slot)

/-! ### The boot scan (15 R505) -/

/-- The scan: what ECC finds, the index, and KEEP_SEQ. It runs once PG_MRAM is seen. -/
def keepScan (corrected bad : List Nat) (s : State) : State :=
  if !(s.chip.porstN && s.chip.keeperInit) || s.keep.scanDone || !s.power.mram.pg || !s.power.mram.req then s
  else
    let k := { s.keep with eccBad := bad.foldl (fun l x => insertNat x l) [], indexBad := false }
    let top := (upto 0 4096).foldl (fun m i => if k.valid i && (i < 128 || 1664 ≤ i || k.journalValid (i - 128)) then max m (slotSeq (k.slotBytes i)) else m) 0
    let s1 := { s with keep := { k with scanDone := true, seq := top + 1 } }
    let s2 := forEach corrected (fun i s => report1 116 1 1 0 false (keepErr 1 i s)) s1
    forEach bad (fun i s => report1 116 2 2 0 false (keepErr 2 i s)) s2

/-! ### Journal records (15 R502, R503) -/

/-- The log word of an entry; ESCALATED and INJECTED are 0 in a summary (15 R502). -/
def journalWord (e : LogEntry) (summary : Bool) : Nat := infoWord (if summary then { e with injected := false, escalated := false } else e)

/-- One journal entry: log word, DETAIL or COUNT, reserved, time. -/
def entryBytes (e : LogEntry) (summary : Bool) (second : Nat) : List Byte :=
  leBytes (journalWord e summary) 4 ++ leBytes second 2 ++ leBytes 0 2 ++ leBytes e.time 8

/-- DATA of a journal record of up to three entries. -/
def journalData (kind : Nat) (es : List (List Byte)) : List Byte :=
  slice (leBytes (kind + 4 * es.length) 4 ++ es.flatten) 0 52

/-- Firmware takes entries of the fault log into its buffer, up to three waiting. -/
def fillBuffer : Nat → State → State
  | 0, s => s
  | fuel + 1, s =>
    match s.faults.log with
    | e :: t =>
      if s.keep.jbuf.length < 3 then
        fillBuffer fuel { s with
          faults := { s.faults with log := t, logHi := e.detail, logTime := e.time }, keep := { s.keep with jbuf := s.keep.jbuf ++ [e] } }
      else s
    | [] => s

/-- Raise JLOST (15 R503). -/
def loseEntries (n : Nat) (out : KOut) (s : State) : State :=
  if n = 0 then s
  else
    let r := requestCounter .journal 4 (s.keep.counter 4 + n) out s
    { r.2 with keep := { r.2.keep with evt := r.2.keep.evt ||| 4 } }

/-- COUNT of the journal record that stands at HEAD, if it is valid. -/
def overwritten (k : Keep) : Nat :=
  if k.journalValid k.head then bits (field (k.slotBytes (128 + k.head)) 0 4) 2 2 else 0

/-- Write the buffered entries at HEAD; a refused append waits for its retry (15 R503). -/
def journalWrite (outs : List KOut) (s : State) : State :=
  if s.keep.jbuf.isEmpty then s
  else
    let lost := overwritten s.keep
    let d := journalData 0 (s.keep.jbuf.map (fun e => entryBytes e false e.detail))
    let r := requestWrite .journal (128 + s.keep.head) d (outs.headD .ok) s
    match r.1 with
    | .done => loseEntries lost (outs.getD 1 .ok) { r.2 with keep := { r.2.keep with jbuf := [], jretry := false } }
    | .low => { r.2 with keep := { r.2.keep with jretry := true } }
    | _ => r.2

/-- A journal write of firmware may be made now: not while compaction runs or an earlier one waits (15 R504, R507), nor while pair 1,
whose work the journal is here, is halted (04 R127; log 99). -/
def journalOpen (s : State) : Bool :=
  s.fwRuns && !s.control.halt1 && s.keep.scanDone && s.keep.compact.isNone && !(s.keep.waiting.any (·.origin == .journal))

/-- JOURNAL_APPEND. -/
def journalAppend (outs : List KOut) (s : State) : State :=
  if journalOpen s && !s.keep.jretry then journalWrite outs (fillBuffer 3 s) else s

/-- JOURNAL_RETRY. -/
def journalRetry (outs : List KOut) (s : State) : State :=
  if journalOpen s && s.keep.jretry then journalWrite outs s else s

/-! ### Compaction (15 R504) -/

/-- A journal entry as compaction reads it: its 16 bytes and whether its record is of KIND 1. -/
structure JEntry where
  bytes : List Byte
  summary : Bool
  deriving DecidableEq, Repr

/-- CLASS, SOURCE, CAUSE, number of faults and time of a journal entry. -/
def JEntry.cls (e : JEntry) : Nat := bits (field e.bytes 0 4) 24 2
def JEntry.source (e : JEntry) : Nat := bits (field e.bytes 0 4) 0 7
def JEntry.cause (e : JEntry) : Nat := bits (field e.bytes 0 4) 16 8
def JEntry.number (e : JEntry) : Nat := if e.summary then field e.bytes 4 2 else 1
def JEntry.time (e : JEntry) : Nat := field e.bytes 8 8

/-- The entries of one journal record. -/
def recordEntries (b : List Byte) : List JEntry :=
  let h := field b 0 4
  (upto 0 (bits h 2 2)).map (fun i => { bytes := slice b (4 + 16 * i) 16, summary := bits h 0 2 = 1 })

/-- One summary for the entries of a (source, cause) that the first of them begins; the rest of the list. -/
def summariseOne (e : JEntry) (t : List JEntry) : JEntry :=
  let same := t.filter (fun x => x.source = e.source && x.cause = e.cause)
  let n := min 65535 (e.number + (same.map (·.number)).sum)
  let time := same.foldl (fun m x => max m x.time) e.time
  let w := field e.bytes 0 4
  { bytes := leBytes (w - 2 ^ 29 * bits w 29 2) 4 ++ leBytes n 2 ++ leBytes 0 2 ++ leBytes time 8, summary := true }

/-- One summary for each (source, cause), in order of first occurrence. -/
def summarise : Nat → List JEntry → List JEntry
  | 0, _ => []
  | _, [] => []
  | fuel + 1, e :: t =>
    summariseOne e t :: summarise fuel (t.filter (fun x => !(x.source = e.source && x.cause = e.cause)))

/-- Groups of three. -/
def triples {α : Type} : Nat → List α → List (List α)
  | 0, _ => []
  | _, [] => []
  | fuel + 1, l => l.take 3 :: triples fuel (l.drop 3)

/-- Records for entries of both kinds: KIND 0 first. -/
def layout (es : List JEntry) : List (List Byte) :=
  let k0 := es.filter (fun e => !e.summary)
  let k1 := es.filter (·.summary)
  (triples k0.length k0).map (fun l => journalData 0 (l.map (·.bytes))) ++ (triples k1.length k1).map (fun l => journalData 1 (l.map (·.bytes)))

/-- What the window is written out as, and the entries dropped. -/
def compacted (es : List JEntry) : List (List Byte) × Nat :=
  let n := es.length
  let keep1 := es.filter (fun e => 2 ≤ e.cls)
  let a := layout (keep1 ++ summarise n (es.filter (fun e => e.cls < 2)))
  if a.length ≤ 48 then (a, 0)
  else
    let fatal := es.filter (fun e => e.cls = 3)
    let sums := summarise n (es.filter (fun e => e.cls < 2)) ++ summarise n (es.filter (fun e => e.cls = 2))
    let b := layout (fatal ++ sums)
    if b.length ≤ 48 then (b, 0)
    else (layout (fatal.drop (fatal.length - 144) ++ sums), fatal.length - 144)

/-- Put a (SEQ, record) pair into a list by rising SEQ. -/
def insertSeq (x : Nat × Nat) : List (Nat × Nat) → List (Nat × Nat)
  | [] => [x]
  | y :: t => if x.1 < y.1 then x :: y :: t else y :: insertSeq x t

/-- The 64 valid journal records with the lowest SEQ. -/
def Keep.window (k : Keep) : List (Nat × Nat) := (k.journal.foldl (fun l x => insertSeq x l) []).take 64

/-- Write the next records of a compaction, at most `fuel`; it stops where a write does not succeed. -/
def compactRun (outs : List KOut) : Nat → State → State
  | 0, s => s
  | fuel + 1, s =>
    match s.keep.compact with
    | none => s
    | some ([], n, t) =>
      let r := requestCounter .journal 2 (t + 1) (outs.headD .ok) s
      (match r.1 with
        | .done => { r.2 with keep := { r.2.keep with compact := none } }
        | _ => { r.2 with keep := { r.2.keep with compact := some ([], n, t) } })
    | some (d :: l, n, t) =>
      let r := requestWrite .journal (128 + (s.keep.head + n) % 1536) d (outs.headD .ok) s
      (match r.1 with
        | .done => compactRun (outs.drop 1) fuel { r.2 with keep := { r.2.keep with compact := some (l, n + 1, t) } }
        | _ => r.2)

/-- Step 1: JCOMPACT := T + 1, and what is dropped is added to JLOST. -/
def compactBegin (outs : List KOut) (s : State) : State :=
  let w := s.keep.window
  let t := match w.getLast? with | some x => x.1 | none => 0
  let c := compacted (w.flatMap (fun x => recordEntries (s.keep.slotBytes (128 + x.2))))
  let r := requestCounter .journal 3 (t + 1) (outs.headD .ok) s
  match r.1 with
  | .done => compactRun (outs.drop 2) 6 (loseEntries c.2 (outs.getD 1 .ok) { r.2 with keep := { r.2.keep with compact := some (c.1, 0, t) } })
  | _ => r.2

/-- JOURNAL_COMPACTION: one step of at most 8 record writes; no step starts while a supply warning holds (15 R504, R507). -/
def compactStep (outs : List KOut) (s : State) : State :=
  if !s.fwRuns || s.control.halt1 || !s.keep.scanDone || s.keep.refuses || mramDown s || s.power.mram.warn || !s.keep.waiting.isEmpty then s
  else match s.keep.compact with
    | some _ => compactRun outs 8 s
    | none => if s.keep.journalFree < 64 then compactBegin outs s else s

end Sys2Proof.Machine
end

