-- ==== Sys2Proof/Machine/Notices.lean ====
section
/-! DEFINITION. Deferred requests and their notices, generations of bindings and guard windows, and the end of a detachment
(01 R26, 05 R144-R146, R160). -/

namespace Sys2Proof.Machine

/-! ### Notices (05 R144) -/

/-- A deferred request of the mailbox has room for its notice. -/
def Mbox.room (m : Mbox) : Bool := m.owed.length + m.notices.length < 8

/-- One request reaches its final state. -/
def Mbox.notify (m : Mbox) (o : Owed) (status : Nat) : Mbox :=
  { m with owed := m.owed.erase o, notices := m.notices ++ [{ cmd := o.cmd, status, seq := o.seq, value := o.value }], evtNotice := true }

/-- A request that satisfies `p` reaches its final state while firmware is down: the notice is queued once it is back (log 69). -/
def Mbox.note (m : Mbox) (p : Owed → Bool) (status : Nat) : Mbox :=
  { m with owed := m.owed.map (fun o => if p o && o.ended.isNone then { o with ended := some status } else o) }

/-- Every request that satisfies `p` reaches its final state; firmware queues the notices. -/
def notifyWhere (p : Owed → Bool) (status : Nat) (s : State) : State :=
  { s with boxes := s.boxes.map (fun b => (b.1,
      if s.fwRuns then (b.2.owed.filter (fun o => p o && o.ended.isNone)).foldl (fun m o => m.notify o status) b.2
      else b.2.note p status)) }

/-- Firmware is back and queues the notices of the requests that have ended meanwhile (log 69). -/
def Mbox.catchUp (m : Mbox) : Mbox :=
  (m.owed.filter (·.ended.isSome)).foldl (fun m o => m.notify o (o.ended.getD 0)) m

/-- The requests that wait for `a` reach their final state. -/
def notify (a : Await) (status : Nat) : State → State := notifyWhere (fun o => o.what == a) status

/-! ### Generations (01 R26, 05 R145, R146) -/

/-- The pending generation of a binding takes force. -/
def promote (h : Nat) : State → State :=
  modBinding h (fun b => match b.pending with
    | some g => { b with gen := g, pending := none }
    | none => b)

/-- A fetched SUBMIT of binding `h` whose outcome does not stand yet. -/
def Entry.inFlight (e : Entry) (h : Nat) : Bool := e.op = 1 && e.handle = h && e.phase != .ended && e.phase != .writing

/-- Samples in flight of a binding use a generation below `g`. -/
def olderInFlight (s : State) (h g : Nat) : Bool :=
  s.works.any (fun p => p.2.binding = h && p.2.gen < g && p.2.gen ≠ 0) ||
    s.rings.any (fun p => p.2.entries.any (fun e => e.inFlight h && e.gen < g && e.gen ≠ 0))

/-- A sample of the binding is in flight, or a stream of it is attached, whose next first strip takes the pending generation (01 R26). -/
def bindingBusy (s : State) (h : Nat) : Bool :=
  s.works.any (fun p => p.2.binding = h) || s.streams.any (fun p => p.2.binding = h) ||
    s.rings.any (fun p => p.2.entries.any (·.inFlight h))

/-- Generation `g` of a binding is in force and no sample uses an older one. -/
def bindingFinal (s : State) (h g : Nat) : Bool :=
  match Tbl.get? s.bindings h with
  | some b => g ≤ b.gen && !olderInFlight s h g
  | none => true

/-- A fetched entry or a gathering of a context holds a snapshot of a window older than `g`. A receipt that no gathering has taken is
no sample, and the gathering's snapshot replaces its own (06 R183). -/
def guardOlder (s : State) (c win g : Nat) : Bool :=
  let old (gs : List Guard) : Bool := match gs[win]? with | some x => x.gen < g | none => false
  (upto 0 4).any (fun n => (s.ring c n).entries.any (fun e => !((s.ring c n).stream && e.op = 5 && !e.taken) && old e.guards)) || s.works.any (fun p => p.2.ctx = c && old p.2.guards)

/-- The final state that a deferred request waits for has been reached; `v` is its VALUE. -/
def Await.met (a : Await) (v : Nat) (s : State) : Bool :=
  match a with
  | .binding h => bindingFinal s h v
  | .retire h => !Tbl.has s.bindings h
  | .guard c w => !guardOlder s c w v
  | .attach i => match Tbl.get? s.streams i with | some t => t.st != .attaching | none => true
  | .detach i => !Tbl.has s.streams i
  | .group g => match Tbl.get? s.groups g with | some x => x.inForce | none => true
  | .pools h k =>
    match poolSet h (h / 2 ^ 24) with
    | some set => (upto 0 8).all (fun j => !(k = 255 || k = j) ||
        (match Tbl.get? s.pools (poolKey (h / 2 ^ 24) set j) with | some p => !p.destroying | none => true))
    | none => true
  | .ring c n => (s.ring c n).reset.isNone

/-! ### Detachment (05 R160) -/

/-- A stream is gone: it leaves its group, its ring, its port and its encode channel, and the requests that waited for it are told
(06 R208, 08 R275, 09 R338). -/
def dropStream (i : Nat) (s : State) : State :=
  match Tbl.get? s.streams i with
  | none => s
  | some t =>
    let s1 := { leaveGroup i s with streams := Tbl.erase s.streams i }
    let s2 := { s1 with codec := { s1.codec with channels := s1.codec.channels.map (fun c =>
      if c.stream = some i then { c with stream := none, stopped := false } else c) } }
    let onRing := s2.streams.any (fun p => p.2.ctx = t.ctx && p.2.ring = t.ring && p.2.st != .attaching)
    let s3 := when (!onRing) (modRing t.ctx t.ring (fun r => { r with stream := false })) s2
    let s4 := when (portStreams s3 t.port).isEmpty
      (modPort t.port (fun p => { p with st := .off, rxEn := false, laneEn := 0, qualLeft := 0 })) s3
    notify (.detach i) 0 (notify (.attach i) 1 s4)

/-- A mirror copy of the stream is in flight. -/
def mirrorBusy (s : State) (i : Nat) : Bool := s.works.any (fun p => p.2.kind == .mirror i)

/-- Streams whose detachment waits only for their gatherings. -/
def detachReady (s : State) (i : Nat) (t : Stream) : Bool :=
  t.st == .detaching && t.cur.isNone && (streamWorks s i).isEmpty && !mirrorBusy s i

/-- Detach the streams whose last gathering has ended. -/
def finishDetaches (s : State) : State :=
  forEach (s.streams.filterMap (fun p => if detachReady s p.1 p.2 then some p.1 else none)) dropStream s

/-! ### Packet rings that stop (08 R286) -/

/-- A block of the ring is open, awaits its motion record or is being written. -/
def pktBusy (s : State) (r : Nat) : Bool :=
  (s.pring r).block.isSome || !(s.pring r).closing.isEmpty || s.works.any (fun p => p.2.kind == .block r)

/-- A stopping ring whose blocks are published has stopped: RUN falls. -/
def finishPktStops (s : State) : State :=
  forEach (upto 0 8) (fun r s => if (s.pring r).stopping && !pktBusy s r then modPring r (fun p => { p with run := false, stopping := false }) s else s) s

end Sys2Proof.Machine
end

