-- ==== Sys2Proof/WellFormed.lean ====
section
/-! DEFINITION. Which commands the hardware can be given: every index lies in the hardware and every value fits its field. -/

namespace Sys2Proof

/-- The command names only ports, rings, targets and tags that exist, with values that fit their fields. -/
def Instr.wf : Instr → Bool
  | .gxPorstNAssert _ => true
  | .gxPorstNDeassert _ inst group saddr mfr => inst < 4 && group < 4 && saddr < 128 && mfr < 2048
  | .gxRstNAssert _ => true
  | .gxRstNDeassert _ keyHash _ => keyHash < 2 ^ 384
  | .wakeTimerExpiry _ => true
  | .pgInputChange _ rail _ => rail != .keep
  | .clkAckChange _ _ _ => true
  | .pwrTargetKeep _ _ => true
  | .keepEntry _ => true
  | .pwrTargetStandby _ _ => true
  | .pwrTargetActive _ _ => true
  | .oppAckSeen _ => true
  | .oppAckTimeout _ => true
  | .clockMonitorWindow _ _ _ _ => true
  | .supplyMonitorChange _ _ _ _ => true
  | .thermalSample _ readings => readings.length == 16 && readings.all (fun x => -32768 ≤ x && x < 32768)
  | .timeStrobeEdge _ timeIn _ _ => timeIn < 2 ^ 64
  | .tbCompareWindowEnd _ _ => true
  | .timeInLossTimeout _ _ => true
  | .kclkLoss _ => true
  | .tbRelock _ _ => true
  | .tbRefSelWrite _ _ _ => true
  | .tbNowLoRead _ _ _ => true
  | .gxSafeReqEdge _ _ => true
  | .safeCtlEnter _ _ => true
  | .planSyncEdge _ _ => true
  | .planSyncTimeout _ => true
  | .hostIdleEdge _ t _ => t < 64
  | .registerWrite _ _ addr data be _ _ => addr < 2 ^ 21 && addr % 4 == 0 && data < 2 ^ 32 && be < 16
  | .rcRegisterRead _ _ addr req _ => addr < 2 ^ 21 && addr % 4 == 0 && req.be < 16
  | .snsFsLoRead _ port _ _ => port < 16
  | .mboxGo _ box _ _ => box < 257
  | .mboxAck _ box _ => box < 257
  | .mboxNoticeRead _ box _ _ => box < 257
  | .ringDoorbell _ ctx ring v => ctx < 256 && ring < 4 && v < 2 ^ 32
  | .ringPause _ ctx ring => ctx < 256 && ring < 4
  | .ringResume _ ctx ring => ctx < 256 && ring < 4
  | .ringAbort _ ctx ring => ctx < 256 && ring < 4
  | .ringCtlReset _ ctx ring => ctx < 256 && ring < 4
  | .pktDoorbell _ ring prod _ => ring < 8 && prod < 2 ^ 17
  | .pktRingEnable _ ring _ _ => ring < 8
  | .pktRingDisable _ ring _ _ => ring < 8
  | .ccRestartWrite _ _ => true
  | .semReadAcquire _ _ n _ => n < 64
  | .semAcquire _ _ n => n < 64
  | .semRenew _ _ n lease => n < 64 && lease < 1024
  | .semRelease _ _ n => n < 64
  | .leaseExpiry _ n => n < 64
  | .debugHalt _ _ pair _ => pair < 2
  | .debugStep _ _ pair => pair < 2
  | .freezeLeaseWrite _ _ _ => true
  | .debugChallenge _ ask _ => ask.level == 1 || ask.level == 2
  | .debugUnlockResponse _ _ _ _ => true
  | .debugChallengeTimeout _ => true
  | .tgtClaim _ t _ _ => t < 64
  | .tgtComplete _ t src _ => t < 64 && src < 1024
  | .faultAcknowledge _ src _ => src < 128
  | .faultFirstClr _ _ => true
  | .faultLogRead _ _ _ => true
  | .fiArm _ _ mode src cause cls => mode < 16 && src < 128 && cause < 256 && cls < 4
  | .drawKatStart _ _ lane => lane < 4
  | .pressHb _ => true
  | .pressSparesWrite _ _ k => k < 16
  | .mgmtLock _ _ => true
  | .mailboxOpen _ _ _ => true
  | .fwConfirm _ _ => true
  | .fwConfirmRetry _ _ => true
  | .watchdogExpiry _ pair => pair < 2
  | .lockstepMismatch _ pair => pair < 2
  | .controlSramError _ word _ => word < 262144
  | .coreException _ core cause faultAddr => core < 4 && cause < 2 ^ 32 && faultAddr < 2 ^ 64
  | .mmuRefusal _ => true
  | .getVersion _ box => box < 257
  | .openContext _ box => box < 257
  | .closeContext _ box _ => box < 257
  | .contextClosed _ ctx => ctx < 256
  | .loadBinding _ box _ alloc => box < 257 && alloc < 2 ^ 24
  | .loadBindingReplace _ box _ => box < 257
  | .admitBinding _ box => box < 257
  | .admissionTakesEffect _ _ => true
  | .retireBinding _ box => box < 257
  | .bindingLeavesPlan _ _ => true
  | .attachStream _ box => box < 257
  | .streamAttached _ stream => stream < 65536
  | .detachAfterFrame _ box => box < 257
  | .detachAtOnce _ box => box < 257
  | .defineSyncGroup _ box => box < 257
  | .syncGroupEffect _ group => group < 16
  | .createPool _ box => box < 257
  | .destroyPool _ box => box < 257
  | .poolDrained _ _ _ => true
  | .setGuard _ box => box < 257
  | .setDrawKey _ box => box < 257
  | .loadCoeff _ box _ => box < 257
  | .updateFinalState _ obj => obj.wf
  | .setEnergyBudget _ box => box < 257
  | .shelfRegion _ box => box < 257
  | .shelfQuota _ box => box < 257
  | .shelfFlush _ box => box < 257
  | .ringCreate _ box => box < 257
  | .ringResetDrain _ box => box < 257
  | .ringResetAbort _ box => box < 257
  | .ringResetDestroy _ box => box < 257
  | .ringResetDone _ ctx ring => ctx < 256 && ring < 4
  | .queryStats _ box => box < 257
  | .keepRead _ box => box < 257
  | .keepWrite _ box _ => box < 257
  | .fwStage _ box _ => box < 257
  | .fwActivate _ box _ => box < 257
  | .ringFetchIssue _ => true
  | .entryFetched _ ctx ring => ctx < 256 && ring < 4
  | .submit _ ctx ring _ _ => ctx < 256 && ring < 4
  | .freeBuffer _ ctx ring _ => ctx < 256 && ring < 4
  | .shelfEvict _ ctx ring _ => ctx < 256 && ring < 4
  | .fence _ ctx ring _ => ctx < 256 && ring < 4
  | .nop _ ctx ring _ => ctx < 256 && ring < 4
  | .draw _ ctx ring _ => ctx < 256 && ring < 4
  | .entryDeadline _ ctx ring _ => ctx < 256 && ring < 4
  | .slotBoundary _ _ _ => true
  | .pressPeriodStart _ _ => true
  | .stageBarrier _ _ _ => true
  | .folioCompare _ _ _ _ _ _ => true
  | .folioCompareTimeout _ _ _ => true
  | .replayDone _ _ _ _ _ => true
  | .memReadBeat _ port tag data beat _ poison resp => port < 4 && tag < 1024 && data.length == 64 && beat < 4 && poison < 256 && resp < 4
  | .memWriteResponse _ port tag resp => port < 4 && tag < 1024 && resp < 4
  | .memTimeout _ port tag => port < 4 && tag < 1024
  | .viewAbandon _ _ => true
  | .csi2LongPacket _ port vc dtype _ payload _ _ _ => port < 16 && vc < 16 && dtype < 64 && payload.length < 65536
  | .frameStart _ port vc fn _ _ _ => port < 16 && vc < 16 && fn < 65536
  | .frameEnd _ port vc fn _ _ _ => port < 16 && vc < 16 && fn < 65536
  | .lineStart _ port vc _ => port < 16 && vc < 16
  | .lineEnd _ port vc _ => port < 16 && vc < 16
  | .lineTimeout _ stream => stream < 65536
  | .pclkWindow _ port edges => port < 16 && edges < 2 ^ 32
  | .stripReady _ _ _ => true
  | .stripBufferRelease _ _ _ => true
  | .syncWindowExpiry _ group => group < 16
  | .pktParse _ ring _ => ring < 8
  | .pktGapTimeout _ ring _ => ring < 8
  | .motionRecordRetry _ ring _ => ring < 8
  | .regulatorRefill _ => true
  | .scrubPass _ quire findings => quire < 64 && findings.all ScrubFinding.wf
  | .scrubRetry _ quire findings => quire < 64 && findings.all ScrubFinding.wf
  | .selftestStep _ => true
  | .selftestStepEnd _ _ => true
  | .migrationStart _ quire => quire < 64
  | .migrationHandover _ quire _ => quire < 64
  | .migrationAbandonTimeout _ quire => quire < 64
  | .coeffReloadDone _ _ _ _ _ _ => true
  | .faultReport _ faults => faults.all FaultIn.wf
  | .faultPulseEnd _ => true
  | .keepScan _ corrected bad => corrected.all (· < 4096) && bad.all (· < 4096)
  | .keepRecordWrite _ _ => true
  | .keepWarnTimeout _ => true
  | .journalAppend _ _ => true
  | .journalRetry _ _ => true
  | .journalCompaction _ _ => true
  | .mramRailRelease _ => true
  | .evtSignal _ t => t < 64
  | .evtMessage _ t => t < 64
  | .moderationExpiry _ t => t < 64
  | .evtStateParity _ kind => kind.wf
  | .entdaa _ addr => addr < 128
  | .setdasa _ saddr addr => saddr < 128 && addr < 128
  | .setnewda _ addr => addr < 128
  | .rstdaa _ => true
  | .enec _ _ => true
  | .disec _ _ => true
  | .getpid _ => true
  | .getbcr _ => true
  | .getdcr _ => true
  | .getmwl _ => true
  | .getmrl _ => true
  | .getstatus _ => true
  | .i3cPrivateWrite _ bytes _ _ => 1 ≤ bytes.length && bytes.length ≤ 8
  | .i3cPrivateRead _ n _ => n ≤ 8
  | .kread _ => true
  | .kwrite _ _ => true
  | .wake _ => true
  | .restart _ => true
  | .ibiSend _ _ => true
  | .keeperInitDone _ => true
  | .genericShortPacket _ port _ => port < 16
  | .closeResponseHoldExpiry _ ctx => ctx < 256
  | .stockSweep _ _ _ resp _ => resp < 4
  | .minimumHighTimeEnd _ => true
  | .idleRecordAck _ src => src < 128

end Sys2Proof
end

