-- ==== Sys2Proof/Machine/Flags.lean ====
section
/-! DEFINITION. Levels computed from the state: event sources and their priority at targets (16 R511-R517), the pending IBI
for a change of the safe state (16 R532), and the frame every command shares. -/

namespace Sys2Proof.Machine

/-! ### Event source levels (16 R511) -/

/-- The condition of a mailbox's event source (05 R132). -/
def Mbox.raises (m : Mbox) : Bool :=
  (m.evtResp && m.evtEn.getLsbD 0) || (m.evtNotice && m.evtEn.getLsbD 1) || (m.evtOverrun && m.evtEn.getLsbD 2) ||
    (m.evtRestart && m.evtEn.getLsbD 3)

/-- CLK_EVT, SUPPLY_EVT and CDC_OVR hold a bit. -/
def Power.anyEvt (p : Power) : Bool :=
  p.aclk.lost || p.vclk.lost || p.mclk.lost || p.cclk.lost ||
    [p.array, p.ctrl, p.mram, p.keep].any (fun r => r.evtWarn || r.evtFail) || p.ovrStamp || p.ovrRx || p.ovrTx

/-- The level of global source `n` below 64. -/
def globalLevel (s : State) (n : Nat) : Bool :=
  match n with
  | 0 => s.faults.evtEn && !s.faults.log.isEmpty
  | 1 => (s.box 256).raises
  | 2 => s.power.anyEvt
  | 3 => s.power.stage ≠ 0
  | 4 => s.press.evt &&& s.press.evtEn ≠ 0
  | 5 => s.tb.evt ≠ 0
  | 6 => s.ports.any (fun p => p.2.evt &&& p.2.evtEn ≠ 0)
  | 7 => s.pkt.evt &&& s.pkt.evtEn ≠ 0
  | 8 => s.codec.evt &&& s.codec.evtEn ≠ 0
  | 9 => s.draw.evt &&& s.draw.evtEn ≠ 0
  | 10 => s.mem.evt &&& s.mem.evtEn ≠ 0
  | 11 => s.keep.evt &&& s.keep.evtEn ≠ 0
  | 12 => s.faults.safe != .normal || s.streamsSafe ≠ 0
  | 13 => s.mgmt.evt &&& s.mgmt.evtEn ≠ 0
  | 14 => s.events.sw
  | _ => false

/-- The two sources of a context (06 R179). -/
def ctxLevel (s : State) (c : Nat) (odd : Bool) : Bool :=
  let x := s.ctx c
  if odd then (x.evtGuard && x.enGuard) || x.evtErr &&& x.enErr ≠ 0 || (s.box c).raises
  else x.evtCpl &&& x.enCpl ≠ 0

/-- The level of a source. -/
def sourceLevel (s : State) (n : Nat) : Bool :=
  if n < 64 then globalLevel s n else if n < 576 then ctxLevel s ((n - 64) / 2) (n % 2 = 1) else false

/-! ### Pending sources (16 R512) -/

/-- A source is in service at some target. -/
def inService (s : State) (n : Nat) : Bool := s.events.targets.any (fun t => t.2.service = some n)

/-- A source is pending. -/
def sourcePending (s : State) (n : Nat) : Bool := sourceLevel s n && mem s.events.enabled n && !inService s n

/-- Target of a source. -/
def routeOf (s : State) (n : Nat) : Nat := Tbl.getD s.events.route n 0

/-- The highest-priority source pending at a target: the lowest-numbered one. -/
def pendingAt (s : State) (t : Nat) : Option Nat :=
  s.events.enabled.find? (fun n => routeOf s n = t && sourcePending s n)

/-- The moderation timer of a target runs (16 R518). -/
def Target.moderated (t : Target) (now : Nat) : Bool := match t.modEnd with | some e => now < e | none => false

/-- The event controller runs (16 R522, R524; 14 R488). -/
def eventsRun (s : State) : Bool :=
  s.mainUp && !(s.faults.safe != .normal && (s.power.aclk.down || s.power.mclk.down || s.power.array.fail))

/-- Target `t` is ready to signal (16 R517). -/
def readyToSignal (s : State) (t : Nat) : Bool :=
  let x := s.target t
  eventsRun s && x.enable && x.service.isNone && (pendingAt s t).isSome && (!x.moderated s.now || (x.idleBypass && x.idle))

/-! ### The frame of every command -/

/-- EVT_OUT[t] falls when nothing is pending at t any longer, and a change of MODE takes effect when t is quiet
(16 R517, R521). -/
def settleTarget (s : State) (t : Nat) (x : Target) : Target :=
  let x := if x.out && (pendingAt s t).isNone then { x with out := false } else x
  if !x.msgPend && !x.out then { x with modeNow := x.message } else x

/-- Every target follows its sources. -/
def settleTargets (s : State) : State :=
  { s with events := { s.events with targets := s.events.targets.map (fun p => (p.1, settleTarget s p.1 p.2)) } }

/-- A change of SAFE_STAT.STATE or STREAMS_SAFE makes an IBI of reason 2 pending (16 R532). -/
def noteSafeChange (old s : State) : State :=
  if (old.faults.safe != s.faults.safe || old.streamsSafe ≠ s.streamsSafe) && s.mgmt.enint && s.mgmt.dynAddr.isSome then
    { s with mgmt := { s.mgmt with ibiSafe := true } }
  else s

/-- What follows every command. The queue is as it was before: commands act on everything but the queue (log 1). -/
def settle (old s : State) : State :=
  { settleTargets (noteSafeChange old (finishPktStops (finishDetaches (finishSafe s)))) with pending := old.pending }

/-- A command: time passes, it acts, and the levels follow. One whose operands name nothing of the hardware cannot be given. -/
def event (ok : Bool) (dt : Nat) (s : State) (f : State → State) : Host.Outcome State Fault Refusal :=
  if ok then .next (settle s (f (advance dt s))) else .fault .badOperand

end Sys2Proof.Machine
end

