-- ==== Sys2Proof/Machine/Port.lean ====
section
/-! DEFINITION. The control target port: response codes and who may reach what (02 R39-R47). -/

namespace Sys2Proof.Machine

/-- The response to the last access: 0 OK, 1 PERMISSION, 2 UNMAPPED, with its data (02 R41). -/
def respond (code data : Nat) (s : State) : State := { s with chip := { s.chip with rspCode := code, rspData := data } }

/-- The keeper-domain part of the port answers: neither reset is asserted, and keeper initialisation has ended (02 R44, R45). DESIGN
CHOICE (log 110): the specification is silent on an access between the deassertion of GX_PORST_N and the end of keeper initialisation with
GX_RST_N high; the model answers it UNMAPPED, keeper registers included. -/
def State.keeperUp (s : State) : Bool := s.chip.porstN && s.chip.rstN && s.chip.keeperInit

/-- A register write to a range of the main domain: UNMAPPED while that domain is down, PERMISSION without the PRIV it needs,
else OK after the effect (02 R40, R41, R44, R45). -/
def mainWrite (needPriv priv : Bool) (f : State → State) (s : State) : State :=
  if !s.mainUp then respond 2 0 s else if needPriv && !priv then respond 1 0 s else respond 0 0 (f s)

/-- A register write to a keeper-domain register (02 R45). -/
def keeperWrite (priv : Bool) (f : State → State) (s : State) : State :=
  if !s.keeperUp then respond 2 0 s else if !priv then respond 1 0 s else respond 0 0 (f s)

/-- A register read of the main domain with a side effect: the value, then the effect unless it is a debug read (02 R6). -/
def mainRead (needPriv priv debug : Bool) (v : State → Nat) (f : State → State) (s : State) : State :=
  if !s.mainUp then respond 2 0 s else if needPriv && !priv then respond 1 0 s
  else if debug then respond 0 (v s) s else f (respond 0 (v s) s)

/-- The same for a keeper-domain register. -/
def keeperRead (priv debug : Bool) (v : State → Nat) (f : State → State) (s : State) : State :=
  if !s.keeperUp then respond 2 0 s else if !priv then respond 1 0 s
  else if debug then respond 0 (v s) s else f (respond 0 (v s) s)

end Sys2Proof.Machine
end

