-- ==== Sys2Proof/Machine/Mailbox.lean ====
section
/-! DEFINITION. The mailbox exchange: submission, acceptance, the checks common to all commands, responses, deferred requests
(05 R130-R150, 14 R488). -/

namespace Sys2Proof.Machine

/-! ### Requests (05 R133, R142, R150) -/

/-- What the common checks need of a command. -/
structure CmdSpec where
  /-- Payload stretches that carry fields: offset and length. -/
  used : List (Nat × Nat)
  /-- Management mailbox only. -/
  mgmt : Bool
  /-- Carries TARGET_CTX. -/
  target : Bool
  /-- Handle fields: offset, and whether 0 means none. -/
  handles : List (Nat × Bool)
  deriving DecidableEq, Repr

/-- Bytes 0x08.. of a request with the bytes beyond LENGTH as 0. -/
def reqBytes (m : Mbox) : List Byte := slice (slice m.buf 0 (8 + min 56 (field m.buf 4 2))) 0 64

/-- COMMAND, SEQ, LENGTH and FLAGS of a submitted request. -/
def Mbox.cmd (m : Mbox) : Nat := field m.buf 0 2
def Mbox.seq (m : Mbox) : Nat := field m.buf 2 2
def Mbox.len (m : Mbox) : Nat := field m.buf 4 2
def Mbox.flags (m : Mbox) : Nat := field m.buf 6 2

/-- The command table (05 R150-R174). For QUERY_STATS and SHELF_CONFIG the needs follow from GROUP and OP. -/
def cmdSpec (code : Nat) (b : List Byte) : Option CmdSpec :=
  let mk (used : List (Nat × Nat)) (mgmt target : Bool) (handles : List (Nat × Bool)) : Option CmdSpec :=
    some { used, mgmt, target, handles }
  match code with
  | 0x01 => mk [] false false []
  | 0x02 => mk [(8, 2), (0x0C, 4)] true false []
  | 0x03 => mk [(8, 1)] false true []
  | 0x10 => mk [(8, 1), (0x0C, 16)] false true [(0x0C, true)]
  | 0x11 => mk [(8, 8)] true true [(0x0C, false)]
  | 0x12 => mk [(8, 1), (0x0C, 4)] false true [(0x0C, false)]
  | 0x20 => mk [(8, 0x13), (0x1C, 16)] true true [(0x14, false), (0x1C, false), (0x28, true)]
  | 0x21 => mk [(8, 4)] true true []
  | 0x22 => mk [(8, 6), (0x10, 24)] true true []
  | 0x30 => mk [(8, 3), (0x0C, 12)] false true []
  | 0x31 => mk [(8, 2), (0x0C, 4)] false true [(0x0C, false)]
  | 0x38 => mk [(8, 3), (0x10, 16)] false true []
  | 0x40 => mk [(8, 2), (0x10, 24)] false true []
  | 0x48 => mk [(8, 24)] false true [(0x0C, false)]
  | 0x50 => mk [(8, 2), (0x0C, 4)] true false []
  | 0x58 => mk [(8, 2), (0x10, 16)] (byteAt b 9 ≠ 2) (byteAt b 9 ≠ 0) []
  | 0x60 => mk [(8, 3), (0x10, 8)] false true []
  | 0x61 => mk [(8, 3)] false true []
  | 0x70 => mk [(8, 4)] (byteAt b 9 = 2) (byteAt b 9 ≠ 2) []
  | 0x78 => mk [(8, 1), (0x0A, 2)] true false []
  | 0x79 => mk [(8, 1), (0x0A, 54)] true false []
  | 0x7E => mk [(0x10, 12)] true false []
  | 0x7F => mk [(8, 4)] true false []
  | _ => none

/-- The lowest payload byte outside the command's fields that is not 0 (R142 step 6). -/
def reservedByte (sp : CmdSpec) (b : List Byte) : Option Nat :=
  (upto 8 56).find? (fun i => !(sp.used.any (fun u => u.1 ≤ i && i < u.1 + u.2)) && byteAt b i ≠ 0)

/-- The lowest handle field whose context differs from TARGET_CTX (R142 step 7). -/
def badHandle (sp : CmdSpec) (b : List Byte) : Option Nat :=
  (sp.handles.find? (fun h => !(h.2 && field b h.1 4 = 0) && field b h.1 4 / 2 ^ 24 ≠ byteAt b 8)).map (·.1)

/-- Steps 3-7 of R142 for a request at mailbox `box`: status and DETAIL of the first failure. -/
def commonFail (s : State) (box : Nat) (sp : CmdSpec) (b : List Byte) : Option (Nat × Nat) :=
  firstFail
    [ (!(sp.mgmt && box ≠ 256), 0x10, 0),
      (!(sp.target && box ≠ 256 && byteAt b 8 ≠ box), 0x10, 0),
      (!(sp.target && (s.ctx (byteAt b 8)).st != .opened), 0x10, 0),
      ((reservedByte sp b).isNone, 2, (reservedByte sp b).getD 0),
      (!sp.target || (badHandle sp b).isNone, 2, (badHandle sp b).getD 0) ]

/-! ### Responses (05 R134, R137) -/

/-- A response message. -/
def responseBytes (status detail seq : Nat) (restarted : Bool) (payload : List Byte) : List Byte :=
  slice (leBytes status 1 ++ leBytes detail 1 ++ leBytes seq 2 ++ leBytes payload.length 2 ++ leBytes (b2n restarted) 2 ++ payload) 0 64

/-- Write a response. -/
def answerAs (restarted : Bool) (box status detail : Nat) (payload : List Byte) (s : State) : State :=
  modBox box (fun m => { m with
    rsp := responseBytes status detail m.seq restarted payload, busy := false, accepted := false, respValid := true, evtResp := true,
    committed := none })
    { s with control := { s.control with lastServed := if box < 256 then box else s.control.lastServed } }

/-- Write an ordinary response. -/
def answer : Nat → Nat → Nat → List Byte → State → State := answerAs false

/-! ### Submission and acceptance (05 R136, R140, R142) -/

/-- Tails that a DRAIN waits for: those of the context's rings now (05 R148). -/
def drainTails (s : State) (c : Nat) : List (Nat × Nat) :=
  (upto 0 4).filterMap (fun n => if (s.ring c n).st == .none then none else some (ringKey c n, (s.ring c n).tail))

/-- The pair that serves a mailbox runs: pair 0 the management mailbox, pair 1 the context mailboxes (04 R127, 05 R138). Firmware
accepts nothing on the way to KEEP (03 R73). -/
def serves (s : State) (box : Nat) : Bool :=
  s.fwRuns && s.power.state != .enteringKeep && !(if box = 256 then s.control.halt0 else s.control.halt1)

/-- Firmware accepts a submitted request; one that fails step 1 or 2 is answered at once. -/
def acceptRequest (box : Nat) (s : State) : State :=
  let m := s.box box
  if !serves s box || !m.busy || m.accepted then s
  else if 56 < m.len then answer box 2 4 [] s
  else if 2 ≤ m.flags then answer box 2 6 [] s
  else if (cmdSpec m.cmd (reqBytes m)).isNone then answer box 0x12 0 [] s
  else
    modBox box (fun m => { m with accepted := true, order := s.control.accepts })
      { s with control := { s.control with accepts := s.control.accepts + 1 } }

/-- A GO write: a copy of MBOX_REQ is taken, or the write is an overrun. -/
def submitRequest (box : Nat) (s : State) : State :=
  if (s.box box).busy then modBox box (fun m => { m with evtOverrun := true }) s
  else
    let s1 := modBox box (fun m => { m with busy := true, accepted := false, buf := m.req }) s
    let m := s1.box box
    let sp := cmdSpec m.cmd (reqBytes m)
    let d := match sp with | some sp => if sp.target then drainTails s1 (byteAt (reqBytes m) 8) else [] | none => []
    acceptRequest box (modBox box (fun m => { m with drain := if bit m.flags 0 then d else [] }) s1)

/-- An ACK write; on the page of a context that closed through its own mailbox it ends the hold of the response (05 R152). -/
def ackResponse (box : Nat) (s : State) : State :=
  let s1 := modBox box (fun m => { m with respValid := false }) s
  if box < 256 then modCtx box (fun c => { c with closeHold := none }) s1 else s1

/-- The mailbox of a page answers writes: the management mailbox always, a context's while it is open (02 R47, 06 R175). -/
def boxOpen (s : State) (box : Nat) : Bool := box = 256 || (s.ctx box).st != .closed

/-- A write of MBOX_GO; ACK acts first (05 R136). -/
def goWrite (box : Nat) (go ack : Bool) (s : State) : State :=
  let held := box < 256 && (s.ctx box).closeHold.isSome
  let s1 := if ack && (boxOpen s box || held) then ackResponse box s else s
  if go && boxOpen s box && !held then submitRequest box s1 else s1

/-! ### Carrying out a request -/

/-- Commands that firmware serves in device safe state (14 R488). -/
def safeServed (code : Nat) : Bool := code = 0x01 || code = 0x03 || code = 0x70 || code = 0x78 || code = 0x79 || code = 0x7E

/-- The entries that a DRAIN waits for have completed (05 R148). -/
def drainMet (s : State) (m : Mbox) : Bool :=
  m.drain.all (fun d => let r := Tbl.getD s.rings d.1 {}; r.tail < d.2 || d.2 ≤ r.done)

/-- The context that a mailbox's request names as its target, if it names one. -/
def Mbox.target (m : Mbox) : Option Nat :=
  match cmdSpec m.cmd (reqBytes m) with
  | some sp => if sp.target then some (byteAt (reqBytes m) 8) else none
  | none => none

/-- The request of mailbox `b` comes before that of mailbox `a`: among context mailboxes in round-robin order after the context served
last; between the two kinds, where both name one context, in the order of acceptance (05 R138; log 99). -/
def comesFirst (s : State) (b a : Nat) : Bool :=
  let turn (c : Nat) : Nat := (c + 255 - s.control.lastServed) % 256
  if a < 256 && b < 256 then turn b < turn a
  else a ≠ b && (s.box a).target.isSome && (s.box b).target = (s.box a).target && (s.box b).order < (s.box a).order

/-- The request of a mailbox is a CLOSE_CONTEXT that has been carried out and waits for its context to be CLOSED (06 R175). -/
def closeWaits (s : State) (box : Nat) : Bool := s.ctxs.any (fun p => p.2.closeBox = some box)

/-- The request of a mailbox has been carried out and its answer waits: for a close, or for a keep-store write that is held back. -/
def answerWaits (s : State) (box : Nat) : Bool := closeWaits s box || s.keep.waiting.any (·.origin == .mailbox box)

/-- It is a mailbox's turn: no request that could be served now comes before its own (05 R138). -/
def inTurn (s : State) (box : Nat) : Bool :=
  s.boxes.all (fun p =>
    !(p.2.busy && p.2.accepted && boxOpen s p.1 && !answerWaits s p.1 && drainMet s p.2 && comesFirst s p.1 box))

/-- Carry out the accepted request of a mailbox where it is command `code` and `own` holds of it: its turn, the drain, the common
checks, then `run`, which is given the request's bytes. A request whose close is under way is not carried out again. -/
def command (box code : Nat) (own : List Byte → Bool) (run : List Byte → State → State) (s : State) : State :=
  let m := s.box box
  let b := reqBytes m
  if !(serves s box && m.busy && m.accepted && m.cmd = code && own b && inTurn s box) || closeWaits s box then s
  else if s.faults.safe != .normal && !safeServed code then answer box 0x0D 0 [] s
  else if !drainMet s m then s
  else match cmdSpec code b with
    | none => s
    | some sp => match commonFail s box sp b with
      | some f => answer box f.1 f.2 [] s
      | none => run b s

/-- Any request. -/
def anyReq (_ : List Byte) : Bool := true

/-- The checks of a command, then its effect; the first failure is the answer. -/
def checked (box : Nat) (checks : List (Bool × Nat × Nat)) (effect : State → State) (s : State) : State :=
  match firstFail checks with
  | some f => answer box f.1 f.2 [] s
  | none => effect s

/-- A deferred request that has been validated: DONE where its final state follows at once, else PENDING with its notice to
come, else BUSY for want of room (05 R144). -/
def deferred (box : Nat) (what : Await) (value : Nat) (payload : List Byte) (effect : State → State) (s : State) : State :=
  let m := s.box box
  let s1 := effect s
  if what.met value s1 then answer box 0 0 payload s1
  else if m.room then
    answer box 0 1 payload (modBox box (fun x => { x with owed := x.owed ++ [{ cmd := m.cmd, seq := m.seq, what, value }] }) s1)
  else answer box 0x0D 3 [] s

/-- The same, with a final status other than OK known at once: PENDING, and the notice follows (13 R430). -/
def deferredFails (box status : Nat) (what : Await) (value : Nat) (payload : List Byte) (s : State) : State :=
  let m := s.box box
  let o : Owed := { cmd := m.cmd, seq := m.seq, what, value }
  if m.room then modBox box (fun x => { x with owed := x.owed ++ [o] }.notify o status) (answer box 0 1 payload s)
  else answer box 0x0D 3 [] s

/-! ### Registers with effects (05 R131, R136) -/

/-- The word of the oldest notice. -/
def noticeWord (s : State) (box : Nat) : Nat :=
  match (s.box box).notices with
  | n :: _ => n.cmd * 2 ^ 24 + n.status * 2 ^ 16 + n.seq
  | [] => 0

/-- Remove the oldest notice and latch its VALUE. -/
def takeNotice (box : Nat) : State → State :=
  modBox box (fun m => match m.notices with
    | n :: t => { m with notices := t, noticeHi := n.value }
    | [] => m)

/-- The notice register of a page that answers. -/
def noticeRead (box : Nat) (priv debug : Bool) (s : State) : State :=
  mainRead (box = 256) priv debug (fun s => if box = 256 || (s.ctx box).st == .opened then noticeWord s box else 0)
    (fun s => if box = 256 || (s.ctx box).st == .opened then takeNotice box s else s) s

/-! ### Commands -/

/-- MBOX_GO (05 R136). -/
def execMboxGo (dt box : Nat) (ack priv : Bool) (s : State) : Host.Outcome State Fault Refusal :=
  event (Instr.mboxGo dt box ack priv).wf dt s (mainWrite (box = 256) priv (goWrite box true ack))

/-- MBOX_ACK (05 R136). -/
def execMboxAck (dt box : Nat) (priv : Bool) (s : State) : Host.Outcome State Fault Refusal :=
  event (Instr.mboxAck dt box priv).wf dt s (mainWrite (box = 256) priv (goWrite box false true))

/-- MBOX_NOTICE_READ (05 R131). -/
def execMboxNoticeRead (dt box : Nat) (priv debug : Bool) (s : State) : Host.Outcome State Fault Refusal :=
  event (Instr.mboxNoticeRead dt box priv debug).wf dt s (noticeRead box priv debug)

/-- What CLOSE_RESPONSE_HOLD_EXPIRY does, where it can happen. -/
def onCloseResponseHoldExpiry (ctx : Nat) (s : State) : State :=
  match (s.ctx ctx).closeHold with
  | some t => if t ≤ s.now then modCtx ctx (fun c => { c with closeHold := none }) s else s
  | none => s

/-- CLOSE_RESPONSE_HOLD_EXPIRY: 10 ms after a close through the context's own mailbox (05 R152). -/
def execCloseResponseHoldExpiry (dt ctx : Nat) (s : State) : Host.Outcome State Fault Refusal :=
  event (Instr.closeResponseHoldExpiry dt ctx).wf dt s (onCloseResponseHoldExpiry ctx)

end Sys2Proof.Machine
end

