-- ==== Sys2Proof/Machine/CtxCmds.lean ====
section
/-! DEFINITION. Mailbox commands on contexts, pools, guard windows, draw keys, budgets, the shelf, rings, statistics and the
keep-store (05 R151-R172). -/

namespace Sys2Proof.Machine

/-! ### Version and contexts -/

/-- Response payload of GET_VERSION (05 R151). -/
def versionPayload (s : State) (box : Nat) : List Byte :=
  leBytes 0x00020100 4 ++ leBytes s.control.fwRunning 4 ++ leBytes 3 2 ++ leBytes 5 2 ++ leBytes s.control.fwSvn 4 ++
    leBytes (if box = 256 then 0xFFFF else box) 2

/-- KiB of a quire's store that context partitions take. -/
def partitionKib (s : State) : Nat := (s.ctxs.map (fun p => if p.2.st == .closed then 0 else p.2.qstoreKib)).sum

/-- KiB of a quire's store that placed bindings take. -/
def placedKib (s : State) (q : Nat) : Nat :=
  (s.bindings.map (fun p => if mem (p.2.quiresA ++ p.2.quiresB) q then (match p.2.image? p.2.gen with | some i => i.qstoreKib | none => 0) else 0)).sum

/-- KiB quarantined in a quire's store (13 R448). -/
def quarantineKib (s : State) (q : Nat) : Nat := 4 * (s.mem.quarantine.filter (fun p => p.1 = q)).length

/-- KiB of a quire's store that have been released and are still being zeroed (01 R23, 13 R425). -/
def zeroingKib (s : State) (q : Nat) : Nat := ((s.press.zeroing.filter (fun z => z.1 = q && decide (s.now < z.2.2))).map (·.2.1)).sum

/-- KiB of a quire's store that are not free (13 R424, R425). -/
def takenKib (s : State) (q : Nat) : Nat := partitionKib s + placedKib s q + quarantineKib s q + zeroingKib s q

/-- Areas of `kib` in some quires are released: they are free again once they have been zeroed, 8 ACLK cycles a KiB in the cycles that
other accesses leave (01 R23, 13 R425; log 105). -/
def releaseStore (qs : List Nat) (kib : Nat) (s : State) : State :=
  if kib = 0 || qs.isEmpty then s
  else
    let done := s.now + cdiv (8000 * kib) (clkMhz s.power.oppCurrent .aclk) + Config.freeNat s.freeNo
    useFree 1 { s with press := { s.press with
      zeroing := s.press.zeroing.filter (fun z => decide (s.now < z.2.2)) ++ qs.map (fun q => (q, kib, done)) } }

/-- Quires that are neither spare nor retired. -/
def workQuires (s : State) : List Nat := (upto 0 64).filter (fun q => !mem s.press.spareSet q && !mem s.faults.retired q)

/-- The partition can be reserved in every quire outside the spares. -/
def partitionFits (s : State) (kib : Nat) : Bool :=
  (workQuires s).all (fun q => takenKib s q + kib ≤ 2048)

/-- The context that OPEN_CONTEXT gives: the one asked for, or the lowest free one. -/
def pickCtx (s : State) (req : Nat) : Option Nat :=
  if req = 0xFFFF then (upto 0 256).find? (fun c => (s.ctx c).st == .closed) else some req

/-- QSTORE_KIB as R151 allows. -/
def partitionSize (k : Nat) : Bool := k = 0 || (64 ≤ k && k ≤ 2048 && k % 64 = 0)

/-- A context is opened with an empty state. -/
def openCtx (c kib : Nat) (s : State) : State :=
  let s1 := modBox c (fun _ => {}) (modCtx c (fun _ => { st := .opened, qstoreKib := kib }) s)
  { s1 with rings := s1.rings.filter (fun p => p.1 / 4 ≠ c), chains := s1.chains.filter (fun p => p.1 / 4 ≠ c) }

/-- OPEN_CONTEXT (05 R151). -/
def openContext (box : Nat) (b : List Byte) (s : State) : State :=
  let req := field b 8 2
  let kib := field b 0x0C 4
  let c := pickCtx s req
  checked box
    [ (req < 256 || req = 0xFFFF, 2, 8), (partitionSize kib, 2, 0x0C),
      (req = 0xFFFF || (s.ctx req).st == .closed, 0x0D, 1), (c.isSome && partitionFits s kib, 0x0D, 2) ]
    (fun s => answer box 0 0 (leBytes (c.getD 0) 2) (openCtx (c.getD 0) kib s)) s

/-! ### Pools (05 R162, R163) -/

/-- Buffers that exist on the GX. -/
def allBuffers (s : State) : Nat := (s.pools.map (·.2.count)).sum

/-- A stretch lies within one window of the context that grants what is asked. -/
def withinWindow (gs : List Guard) (rd wr : Bool) (a n : Nat) : Bool :=
  gs.any (fun g => (!rd || g.rd) && (!wr || g.wr) && g.base ≤ a && a + n ≤ g.limit + 1)

/-- CREATE_POOL. -/
def createPool (box : Nat) (b : List Byte) (s : State) : State :=
  let c := byteAt b 8
  let set := byteAt b 9
  let k := byteAt b 0x0A
  let count := field b 0x0C 4
  let base := field b 0x10 8
  checked box
    [ (set < 16, 2, 9), (k < 8, 2, 0x0A), (1 ≤ count && count ≤ 65536, 2, 0x0C), (base % 4096 = 0, 2, 0x10),
      (!Tbl.has s.pools (poolKey c set k), 0x0D, 1), (allBuffers s + count ≤ 1048576, 0x0D, 2),
      (withinWindow (s.ctx c).guards false true base (count * bufSize k), 3, 0) ]
    (fun s => answer box 0 0 (leBytes (c * 2 ^ 24 + set * 2 ^ 16) 4)
      { s with pools := Tbl.set s.pools (poolKey c set k) { base, count } }) s

/-- Keys of the pools that DESTROY_POOL names. -/
def namedPools (s : State) (c set k : Nat) : List Nat :=
  (setPools s c set).filter (fun key => k = 255 || key % 8 = k)

/-- Every buffer that a pool issued has been returned. -/
def Pool.drained (p : Pool) : Bool := p.bufs.all (fun x => x.2 == .quarantined)

/-- Remove destroyed pools that are drained, and tell the requests that waited (05 R163). -/
def dropDrained (s : State) : State :=
  let s1 := { s with pools := s.pools.filter (fun p => !(p.2.destroying && p.2.drained)) }
  notifyWhere (fun o => match o.what with | .pools .. => o.what.met o.value s1 | _ => false) 0 s1

/-- DESTROY_POOL. -/
def destroyPool (box : Nat) (b : List Byte) (s : State) : State :=
  let c := byteAt b 8
  let k := byteAt b 9
  let h := field b 0x0C 4
  let set := poolSet h c
  checked box
    [ (k < 8 || k = 255, 2, 9), (match set with | some n => setExists s c n | none => false, 2, 0x0C),
      (!(namedPools s c (set.getD 0) k).isEmpty, 2, 9) ]
    (deferred box (.pools h k) h [] (fun s =>
      dropDrained (forEach (namedPools s c (set.getD 0) k) (fun key => modPool key (fun p => { p with destroying := true })) s))) s

/-! ### Guard windows and draw keys (05 R162-R165, 12 R408) -/

/-- SET_GUARD: the new generation is in force from now on. -/
def setGuard (box : Nat) (b : List Byte) (s : State) : State :=
  let c := byteAt b 8
  let w := byteAt b 9
  let perm := byteAt b 0x0A
  let base := field b 0x10 8
  let limit := field b 0x18 8
  let gen := ((s.ctx c).guards.getD w {}).gen + 1
  checked box
    [ (w < 16, 2, 9), (perm < 4, 2, 0x0A), (base % 64 = 0, 2, 0x10), ((limit + 1) % 64 = 0 && base ≤ limit, 2, 0x18) ]
    (deferred box (.guard c w) gen (leBytes gen 4) (fun s =>
      modCtx c (fun x => { x with guards := modNth x.guards w (fun _ => { rd := bit perm 0, wr := bit perm 1, base, limit, gen }) })
        (notify (.guard c w) 0x0A s))) s

/-- Work that was posted before a key was replaced, or runs, still names it (12 R408). -/
def keyHeld (s : State) (c slot : Nat) (k : DrawKey) (tails : List (Nat × Nat)) : Bool :=
  tails.any (fun t => (s.ring c t.1).head < t.2) ||
    (upto 0 4).any (fun n => (s.ring c n).entries.any (fun e => e.keySlot = slot && (e.key == some k ||
      (e.key.isNone && tails.any (fun t => t.1 = n && e.count < t.2))))) ||
    s.works.any (fun p => p.2.ctx = c && p.2.key == some k)

/-- The slot's retired keys that are still named. -/
def heldKeys (s : State) (c slot : Nat) (ks : KeySlot) : List (Option DrawKey × List (Nat × Nat)) :=
  ks.old.filter (fun o => match o.1 with
    | some k => keyHeld s c slot k o.2
    | none => o.2.any (fun t => (s.ring c t.1).done < t.2))

/-- Tails of a context's rings by ring number. -/
def ringTails (s : State) (c : Nat) : List (Nat × Nat) :=
  (upto 0 4).filterMap (fun n => if (s.ring c n).st == .none then none else some (n, (s.ring c n).tail))

/-- SET_DRAW_KEY. -/
def setDrawKey (box : Nat) (b : List Byte) (s : State) : State :=
  let c := byteAt b 8
  let slot := byteAt b 9
  let id := field b 0x10 8
  let ks := (s.ctx c).keys.getD slot {}
  let held := heldKeys s c slot ks
  let named := s.streams.any (fun p => p.2.ctx = c && p.2.keySlot = slot)
  let cur : Option DrawKey := if id = 0 then none else some { id, key := field b 0x18 16, serial := s.now }
  checked box [ (slot < 16, 2, 9), (!held.any (·.1.isSome) && !(id = 0 && named), 0x0D, 1) ]
    (fun s => answer box 0 0 [] (modCtx c (fun x => { x with
      keys := modNth x.keys slot (fun _ => { cur, old := (ks.cur, ringTails s c) :: held }) }) s)) s

/-- UPDATE_FINAL_STATE: a pending generation that no sample keeps out takes force; the updates whose generation is in force with
no older one in use are told, and what only older generations used is freed (05 R146, 13 R430). -/
def updateFinal (o : UpdObj) (s : State) : State :=
  match o with
  | .guard c w =>
    notifyWhere (fun x => x.what == .guard c w && (Await.guard c w).met x.value s) 0 s
  | .binding h =>
    let s1 := if bindingBusy s h then s else promote h s
    let s2 := notifyWhere (fun x => x.what == .binding h && bindingFinal s1 h x.value) 0 s1
    match Tbl.get? s2.bindings h with
    | some b =>
      if olderInFlight s2 h b.gen then s2
      else
        let s3 := modBinding h (fun b => { b with gens := b.gens.filter (fun g => b.gen ≤ g.1 || g.1 = b.tableGen) }) s2
        { s3 with mem := { s3.mem with segments := s3.mem.segments.filter (fun x => !(x.binding = h && x.gen < b.gen)) } }
    | none => s2

/-! ### Budgets and the shelf (05 R168, R169) -/

/-- SET_ENERGY_BUDGET: in force from the next press-period start. -/
def setBudget (box : Nat) (b : List Byte) (s : State) : State :=
  let t := field b 8 2
  let mw := field b 0x0C 4
  checked box [ (t < 256 || t = 0xFFFF, 2, 8), (t ≠ 0xFFFF || (1000 ≤ mw && mw ≤ 38000), 2, 0x0C) ]
    (fun s => answer box 0 0 [] (if t = 0xFFFF then { s with press := { s.press with limNext := some mw } }
      else modCtx t (fun x => { x with capNext := some (if mw = 0 then none else some mw) }) s)) s

/-- SHELF_CONFIG REGION, and an OP that does not exist. -/
def shelfRegion (box : Nat) (b : List Byte) (s : State) : State :=
  let base := field b 0x10 8
  let size := field b 0x18 8
  checked box [ (byteAt b 9 = 0, 2, 9), (base % 65536 = 0, 2, 0x10), (65536 ≤ size && size ≤ 2 ^ 32, 2, 0x18) ]
    (fun s =>
      let s1 := flushShelf (fun _ => true) s
      answer box 0 0 [] { s1 with shelf := { s1.shelf with base, size } }) s

/-- SHELF_CONFIG QUOTA. -/
def shelfQuota (box : Nat) (b : List Byte) (s : State) : State :=
  answer box 0 0 [] (modCtx (byteAt b 8) (fun x => { x with quota := some (field b 0x10 8) }) s)

/-- SHELF_CONFIG FLUSH. -/
def shelfFlush (box : Nat) (b : List Byte) (s : State) : State :=
  answer box 0 0 [] (flushShelf (fun x => x.ctx = byteAt b 8) s)

/-! ### Rings (05 R170, 06 R212-R214) -/

/-- RING_CREATE. -/
def ringCreate (box : Nat) (b : List Byte) (s : State) : State :=
  let c := byteAt b 8
  let n := byteAt b 9
  let l := byteAt b 0x0A
  let base := field b 0x10 8
  checked box
    [ (n < 4, 2, 9), (4 ≤ l && l ≤ 16, 2, 0x0A), (base % 4096 = 0, 2, 0x10), ((s.ring c n).st == .none, 0x0D, 1),
      (withinWindow (s.ctx c).guards true true base (64 * 2 ^ l), 3, 0) ]
    (fun s => answer box 0 0 [] (modRing c n (fun _ => { st := .run, base, log2 := l, enable := true })
      { s with chains := Tbl.erase s.chains (ringKey c n) })) s

/-- Begin a RING_RESET of a mode (06 R212). -/
def startReset (c n mode : Nat) : State → State :=
  modRing c n (fun r =>
    if r.st == .stopped then { r with reset := some mode, st := .aborting, ctlReset := true, enable := false }
    else if mode = 0 then { r with reset := some mode, st := if r.aborting then .aborting else .draining }
    else { r with reset := some mode, st := .aborting, aborting := true, enable := false })

/-- The ring is idle in its new state. -/
def resetIdle (r : Ring) : Bool :=
  r.reset.isSome && (if r.ctlReset then !r.busy else r.done = r.head && r.issued = r.head)

/-- The end of a RING_RESET: the counts are 0, the ring takes the final state of its mode, and the notice is queued. -/
def resetDone (c n : Nat) (s : State) : State :=
  let r := s.ring c n
  if !resetIdle r then s
  else
    let s1 := zeroRing c n s
    let s2 := if r.reset = some 2 then modRing c n (fun _ => {}) s1
      else modRing c n (fun r => { r with reset := none, st := .run, enable := true }) s1
    notify (.ring c n) 0 s2

/-- Attached streams of a ring. -/
def ringStreams (s : State) (c n : Nat) : Bool :=
  s.streams.any (fun p => p.2.ctx = c && p.2.ring = n && p.2.st != .attaching)

/-- RING_RESET of any mode; a drain of a stopped ring cannot end and is answered BUSY (log 25). A drain that finds
nothing under way is complete at once; an abort acts at a slot boundary (06 R210) and always ends in a notice. -/
def ringReset (box : Nat) (b : List Byte) (s : State) : State :=
  let c := byteAt b 8
  let n := byteAt b 9
  let mode := byteAt b 0x0A
  let r := s.ring c n
  checked box
    [ (n < 4 && r.st != .none, 2, 9), (mode < 3, 2, 0x0A), (r.reset.isNone, 0x0D, 1), (!(mode = 2 && ringStreams s c n), 0x0D, 1),
      (!(mode = 0 && r.st == .stopped), 0x0D, 1) ]
    (deferred box (.ring c n) n [] (fun s => if mode = 0 then resetDone c n (startReset c n mode s) else startReset c n mode s)) s

/-! ### Statistics (05 R171) -/

/-- The six counters of a group. -/
def statCounters (s : State) (group c stream : Nat) : List Nat :=
  if group = 0 then
    let x := s.ctx c
    [x.nDone, x.nMiss, x.nGuard, x.nEmpty, x.energyUj, x.bytes]
  else if group = 1 then
    match Tbl.get? s.streams stream with
    | some t => [t.nFrames, t.nTrunc, t.nOver, t.nCorrupt, t.nLate, t.nInvalid]
    | none => []
  else
    let f := s.faults
    [f.nReplays, f.nContained, f.nRetired, f.nShed, f.nBubble, f.nRestarts]

/-- QUERY_STATS. -/
def queryStats (box : Nat) (b : List Byte) (s : State) : State :=
  let c := byteAt b 8
  let g := byteAt b 9
  let i := field b 0x0A 2
  checked box
    [ (g < 3, 2, 9), (g ≠ 1 || (match Tbl.get? s.streams i with | some t => t.ctx = c | none => false), 2, 0x0A) ]
    (fun s => answer box 0 0 ((statCounters s g c i).flatMap (leBytes · 8) ++ leBytes s.now 8) s) s

/-! ### Keep-store (05 R172) -/

/-- The slot that REGION and RECORD name. -/
def recordSlot (region rec_ : Nat) : Nat := match regionOf region with | some (a, _) => a + rec_ | none => 0

/-- The record number lies in its region. -/
def recordOk (region rec_ : Nat) : Bool := match regionOf region with | some (_, n) => rec_ < n | none => false

/-- KEEP_READ; without PG_MRAM reads are not served and the answer is LOW_VOLTAGE (log 26). -/
def keepRead (box : Nat) (b : List Byte) (s : State) : State :=
  let g := byteAt b 8
  let r := field b 0x0A 2
  checked box [ (g < 5, 2, 8), (recordOk g r, 5, 0), (s.power.mram.pg, 0x0E, 0) ]
    (fun s => answer box 0 0 (readRecord s (recordSlot g r)) s) s

/-- The answer to a keep-store write by its outcome; none while it waits. While firmware is down the effect of a write that is done is
in the checkpoint, and the answer follows once the mailboxes open (04 R114; log 100). -/
def answerKeep (box : Nat) (r : KRes) (s : State) : State :=
  if !s.fwRuns then
    (if r = .done then modBox box (fun m => { m with committed := some 0 }) s else s)
  else match r with
  | .done => answer box 0 0 [] s
  | .low => answer box 0x0E 0 [] s
  | .off => answer box 0x10 0 [] s
  | .waits => s

/-- KEEP_WRITE. -/
def keepWrite (box : Nat) (out : KOut) (b : List Byte) (s : State) : State :=
  let g := byteAt b 8
  let r := field b 0x0A 2
  if s.keep.waiting.any (·.origin == .mailbox box) then s
  else
    checked box
      [ (g < 5, 2, 8), (recordOk g r, 5, 0), (g = 3 || (g = 4 && !s.keep.region4Used), 0x10, 0) ]
      (fun s =>
        let x := requestWrite (.mailbox box) (recordSlot g r) (slice b 0x0C 52) out s
        answerKeep box x.1 x.2) s

/-! ### Commands -/

/-- GET_VERSION (05 R151). -/
def execGetVersion (dt box : Nat) (s : State) : Host.Outcome State Fault Refusal :=
  event (Instr.getVersion dt box).wf dt s (command box 0x01 anyReq (fun _ s => answer box 0 0 (versionPayload s box) s))

/-- OPEN_CONTEXT (05 R151). -/
def execOpenContext (dt box : Nat) (s : State) : Host.Outcome State Fault Refusal :=
  event (Instr.openContext dt box).wf dt s (command box 0x02 anyReq (openContext box))

/-- CREATE_POOL (05 R163). -/
def execCreatePool (dt box : Nat) (s : State) : Host.Outcome State Fault Refusal :=
  event (Instr.createPool dt box).wf dt s (command box 0x30 anyReq (createPool box))

/-- DESTROY_POOL (05 R163). -/
def execDestroyPool (dt box : Nat) (s : State) : Host.Outcome State Fault Refusal :=
  event (Instr.destroyPool dt box).wf dt s (command box 0x31 anyReq (destroyPool box))

/-- POOL_DRAINED (05 R163). -/
def execPoolDrained (dt handle cls : Nat) (s : State) : Host.Outcome State Fault Refusal :=
  event (Instr.poolDrained dt handle cls).wf dt s dropDrained

/-- SET_GUARD (05 R164). -/
def execSetGuard (dt box : Nat) (s : State) : Host.Outcome State Fault Refusal :=
  event (Instr.setGuard dt box).wf dt s (command box 0x38 anyReq (setGuard box))

/-- SET_DRAW_KEY (05 R165). -/
def execSetDrawKey (dt box : Nat) (s : State) : Host.Outcome State Fault Refusal :=
  event (Instr.setDrawKey dt box).wf dt s (command box 0x40 anyReq (setDrawKey box))

/-- What UPDATE_FINAL_STATE does, where it can happen. -/
def onUpdateFinalState (obj : UpdObj) (s : State) : State :=
  if s.fwRuns then updateFinal obj s else s

/-- UPDATE_FINAL_STATE (05 R146). -/
def execUpdateFinalState (dt : Nat) (obj : UpdObj) (s : State) : Host.Outcome State Fault Refusal :=
  event (Instr.updateFinalState dt obj).wf dt s (onUpdateFinalState obj)

/-- SET_ENERGY_BUDGET (05 R168). -/
def execSetEnergyBudget (dt box : Nat) (s : State) : Host.Outcome State Fault Refusal :=
  event (Instr.setEnergyBudget dt box).wf dt s (command box 0x50 anyReq (setBudget box))

/-- SHELF_CONFIG with OP REGION (05 R169). -/
def execShelfRegion (dt box : Nat) (s : State) : Host.Outcome State Fault Refusal :=
  event (Instr.shelfRegion dt box).wf dt s (command box 0x58 (fun b => byteAt b 9 = 0 || 3 ≤ byteAt b 9) (shelfRegion box))

/-- SHELF_CONFIG with OP QUOTA (05 R169). -/
def execShelfQuota (dt box : Nat) (s : State) : Host.Outcome State Fault Refusal :=
  event (Instr.shelfQuota dt box).wf dt s (command box 0x58 (fun b => byteAt b 9 = 1) (shelfQuota box))

/-- SHELF_CONFIG with OP FLUSH (05 R169). -/
def execShelfFlush (dt box : Nat) (s : State) : Host.Outcome State Fault Refusal :=
  event (Instr.shelfFlush dt box).wf dt s (command box 0x58 (fun b => byteAt b 9 = 2) (shelfFlush box))

/-- RING_CREATE (05 R170). -/
def execRingCreate (dt box : Nat) (s : State) : Host.Outcome State Fault Refusal :=
  event (Instr.ringCreate dt box).wf dt s (command box 0x60 anyReq (ringCreate box))

/-- RING_RESET with MODE 0, and with a MODE that does not exist (06 R212). -/
def execRingResetDrain (dt box : Nat) (s : State) : Host.Outcome State Fault Refusal :=
  event (Instr.ringResetDrain dt box).wf dt s (command box 0x61 (fun b => byteAt b 0x0A = 0 || 3 ≤ byteAt b 0x0A) (ringReset box))

/-- RING_RESET with MODE 1 (06 R212). -/
def execRingResetAbort (dt box : Nat) (s : State) : Host.Outcome State Fault Refusal :=
  event (Instr.ringResetAbort dt box).wf dt s (command box 0x61 (fun b => byteAt b 0x0A = 1) (ringReset box))

/-- RING_RESET with MODE 2 (06 R212). -/
def execRingResetDestroy (dt box : Nat) (s : State) : Host.Outcome State Fault Refusal :=
  event (Instr.ringResetDestroy dt box).wf dt s (command box 0x61 (fun b => byteAt b 0x0A = 2) (ringReset box))

/-- RING_RESET_DONE (06 R212). -/
def execRingResetDone (dt ctx ring : Nat) (s : State) : Host.Outcome State Fault Refusal :=
  event (Instr.ringResetDone dt ctx ring).wf dt s (resetDone ctx ring)

/-- QUERY_STATS (05 R171). -/
def execQueryStats (dt box : Nat) (s : State) : Host.Outcome State Fault Refusal :=
  event (Instr.queryStats dt box).wf dt s (command box 0x70 anyReq (queryStats box))

/-- KEEP_READ (05 R172). -/
def execKeepRead (dt box : Nat) (s : State) : Host.Outcome State Fault Refusal :=
  event (Instr.keepRead dt box).wf dt s (command box 0x78 anyReq (keepRead box))

/-- KEEP_WRITE (05 R172). -/
def execKeepWrite (dt box : Nat) (out : KOut) (s : State) : Host.Outcome State Fault Refusal :=
  event (Instr.keepWrite dt box out).wf dt s (command box 0x79 anyReq (keepWrite box out))

end Sys2Proof.Machine
end

