-- ==== Sys2Proof/Machine/Resets.lean ====
section
/-! DEFINITION. The two resets, the wake sequence, operating-point changes and the power target (02 R44, R45, R55, R56,
03 R70-R75, R83, R551). -/

namespace Sys2Proof.Machine

/-! ### Resets -/

/-- The spare quires that SPARES = k chooses: every retired quire holds a position, the others go down the sequence (07 R229). -/
def chooseSpares (k : Nat) (retired : List Nat) : List Nat :=
  retired ++ ([31, 63, 30, 62].filter (fun q => !mem retired q)).take (k - retired.length)

/-- Keeper-domain contents of a clock: permission, request and the live acknowledge level; CLK_EVT resets (03 R97). -/
def ClkState.kept (c : ClkState) : ClkState := { c with lost := false, bad := false, down := false }

/-- A rail keeps its request and live levels; SUPPLY_EVT resets (03 R97). -/
def RailState.kept (r : RailState) : RailState := { r with evtWarn := false, evtFail := false }

/-- Main-domain reset: every register and store that is not in the keeper domain takes its reset value (00 R8, 02 R44). PWR_STATE is in
the keeper domain and stays, and so does OPP_REQ (02 R55, 03 R75). -/
def mainReset (s : State) : State :=
  { State.reset with
    pending := s.pending, txNext := s.txNext, workNext := s.workNext, tb := s.tb, mgmt := s.mgmt,
    chip := { s.chip with testGranted := false, rspCode := 0, rspData := 0 },
    power := { State.reset.power with
      state := s.power.state, blocked := s.power.blocked, keepRefused := s.power.keepRefused, keepSince := s.power.keepSince,
      oppStatReset := s.power.oppStatReset, target := s.power.target, targetStored := s.power.targetStored, aclk := s.power.aclk.kept,
      vclk := s.power.vclk.kept, mclk := s.power.mclk.kept, cclk := s.power.cclk.kept, array := s.power.array.kept,
      ctrl := s.power.ctrl.kept, mram := s.power.mram.kept, keep := s.power.keep.kept, wakeTimer := s.power.wakeTimer,
      wakeCause := s.power.wakeCause, wakePending := s.power.wakePending, wake := s.power.wake, droopMark := s.tb.now, thermKept := s.power.thermKept,
      oppPending := s.power.oppPending, oppCurrent := s.power.oppCurrent, oppPrev := s.power.oppPrev,
      oppWait := s.power.oppWait, oppReturn := s.power.oppReturn, oppBookAt := s.power.oppBookAt },
    control := { State.reset.control with
      lastCause := s.control.lastCause, fwAddrA := s.control.fwAddrA, fwAddrB := s.control.fwAddrB,
      restartCnt := s.control.restartCnt, dbgFails := s.control.dbgFails },
    press := { State.reset.press with
      spareSet := chooseSpares 4 s.faults.retired, quires := s.press.quires.map (fun q => ({ marks := q.marks } : Quire)) },
    faults := { State.reset.faults with
      records := s.faults.records, log := s.faults.log, logOvr := s.faults.logOvr, logHi := s.faults.logHi, logTime := s.faults.logTime,
      first := s.faults.first, pinLow := s.faults.pinLow, pinClass := s.faults.pinClass, pulse := s.faults.pulse,
      highHold := s.faults.highHold, pulseWaits := s.faults.pulseWaits, padSlow := s.faults.padSlow, holdMin := s.faults.holdMin,
      pulseMin := s.faults.pulseMin, safeCause := s.faults.safeCause, retired := s.faults.retired, unitsRetired := s.faults.unitsRetired },
    keep := { s.keep with waiting := s.keep.waiting.filter (fun q => q.origin == .i3c), jbuf := [], jretry := false, compact := none } }

/-- Keeper-domain reset: the main domain and every keeper register take their reset values; the keep-store's contents, the
straps and the input levels stay (02 R55, R56). A GX_RST_N that stands deasserted counts as its rising edge (log 19). -/
def porstReset (s : State) : State :=
  { State.reset with
    pending := s.pending, txNext := s.txNext, workNext := s.workNext,
    chip := { s.chip with keeperInit := false, rspCode := 0, rspData := 0, testGranted := false },
    power := { State.reset.power with
      aclk := { ack := s.power.aclk.ack }, vclk := { ack := s.power.vclk.ack }, mclk := { ack := s.power.mclk.ack },
      cclk := { ack := s.power.cclk.ack },
      array := { pg := s.power.array.pg, warn := s.power.array.warn, fail := s.power.array.fail }, wakeCause := 0,
      ctrl := { pg := s.power.ctrl.pg, warn := s.power.ctrl.warn, fail := s.power.ctrl.fail },
      mram := { pg := s.power.mram.pg, warn := s.power.mram.warn, fail := s.power.mram.fail },
      keep := { up := true, pg := true, warn := s.power.keep.warn, fail := s.power.keep.fail }, wakePending := s.chip.rstN },
    tb := { timeValid := s.tb.timeValid },
    keep := { mem := s.keep.mem, eccBad := s.keep.eccBad } }

/-! ### The wake sequence (03 R75) -/

/-- Raise a clock request, only while its acknowledge is seen at 0 (03 R79). -/
def raiseClk (c : ClkState) : ClkState := if c.req || c.ack then c else { c with req := true }

/-- Steps 4-6: clock requests once every PG is seen, then the release of the internal main reset. -/
def wakeAdvance (s : State) : State :=
  let s1 := if s.power.wake == .rails && s.power.ctrl.pg && s.power.array.pg && s.power.mram.pg then
      { s with power := { s.power with wake := .clocks } } else s
  let s2 := if s1.power.wake == .clocks then
      { s1 with power := { s1.power with
          cclk := raiseClk s1.power.cclk, mclk := raiseClk s1.power.mclk, aclk := raiseClk s1.power.aclk } } else s1
  let up (c : ClkState) : Bool := c.req && c.ack
  if s2.power.wake == .clocks && up s2.power.cclk && up s2.power.mclk && up s2.power.aclk then
    bootWatchdogs { s2 with power := { s2.power with wake := .booting }, control := { s2.control with pair0 := .boot, pair1 := .boot } }
  else s2

/-- A rail is requested; one that is good already is up from then on. -/
def RailState.raise (r : RailState) : RailState := { r with req := true, up := r.up || r.pg }

/-- Steps 1-2: a recorded wake cause is acted on once GX_RST_N is deasserted and the keeper is initialised (03 R74). -/
def startWake (s : State) : State :=
  if s.power.wakePending && s.chip.porstN && s.chip.rstN && s.chip.keeperInit then
    wakeAdvance { s with power := { s.power with
      wakePending := false, wake := .rails, ctrl := s.power.ctrl.raise, array := s.power.array.raise, mram := s.power.mram.raise } }
  else s

/-- A wake cause (bit of WAKE_CAUSE) in KEEP: the wake starts, or waits for the deassertion of GX_RST_N (03 R74). -/
def wakeCauseSeen (causeBit : Nat) (s : State) : State :=
  if s.chip.porstN && s.power.state == .keep && s.power.wake == .idle || s.chip.porstN && !s.chip.rstN then
    startWake { s with power := { s.power with wakePending := true, wakeCause := Nat.lor s.power.wakeCause causeBit } }
  else s

/-! ### Operating points (03 R83, R551) -/

/-- OPP_REQ moves: an acknowledge is awaited. -/
def requestOpp (p : Nat) (s : State) : State :=
  if s.power.oppPending = p then { s with power := { s.power with oppWanted := none } }
  else { s with power := { s.power with
    oppPrev := s.power.oppPending, oppPending := p, oppWait := true, oppReturn := false, oppWanted := none, oppStatReset := false } }

/-- A change is wanted: at once while no period runs and no change is under way, else at the next boundary. -/
def wantOpp (p : Nat) (s : State) : State :=
  if s.press.running || s.oppBusy then { s with power := { s.power with oppWanted := some p } } else requestOpp p s

/-- Issue a wanted change where one may be issued. -/
def applyWanted (s : State) : State :=
  match s.power.oppWanted with
  | some p => if s.oppBusy then s else requestOpp p s
  | none => s

/-! ### The power target (03 R71-R73) -/

/-- Codec cores that a binding's stages need at once, in both replicas of a LIVE binding (09 R329). -/
def Image.codecCores (i : Image) (live : Bool) : Nat :=
  (if live then 2 else 1) * (i.stages.map (fun t => if t.unit = 2 then t.units else 0)).foldl max 0

/-- The quires that admitted bindings stand on. -/
def admittedQuires (s : State) : List Nat :=
  (((s.bindings.map (·.2)).filter Binding.admitted).flatMap (fun b => b.quiresA ++ b.quiresB)).foldl (fun l q => insertNat q l) []

/-- The admitted bindings allow STANDBY: point 0b10, at most 8 quires, at most 1 codec core (03 R72). -/
def standbyOk (s : State) : Bool :=
  let bs := (s.bindings.map (·.2)).filter Binding.admitted
  let cores := (bs.map (fun b => match b.image? b.gen with | some i => i.codecCores (b.cls == some 0) | none => 0)).sum
  bs.all (fun b => b.opp = 2) && (admittedQuires s).length ≤ 8 && cores ≤ 1

/-- Nothing holds a quire out of GATED: no stage of a gathering, no self-test, no maintenance token and no admitted binding. -/
def quireSpareable (s : State) (q : Nat) : Bool :=
  !(s.quire q).testing && !mem (admittedQuires s) q && !s.mem.tokens.any (fun t => t.1 = q) &&
    !s.works.any (fun x => match x.2.place with | some (p, _) => p = q | none => false)

/-- A quire may leave GATED: in STANDBY at most 8 quires are not GATED, and those of admitted bindings come first (03 R70, R72). -/
def mayWake (s : State) (q : Nat) : Bool :=
  (s.quire q).st != .gated || s.power.state != .standby || mem (admittedQuires s) q ||
    decide ((insertNat q (((upto 0 64).filter (fun q => (s.quire q).st != .gated)).foldl (fun l q => insertNat q l) (admittedQuires s))).length ≤ 8)

/-- STANDBY holds at most 8 quires that are not GATED: those that nothing needs are GATED on entry (03 R70). -/
def gateSpareable (s : State) : State := forEach (upto 0 64) (fun q s => if quireSpareable s q then gateQuire q s else s) s

/-- STANDBY is reached once point 0b10 is acknowledged (03 R72). -/
def reachStandby (s : State) : State :=
  if s.power.target = 2 && !s.power.blocked && s.power.oppPending = 2 && !s.oppBusy && s.power.oppCurrent = 2 &&
      (s.power.state == .ready || s.power.state == .run) then
    gateSpareable { s with power := { s.power with state := .standby } }
  else s

/-- Act on the target; `old` is the target before. BLOCKED of a KEEP that was refused ends here too, with the first write that is acted on
(DESIGN CHOICE, log 20). -/
def actTarget (old : Nat) (s : State) : State :=
  let set (b : Bool) (s : State) : State := { s with power := { s.power with blocked := b, keepRefused := false } }
  match s.power.target with
  | 1 => set false { s with power := { s.power with state := .enteringKeep } }
  | 2 => if standbyOk s then reachStandby (wantOpp 2 (set false s)) else set true s
  | _ =>
    if old = 2 && !s.power.blocked then
      wantOpp s.power.fastest (set false { s with power := { s.power with
        state := if s.power.state == .standby then (if s.press.running then .run else .ready) else s.power.state } })
    else set false s

/-- KEEP is selected: refused, with BLOCKED, while a LIVE binding is admitted (03 R73). -/
def targetRefused (v : Nat) (s : State) : Bool := v = 1 && s.liveAdmitted

/-- A write of PWR_TARGET: 0 is ignored; in KEEP, and on the way to or from it, the value is only stored (02 R45). R45 says so of the way
to KEEP from step 4 of R73 on; in steps 1-3 it is the model's choice (DESIGN CHOICE, log 20). KEEP while a LIVE binding is admitted is
refused: the target stays and BLOCKED is set (03 R73; log 20). -/
def writeTarget (v : Nat) (s : State) : State :=
  if v = 0 then s
  else if !s.mainUp || s.power.wake != .idle || s.power.state == .enteringKeep then
    { s with power := { s.power with target := v, targetStored := true } }
  else if targetRefused v s then { s with power := { s.power with keepRefused := true } }
  else actTarget s.power.target { s with power := { s.power with target := v } }

/-- A blocked STANDBY target is tried again when bindings have left the plan (03 R72). -/
def retryTarget (s : State) : State := if s.power.blocked && s.power.target = 2 then actTarget 2 s else s

/-- READY is reached: the mailboxes open at the end of a wake, and a target stored meanwhile takes effect (02 R45, 03 R75), as does a
STANDBY target that a GX_RST_N has interrupted (03 R72). -/
def reachReady (s : State) : State :=
  let s1 := { s with power := { s.power with wake := .idle, state := .ready } }
  if s1.power.targetStored || s1.power.target = 2 then actTarget 3 { s1 with power := { s1.power with targetStored := false } }
  else s1

end Sys2Proof.Machine
end

