-- ==== Sys2Proof/Machine/Control.lean ====
section
/-! DEFINITION. The control complex: boot, restarts, lockstep, SRAM, exceptions, semaphores, debug unlock, confirmation and
staging of firmware (04; 05 R140, R173, R174). -/

namespace Sys2Proof.Machine

/-! ### Firmware images (04 R99, R103) -/

/-- A verified image. -/
structure FwImage where
  version : Nat
  svn : Nat
  textSize : Nat
  entry : Nat
  body : List Byte
  deriving DecidableEq, Repr

/-- The size and identity fields of a header are valid (R99 check 3). -/
def fwHeaderOk (h : List Byte) : Bool :=
  field h 0 4 = 0x59464E31 && field h 4 2 = 1 && field h 6 2 = 0 && 4096 ≤ field h 0x18 4 && field h 0x18 4 ≤ 1048576 &&
    field h 0x18 4 % 4096 = 0 && field h 0x1C 4 % 4096 = 0 && field h 0x1C 4 ≤ field h 0x18 4

/-- ROOT_KEY_VALID = 1 and ROOT_KEY_HASH neither all zeros nor all ones (R99 check 1). -/
def rootOk (s : State) : Bool := s.chip.rootKeyValid && s.chip.rootKeyHash ≠ 0 && s.chip.rootKeyHash ≠ 2 ^ 384 - 1

/-- Checks 2-7 of R99 on the image at an address: the code of the first failure, or the image. `size` is the size a request
names, where one does. -/
def verifyImage (s : State) (mem : ExtMem) (addr : Nat) (size : Option Nat) : Except Nat FwImage :=
  let h := extRead mem addr 256
  let n := field h 0x18 4
  if extBad mem addr 256 then .error 3
  else if !fwHeaderOk h || (match size with | some z => z ≠ 256 + n | none => false) then .error 4
  else if extBad mem (addr + 256) n then .error 3
  else if field h 0x10 4 ≠ 3 || field h 0x14 4 ≠ 5 then .error 5
  else
    let key := slice h 0x40 0x60
    let body := extRead mem (addr + 256) n
    if Config.sha384 key ≠ s.chip.rootKeyHash then .error 6
    else if field h 0x0C 4 < s.keep.counter 0 then .error 7
    else if !Config.ecdsaP384 key (Config.sha384 (h.take 0xA0 ++ body)) (slice h 0xA0 0x60) then .error 8
    else .ok { version := field h 8 4, svn := field h 0x0C 4, textSize := field h 0x1C 4, entry := field h 0x20 4, body }

/-- The SYS reads on memory port 0 that fetch an image (R102): its header, and its body where the header is one. -/
def fetchImage (mem : ExtMem) (addr : Nat) : State → State :=
  let h := extRead mem addr 256
  readTxs sysRead (.fetched 0) ((addr, 256) :: if fwHeaderOk h then [(addr + 256, field h 0x18 4)] else [])

/-- Image address of a slot. -/
def slotAddrOf (s : State) (slotB : Bool) : Nat := if slotB then s.control.fwAddrB else s.control.fwAddrA

/-! ### The boot ROM (04 R99-R106, 15 R506) -/

/-- The complex stays stopped with a code. -/
def bootStopped (code : Nat) (raise : Bool) (s : State) : State :=
  let s1 := { s with control := { s.control with pair0 := .stopped, pair1 := .stopped, restarting := false, bootCode := code } }
  if raise then report1 10 2 0x0D 0 false s1 else s1

/-- Both slots failed: BOOT_STAT reports the failure of the slot tried first, and FALLBACK that the other was tried (R101; no image
runs, so TRIAL is 0: log 96). -/
def bothFailed (slotB : Bool) (code : Nat) (s : State) : State :=
  bootStopped code true { s with control := { s.control with bootSlotB := slotB, bootTrial := false, bootFallback := true } }

/-- What the boot record makes of a boot: the slot tried first, whether that is already a fallback, and the commit that
precedes the jump. -/
inductive BootPlan where
  | plain (slotB : Bool)
  /-- The record is not updated: ACTIVE_SLOT with FALLBACK (15 R506). -/
  | frozen (slotB : Bool)
  /-- ATTEMPTS is spent: TRIAL is cleared and ACTIVE_SLOT boots with FALLBACK (R105). -/
  | spent (slotB : Bool)
  /-- A trial boot of TRIAL_SLOT, which commits ATTEMPTS + 1. -/
  | trial (slotB : Bool)
  deriving DecidableEq, Repr

/-- The plan of a boot. -/
def bootPlan (s : State) : BootPlan :=
  let (active, tr, trialB, attempts) := s.keep.boot
  if !tr then .plain active
  else if s.keep.refuses || mramDown s then .frozen active
  else if 3 ≤ attempts then .spent active
  else .trial trialB

/-- Slot tried first. -/
def BootPlan.first : BootPlan → Bool
  | .plain b | .frozen b | .spent b | .trial b => b

/-- The commit that a plan makes before the jump; the result tells whether it succeeded. -/
def bootCommit (p : BootPlan) (out : KOut) (s : State) : Bool × State :=
  let (active, _, trialB, attempts) := s.keep.boot
  match p with
  | .spent _ => let r := requestBoot .confirm active false trialB attempts out s; (r.1 == .done, r.2)
  | .trial _ => let r := requestBoot .confirm active true trialB (attempts + 1) out s; (r.1 == .done, r.2)
  | _ => (true, s)

/-- The image of a slot runs: text and data are loaded, both pairs are released at the entry point, the registers show it (boot
sequence, step 7; R103, R106). -/
def runImage (i : FwImage) (slotB fallback trial : Bool) (s : State) : State :=
  let (_, _, _, attempts) := s.keep.boot
  { s with control := { s.control with
    pair0 := .run, pair1 := .run, bootCode := 0, bootSlotB := slotB, bootTrial := trial, bootFallback := fallback,
    bootAttempts := attempts, fwRunning := i.version, fwSvn := i.svn, rollbackCnt := s.keep.counter 0, textSize := i.textSize,
    sram := Mem.writeBytes [] 0 i.body, sramPoison := [],
    cores := s.control.cores.map (fun c => { c with pc := BitVec.ofNat 64 i.entry }),
    confirm := if trial then .record else if s.keep.counter 0 < i.svn then .counter else .none } }

/-- Fetch the image of a slot and check it; a read error is also the port's fault (R99, R102; 02 R38). -/
def trySlot (mem : ExtMem) (slotB : Bool) (s : State) : Except Nat FwImage × State :=
  let r := verifyImage s mem (slotAddrOf s slotB) none
  let s1 := fetchImage mem (slotAddrOf s slotB) s
  (r, match r with | .error 3 => report1 112 2 0x19 0 false s1 | _ => s1)

/-- A spent trial is committed at step 2, before any image is looked at (R105); the other commits precede the jump. -/
def commitSpent (p : BootPlan) (out : KOut) (s : State) : State :=
  match p with
  | .spent _ => (bootCommit p out s).2
  | _ => s

/-- Commit what a trial boot commits, and run the image (R105, R106). A trial whose ATTEMPTS could not be committed boots as with
WRITES_OFF (log 24). -/
def jumpTo (mem : ExtMem) (out : KOut) (p : BootPlan) (i : FwImage) (slotB fallback : Bool) (s : State) : State :=
  let isTrial := match p with | .trial _ => true | _ => false
  let forced := match p with | .frozen _ | .spent _ => true | _ => false
  if !isTrial then runImage i slotB (forced || fallback) false s
  else
    let c := bootCommit p out s
    if c.1 then runImage i slotB fallback (slotB = p.first) c.2
    else
      let active := s.keep.boot.1
      match trySlot mem active c.2 with
      | (.ok j, s1) => runImage j active true false s1
      | (.error e, s1) => bootStopped e true s1

/-- Try the first slot and then the other (R101). -/
def trySlots (mem : ExtMem) (out : KOut) (p : BootPlan) (s : State) : State :=
  let b := p.first
  match trySlot mem b (commitSpent p out s) with
  | (.ok i, s1) => jumpTo mem out p i b false s1
  | (.error e, s1) =>
    match trySlot mem (!b) s1 with
    | (.ok i, s2) => jumpTo mem out p i (!b) true s2
    | (.error _, s2) => bothFailed b e s2

/-- The boot ROM: root, index, record, image. -/
def bootRom (mem : ExtMem) (outs : List KOut) (s : State) : State :=
  let s0 := { s with control := { s.control with rollbackCnt := s.keep.counter 0, bootAttempts := s.keep.boot.2.2.2 } }
  if !rootOk s then bootStopped 2 false s0
  else if s.keep.indexBad then bootStopped 9 true { s0 with control := { s0.control with keepError := true } }
  else trySlots mem (outs.headD .ok) (bootPlan s0) s0

/-- The boot ROM runs and may finish: pair 0 is not halted, reset released or restart under way, its rail and clock good, the scan
done, no supply warning holding a commit back (04 R112, R127, 15 R506, R507). -/
def bootReady (s : State) : Bool :=
  s.chip.porstN && s.chip.rstN && s.control.pair0 == .boot && !s.control.halt0 && (s.power.wake == .booting || (s.mainUp && s.control.restarting)) &&
    s.power.ctrl.pg && s.power.cclk.req && s.power.cclk.ack && !s.power.cclk.down && (s.keep.scanDone || s.keep.indexBad) &&
    !(s.keep.boot.2.1 && !s.keep.refuses && (s.power.mram.warn || !s.keep.waiting.isEmpty))

/-- Boxes whose requests are served: those of contexts that are not closed, and the management mailbox. -/
def liveBoxes (s : State) : List Nat :=
  let all := (s.boxes.map (·.1)).filter (boxOpen s)
  all.filter (· = 256) ++ all.filter (fun b => b < 256 && s.control.lastServed < b) ++ all.filter (fun b => b ≤ s.control.lastServed && b < 256)

/-- What a request that was accepted before a restart is answered: the original status where its effect was committed, else BUSY; a
close that is under way is answered once it is complete (04 R114). -/
def restartAnswer (b : Nat) (s : State) : State :=
  if closeWaits s b then modBox b (fun m => { m with committed := some 0 }) s
  else if (s.box b).accepted then answerAs true b ((s.box b).committed.getD 0x0D) 0 [] s else s

/-- The mailboxes open: RESTART bits and answers after a restart, then waiting requests are accepted, the management mailbox's first
(04 R114, 05 R138, R140). A held-back record write of a request that is answered BUSY is withdrawn, so that it has no effect. -/
def openBoxes (restarted : Bool) (s : State) : State :=
  let s1 := { s with
    control := { s.control with fwUp := true, restarting := false }, press := { s.press with sparesShown := true },
    boxes := s.boxes.map (fun p => (p.1, p.2.catchUp)) }
  let marked : List Nat := 256 :: (s1.ctxs.filter (fun p => p.2.st != .closed)).map (·.1)
  let s2 := if restarted then forEach marked (fun b => modBox b (fun m => { m with evtRestart := true })) s1 else s1
  let s3 := if restarted then
      forEach (liveBoxes s2) restartAnswer { s2 with keep := { s2.keep with
        waiting := s2.keep.waiting.filter (fun q => match q.origin with | .mailbox _ => false | _ => true) } }
    else s2
  forEach (liveBoxes s3) acceptRequest s3

/-- Firmware sets the limits of the watchdogs, each to a value of its own between 100 us and 100 ms (R118; free, log 97). -/
def setLimits (s : State) : State :=
  let free (k : Nat) : Nat := 100000 + Config.freeNat (s.freeNo + k) % 99900001
  useFree 2 { s with control := { s.control with
    wd0 := watchdogFrom s.now (free 0) s.control.halt0, wd1 := watchdogFrom s.now (free 1) s.control.halt1 } }

/-- MAILBOX_OPEN: the boot ROM finishes, firmware opens the mailboxes, and a wake ends in READY (03 R75, 04 R99, 05 R140). A
GX_SAFE_REQ that stands at 1 is obeyed at once (14 R489). -/
def mailboxOpen (mem : ExtMem) (outs : List KOut) (s : State) : State :=
  if !bootReady s then s
  else
    let restarted := s.control.restarting
    let s1 := bootRom mem outs s
    if s1.control.pair0 != .run then s1
    else
      let s2 := if s1.power.wake == .booting then reachReady s1 else s1
      let s3 := openBoxes restarted (setLimits s2)
      if s3.chip.safeReq then enterSafe 2 s3 else s3

/-! ### Confirmation (04 R106, R107) -/

/-- Confirmation has succeeded: the firmware is a trial no longer (R107). -/
def confirmDone (s : State) : State := { s with control := { s.control with confirm := .none, bootTrial := false } }

/-- The counter follows the firmware's own SVN; a refusal for low voltage is retried, and the firmware counts as a trial until the
counter has followed (R107). -/
def confirmCounter (out : KOut) (s : State) : State :=
  if s.control.fwSvn ≤ s.keep.counter 0 then confirmDone s
  else
    let r := requestCounter .confirm 0 s.control.fwSvn out s
    match r.1 with
    | .done => confirmDone r.2
    | .low | .waits => { r.2 with control := { r.2.control with confirm := .counter } }
    | .off => { r.2 with control := { r.2.control with confirm := .none } }

/-- The boot record has been confirmed; the counter is still to follow (R106). -/
def recordConfirmed (s : State) : State := { s with control := { s.control with confirm := .counter } }

/-- One attempt to confirm: the record first, then the counter. -/
def confirmRun (outs : List KOut) (s : State) : State :=
  if !s.fwRuns || s.control.halt0 || s.keep.waiting.any (·.origin == .confirm) then s
  else match s.control.confirm with
    | .none => s
    | .counter => confirmCounter (outs.headD .ok) s
    | .record =>
      let (_, _, trialB, attempts) := s.keep.boot
      let r := requestBoot .confirm trialB false trialB attempts (outs.headD .ok) s
      match r.1 with
      | .done => confirmCounter (outs.getD 1 .ok) (recordConfirmed r.2)
      | _ => r.2

/-! ### Staging and activation (05 R173, R174) -/

/-- The slot that is not active. -/
def inactiveB (s : State) : Bool := !s.keep.boot.1

/-- A trial is in progress: the record names one, or the firmware still counts as one (R107). -/
def trialRuns (s : State) : Bool := s.keep.boot.2.1 || s.control.bootTrial

/-- FW_STAGE. -/
def fwStage (box : Nat) (mem : ExtMem) (b : List Byte) (s : State) : State :=
  let a := field b 0x10 8
  checked box [ (a % 4096 = 0 && a < 2 ^ 48, 2, 0x10), (!trialRuns s, 0x0D, 1), (rootOk s, 2, 2) ]
    (fun s =>
      let r := verifyImage s mem a (some (field b 0x18 4))
      let s := fetchImage mem a s
      match r with
      | .error 5 => answer box 0x13 0 [] s
      | .error 3 => answer box 2 3 [] (report1 13 2 0x19 0 false (report1 112 2 0x19 0 false s))
      | .error e => answer box 2 e [] s
      | .ok i =>
        let c := { s.control with staged := some { version := i.version, slotB := inactiveB s } }
        answer box 0 0 [] { s with control := if inactiveB s then { c with fwAddrB := a } else { c with fwAddrA := a } }) s

/-- FW_ACTIVATE's commit has ended: the response, and then the restart (R174). -/
def activated (box : Nat) (r : KRes) (s : State) : State :=
  match r with
  | .done => controlRestart 0x41 false (answer box 0 0 [] { s with control := { s.control with staged := none } })
  | .low => answer box 0x0E 0 [] s
  | .off => answer box 0x10 0 [] s
  | .waits => s

/-- FW_ACTIVATE. -/
def fwActivate (box : Nat) (out : KOut) (b : List Byte) (s : State) : State :=
  let (active, _, _, _) := s.keep.boot
  if s.keep.waiting.any (·.origin == .activate box) then s
  else match s.control.staged with
    | none => answer box 2 8 [] s
    | some g =>
      if g.version ≠ field b 8 4 then answer box 2 8 [] s
      else
        let r := requestBoot (.activate box) active true g.slotB 0 out s
        activated box r.1 r.2

/-! ### Faults of the complex (04 R108-R118) -/

/-- A pair runs: the boot ROM or firmware. -/
def pairRuns (s : State) (p : Nat) : Bool :=
  let st := if p = 0 then s.control.pair0 else s.control.pair1
  s.chip.porstN && s.chip.rstN && (st == .boot || st == .run)

/-- A pair is halted by the debugger. -/
def pairHalted (s : State) (p : Nat) : Bool := if p = 0 then s.control.halt0 else s.control.halt1

/-- A word of control SRAM lies in text (R103). -/
def textWord (s : State) (word : Nat) : Bool := decide (8 * word < s.control.textSize)

/-- An ECC finding in control SRAM (R109): where the word lies decides between text and data; an error of text that is reported of a
data word cannot occur (log 3). -/
def sramError (word : Nat) (f : SramFinding) (s : State) : State :=
  match f with
  | .corrected => report1 4 1 1 0 false s
  | .text => if textWord s word then report1 3 3 2 0 false s else s
  | .scrubbed =>
    if textWord s word then report1 3 3 2 0 false s
    else report1 2 2 2 0 false { s with control := { s.control with sramPoison := insertNat (8 * word) s.control.sramPoison } }
  | .read => if textWord s word then report1 3 3 2 0 false s else report1 2 3 2 0 false s

/-- Save area of a core. -/
def saveArea (core : Nat) : Nat := 0x1FF800 + 0x200 * core

/-- The 512 bytes that an exception saves (R116). -/
def saveBytes (c : Core) (cause seq faultAddr now : Nat) : List Byte :=
  (c.g.flatMap (fun x => leBytes x.toNat 8)) ++ leBytes c.pc.toNat 8 ++ leBytes c.status.toNat 8 ++ leBytes cause 4 ++ leBytes seq 4 ++
    leBytes faultAddr 8 ++ leBytes now 8 ++ leBytes 1 4 ++ leBytes 0 4 ++ (c.ctl.flatMap (fun x => leBytes x.toNat 8)) ++ List.replicate 144 0

/-- g31 lies in the window of the current mode (R117). -/
def stackOk (c : Core) : Bool :=
  let g := (c.g.getD 31 0).toNat
  c.spLo.toNat + 256 ≤ g && g ≤ c.spHi.toNat && g % 16 = 0

/-- The registers of a core at free values from number `n` on: instructions have run that the spec does not give (log 11, log 12). -/
def freeCore (n : Nat) (c : Core) : Core :=
  { c with g := (upto 0 32).map (fun i => Config.freeWord (n + i)), pc := Config.freeWord (n + 32), status := Config.freeWord (n + 33),
           ctl := (upto 34 8).map (fun i => Config.freeWord (n + i)) }

/-- A core that firmware has run on: its registers, and the window that firmware last set for the current mode (R117; log 12). -/
def ranCore (n : Nat) (c : Core) : Core := { freeCore n c with spLo := Config.freeWord (n + 42), spHi := Config.freeWord (n + 43) }

/-- BUSY in the save area of a core as an exception finds it: a save writes 1, and the handler that it began clears it at a time of
its own, so after a save it is 1 or 0 (R116, R117 do not say who clears it; log 12). -/
def busyNow (s : State) (core : Nat) : Bool :=
  leNat (s.control.sram.readBytes (saveArea core + 0x128) 4) = 1 && Config.freeNat (s.freeNo + 44) % 2 = 1

/-- An exception of a core: the state is saved, and g31 is checked; an exception while BUSY is 1 saves nothing. Either stops the
pair (R116, R117). A poisoned BUSY word is a data word that a core reads (R109). A halted pair executes nothing (R127). -/
def coreException (core cause faultAddr : Nat) (s : State) : State :=
  if !pairRuns s (core / 2) || pairHalted s (core / 2) then s
  else
    let a := saveArea core
    let c := ranCore s.freeNo (s.control.cores.getD core {})
    let stop (s : State) : State := report1 (7 + core / 2) 3 0x0B 0 false s
    let s0 := useFree 45 s
    if mem s.control.sramPoison (a + 0x128) then report1 2 3 2 0 false s0
    else if busyNow s core then stop s0
    else
      let c' := { c with excSeq := (c.excSeq + 1) % 2 ^ 32 }
      let s1 := { s0 with control := { s0.control with
        cores := modNth s.control.cores core (fun _ => c'),
        sram := s.control.sram.writeBytes a (saveBytes c cause c'.excSeq faultAddr s.now),
        sramPoison := s.control.sramPoison.filter (fun w => w < a || a + 0x200 ≤ w) } }
      if stackOk c then s1 else stop s1

/-! ### Semaphores (04 R119-R122, R128) -/

/-- An agent may access semaphores now. -/
def agentLive (s : State) (g : SemAgent) : Bool :=
  match g with
  | .pair0 => pairRuns s 0 && !s.control.halt0
  | .pair1 => pairRuns s 1 && !s.control.halt1
  | .tap => s.mainUp && s.control.dbgLevel ≠ 0

/-- The agent is halted. -/
def agentHalted (s : State) (g : SemAgent) : Bool :=
  match g with
  | .pair0 => s.control.halt0
  | .pair1 => s.control.halt1
  | .tap => false

/-- SEMn.OWNER. -/
def ownerCode : Option SemAgent → Nat
  | some .pair0 => 0 | some .pair1 => 1 | some .tap => 2 | none => 3

/-- What an access by an agent returns, given the semaphore after it and whether LOCK_LOST was recorded before (R119, R122). -/
def semWord (x : Sem) (g : SemAgent) (lost : Bool) : Nat :=
  2 ^ 31 * b2n lost + 2 ^ 16 * x.leaseUs + 2 ^ 8 * ownerCode x.owner + b2n (x.owner == some g)

/-- Start a lease. -/
def startLease (now : Nat) (x : Sem) : Sem :=
  { x with leaseEnd := now + 1000 * x.leaseUs, frozen := x.frozen.map (fun _ => 1000 * x.leaseUs) }

/-- An access: the former owner's first one after an expiry only clears LOCK_LOST (R121; for writes log 27). -/
def semAccess (g : SemAgent) (n : Nat) (f : State → State) (s : State) : State :=
  if !agentLive s g then s
  else if (s.sem n).lost.contains g then modSem n (fun x => { x with lost := x.lost.filter (· != g) }) s
  else f s

/-- The word that an agent's read returns: a pair's on its own path, the TAP's on TDO (R122, R126). -/
def putRead (g : SemAgent) (v : Nat) (s : State) : State :=
  match g with
  | .pair0 => { s with control := { s.control with rdata0 := v } }
  | .pair1 => { s with control := { s.control with rdata1 := v } }
  | .tap => { s with mgmt := { s.mgmt with tapOut := leBytes v 4 } }

/-- Acquire a free semaphore. -/
def semTake (g : SemAgent) (n : Nat) (s : State) : State :=
  if (s.sem n).owner.isNone then modSem n (fun x => startLease s.now { x with owner := some g, frozen := none }) s else s

/-- A read of SEMn by an agent: it acquires a free semaphore unless it is a debug read, which has no effect (00 R6), and returns the
word after the access, with LOCK_LOST where that was recorded (R119, R121, R122). -/
def semRead (g : SemAgent) (n : Nat) (debug : Bool) (s : State) : State :=
  if !agentLive s g then s
  else
    let s1 := if debug then s else semAccess g n (semTake g n) s
    putRead g (semWord (s1.sem n) g ((s.sem n).lost.contains g)) s1

/-- A refused write sets the agent's ERR bit. -/
def semError (g : SemAgent) (s : State) : State :=
  { s with control := { s.control with semErr := if s.control.semErr.contains g then s.control.semErr else s.control.semErr ++ [g] } }

/-- Renew by the owner; a LEASE_US of 0 leaves the field (R120, R122). -/
def semRenew (g : SemAgent) (n lease : Nat) (s : State) : State :=
  if (s.sem n).owner = some g then modSem n (fun x => startLease s.now { x with leaseUs := if lease = 0 then x.leaseUs else lease }) s
  else semError g s

/-- Release by the owner. -/
def semRelease (g : SemAgent) (n : Nat) (s : State) : State :=
  if (s.sem n).owner = some g then modSem n (fun x => { x with owner := none, frozen := none }) s else semError g s

/-- A lease runs out (R121). -/
def leaseExpiry (n : Nat) (s : State) : State :=
  let x := s.sem n
  match x.owner with
  | none => s
  | some g =>
    if x.frozen.isSome || s.now < x.leaseEnd then s
    else report1 11 1 0x0E 0 false (modSem n (fun x => { x with owner := none, lost := if x.lost.contains g then x.lost else x.lost ++ [g] }) s)

/-- Leases of halted owners stop while FREEZE_LEASE is 1 and count otherwise (R128). -/
def refreezeSem (s : State) (x : Sem) : Sem :=
  let freeze := match x.owner with | some g => s.control.freezeLease && agentHalted s g | none => false
  match x.frozen, freeze with
  | none, true => { x with frozen := some (x.leaseEnd - s.now) }
  | some t, false => { x with frozen := none, leaseEnd := s.now + t }
  | _, _ => x

/-- Every lease follows a change of halts or of FREEZE_LEASE. -/
def refreeze (s : State) : State :=
  { s with control := { s.control with sems := s.control.sems.map (fun p => (p.1, refreezeSem s p.2)) } }

/-! ### Debug (04 R123-R128) -/

/-- A write of DEBUG_CTL has effect only with a level granted. -/
def debugWrite (f : State → State) (s : State) : State := if s.control.dbgLevel = 0 then s else f s

/-- The watchdog of a pair stops with a halt and goes on with a resume (R118). -/
def Watchdog.follow (now : Nat) (halted : Bool) (w : Watchdog) : Watchdog :=
  match w.left, halted with
  | none, true => { w with left := some (w.due - now) }
  | some t, false => { w with left := none, due := now + t }
  | _, _ => w

/-- HALTn. -/
def setHalt (pair : Nat) (h : Bool) (s : State) : State :=
  refreeze { s with control :=
    if pair = 0 then { s.control with halt0 := h, wd0 := s.control.wd0.follow s.now h }
    else { s.control with halt1 := h, wd1 := s.control.wd1.follow s.now h } }

/-- FREEZE_LEASE. -/
def setFreeze (v : Bool) (s : State) : State := refreeze { s with control := { s.control with freezeLease := v } }

/-- One instruction of a halted pair; what it does to the cores is not stated (log 5). -/
def stepPair (pair : Nat) (s : State) : State :=
  if !pairHalted s pair then s
  else
    let stepped := freeCore s.freeNo
    useFree 42 { s with control := { s.control with cores := modNth (modNth s.control.cores (2 * pair) stepped) (2 * pair + 1) stepped } }

/-- The TAP's IDCODE (02 R61): version 0x2, part number 0x5D47, JTAG_MFR, 1. -/
def State.idCode (s : State) : Nat := 0x2 * 2 ^ 28 + 0x5D47 * 2 ^ 12 + s.chip.jtagMfr * 2 + 1

/-- The challenge M (R123). ROOT_KEY_HASH stands with its most significant byte first; R123 gives no byte order of it (DESIGN CHOICE,
log 98). -/
def challengeBytes (s : State) (c : Challenge) : List Byte :=
  leBytes c.level 1 ++ leBytes c.seq 4 ++ leBytes c.time 8 ++ beBytes s.chip.rootKeyHash 48

/-- Grant a level (R125, 02 R61). -/
def grantLevel (level : Nat) (s : State) : State :=
  report1 12 1 0x0F 0 false { s with
    control := { s.control with dbgLevel := level, challenge := none },
    chip := { s.chip with testGranted := level = 2 && s.chip.testMode } }

/-- A failed exchange (R124). -/
def unlockFailed (s : State) : State :=
  report1 12 1 0x0F 0 false { s with control := { s.control with challenge := none, dbgFails := min 3 (s.control.dbgFails + 1) } }

/-- The commit of UNLOCK_SEQ has ended: the challenge is returned, or the request is refused. -/
def challengeCommitted (level : Nat) (r : KRes) (s : State) : State :=
  match r with
  | .done =>
    let c : Challenge := { level, seq := s.keep.counter 1 % 2 ^ 32, time := s.now }
    { s with control := { s.control with challenge := some c }, mgmt := { s.mgmt with tapOut := challengeBytes s c } }
  | .waits => s
  | _ => { s with mgmt := { s.mgmt with tapOut := [] } }

/-- A challenge request (R123-R125); TEST_MODE is what the filter shows at that moment, when a level-2 grant may complete (02 R61). -/
def debugChallenge (level : Nat) (out : KOut) (testMode : Bool) (s : State) : State :=
  let s := { s with chip := { s.chip with testMode } }
  if !s.mainUp then s
  else if 3 ≤ s.control.dbgFails || (level = 2 && s.liveAdmitted) then { s with mgmt := { s.mgmt with tapOut := [] } }
  else match s.keep.unlockRecord with
    | none => if level = 2 && s.chip.rootKeyHash = 0 then grantLevel 2 s else { s with mgmt := { s.mgmt with tapOut := [] } }
    | some _ =>
      let r := requestCounter (.challenge level) 1 (s.keep.counter 1 + 1) out s
      challengeCommitted level r.1 r.2

/-- The key and signature grant the level of a challenge. A level-2 answer that arrives while a LIVE binding is admitted is refused
(R124) and counts as a failed exchange, which R124 does not say (DESIGN CHOICE, log 98). -/
def unlockOk (s : State) (c : Challenge) (key sig : List Byte) : Bool :=
  s.now ≤ c.time + 10000000000 && !(c.level = 2 && s.liveAdmitted) &&
    (match s.keep.unlockRecord with
      | some d => c.level ≤ byteAt d 0x30 && Config.sha384 key = beNat (d.take 0x30)
      | none => false) &&
    Config.ecdsaP384 key (Config.sha384 (challengeBytes s c)) sig

/-- The debugger's answer to a challenge. -/
def unlockResponse (key sig : List Byte) (testMode : Bool) (s : State) : State :=
  let s1 := { s with chip := { s.chip with testMode } }
  match s.control.challenge with
  | none => s1
  | some c => if unlockOk s c key sig then grantLevel c.level s1 else unlockFailed s1

/-- The 10 s of a challenge pass. -/
def challengeTimeout (s : State) : State :=
  match s.control.challenge with
  | some c => if c.time + 10000000000 ≤ s.now then unlockFailed s else s
  | none => s

/-! ### Commands -/

/-- CC_RESTART_WRITE (04 R112). -/
def execCcRestartWrite (dt : Nat) (priv : Bool) (s : State) : Host.Outcome State Fault Refusal :=
  event (Instr.ccRestartWrite dt priv).wf dt s (mainWrite true priv (controlRestart 0x40 false))

/-- What SEM_READ_ACQUIRE does, where it can happen. -/
def onSemReadAcquire (agent : SemAgent) (n : Nat) (debug : Bool) (s : State) : State := semRead agent n (debug || agent == .tap) s

/-- SEM_READ_ACQUIRE: reads of the TAP are debug reads (04 R119, R126). -/
def execSemReadAcquire (dt : Nat) (agent : SemAgent) (n : Nat) (debug : Bool) (s : State) : Host.Outcome State Fault Refusal :=
  event (Instr.semReadAcquire dt agent n debug).wf dt s (onSemReadAcquire agent n debug)

/-- SEM_ACQUIRE (04 R122). -/
def execSemAcquire (dt : Nat) (agent : SemAgent) (n : Nat) (s : State) : Host.Outcome State Fault Refusal :=
  event (Instr.semAcquire dt agent n).wf dt s (semAccess agent n (semTake agent n))

/-- SEM_RENEW (04 R120). -/
def execSemRenew (dt : Nat) (agent : SemAgent) (n lease : Nat) (s : State) : Host.Outcome State Fault Refusal :=
  event (Instr.semRenew dt agent n lease).wf dt s (semAccess agent n (semRenew agent n lease))

/-- SEM_RELEASE (04 R120). -/
def execSemRelease (dt : Nat) (agent : SemAgent) (n : Nat) (s : State) : Host.Outcome State Fault Refusal :=
  event (Instr.semRelease dt agent n).wf dt s (semAccess agent n (semRelease agent n))

/-- LEASE_EXPIRY (04 R121). -/
def execLeaseExpiry (dt n : Nat) (s : State) : Host.Outcome State Fault Refusal :=
  event (Instr.leaseExpiry dt n).wf dt s (leaseExpiry n)

/-- DEBUG_HALT (04 R127). -/
def execDebugHalt (dt : Nat) (priv : Bool) (pair : Nat) (halt : Bool) (s : State) : Host.Outcome State Fault Refusal :=
  event (Instr.debugHalt dt priv pair halt).wf dt s (mainWrite true priv (debugWrite (setHalt pair halt)))

/-- DEBUG_STEP (04 R127). -/
def execDebugStep (dt : Nat) (priv : Bool) (pair : Nat) (s : State) : Host.Outcome State Fault Refusal :=
  event (Instr.debugStep dt priv pair).wf dt s (mainWrite true priv (debugWrite (stepPair pair)))

/-- FREEZE_LEASE_WRITE (04 R128). -/
def execFreezeLeaseWrite (dt : Nat) (priv v : Bool) (s : State) : Host.Outcome State Fault Refusal :=
  event (Instr.freezeLeaseWrite dt priv v).wf dt s (mainWrite true priv (debugWrite (setFreeze v)))

/-- DEBUG_CHALLENGE (04 R123). -/
def execDebugChallenge (dt : Nat) (ask : DebugAsk) (out : KOut) (s : State) : Host.Outcome State Fault Refusal :=
  event (Instr.debugChallenge dt ask out).wf dt s (debugChallenge ask.level out ask.testMode)

/-- DEBUG_UNLOCK_RESPONSE (04 R123). -/
def execDebugUnlockResponse (dt : Nat) (key sig : List Byte) (testMode : Bool) (s : State) : Host.Outcome State Fault Refusal :=
  event (Instr.debugUnlockResponse dt key sig testMode).wf dt s (unlockResponse key sig testMode)

/-- DEBUG_CHALLENGE_TIMEOUT (04 R123). -/
def execDebugChallengeTimeout (dt : Nat) (s : State) : Host.Outcome State Fault Refusal :=
  event (Instr.debugChallengeTimeout dt).wf dt s challengeTimeout

/-- MAILBOX_OPEN (05 R140). -/
def execMailboxOpen (dt : Nat) (mem : ExtMem) (outs : List KOut) (s : State) : Host.Outcome State Fault Refusal :=
  event (Instr.mailboxOpen dt mem outs).wf dt s (mailboxOpen mem outs)

/-- FW_CONFIRM (04 R106). -/
def execFwConfirm (dt : Nat) (outs : List KOut) (s : State) : Host.Outcome State Fault Refusal :=
  event (Instr.fwConfirm dt outs).wf dt s (confirmRun outs)

/-- FW_CONFIRM_RETRY (04 R107). -/
def execFwConfirmRetry (dt : Nat) (outs : List KOut) (s : State) : Host.Outcome State Fault Refusal :=
  event (Instr.fwConfirmRetry dt outs).wf dt s (confirmRun outs)

/-- What WATCHDOG_EXPIRY does, where it can happen. -/
def onWatchdogExpiry (pair : Nat) (s : State) : State :=
  let w := if pair = 0 then s.control.wd0 else s.control.wd1
  if pairRuns s pair && !pairHalted s pair && w.left.isNone && w.due ≤ s.now then report1 (5 + pair) 3 0x0A 0 false s else s

/-- WATCHDOG_EXPIRY: the limit has passed since the boot or since firmware set it, and firmware has not reset it in time; it does not
advance while the pair is halted (04 R118; log 97). -/
def execWatchdogExpiry (dt pair : Nat) (s : State) : Host.Outcome State Fault Refusal :=
  event (Instr.watchdogExpiry dt pair).wf dt s (onWatchdogExpiry pair)

/-- What LOCKSTEP_MISMATCH does, where it can happen. -/
def onLockstepMismatch (pair : Nat) (s : State) : State :=
  if pairRuns s pair then report1 pair 3 9 0 false s else s

/-- LOCKSTEP_MISMATCH (04 R108). -/
def execLockstepMismatch (dt pair : Nat) (s : State) : Host.Outcome State Fault Refusal :=
  event (Instr.lockstepMismatch dt pair).wf dt s (onLockstepMismatch pair)

/-- What CONTROL_SRAM_ERROR does, where it can happen. -/
def onControlSramError (word : Nat) (finding : SramFinding) (s : State) : State :=
  if s.mainUp || s.power.wake == .booting then sramError word finding s else s

/-- CONTROL_SRAM_ERROR (04 R109). -/
def execControlSramError (dt word : Nat) (finding : SramFinding) (s : State) : Host.Outcome State Fault Refusal :=
  event (Instr.controlSramError dt word finding).wf dt s (onControlSramError word finding)

/-- CORE_EXCEPTION (04 R116). -/
def execCoreException (dt core cause faultAddr : Nat) (s : State) : Host.Outcome State Fault Refusal :=
  event (Instr.coreException dt core cause faultAddr).wf dt s (coreException core cause faultAddr)

/-- What MMU_REFUSAL does, where it can happen. -/
def onMmuRefusal (s : State) : State :=
  if pairRuns s 0 || pairRuns s 1 then report1 9 3 0x0C 0 false s else s

/-- MMU_REFUSAL (04 R110). -/
def execMmuRefusal (dt : Nat) (s : State) : Host.Outcome State Fault Refusal :=
  event (Instr.mmuRefusal dt).wf dt s onMmuRefusal

/-- FW_STAGE (05 R173). -/
def execFwStage (dt box : Nat) (mem : ExtMem) (s : State) : Host.Outcome State Fault Refusal :=
  event (Instr.fwStage dt box mem).wf dt s (command box 0x7E anyReq (fwStage box mem))

/-- FW_ACTIVATE (05 R174). -/
def execFwActivate (dt box : Nat) (out : KOut) (s : State) : Host.Outcome State Fault Refusal :=
  event (Instr.fwActivate dt box out).wf dt s (command box 0x7F anyReq (fwActivate box out))

end Sys2Proof.Machine
end

