-- ==== Sys2Proof/Machine/BindCmds.lean ====
section
/-! DEFINITION. Loading, replacing, admitting and retiring bindings, and new coefficient sets (05 R153-R157, R162, R166;
07 R226-R231; 13 R424-R431). -/

namespace Sys2Proof.Machine

/-! ### Bookings -/

/-- The image whose slot table is in force (07 R231). -/
def Binding.tableImage (b : Binding) : Option Image := b.image? b.tableGen

/-- The slot table in force of an admitted binding; empty otherwise. -/
def Binding.table (b : Binding) : List SlotRec :=
  if b.admitted then (match b.tableImage with | some i => i.slots.getD b.opp [] | none => []) else []

/-- Records of an admitted binding that book leaves of quire `q`. -/
def Binding.bookedOn (b : Binding) (q : Nat) : List SlotRec :=
  b.table.filter (fun r => if r.replay then b.spare == some q
    else b.quiresA[r.relQuire]? == some q || b.quiresB[r.relQuire]? == some q)

/-- All records that book leaves of a quire. -/
def bookedOn (s : State) (q : Nat) : List SlotRec := s.bindings.flatMap (fun p => p.2.bookedOn q)

/-- A record books no leaf in a slot in which a record of the list books it. -/
def bookingFree (l : List SlotRec) (r : SlotRec) : Bool := l.all (fun x => !slotsMeet x r || Nat.land x.leafMask r.leafMask = 0)


/-- Leaf-slots of a table per press period; a record without REPLAY counts twice for LIVE (07 R230). -/
def leafSlots (live : Bool) (l : List SlotRec) : Nat :=
  (l.map (fun r => r.run * popcount r.leafMask * (if live && !r.replay then 2 else 1))).sum

/-! ### Placement (07 R228) -/

/-- Records of relative quire `r`. -/
def relRecords (table : List SlotRec) (r : Nat) : List SlotRec := table.filter (fun x => !x.replay && x.relQuire = r)

/-- No leaf that relative quire `r` books is booked on quire `q`. -/
def slotsFit (s : State) (table : List SlotRec) (r q : Nat) : Bool :=
  let l := bookedOn s q
  (relRecords table r).all (bookingFree l)

/-- The store of quire `q` has room for `kib` more. -/
def storeFits (s : State) (kib q : Nat) : Bool := takenKib s q + kib ≤ 2048

/-- Quires for the relative quires from `r` on, out of a range, none taken twice. -/
def placeQuires (s : State) (table : List SlotRec) (kib : Nat) (range : List Nat) : List Nat → List Nat → Option (List Nat)
  | [], _ => some []
  | r :: t, taken =>
    match range.find? (fun q => !mem taken q && slotsFit s table r q && storeFits s kib q) with
    | none => none
    | some q => (placeQuires s table kib range t (q :: taken)).map (q :: ·)

/-- Quires of a range that placement may use; the source of a migration takes no new work (log 62). -/
def placeRange (s : State) (lo n : Nat) : List Nat :=
  (workQuires s).filter (fun q => lo ≤ q && q < lo + n && s.faults.migrations.all (·.src ≠ q))

/-- One relative quire finds a quire by an augmenting path; `m` maps quires to relative quires. -/
def augment (fits : Nat → Nat → Bool) (range : List Nat) : Nat → Nat → List Nat → Tbl Nat → Option (Tbl Nat) × List Nat
  | 0, _, seen, _ => (none, seen)
  | fuel + 1, r, seen, m =>
    range.foldl (fun (acc : Option (Tbl Nat) × List Nat) q =>
      match acc with
      | (some _, _) => acc
      | (none, seen) =>
        if mem seen q || !fits r q then (none, seen)
        else match Tbl.get? m q with
          | none => (some (Tbl.set m q r), q :: seen)
          | some r' => match augment fits range fuel r' (q :: seen) m with
            | (some m', seen') => (some (Tbl.set m' q r), seen')
            | (none, seen') => (none, seen')) (none, seen)

/-- Some assignment gives every relative quire a quire of its own. -/
def assignable (fits : Nat → Nat → Bool) (range : List Nat) : List Nat → Tbl Nat → Bool
  | [], _ => true
  | r :: t, m => match (augment fits range 65 r [] m).1 with
    | some m' => assignable fits range t m'
    | none => false

/-- The spare quire that takes the replay records (07 R228). -/
def replaySpare (s : State) (table : List SlotRec) : Option Nat :=
  let recs := table.filter (·.replay)
  ((upto 0 64).filter (fun q => mem s.press.spareSet q && !mem s.faults.retired q && !(s.quire q).testing &&
      s.faults.migrations.all (·.dst ≠ q))).find?
    (fun q => let l := bookedOn s q; recs.all (bookingFree l))

/-- Slots in which a table reads coefficients (13 R428). -/
def readsCoeffs (i : Image) (r : SlotRec) : Bool := match i.stages[r.stage]? with | some t => t.coeffRun ≠ 0 | none => false

/-- No coefficient-reading reservation shares a slot with one of an admitted binding (13 R428). -/
def ringFree (s : State) (i : Image) (table : List SlotRec) : Bool :=
  s.bindings.all (fun p => match p.2.tableImage with
    | some j => (p.2.table.filter (readsCoeffs j)).all (fun x => (table.filter (readsCoeffs i)).all (fun r => !slotsMeet x r))
    | none => true)

/-- Where a binding is placed: replica A or the only copy, replica B, and the spare of its replay records; or the DETAIL of check 8. -/
def placement (s : State) (i : Image) (live : Bool) (opp : Nat) : Except Nat (List Nat × List Nat × Option Nat) :=
  let table := i.slots.getD opp []
  let rels := upto 0 i.quires
  let ranges := if live then [placeRange s 0 32, placeRange s 32 32] else [placeRange s 0 64]
  let spare := replaySpare s table
  if !ringFree s i table || !ranges.all (fun rg => assignable (slotsFit s table) rg rels []) || (live && spare.isNone) then .error 1
  else match ranges.map (fun rg => placeQuires s table i.qstoreKib rg rels []) with
    | [some a, some b] => .ok (a, b, spare)
    | [some a] => .ok (a, [], none)
    | _ => .error 2

/-! ### Resident coefficients (13 R426, R430, R431) -/

/-- Segments of a set. -/
def segCount (c : CoeffRec) : Nat := cdiv c.size 4096
/-- Segments of an image's resident sets. -/
def residentSegs (i : Image) : Nat := ((i.coeffs.filter (·.resident)).map segCount).sum

/-- Free places of a quire. -/
def freePlaces (s : State) (q : Nat) : Nat := 64 - (s.mem.segments.filter (fun g => g.quire = q)).length
/-- Free places of the non-spare quires. -/
def allFreePlaces (s : State) : Nat := ((workQuires s).map (freePlaces s)).sum

/-- The non-spare quire with the most free places, the lowest-numbered on ties. -/
def segmentHome (s : State) : Option Nat :=
  (workQuires s).foldl (fun (m : Option Nat) q => match m with
    | none => if freePlaces s q = 0 then none else some q
    | some p => if freePlaces s p < freePlaces s q then some q else some p) none

/-- The bytes of a segment, padded with zeros. -/
def segmentBytes (d : List Byte) (k : Nat) : List Byte := slice d (4096 * k) 4096

/-- Place segment `k` of set `set` of a generation. -/
def placeSegment (h gen set k : Nat) (d : List Byte) (s : State) : State :=
  match segmentHome s with
  | none => s
  | some q => { s with mem := { s.mem with
      segments := s.mem.segments ++ [{ binding := h, gen, set, seg := k, quire := q, crc := crc32c (segmentBytes d k) }] } }

/-- Place the resident sets of a generation, in coefficient-table order. -/
def placeSegments (h gen : Nat) (i : Image) (s : State) : State :=
  forEach (enum i.coeffs) (fun p s => match p.2.resident, p.2.data with
    | true, some d => forEach (upto 0 (segCount p.2)) (fun k s => placeSegment h gen p.1 k d s) s
    | _, _ => s) s

/-- A binding of an admitted class holds the segment. -/
def admittedSegment (s : State) (g : Segment) : Bool := match Tbl.get? s.bindings g.binding with | some b => b.admitted | none => false

/-- Places of the resident capacity that admitted bindings do not hold (07 R227 check 6). -/
def unheldPlaces (s : State) : Nat := 64 * (workQuires s).length - (s.mem.segments.filter (admittedSegment s)).length

/-- Evict the segments of bindings that are not admitted (13 R431). -/
def evictBestEffort (s : State) : State := { s with mem := { s.mem with segments := s.mem.segments.filter (admittedSegment s) } }

/-! ### LOAD_BINDING -/

/-- A read of memory that firmware makes for a command: the guard's refusal, an error of the memory port, or the bytes. -/
def firmwareRead (s : State) (c : Nat) (mem : ExtMem) (a n : Nat) : Except (Bool × Nat) (List Byte) :=
  match guardCheck (s.ctx c).guards false a n with
  | some line => .error (true, line)
  | none => if extBad mem a n then .error (false, a) else .ok (extRead mem a n)

/-- A read that failed: GUARD_VIOLATION, or CONTAINED_FAULT with the port's fault (06 R184, 02 R38; log 40). -/
def readFailed (box c : Nat) (e : Bool × Nat) (s : State) : State :=
  if e.1 then answer box 3 0 [] (refuse c false e.2 s)
  else answer box 8 0 [] (report1 (112 + portOf e.2) 2 0x19 c true s)

/-- The image reads of LOAD_BINDING and LOAD_COEFF on the memory ports: the context's tag, class 3, no bucket (02 attributes; 13 R435,
R436; log 8 for their bytes). -/
def presentImage (c a n : Nat) : State → State := readTxs (imageRead c) (.fetched c) [(a, n)]

/-- Bindings of a context. -/
def ctxBindings (s : State) (c : Nat) : Nat := (s.bindings.filter (fun p => p.1 / 2 ^ 24 = c)).length

/-- Read and validate the image of a request; `run` gets it. -/
def withImage (box : Nat) (mem : ExtMem) (b : List Byte) (run : Image → State → State) (s : State) : State :=
  let c := byteAt b 8
  let a := field b 0x10 8
  let size := field b 0x18 4
  match firmwareRead s c mem a size with
  | .error e => readFailed box c e s
  | .ok bs =>
    let s := presentImage c a size s
    match validate bs size a with
    | .error 2 => answer box 0x13 0 [] s
    | .error k => answer box 2 0x10 [] { s with press := { s.press with loadErrCtx := c, loadErrCheck := k } }
    | .ok i => run { i with guards := (s.ctx c).guards } s

/-- IMAGE_ADDR and IMAGE_SIZE (05 R153). -/
def imageFields (b : List Byte) : List (Bool × Nat × Nat) := [(field b 0x10 8 % 4096 = 0 && field b 0x10 8 < 2 ^ 48, 2, 0x10), (field b 0x18 4 ≤ 2 ^ 25, 2, 0x18)]

/-- Payload of a LOAD_BINDING response. -/
def loadPayload (h gen : Nat) (i : Image) : List Byte := leBytes h 4 ++ leBytes gen 4 ++ leBytes i.bindingId 4

/-- A new binding, at generation 1. -/
def newBinding (i : Image) : Binding :=
  { gens := [(1, i)], gen := 1, lastGen := 1, pending := none, tableGen := 1, st := .loaded, cls := none, precedence := 0, opp := 0,
    quiresA := [], quiresB := [], spare := none }

/-- LOAD_BINDING of a new binding; `alloc` is the number that firmware gives its handle, one that no binding of the context has. -/
def loadNew (box : Nat) (mem : ExtMem) (alloc : Nat) (b : List Byte) (s : State) : State :=
  let c := byteAt b 8
  let h := c * 2 ^ 24 + alloc
  if h = 0 || Tbl.has s.bindings h then s
  else
    checked box (imageFields b ++ [(ctxBindings s c < 64 && s.bindings.length < 1024, 0x0D, 2)])
      (withImage box mem b (fun i s =>
        answer box 0 0 (loadPayload h 1 i) { s with bindings := Tbl.set s.bindings h (newBinding i) })) s

/-! ### New generations (05 R145, R155, 07 R231) -/

/-- Every slot of `[lo, hi)` is covered by intervals. -/
def covered (ivs : List (Nat × Nat)) (hi : Nat) : Nat → Nat → Bool
  | 0, lo => hi ≤ lo
  | fuel + 1, lo => hi ≤ lo || (match ivs.find? (fun v => v.1 ≤ lo && lo < v.2) with
    | some v => covered ivs hi fuel v.2
    | none => false)

/-- A record of the new table lies within what the old table books, with no more CYCLES. -/
def recWithin (old : List SlotRec) (r : SlotRec) : Bool :=
  (upto 0 32).all (fun l => !bit r.leafMask l ||
    (let ivs := (old.filter (fun x => x.relQuire = r.relQuire && bit x.leafMask l && r.cycles ≤ x.cycles)).map (fun x => (x.first, x.first + x.run))
     covered ivs (r.first + r.run) (ivs.length + 1) r.first))

/-- A replacement generation of an admitted binding (07 R231): DETAIL of the first failing quantity. -/
def replacementFail (o i : Image) (opp : Nat) : Option Nat :=
  let sameUnits := o.stages.length = i.stages.length && (List.zipWith (fun (x y : StageRec) => decide (x.unit = y.unit)) o.stages i.stages).all id
  if i.periodSlots ≠ o.periodSlots then some 1
  else if o.coeffKib < i.coeffKib then some 3
  else if o.rdBytes < i.rdBytes || o.wrBytes < i.wrBytes then some 4
  else if !sameUnits || !(i.slots.getD opp []).all (recWithin (o.slots.getD opp [])) then some 1
  else if o.qstoreKib < i.qstoreKib then some 2
  else none

/-- Remove the occupant of a binding's pending slot: its notice carries SUPERSEDED, and it never takes force (05 R145). -/
def supersede (h : Nat) (s : State) : State :=
  match Tbl.get? s.bindings h with
  | some b => match b.pending with
    | some g =>
      let s1 := notifyWhere (fun o => o.what == .binding h && o.value = g) 0x0A s
      modBinding h (fun b => { b with pending := none, gens := Tbl.erase b.gens g })
        { s1 with mem := { s1.mem with segments := s1.mem.segments.filter (fun x => !(x.binding = h && x.gen = g)) } }
    | none => s
  | none => s

/-- An accepted update of a binding takes the pending slot, and takes force at once where no sample is in flight; the resident sets of
an admitted binding need free places (13 R430). -/
def acceptUpdate (box h : Nat) (i : Image) (payload : Nat → List Byte) (s : State) : State :=
  match Tbl.get? s.bindings h with
  | none => s
  | some b =>
    let g := b.lastGen + 1
    let s0 := supersede h s
    let base := modBinding h (fun b => { b with lastGen := g }) s0
    if b.admitted && allFreePlaces s0 < residentSegs i then
      (if (s.box box).room then deferredFails box 0x0C (.binding h) g (payload g) base else answer box 0x0D 3 [] s)
    else deferred box (.binding h) g (payload g) (fun _ =>
        let s1 := modBinding h (fun b => { b with gens := Tbl.set b.gens g i, pending := some g }) base
        let s2 := if b.admitted then placeSegments h g i s1 else s1
        when (!bindingBusy s2 h) (promote h) s2) s

/-- A binding exists and is not being retired. -/
def liveHandle (s : State) (h : Nat) : Bool := Tbl.has s.bindings h
/-- RETIRE_BINDING has not been given for the binding. -/
def notRetiring (s : State) (h : Nat) : Bool := match Tbl.get? s.bindings h with | some b => b.st != .retiring | none => true
/-- A LIVE or PROMPT binding is changed through the management mailbox only. -/
def mayChange (s : State) (box h : Nat) : Bool := box = 256 || (match Tbl.get? s.bindings h with | some b => !b.admitted | none => true)

/-- LOAD_BINDING with REPLACE_HANDLE. -/
def loadReplace (box : Nat) (mem : ExtMem) (b : List Byte) (s : State) : State :=
  let h := field b 0x0C 4
  checked box ([(liveHandle s h, 2, 0x0C), (mayChange s box h, 0x10, 0)] ++ imageFields b ++ [(notRetiring s h, 0x0D, 1)])
    (withImage box mem b (fun i s =>
      match Tbl.get? s.bindings h with
      | none => s
      | some x =>
        let fail := if x.admitted then (match x.image with | some o => replacementFail o i x.opp | none => none) else none
        match fail with
        | some d => answer box 0x0C d [] s
        | none => acceptUpdate box h i (fun g => loadPayload h g i) s)) s

/-- The record of (KIND, SET_INDEX) in the generation in force. -/
def coeffRecord (s : State) (h kind index : Nat) : Option CoeffRec :=
  match Tbl.get? s.bindings h with
  | some b => match b.image with | some i => i.coeffs.find? (fun c => c.kind = kind && c.index = index) | none => none
  | none => none

/-- The image with the data of one set replaced. -/
def withSet (i : Image) (kind index a crc : Nat) (d : List Byte) (gs : List Guard) : Image :=
  { i with
    guards := gs,
    coeffs := i.coeffs.map (fun c => if c.kind = kind && c.index = index then { c with addr := a, crc, data := some d } else c) }

/-- LOAD_COEFF (05 R166). -/
def loadCoeff (box : Nat) (mem : ExtMem) (b : List Byte) (s : State) : State :=
  let c := byteAt b 8
  let kind := byteAt b 9
  let index := field b 0x0A 2
  let h := field b 0x0C 4
  let a := field b 0x10 8
  let size := field b 0x18 4
  let crc := field b 0x1C 4
  let r := coeffRecord s h kind index
  checked box
    [ (liveHandle s h, 2, 0x0C), (kind ≤ 2, 2, 9), (r.isSome, 2, 0x0A), (match r with | some x => x.size = size | none => true, 2, 0x18),
      (mayChange s box h, 0x10, 0), (notRetiring s h, 0x0D, 1) ]
    (fun s => match firmwareRead s c mem a size with
      | .error e => readFailed box c e s
      | .ok d =>
        let s := presentImage c a size s
        if crc32c d ≠ crc then answer box 2 0x1C [] s
        else match (Tbl.get? s.bindings h).bind Binding.image with
          | some i => acceptUpdate box h (withSet i kind index a crc d (s.ctx c).guards) (fun g => leBytes g 4) s
          | none => s) s

/-! ### ADMIT_BINDING (07 R227-R230) -/

/-- Bandwidth of a slot in each direction at a point (07 R226). -/
def slotBandwidth (opp : Nat) : Nat := if opp = 0 then 376320 else if opp = 1 then 301056 else 188160

/-- A header field summed over the admitted bindings. -/
def admittedSum (s : State) (f : Image → Nat) : Nat :=
  (s.bindings.map (fun p => if p.2.admitted then (match p.2.tableImage with | some i => f i | none => 0) else 0)).sum

/-- Some LIVE or PROMPT binding is admitted. -/
def anyAdmitted (s : State) : Bool := s.bindings.any (·.2.admitted)

/-- The admission of a placed binding. -/
def takeAdmission (h cls prec opp : Nat) (i : Image) (p : List Nat × List Nat × Option Nat) (s : State) : State :=
  let first := !anyAdmitted s
  let s1 := modBinding h (fun b => { b with
    st := .admitted, cls := some cls, precedence := prec, opp, quiresA := p.1, quiresB := p.2.1, spare := p.2.2, tableGen := b.gen }) s
  let s2 := when (allFreePlaces s1 < residentSegs i) evictBestEffort
    { s1 with mem := { s1.mem with segments := s1.mem.segments.filter (·.binding ≠ h) } }
  let gen := match Tbl.get? s2.bindings h with | some b => b.gen | none => 0
  let s3 := placeSegments h gen i s2
  let s4 := if first then { s3 with press := { s3.press with period := i.periodSlots } } else s3
  if opp < s4.power.oppPending then wantOpp opp s4 else s4

/-- ADMIT_BINDING. -/
def admitBinding (box : Nat) (b : List Byte) (s : State) : State :=
  let h := field b 0x0C 4
  let cls := byteAt b 9
  let opp := byteAt b 0x0B
  match (Tbl.get? s.bindings h).bind (fun x => x.image.map (fun i => (x, i))) with
  | none => answer box 2 0x0C [] s
  | some (x, i) =>
    let live := cls = 0
    let p := placement s i live opp
    checked box
      [ (cls ≤ 1, 2, 9), (byteAt b 0x0A ≤ 15, 2, 0x0A), (opp ≤ 2, 2, 0x0B),
        (!x.admitted && x.st != .retiring, 0x0D, 1),
        (bit i.classes cls, 2, 9),
        (s.power.fastest ≤ opp && opp ≤ s.power.slowest, 0x0C, 5),
        (!(i.slots.getD opp []).isEmpty, 2, 0x0B),
        ((!anyAdmitted s || i.periodSlots = s.press.period) && (!live || 1 ≤ s.press.spares), 0x0C, 1),
        (i.coeffs.all (fun c => c.resident && c.data.isSome) && i.coeffKib ≤ 16384 && residentSegs i ≤ unheldPlaces s, 0x0C, 3),
        (admittedSum s Image.rdBytes + i.rdBytes ≤ slotBandwidth opp && admittedSum s Image.wrBytes + i.wrBytes ≤ slotBandwidth opp, 0x0C, 4) ]
      (fun s => match p with
        | .error d => answer box 0x0C d [] s
        | .ok q =>
          answer box 0 0 (leBytes (leafSlots live (i.slots.getD opp [])) 4 ++ leBytes i.periodSlots 4 ++ leBytes x.gen 4)
            (takeAdmission h cls (byteAt b 0x0A) opp i q s)) s

/-- A press period starts now. -/
def atPeriodStart (s : State) : Bool := s.press.running && s.press.periodStart = s.now

/-- ADMISSION_TAKES_EFFECT: at a period start, with the point acknowledged (07 R230). -/
def takeEffect (h : Nat) (s : State) : State :=
  match Tbl.get? s.bindings h with
  | some b => if b.st == .admitted && atPeriodStart s && !s.power.oppWait && s.bookPoint ≤ b.opp then
      modBinding h (fun b => { b with st := .planned }) s else s
  | none => s

/-! ### RETIRE_BINDING (05 R157) -/

/-- A stream is attached under the binding, or is being attached or detached. -/
def hasStreams (s : State) (h : Nat) : Bool := s.streams.any (fun p => p.2.binding = h)

/-- A binding that is out of the plan, with nothing left that uses it, ends: its handle becomes invalid and the notice follows. Updates
that still wait are told ABORTED (log 41). -/
def endBinding (h : Nat) (s : State) : State :=
  match Tbl.get? s.bindings h with
  | none => s
  | some b =>
    if b.st == .retiring && b.cls.isNone && !bindingBusy s h && !hasStreams s h then
      let s1 := notify (.binding h) 1 { s with
        bindings := Tbl.erase s.bindings h, mem := { s.mem with segments := s.mem.segments.filter (·.binding ≠ h) },
        press := { s.press with quires := s.press.quires.map (fun x => { x with micro := x.micro.filter (·.1 ≠ h) }) } }
      notify (.retire h) 0 s1
    else s

/-- RETIRE_BINDING. -/
def retireBinding (box : Nat) (b : List Byte) (s : State) : State :=
  let h := field b 0x0C 4
  checked box [ (liveHandle s h, 2, 0x0C), (mayChange s box h, 0x10, 0), (notRetiring s h, 0x0D, 1) ]
    (deferred box (.retire h) h [] (fun s =>
      endBinding h (modBinding h (fun b => { b with st := .retiring, cls := if b.admitted then b.cls else none }) s))) s

/-- The streams of a binding leave with the gathering already started (05 R157). -/
def detachStreams (h : Nat) (s : State) : State :=
  { s with streams := s.streams.map (fun p => if p.2.binding = h && (p.2.st == .attached || p.2.st == .attaching) then
      (p.1, { p.2 with st := .detaching, retiring := true }) else p) }

/-- A LIVE gathering of the binding is not committed yet. -/
def liveInFlight (s : State) (h : Nat) : Bool :=
  s.works.any (fun p => p.2.binding = h && (match p.2.kind with | .live _ | .missing _ => p.2.phase != .done | _ => false))

/-- The areas of a binding in the quires it stands on are released (13 R425). -/
def releasePlaces (b : Binding) : State → State :=
  releaseStore (b.quiresA ++ b.quiresB) (match b.image? b.gen with | some i => i.qstoreKib | none => 0)

/-- A binding has left the plan: with none left the press period is 500 slots again, and a STANDBY target that was out of reach is tried
(03 R72, 07 R224). -/
def planShrinks (s : State) : State :=
  let s1 := if anyAdmitted s then s else { s with press := { s.press with period := 500 } }
  if s1.press.running then s1 else retryTarget s1

/-- BINDING_LEAVES_PLAN: at the end of the press period a retired binding leaves the plan, its streams after the gathering already
started, for which a LIVE binding keeps its reservations until then; and then the binding ends. -/
def leavePlan (h : Nat) (s : State) : State :=
  match Tbl.get? s.bindings h with
  | none => s
  | some b =>
    if b.st != .retiring then s
    else if b.cls.isSome then
      (if !b.leaving && !atPeriodStart s && s.press.running then s
       else
         let s1 := finishDetaches (detachStreams h (modBinding h (fun b => { b with leaving := true }) s))
         if liveInFlight s1 h then s1
         else
           let s2 := modBinding h (fun b => { b with cls := none }) (releasePlaces b s1)
           endBinding h (planShrinks s2))
    else endBinding h s

/-! ### Commands -/

/-- LOAD_BINDING (05 R154). -/
def execLoadBinding (dt box : Nat) (mem : ExtMem) (alloc : Nat) (s : State) : Host.Outcome State Fault Refusal :=
  event (Instr.loadBinding dt box mem alloc).wf dt s (command box 0x10 (fun b => field b 0x0C 4 = 0) (loadNew box mem alloc))

/-- LOAD_BINDING_REPLACE (05 R155). -/
def execLoadBindingReplace (dt box : Nat) (mem : ExtMem) (s : State) : Host.Outcome State Fault Refusal :=
  event (Instr.loadBindingReplace dt box mem).wf dt s (command box 0x10 (fun b => !(field b 0x0C 4 = 0)) (loadReplace box mem))

/-- ADMIT_BINDING (07 R227). -/
def execAdmitBinding (dt box : Nat) (s : State) : Host.Outcome State Fault Refusal :=
  event (Instr.admitBinding dt box).wf dt s (command box 0x11 anyReq (admitBinding box))

/-- ADMISSION_TAKES_EFFECT (07 R230). -/
def execAdmissionTakesEffect (dt handle : Nat) (s : State) : Host.Outcome State Fault Refusal :=
  event (Instr.admissionTakesEffect dt handle).wf dt s (takeEffect handle)

/-- RETIRE_BINDING (05 R157). -/
def execRetireBinding (dt box : Nat) (s : State) : Host.Outcome State Fault Refusal :=
  event (Instr.retireBinding dt box).wf dt s (command box 0x12 anyReq (retireBinding box))

/-- BINDING_LEAVES_PLAN (05 R157). -/
def execBindingLeavesPlan (dt handle : Nat) (s : State) : Host.Outcome State Fault Refusal :=
  event (Instr.bindingLeavesPlan dt handle).wf dt s (leavePlan handle)

/-- LOAD_COEFF (05 R166). -/
def execLoadCoeff (dt box : Nat) (mem : ExtMem) (s : State) : Host.Outcome State Fault Refusal :=
  event (Instr.loadCoeff dt box mem).wf dt s (command box 0x48 anyReq (loadCoeff box mem))

end Sys2Proof.Machine
end

