-- ==== Sys2Proof/Machine/Events.lean ====
section
/-! DEFINITION. The event controller: claims, completions, signalling, moderation, idle hints, messages and parity
(16 R514-R523). -/

namespace Sys2Proof.Machine

/-- What a claim returns: the highest-priority pending source, or 0x3FF (16 R514). -/
def claimValue (s : State) (t : Nat) : Nat :=
  if (s.target t).service.isSome then 0x3FF else (pendingAt s t).getD 0x3FF

/-- A non-debug read of TGT_CLAIM (16 R514). -/
def claim (t : Nat) (s : State) : State :=
  if (s.target t).service.isSome then s
  else match pendingAt s t with
    | some n => modTarget t (fun x => { x with service := some n, out := false }) s
    | none => s

/-- A write of TGT_COMPLETE (16 R515). -/
def complete (t n : Nat) (s : State) : State :=
  if (s.target t).service = some n then modTarget t (fun x => { x with service := none, msgSent := false }) s
  else { s with events := { s.events with completeErr := true } }

/-- The moderation timer starts (16 R518). -/
def startTimer (now : Nat) (x : Target) : Target := { x with modEnd := if x.modUs = 0 then none else some (now + 1000 * x.modUs) }

/-- EVT_OUT[t] rises when t is ready in level mode (16 R517). -/
def signal (t : Nat) (s : State) : State :=
  let x := s.target t
  if readyToSignal s t && !x.modeNow && !x.out then modTarget t (fun x => startTimer s.now { x with out := true }) s else s

/-- The message word for source `n` (16 R519). -/
def messageWord (x : Target) (n : Nat) : Nat := x.msgData * 1024 + n

/-- One message is issued when t is ready in message mode (16 R519). -/
def message (t : Nat) (s : State) : State :=
  let x := s.target t
  if readyToSignal s t && x.modeNow && !x.msgPend && !x.msgSent then
    let n := (pendingAt s t).getD 0
    transfer { sys := true, cls := 3, prio := 2, port0 := true } (.message t) x.msgAddr 4 (leBytes (messageWord x n) 4)
      (modTarget t (fun x => startTimer s.now { x with msgPend := true, msgSent := true }) s)
  else s

/-- A message that was not written well counts as delivered, and is counted (16 R521). -/
def messageFailed (t : Nat) (s : State) : State :=
  let s1 := modTarget t (fun x => { x with msgPend := false, msgErr := sat32 (x.msgErr + 1) }) s
  { s1 with events := { s1.events with msgErr := true } }

/-- The response of a message; an error response counts and raises CORRECTED (16 R521). -/
def messageDone (t resp : Nat) (s : State) : State :=
  if resp = 0 then modTarget t (fun x => { x with msgPend := false }) s
  else report1 112 1 0x19 0 false (messageFailed t s)

/-- The moderation timer of t ends. -/
def moderationEnd (t : Nat) (s : State) : State :=
  modTarget t (fun x => if x.moderated s.now then x else { x with modEnd := none }) s

/-- Clear an enable word (32 sources). -/
def clearEnables (k : Nat) (s : State) : State :=
  { s with events := { s.events with enabled := s.events.enabled.filter (fun n => n / 32 ≠ k), enableLost := true } }

/-- The sources of a routing word (4 sources) lose their enables. -/
def clearRouteWord (k : Nat) (s : State) : State :=
  { s with events := { s.events with
      enabled := s.events.enabled.filter (fun n => n / 4 ≠ k), route := s.events.route.filter (fun p => p.1 / 4 ≠ k), enableLost := true } }

/-- A parity error in the controller's state (16 R523). PARITY and CORRECTED are of an error that the copy restores; an error in a target's
service state is CONTAINED (DESIGN CHOICE, log 116). -/
def eventParity (k : EvtParity) (s : State) : State :=
  match k with
  | .restored => report1 126 1 3 0 false { s with events := { s.events with parity := true } }
  | .enableWord k => report1 126 2 3 0 false (clearEnables k s)
  | .routeWord k => report1 126 2 3 0 false (clearRouteWord k s)
  | .service t => report1 126 2 3 0 false (modTarget t (fun x => { x with service := none }) s)

/-! ### Commands -/

/-- TGT_CLAIM: a read of the claim register; a debug read claims nothing (16 R514, 02 R43). -/
def execTgtClaim (dt t : Nat) (priv debug : Bool) (s : State) : Host.Outcome State Fault Refusal :=
  event (Instr.tgtClaim dt t priv debug).wf dt s (mainRead true priv debug (claimValue · t) (claim t))

/-- TGT_COMPLETE (16 R515). -/
def execTgtComplete (dt t src : Nat) (priv : Bool) (s : State) : Host.Outcome State Fault Refusal :=
  event (Instr.tgtComplete dt t src priv).wf dt s (mainWrite true priv (complete t src))

/-- EVT_SIGNAL (16 R517). -/
def execEvtSignal (dt t : Nat) (s : State) : Host.Outcome State Fault Refusal :=
  event (Instr.evtSignal dt t).wf dt s (signal t)

/-- EVT_MESSAGE (16 R519). -/
def execEvtMessage (dt t : Nat) (s : State) : Host.Outcome State Fault Refusal :=
  event (Instr.evtMessage dt t).wf dt s (message t)

/-- MODERATION_EXPIRY (16 R518). -/
def execModerationExpiry (dt t : Nat) (s : State) : Host.Outcome State Fault Refusal :=
  event (Instr.moderationExpiry dt t).wf dt s (moderationEnd t)

/-- What HOST_IDLE_EDGE does, where it can happen. -/
def onHostIdleEdge (t : Nat) (level : Bool) (s : State) : State :=
  if s.mainUp then modTarget t (fun x => { x with idle := level }) s else s

/-- HOST_IDLE_EDGE: the filtered level changes (02 R53, 16 R518). -/
def execHostIdleEdge (dt t : Nat) (level : Bool) (s : State) : Host.Outcome State Fault Refusal :=
  event (Instr.hostIdleEdge dt t level).wf dt s (onHostIdleEdge t level)

/-- What EVT_STATE_PARITY does, where it can happen. -/
def onEvtStateParity (kind : EvtParity) (s : State) : State :=
  if eventsRun s then eventParity kind s else s

/-- EVT_STATE_PARITY (16 R523). -/
def execEvtStateParity (dt : Nat) (kind : EvtParity) (s : State) : Host.Outcome State Fault Refusal :=
  event (Instr.evtStateParity dt kind).wf dt s (onEvtStateParity kind)

end Sys2Proof.Machine
end

