-- ==== Sys2Proof/Machine/FaultCmds.lean ====
section
/-! DEFINITION. Commands on the fault collector, its pin and log, fault injection and device safe state (14 R465-R490). -/

namespace Sys2Proof.Machine

/-! ### The pin -/

/-- Some record has pin class HOLD_MIN or above (14 R470). -/
def pinHeld (s : State) : Bool := s.faults.records.any (fun p => s.faults.holdMin ≤ p.2.pin)

/-- GX_FAULT_N rises when neither a pulse nor a record holds it (14 R470). -/
def releasePin (s : State) : State :=
  if s.chip.keeperInit && s.faults.pinLow && !s.faults.pulse && !pinHeld s then
    { s with faults := { s.faults with pinLow := false, pinClass := 0, highHold := true } }
  else s

/-- The end of a pulse of 12 periods. -/
def pulseEnd (s : State) : State :=
  if s.faults.pulse then releasePin { s with faults := { s.faults with pulse := false } } else s

/-- The end of the 4 periods since the last rise; a waiting pulse starts. -/
def highTimeEnd (s : State) : State :=
  let s1 := { s with faults := { s.faults with highHold := false } }
  if s.faults.highHold && s.faults.pulseWaits then pulseNow s1 else s1

/-! ### Acknowledgement (14 R468) -/

/-- A stream that a record of scope STREAM names is still attached. -/
def namedStreamAttached (s : State) (src detail : Nat) : Bool :=
  if src = 124 then Tbl.has s.streams detail else !(portStreams s detail).isEmpty

/-- Host software may acknowledge the record. -/
def mayAcknowledge (s : State) (src : Nat) (r : Record) : Bool :=
  r.cls ≠ 3 || (!(r.scope == .device && !r.sinceRst) && !(r.scope == .stream && namedStreamAttached s src r.detail))

/-- Remove a record. -/
def dropRecord (src : Nat) (s : State) : State :=
  releasePin { s with faults := { s.faults with records := Tbl.erase s.faults.records src } }

/-- A write of 1 to a FAULT_STICKY bit. -/
def acknowledge (src : Nat) (s : State) : State :=
  match Tbl.get? s.faults.records src with
  | some r => if mayAcknowledge s src r then dropRecord src s else s
  | none => s

/-- Every log entry of a source has been journaled: none is in the log or firmware's buffer (14 R468, 15 R503). -/
def journaled (s : State) (src : Nat) : Bool :=
  !(s.faults.log.any (·.source = src)) && !(s.keep.jbuf.any (·.source = src))

/-- Firmware may acknowledge the record now: CORRECTED or CONTAINED, journaled, at least 1 ms old (14 R468). While pair 1 is halted it does
not (04 R127; log 99). -/
def firmwareMayAck (s : State) (src : Nat) (r : Record) : Bool :=
  !s.control.halt1 && r.cls ≠ 3 && journaled s src && decide (r.time + 1000000 ≤ s.now)

/-- Firmware's acknowledgements at a press-period start (14 R468). -/
def firmwareAcks (s : State) : State :=
  forEach (s.faults.records.filter (fun p => firmwareMayAck s p.1 p.2)) (fun p => dropRecord p.1) s

/-! ### Log -/

/-- The word a read of FAULT_LOG_LO returns (14 R469). -/
def logWord (s : State) : Nat := match s.faults.log with | e :: _ => infoWord e | [] => 0

/-- A non-debug read removes the oldest entry and latches its DETAIL and time. -/
def takeLog (s : State) : State :=
  match s.faults.log with
  | e :: t => { s with faults := { s.faults with log := t, logHi := e.detail, logTime := e.time } }
  | [] => s

/-! ### Injection (14 R490) -/

/-- The fault an injection of mode 0 or 5 raises. -/
def injectedFault (i : Injection) : FaultIn :=
  if i.mode = 5 then { src := 124, cls := 1, cause := 0x25, detail := 0, injected := true }
  else { src := i.source, cls := i.cls, cause := i.cause, detail := 0, injected := true }

/-- Arm an injection; modes 0 and 5 have their occasion at once. -/
def armInjection (i : Injection) (s : State) : State :=
  if i.mode = 0 || i.mode = 5 then
    let s1 := { s with faults := { s.faults with fi := { i with armed := false } } }
    if i.mode = 0 && i.cls = 0 then s1 else report [injectedFault i] s1
  else { s with faults := { s.faults with fi := { i with armed := true } } }

/-- Fields of FI_CTL after a write: a MODE of 7-15 leaves the field unchanged; ARM is never cleared by a write (14 R493). -/
def injectionOf (old : Injection) (mode src cause cls : Nat) : Injection :=
  { old with mode := if mode < 7 then mode else old.mode, source := src, cause, cls }

/-- A write of FI_CTL; ignored unless debug level 2 is granted. -/
def writeFi (arm : Bool) (mode src cause cls : Nat) (s : State) : State :=
  if s.control.dbgLevel ≠ 2 then s
  else
    let i := injectionOf s.faults.fi mode src cause cls
    if arm then armInjection i s else { s with faults := { s.faults with fi := i } }

/-! ### Commands -/

/-- What FAULT_REPORT does, where it can happen. -/
def onFaultReport (faults : List FaultIn) (s : State) : State :=
  if s.chip.porstN then report faults s else s

/-- FAULT_REPORT: the faults of one keeper-oscillator period (14 R465). -/
def execFaultReport (dt : Nat) (faults : List FaultIn) (s : State) : Host.Outcome State Fault Refusal :=
  event (Instr.faultReport dt faults).wf dt s (onFaultReport faults)

/-- FAULT_PULSE_END (14 R470). -/
def execFaultPulseEnd (dt : Nat) (s : State) : Host.Outcome State Fault Refusal :=
  event (Instr.faultPulseEnd dt).wf dt s pulseEnd

/-- MINIMUM_HIGH_TIME_END (14 R470). -/
def execMinimumHighTimeEnd (dt : Nat) (s : State) : Host.Outcome State Fault Refusal :=
  event (Instr.minimumHighTimeEnd dt).wf dt s highTimeEnd

/-- FAULT_ACKNOWLEDGE (14 R468). -/
def execFaultAcknowledge (dt src : Nat) (priv : Bool) (s : State) : Host.Outcome State Fault Refusal :=
  event (Instr.faultAcknowledge dt src priv).wf dt s (keeperWrite priv (acknowledge src))

/-- FAULT_FIRST_CLR (14 R467). -/
def execFaultFirstClr (dt : Nat) (priv : Bool) (s : State) : Host.Outcome State Fault Refusal :=
  event (Instr.faultFirstClr dt priv).wf dt s
    (mainWrite true priv (fun s => { s with faults := { s.faults with first := none } }))

/-- FAULT_LOG_READ (14 R469). -/
def execFaultLogRead (dt : Nat) (priv debug : Bool) (s : State) : Host.Outcome State Fault Refusal :=
  event (Instr.faultLogRead dt priv debug).wf dt s (keeperRead priv debug logWord takeLog)

/-- What IDLE_RECORD_ACK does, where it can happen. -/
def onIdleRecordAck (src : Nat) (s : State) : State :=
  match Tbl.get? s.faults.records src with
  | some r => if s.fwRuns && !s.press.running && firmwareMayAck s src r then dropRecord src s else s
  | none => s

/-- IDLE_RECORD_ACK: firmware acknowledges while no press period runs (14 R468). -/
def execIdleRecordAck (dt src : Nat) (s : State) : Host.Outcome State Fault Refusal :=
  event (Instr.idleRecordAck dt src).wf dt s (onIdleRecordAck src)

/-- FI_ARM: a write of FI_CTL with ARM = 1 (14 R490). -/
def execFiArm (dt : Nat) (priv : Bool) (mode src cause cls : Nat) (s : State) : Host.Outcome State Fault Refusal :=
  event (Instr.fiArm dt priv mode src cause cls).wf dt s (mainWrite true priv (writeFi true mode src cause cls))

/-- What GX_SAFE_REQ_EDGE does, where it can happen. -/
def onGxSafeReqEdge (level : Bool) (s : State) : State :=
  let s1 := { s with chip := { s.chip with safeReq := level } }
  if level && !s.chip.safeReq && s.mainUp then enterSafe 2 s1 else s1

/-- GX_SAFE_REQ_EDGE: the filtered level changes; a rising edge enters device safe state (14 R486). -/
def execGxSafeReqEdge (dt : Nat) (level : Bool) (s : State) : Host.Outcome State Fault Refusal :=
  event (Instr.gxSafeReqEdge dt level).wf dt s (onGxSafeReqEdge level)

/-- A write of 1 to SAFE_CTL.ENTER: the bit is set, and device safe state is entered (14 R486, R493). -/
def safeCtl (s : State) : State := enterSafe 3 { s with faults := { s.faults with safeEnter := true } }

/-- SAFE_CTL_ENTER (14 R486). -/
def execSafeCtlEnter (dt : Nat) (priv : Bool) (s : State) : Host.Outcome State Fault Refusal :=
  event (Instr.safeCtlEnter dt priv).wf dt s (mainWrite true priv safeCtl)

end Sys2Proof.Machine
end

