-- ==== Sys2Proof/Machine/Lines.lean ====
section
/-! DEFINITION. Which strips of a frame each view reads: the operators of a stream's entry point applied to line numbers in place of
elements, with the taps of their own blocks (08 R264; 10 R347-R369). -/

namespace Sys2Proof.Machine

/-- A plane that holds, for each of its lines, the strips of the frame that the line comes from. -/
structure LinePlane where
  w : Nat
  h : Nat
  rows : List (List Nat)
  deriving DecidableEq, Repr

/-- The union of lists of strips. -/
def unionStrips (l : List (List Nat)) : List Nat := l.foldl (fun a t => t.foldl (fun a n => insertNat n a) a) []

/-- The strips that line `y` comes from, under a BORDER mode. -/
def LinePlane.row (p : LinePlane) (mode : Nat) (y : Int) : List Nat :=
  match border mode p.h y with
  | some j => p.rows.getD j []
  | none => []

/-- All strips of a plane. -/
def LinePlane.all (p : LinePlane) : List Nat := unionStrips p.rows

/-- A plane from its lines. -/
def mkLines (w h : Nat) (f : Nat → List Nat) : LinePlane := { w, h, rows := (upto 0 h).map f }

/-- The planes that Raw unpack makes of a frame. -/
def rawLines (dtype w h : Nat) : List LinePlane :=
  let p (w : Nat) : LinePlane := mkLines w h (fun y => [y / 64])
  if dtype = 0x1E || dtype = 0x1F then [p w, p (w / 2), p (w / 2)] else if dtype = 0x24 then [p w, p w, p w] else [p w]

/-- Every line from the same line of all planes. -/
def mergeLines (ps : List LinePlane) : List LinePlane :=
  ps.map (fun q => mkLines q.w q.h (fun y => unionStrips (ps.map (fun p => p.row 1 y))))

/-- CFA planes (10 R355). -/
def cfaLines (b : List Byte) (p : LinePlane) : List LinePlane :=
  let plane (phases : List Nat) : LinePlane :=
    mkLines (p.w / 2) (p.h / 2) (fun y => unionStrips (phases.map (fun k => p.row 1 (2 * y + cellY b k : Nat))))
  if byteAt b 0x14 = 0 then (upto 0 4).map (fun k => plane [k])
  else ((upto 0 4).filter (fun c => (upto 0 4).any (fun k => byteAt b (0x10 + k) = c))).map (fun c =>
    plane ((upto 0 4).filter (fun k => byteAt b (0x10 + k) = c)))

/-- Chroma upsampling (10 R360). -/
def chromaLines (b : List Byte) (l c : LinePlane) : LinePlane :=
  mkLines l.w l.h (fun y =>
    if byteAt b 0x10 = 1 then unionStrips ((chromaTaps (byteAt b 0x11) (byteAt b 0x12 = 0) y).map (fun v => c.row 1 v.1)) else c.row 1 y)

/-- Crop and Padding: line `y` of plane `p` comes from line `y + off` (10 R362, R369). -/
def shiftLines (mode ow oh : Nat) (off : Int) (p : LinePlane) : LinePlane := mkLines ow oh (fun y => p.row mode (y + off))

/-- Crop (10 R362). -/
def cropLines (e : OpEnv) (b : List Byte) (p0 : LinePlane) (ps : List LinePlane) : List LinePlane :=
  let ((_, y1), ow, oh) := cropRect e b
  let y2 := if ps.any (fun p => subOf p0.h p.h = 2) then 2 * fdiv y1 2 else y1
  ps.map (fun p => shiftLines (byteAt b 0x15) (ow / subOf p0.w p.w) (oh / subOf p0.h p.h) (fdiv y2 (subOf p0.h p.h)) p)

/-- One plane of a polyphase resize (10 R363, R364). -/
def resizeLines (b : List Byte) (i : Nat) (p : LinePlane) : LinePlane :=
  let oh := field b (0x1A + 8 * i) 2
  mkLines (field b (0x18 + 8 * i) 2) oh (fun y =>
    unionStrips ((resizeTaps b (byteAt b (0x1D + 8 * i)) p.h oh y).map (fun v => p.row (byteAt b 0x12) v.1)))

/-- A plane sampled at source positions: the lines of the taps that fall on an element (10 R361). -/
def sampleLines (mode bord ow oh : Nat) (pos : Nat → Nat → Int × Int) (p : LinePlane) : LinePlane :=
  mkLines ow oh (fun y => unionStrips ((upto 0 ow).flatMap (fun x =>
    if (sampleTaps mode (pos x y).1).any (fun t => (border bord p.w t.1).isSome) then (sampleTaps mode (pos x y).2).map (fun t => p.row bord t.1)
    else [])))

/-- One plane under an orientation code (10 R368). -/
def orientLines (code : Nat) (p : LinePlane) : LinePlane :=
  if bit code 2 then mkLines p.h p.w (fun _ => p.all)
  else mkLines p.w p.h (fun y => p.row 1 (if bit code 1 then p.h - 1 - y else y : Nat))

/-- Padding (10 R369). -/
def padLines (b : List Byte) (p0 : LinePlane) (ps : List LinePlane) : List LinePlane :=
  let (ow, oh) := padSize b p0.w p0.h
  ps.map (fun p => shiftLines (byteAt b 0x1A) (ow / subOf p0.w p.w) (oh / subOf p0.h p.h) (-(field b 0x16 2 / subOf p0.h p.h : Nat)) p)

/-- What is no plane any more reads all that its inputs read. -/
def wholeLines (l : List LinePlane) : List LinePlane := [mkLines 1 1 (fun _ => unionStrips (l.map (·.all)))]

/-- A pixel operator on line numbers. -/
def pixelLines (op : Nat) (e : OpEnv) (b : List Byte) (ps : List LinePlane) : List LinePlane :=
  match ps with
  | [] => []
  | p0 :: _ =>
    match op with
    | 0x0101 | 0x0102 | 0x0103 | 0x0105 => ps
    | 0x0104 => cfaLines b p0
    | 0x0110 => mergeLines ps
    | 0x0111 => p0 :: ps.tail.map (chromaLines b p0)
    | 0x0120 => cropLines e b p0 ps
    | 0x0121 => (enum ps).map (fun ip => resizeLines b ip.1 ip.2)
    | 0x0122 => ps.map (sampleLines (byteAt b 0x1C) (byteAt b 0x1D) (field b 0x18 2) (field b 0x1A 2)
        (warpPos b ((coeffData e.coeffs 2 (field b 0x10 2)).getD [])))
    | 0x0123 => ps.map (sampleLines (byteAt b 0x14) (byteAt b 0x15) (field b 0x10 2) (field b 0x12 2) (affinePos e b))
    | 0x0124 => ps.map (orientLines (orientCode e b))
    | 0x0125 => padLines b p0 ps
    | _ => wholeLines ps

/-- What stage `k` leaves for view `v`, from what the stages before it leave for every view. -/
def stageLines (i : Image) (p : EntryPt) (e : OpEnv) (raw : List LinePlane) (outs : Tbl (List (List LinePlane))) (k : Nat) : List LinePlane :=
  let of (j v : Nat) : List LinePlane := (Tbl.getD outs j []).getD v []
  let inp := of (k - 1) e.view
  match stageOf i k with
  | none => inp
  | some (_, o) =>
    match o.op with
    | 0x0100 => if k = p.firstStage then raw else inp
    | 0x0200 | 0x0201 | 0x0202 | 0x0203 => inp
    | 0x0204 => (List.zip inp (of (k - 1) ((e.view + byteAt o.bytes 0x12) % max p.views 1))).map (fun q =>
        mkLines q.1.w q.1.h (fun y => unionStrips [q.1.row 1 y, q.2.row 1 y]))
    | 0x0221 => wholeLines (inp ++ (upto p.firstStage (k - p.firstStage)).flatMap (fun j => if stageOp i j = 0x0210 then of j e.view else []))
    | 0x0222 => wholeLines (of (field o.bytes 0x10 2) e.view)
    | 0x0250 => wholeLines ((batchParts o.bytes).flatMap (fun q => of q.1 e.view))
    | 0x0401 => wholeLines (of (k - 1) 0)
    | op => pixelLines op e o.bytes inp

/-- What every stage of a stream's entry point leaves for every view. -/
def entryLines (i : Image) (p : EntryPt) (e : OpEnv) (raw : List LinePlane) : Tbl (List (List LinePlane)) :=
  p.stageList.foldl (fun outs k => Tbl.set outs k ((upto 0 p.views).map (fun v => stageLines i p { e with view := v } raw outs k))) []

/-- The strips of a `w` x `h` frame of a data type that view `v` reads: those of its last stage; the encode view takes the planes of view 0,
which the stage before Encode leaves (08 R264, 09 R317). -/
def viewStrips (i : Image) (p : EntryPt) (e : OpEnv) (dtype w h v : Nat) : List Nat :=
  let outs := entryLines i p e (rawLines dtype w h)
  let last := p.firstStage + p.stageRun - 1
  let of (k v : Nat) : List Nat := unionStrips (((Tbl.getD outs k []).getD v []).map (·.all))
  if stageOp i last = 0x0401 && p.encodeView i ≠ some v then of (last - 1) v else of last v

end Sys2Proof.Machine
end

