-- ==== Sys2Proof/Machine/Streams.lean ====
section
/-! DEFINITION. The stream commands and the close of a context: ATTACH_STREAM, DETACH_STREAM, DEFINE_SYNC_GROUP, CLOSE_CONTEXT, and
how a gathering of a stream is tipped in (05 R152, R158-R161; 07 R244, R247; 08 R255, R275; 09 R331; 10 R347; 12 R411). -/

namespace Sys2Proof.Machine

/-! ### What an entry point says of a stream -/

/-- The Encode stage of an entry point: its number and block. -/
def encodeOf (i : Image) (p : EntryPt) : Option (Nat × List Byte) :=
  p.stageList.findSome? (fun k => match stageOf i k with
    | some (_, o) => if o.op = 0x0401 then some (k, o.bytes) else none
    | none => none)

/-- The encode channel that an entry point's Encode stage names. -/
def channelOf (i : Image) (p : EntryPt) : Option Nat :=
  match encodeOf i p with
  | some (_, b) => if (encBlock b).channel < 16 then some (encBlock b).channel else none
  | none => none

/-- A block reads draw words: its ranges and thresholds are not all 0 (10 R343; 11 R376, R380-R384; 12 R415). -/
def blockDraws (o : Opb) : Bool :=
  let b := o.bytes
  let masked := byteAt b 0x10 ≠ 0
  match o.op with
  | 0x0120 => field b 0x18 2 ≠ 0 || field b 0x1A 2 ≠ 0
  | 0x0123 => field b 0x18 2 ≠ 0 || field b 0x1C 4 ≠ 0
  | 0x0124 => field b 0x18 4 ≠ 0
  | 0x0201 => masked && field b 0x2C 4 ≠ 0
  | 0x0202 => masked && field b 0x14 4 ≠ 0
  | 0x0203 => masked && byteAt b 0x11 ≠ 0 && field b 0x14 4 ≠ 0
  | 0x0204 => masked
  | 0x0210 => (convAt b 0x18).stochastic
  | 0x0221 => (convAt b 0x18).stochastic
  | 0x0230 => (convAt b 0x88).stochastic
  | 0x0231 => (convAt b 0x68).stochastic
  | 0x0300 => true
  | _ => false

/-- SPAN of a stream's draw positions (12 R411). -/
def drawSpan (i : Image) (p : EntryPt) : Nat :=
  let ends := p.stageList.filterMap (fun k => match stageOf i k with
    | some (_, o) => if blockDraws o then some (o.drawBase + 16 * p.views) else none
    | none => none)
  max 16 (cdiv (ends.foldl max 0) 16 * 16)

/-- The block of the stage that reads the stream's lines, Raw unpack with SOURCE 0 (10 R347). -/
def rawBlock (i : Image) (p : EntryPt) : Option (List Byte) :=
  match stageOf i p.firstStage with
  | some (_, o) => if o.op = 0x0100 && byteAt o.bytes 0x10 = 0 then some o.bytes else none
  | none => none

/-- A CFA stage of the entry point takes the stream's mosaic in its own size: no stage between changes sizes (10 R355). -/
def mosaicCfa (i : Image) (p : EntryPt) : Bool :=
  let ops := p.stageList.map (stageOp i)
  match (ops.drop 1).find? (fun o => !(o = 0x0101 || o = 0x0102 || o = 0x0103 || o = 0x0105)) with
  | some o => o = 0x0104
  | none => false

/-! ### ATTACH_STREAM -/

/-- SLOT_BYTES x 4 + 64 KiB for the coded size (09 R331). -/
def channelNeed (b : List Byte) : Nat :=
  let e := encBlock b
  4 * slotNeed e.codec 1 e.w e.h (cdiv e.depth 8) + 65536

/-- The channel may serve context `c` with this block. -/
def channelFits (s : State) (c k : Nat) (b : List Byte) : Bool :=
  let x := s.chan k
  x.enable && x.ctx = c && channelNeed b ≤ x.pages * 4096

/-- Work area, slice ring and status block lie within read-write windows of the context. -/
def channelInside (s : State) (c k : Nat) : Bool :=
  let x := s.chan k
  let gs := (s.ctx c).guards
  withinWindow gs true true x.work (x.pages * 4096) && (x.sliceLog2 = 0 || withinWindow gs true true x.slice (2 ^ x.sliceLog2)) &&
    withinWindow gs true true x.sstat 64

/-- A stream or mirror identity is in use (05 R159, 08 R255). -/
def idInUse (s : State) (id : Nat) : Bool := s.streams.any (fun p => p.1 = id || (p.2.mirrorPool ≠ 0 && p.1 + 0x8000 = id))

/-- Fields of an ATTACH_STREAM request (05 R158). -/
def attachFields (b : List Byte) : Stream :=
  { ctx := byteAt b 8, ring := byteAt b 9, port := byteAt b 0x0C, vc := byteAt b 0x0D, dtype := byteAt b 0x0E, lanes := byteAt b 0x0F,
    width := field b 0x10 2, height := field b 0x12 2, binding := field b 0x14 4, entry := field b 0x18 2, keySlot := byteAt b 0x1A,
    outPool := field b 0x1C 4, drawPos := field b 0x20 8, mirrorPool := field b 0x28 4, st := .attaching }

/-- The checks of ATTACH_STREAM, in the model's order (log 42): the fields, the binding, then what is in use. -/
def attachChecks (s : State) (id : Nat) (t : Stream) : List (Bool × Nat × Nat) :=
  let x := Tbl.get? s.bindings t.binding
  let i := x.bind Binding.image
  let p := i.bind (·.point? t.entry)
  let grp := dtypeGroup t.dtype
  let raw := match i, p with | some i, some p => rawBlock i p | _, _ => none
  let chan := match i, p with | some i, some p => channelOf i p | _, _ => none
  let enc := match i, p with | some i, some p => (encodeOf i p).map (·.2) | _, _ => none
  let cfa := match i, p with | some i, some p => mosaicCfa i p | _, _ => false
  [ (t.ring < 4 && (s.ring t.ctx t.ring).st != .none, 2, 9),
    (!(0xFFF0 ≤ id) && !(t.mirrorPool ≠ 0 && (0x7FF0 ≤ id || 0x8000 ≤ id)), 2, 0x0A),
    (t.port < 16 && (s.port t.port).laneMbps ≠ 0, 2, 0x0C),
    (t.vc < 16, 2, 0x0D),
    (grp.isSome && (match raw with | some b => byteAt b 0x12 = t.dtype | none => true), 2, 0x0E),
    ((t.lanes = 1 || t.lanes = 2 || t.lanes = 4) && s.streams.all (fun q => q.2.port ≠ t.port || q.2.lanes = t.lanes), 2, 0x0F),
    (1 ≤ t.width && t.width ≤ 16384 && 1 ≤ t.height && t.height ≤ 8192 &&
      (match raw with | some b => t.width ≤ field b 0x14 2 && t.height ≤ field b 0x16 2 | none => true) &&
      (!cfa || (t.width % 2 = 0 && t.height % 2 = 0)), 5, 0),
    ((match grp with | some g => t.width % g.1 = 0 | none => true), 2, 0x10),
    ((match x with | some b => b.admitted && b.cls == some 0 && b.st != .retiring | none => false), 0x0C, 0),
    ((match p with | some p => p.stream | none => false), 2, 0x18),
    (t.keySlot < 16 && (match p with
      | some p => !p.draws || (((s.ctx t.ctx).keys.getD t.keySlot {}).cur).isSome
      | none => true), 2, 0x1A),
    (poolOk s t.ctx t.outPool, 2, 0x1C),
    (t.mirrorPool = 0 || poolOk s t.ctx t.mirrorPool, 2, 0x28),
    ((match chan, enc with | some k, some b => channelFits s t.ctx k b | _, _ => true), 2, 0x14),
    (!idInUse s id && !(t.mirrorPool ≠ 0 && idInUse s (id + 0x8000)) &&
      s.streams.all (fun q => !(q.2.port = t.port && q.2.vc = t.vc)), 0x0D, 1),
    ((match chan with | some k => (s.chan k).stream.isNone | none => true), 0x0D, 1),
    (s.streams.length < 64, 0x0D, 2),
    ((match chan with | some k => channelInside s t.ctx k | none => true), 3, 0) ]

/-- An OFF port begins to qualify (08 R275). -/
def startPort (p lanes : Nat) : State → State :=
  modPort p (fun x => if x.st == .off then
    { x with rxEn := true, laneEn := BitVec.ofNat 4 (2 ^ lanes - 1), st := .qualifying, qualLeft := 0, goodWins := 0, lastWin := .inside } else x)

/-- ATTACH_STREAM: the stream is attached at its first Frame Start once the port is UP. Its encode channel is taken from now on. -/
def attachStream (box : Nat) (b : List Byte) (s : State) : State :=
  let id := field b 0x0A 2
  let t := attachFields b
  checked box (attachChecks s id t) (deferred box (.attach id) id [] (fun s =>
    startPort t.port t.lanes { s with streams := Tbl.set s.streams id t })) s

/-- The stream is attached: its ring becomes a stream ring, its channel is BOUND, and the notice is queued (05 R159, 06 R208,
09 R331). -/
def streamAttached (id : Nat) (s : State) : State :=
  match Tbl.get? s.streams id with
  | none => s
  | some t =>
    if t.st == .attaching && (s.port t.port).st == .up then
      let i := (Tbl.get? s.bindings t.binding).bind Binding.image
      let chan := i.bind (fun i => (i.point? t.entry).bind (channelOf i))
      let s1 := modStream id (fun t => { t with st := .attached }) (modRing t.ctx t.ring (fun r => { r with stream := true }) s)
      let s2 := match chan with
        | some k => modChan k (fun c => { c with stream := some id, stopped := false, err := 0, produced := 0 }) s1
        | none => s1
      notify (.attach id) 0 s2
    else s

/-! ### Tipped-in views (07 R244, R247) -/

/-- Folios of view `v` of a member, relative to the member. -/
def viewFolios (m : Member) (v : Nat) : List Nat := (upto 0 m.folios).filter (fun f => viewOfFolio m.viewStart f = v)

/-- Every folio of a stream gathering's view has been produced. -/
def viewDone (w : Work) (v : Nat) : Bool :=
  match w.members with
  | m :: _ => (viewFolios m v).all w.hasFolio
  | [] => true

/-- Mark views of a stream gathering invalid. -/
def invalidate (vs : List Nat) (statuses : List Nat) (w : Work) : Work :=
  { w with members := w.members.map (fun m => { m with
      invalid := vs.foldl (fun l v => if mem l v then l else l ++ [v]) m.invalid, statuses := statuses ++ m.statuses }) }

/-- The views that are not finished are delivered as placeholders: every folio of theirs, one already produced included, is written as
zeros, and they carry VALID = 0 with a status; folios at the comparator are given up (07 R244, R247). -/
def tipIn (wid status : Nat) (s : State) : State :=
  match Tbl.get? s.works wid with
  | none => s
  | some w =>
    let open_ := (upto 0 w.views).filter (fun v => !viewDone w v)
    let abandoned := match w.members with | m :: _ => open_.flatMap (viewFolios m) | [] => []
    let rest := (upto 0 w.total).filter (fun f => !w.hasFolio f || mem abandoned f)
    let s1 := modWork wid (fun w => { invalidate open_ (if open_.isEmpty then [] else [status]) w with compares := [] }) s
    forEach rest (fun f s => putFolio wid f (List.replicate 4096 0) s) s1

/-- The frame's defects are settled (08 R274). -/
def settleFrame (wid : Nat) : State → State :=
  modWork wid (fun w => { w with frame := w.frame.map (fun f => { f with settled := true }) })

/-! ### DETACH_STREAM (05 R158, R160) -/

/-- The frame in progress ends, and its gathering completes ABORTED; its mirror copy stops. -/
def endOpenFrame (id : Nat) (s : State) : State :=
  match (Tbl.get? s.streams id).bind (·.cur) with
  | none => s
  | some wid =>
    let s1 := killMirror id (modStream id (fun t => { t with cur := none }) s)
    let s2 := modWork wid (fun w => { w with
      statuses := 1 :: w.statuses,
      frameEnd := s.now,
      frame := w.frame.map (fun f => { f with closed := some s.now, held := [] }) }) s1
    if (Tbl.get? s2.works wid).any (·.buffer.isNone) then failWork wid 1 s2
    else tryColophon wid (settleFrame wid (tipIn wid 1 s2))

/-- A stream in safe state leaves at once, without a gathering (14 R485). -/
def dropSafe (id : Nat) (s : State) : State := dropStream id (forEach (streamWorks s id) killWork s)

/-- DETACH_STREAM. -/
def detachStream (box : Nat) (b : List Byte) (s : State) : State :=
  let c := byteAt b 8
  let mode := byteAt b 9
  let id := field b 0x0A 2
  let t := Tbl.get? s.streams id
  checked box [ (mode ≤ 1, 2, 9), (match t with | some t => t.ctx = c | none => false, 2, 0x0A) ]
    (deferred box (.detach id) id [] (fun s =>
      match t with
      | none => s
      | some t =>
        if t.st == .safe then dropSafe id s
        else if t.st == .attaching then dropStream id s
        else
          let s1 := modStream id (fun t => { t with st := .detaching, detachMode := some mode }) s
          finishDetaches (when (mode = 1) (endOpenFrame id) s1))) s

/-! ### DEFINE_SYNC_GROUP (05 R158, R161) -/

/-- The listed STREAM_IDs. -/
def groupList (b : List Byte) : List Nat := (upto 0 (min 12 (byteAt b 9))).map (fun k => field b (0x10 + 2 * k) 2)

/-- The members are attached streams of the context on one ring, each named once. -/
def groupOk (s : State) (c : Nat) (l : List Nat) : Bool :=
  let ring (i : Nat) : Option Nat := match Tbl.get? s.streams i with
    | some t => if t.ctx = c && t.st == .attached then some t.ring else none
    | none => none
  noRepeats l && l.all (fun i => (ring i).isSome && ring i == ring (l.headD 0))

/-- DEFINE_SYNC_GROUP; COUNT 0 dissolves the group. An earlier definition that has not taken effect is superseded (log 42). -/
def defineGroup (box : Nat) (b : List Byte) (s : State) : State :=
  let c := byteAt b 8
  let n := byteAt b 9
  let g := field b 0x0A 2
  let w := field b 0x0C 2
  let l := groupList b
  checked box
    [ (n ≤ 12, 2, 9), (g ≤ 15 && (match Tbl.get? s.groups g with | some x => x.ctx = c || x.members.isEmpty | none => true), 2, 0x0A),
      (n = 0 || (1 ≤ w && w ≤ 1000), 2, 0x0C), (n = 0 || groupOk s c l, 2, 0x10),
      (s.groups.all (fun p => p.1 = g || p.2.members.all (fun i => !mem l i)), 0x0D, 1) ]
    (deferred box (.group g) g [] (fun s =>
      let s1 := notify (.group g) 0x0A s
      if n = 0 then { s1 with groups := Tbl.erase s1.groups g }
      else { s1 with groups := Tbl.set s1.groups g { ctx := c, members := l, windowUs := w } })) s

/-- SYNC_GROUP_EFFECT: every member has seen Frame Start since acceptance (05 R161). -/
def groupEffect (g : Nat) (s : State) : State :=
  match Tbl.get? s.groups g with
  | some x =>
    if !x.inForce && x.members.all (mem x.seen) then notify (.group g) 0 (modGroup g (fun x => { x with inForce := true }) s) else s
  | none => s

/-! ### CLOSE_CONTEXT (05 R152, 06 R175) -/

/-- A LIVE or PROMPT binding of the context is admitted, or a stream is attached. -/
def closeBusy (s : State) (c : Nat) : Bool :=
  s.bindings.any (fun p => p.1 / 2 ^ 24 = c && p.2.admitted) || s.streams.any (fun p => p.2.ctx = c)

/-- A ring stops fetching, and its fetched entries complete ABORTED in order; those whose fetch is outstanding follow as their data
arrive (06 R175, R210). The completions of a ring that has STOPPED are not written (06 R213). -/
def closeRing (c n : Nat) (s : State) : State :=
  let r := s.ring c n
  if r.st == .none then s
  else if r.st == .stopped || r.ctlReset then
    abortEntries c n (modRing c n (fun r => { r with enable := false, reset := none, ctlReset := false, st := .stopped }) s)
  else abortEntries c n (modRing c n (fun r => { r with enable := false, st := .aborting, aborting := true, abortDue := true, reset := none }) s)

/-- The words of a context's ring registers, eight a ring. -/
def ringWordsOf (s : State) (c : Nat) : List Nat :=
  (upto 0 4).flatMap (fun n => (upto 0 8).map (fun k => ringRead (s.ring c n) (4 * k)))

/-- The object that a deferred request waits for belongs to context `c`. -/
def Await.ofCtx (a : Await) (s : State) (c : Nat) : Bool :=
  match a with
  | .binding h | .retire h => h / 2 ^ 24 = c
  | .guard x _ => x = c
  | .attach i | .detach i => (match Tbl.get? s.streams i with | some t => t.ctx = c | none => false)
  | .group g => (match Tbl.get? s.groups g with | some x => x.ctx = c | none => false)
  | .pools h _ => h / 2 ^ 24 = c
  | .ring x _ => x = c

/-- No gathering of the context runs, and no entry fetched under it. -/
def closeIdle (s : State) (c : Nat) : Bool :=
  s.works.all (fun p => p.2.ctx ≠ c) && (upto 0 4).all (fun n => (s.ring c n).entries.all (fun e => e.phase == .ended || e.phase == .writing))

/-- The objects of a closing context are removed: its bindings end, its pools and groups go, its channels are disabled, its keys are erased
and its shelf entries are evicted (05 R149, R152). -/
def closeRemove (c : Nat) (s : State) : State :=
  let s1 := forEach (s.bindings.filterMap (fun p => if p.1 / 2 ^ 24 = c then some p.1 else none)) endBinding s
  let s2 := { s1 with
    pools := s1.pools.filter (fun p => p.1 / 128 ≠ c), groups := s1.groups.filter (fun p => p.2.ctx ≠ c),
    codec := { s1.codec with channels := s1.codec.channels.map (fun k => if k.ctx = c then { k with enable := false } else k),
                               sessions := s1.codec.sessions.filter (fun p => p.1 / 2 ^ 64 ≠ c) } }
  modCtx c (fun x => { x with keys := List.replicate 16 {} }) (flushShelf (fun x => x.ctx = c) s2)

/-- CLOSE_CONTEXT; `stopRings` stops the context's packet rings (08 R286). Pending updates and notices go first, so that nothing that
follows queues one. The context is CLOSING from here on; what still runs under it keeps its objects, and the response follows once the
context is CLOSED (05 R149, R152, 06 R175). -/
def closeContext (stopRings : Nat → State → State) (box : Nat) (b : List Byte) (s : State) : State :=
  let c := byteAt b 8
  checked box [ (!closeBusy s c, 0x0D, 1) ]
    (fun s =>
      let s1 := modBox c (fun m => { m with notices := [], owed := [] }) { s with
        boxes := s.boxes.map (fun p => (p.1, { p.2 with owed := p.2.owed.filter (fun o => !o.what.ofCtx s c) })),
        bindings := s.bindings.map (fun p => if p.1 / 2 ^ 24 = c then (p.1, { p.2 with st := .retiring, cls := none, pending := none }) else p) }
      let s2 := modCtx c (fun x => { x with st := .closing, closeBox := some box, ringWords := ringWordsOf s c }) s1
      let s3 := stopRings c (forEach (upto 0 4) (closeRing c) s2)
      when (closeIdle s3 c) (closeRemove c) s3) s

/-- Nothing of the context is left to complete: its entries, its fetches, its gatherings and its packet rings. -/
def closeDone (s : State) (c : Nat) : Bool :=
  closeIdle s c &&
    (upto 0 4).all (fun n => let r := s.ring c n; r.issued = r.head && (r.entries.isEmpty && r.cplLines = 0 || r.st == .stopped)) &&
    (upto 0 8).all (fun r => match (s.pring r).setup with
      | some (x, _) => x.ctx ≠ c || !(s.pring r).run
      | none => true)

/-- The pair that owes the response of a close runs. -/
def closeServed (s : State) (c : Nat) : Bool := match (s.ctx c).closeBox with | some b => serves s b | none => true

/-- CLOSE_CONTEXT is answered: through the context's own mailbox the response stays reachable for 10 ms (05 R152). The response says
RESTARTED where firmware restarted meanwhile (04 R114). -/
def closeAnswer (c : Nat) (s : State) : State :=
  match (s.ctx c).closeBox with
  | some b => when ((s.box b).busy && (s.box b).accepted) (answerAs (s.box b).committed.isSome b 0 0 []) s
  | none => s

/-- CONTEXT_CLOSED: every entry has completed and the partition has been zeroed (06 R175; log 109). -/
def contextClosed (c : Nat) (s : State) : State :=
  if (s.ctx c).st == .closing && closeDone s c && closeServed s c then
    let hold := if (s.ctx c).closeBox = some c then some (s.now + 10000000) else none
    let s1 := forEach (upto 0 4) (fun n s => modRing c n (fun _ => {}) (zeroRing c n s)) (closeRemove c s)
    modCtx c (fun _ => { st := .closed, closeHold := hold }) (closeAnswer c s1)
  else s

/-! ### Commands -/

/-- ATTACH_STREAM (05 R159). -/
def execAttachStream (dt box : Nat) (s : State) : Host.Outcome State Fault Refusal :=
  event (Instr.attachStream dt box).wf dt s (command box 0x20 anyReq (attachStream box))

/-- STREAM_ATTACHED (05 R159). -/
def execStreamAttached (dt stream : Nat) (s : State) : Host.Outcome State Fault Refusal :=
  event (Instr.streamAttached dt stream).wf dt s (streamAttached stream)

/-- DETACH_STREAM with MODE 0, and with a MODE that does not exist (05 R160). -/
def execDetachAfterFrame (dt box : Nat) (s : State) : Host.Outcome State Fault Refusal :=
  event (Instr.detachAfterFrame dt box).wf dt s (command box 0x21 (fun b => !(byteAt b 9 = 1)) (detachStream box))

/-- DETACH_STREAM with MODE 1 (05 R160). -/
def execDetachAtOnce (dt box : Nat) (s : State) : Host.Outcome State Fault Refusal :=
  event (Instr.detachAtOnce dt box).wf dt s (command box 0x21 (fun b => byteAt b 9 = 1) (detachStream box))

/-- DEFINE_SYNC_GROUP (05 R161). -/
def execDefineSyncGroup (dt box : Nat) (s : State) : Host.Outcome State Fault Refusal :=
  event (Instr.defineSyncGroup dt box).wf dt s (command box 0x22 anyReq (defineGroup box))

/-- SYNC_GROUP_EFFECT (05 R161). -/
def execSyncGroupEffect (dt group : Nat) (s : State) : Host.Outcome State Fault Refusal :=
  event (Instr.syncGroupEffect dt group).wf dt s (groupEffect group)

/-- CONTEXT_CLOSED (06 R175). -/
def execContextClosed (dt ctx : Nat) (s : State) : Host.Outcome State Fault Refusal :=
  event (Instr.contextClosed dt ctx).wf dt s (contextClosed ctx)

end Sys2Proof.Machine
end

