-- ==== Sys2Proof/Machine/Time.lean ====
section
/-! DEFINITION. The time base: strobes, comparison windows, losses, holdover and relock (03 R88-R94). -/

namespace Sys2Proof.Machine

/-- A rate correction in ppb that removes an offset of `e` ns: of its sign, within 500 ppm, and not beyond what removes it in the time
between two strobes; how fast it is removed below that is not stated (03 R90; log 22). -/
def slewRate (s : State) (e : Int) : Int :=
  let most := max 1 (min 500000 (e.natAbs * 1000000000 / max 1 s.tb.interval))
  if e = 0 then 0 else e.sign * (1 + Config.freeNat s.freeNo % most : Nat)

/-- The time base slews an offset away. -/
def slew (e : Int) (s : State) : State := useFree 1 { s with tb := { s.tb with rate := slewRate s e } }

/-- A rate within the limit, where the offset is not known (03 R90, R93; log 22). -/
def anyRate (s : State) : Int := (Config.freeNat s.freeNo % 1000001 : Nat) - 500000

/-- Enter holdover for a cause of TB_EVT, with the rate of the last good window (03 R92). In a holdover that stands, a further cause is
recorded; that of a fault in a holdover which KEEP began makes it one of R92 (log 23). -/
def enterHoldover (cause : Nat) (s : State) : State :=
  let t := s.tb
  if t.quality = 1 && !t.keepHoldover then { s with tb := { t with evt := Nat.lor t.evt cause } }
  else report1 123 1 0x17 0 false { s with tb := { t with
    quality := 1, rate := t.goodRate, count := 0, evt := Nat.lor t.evt cause, keepHoldover := false } }

/-- The compared reference is lost: the time base stays with the selected one, CMP_LOST and CORRECTED once (03 R92). -/
def compareLost (s : State) : State := report1 123 1 0x17 0 false { s with tb := { s.tb with evt := Nat.lor s.tb.evt 8 } }

/-- The windows under way cannot be compared any more. -/
def dropWindows (s : State) : State := { s with tb := { s.tb with strobeLog := [], edgeTimeIn := none } }

/-- TIME_IN is lost (03 R92). -/
def loseTimeIn (s : State) : State :=
  let was := s.tb.timeLost
  let s1 := dropWindows { s with tb := { s.tb with timeLost := true, strobes := 0 } }
  if !s.tb.selKclk then enterHoldover 4 s1 else if was then s1 else compareLost s1

/-- KCLK is lost (03 R92). -/
def loseKclk (s : State) : State :=
  let was := s.tb.kclkLost
  let s1 := dropWindows { s with tb := { s.tb with kclkLost := true } }
  if s.tb.selKclk then enterHoldover 4 s1 else if was then s1 else compareLost s1

/-- Holdover ends: the time base slews back to the reference (03 R93). -/
def relock (s : State) : State :=
  useFree 1 { s with tb := { s.tb with
    quality := freeQuality s.tb.loaded s.tb.selKclk s.tb.everValid, keepHoldover := false, count := 0, rate := anyRate s } }

/-- The stamp of an edge seen now: within 40 ns of the time base, 250 ns while ACLK may spread (03 R89). -/
def stampAt (s : State) (j : Int) : Int :=
  let lim : Int := if s.power.aclk.ssEn then 250 else 40
  (s.now : Int) + clampI j (-lim) lim

/-- The interval between accepted strobes: 1 s until two have been accepted (03 R92). -/
def strobeInterval (s : State) : Nat := if s.tb.strobes < 2 then 1000000000 else s.tb.interval

/-! ### Comparison windows (03 R91) -/

/-- d of a window, in ppb (03 R91). -/
def windowDiff (dTin : Int) : Int := (dTin - 125000000) * 8

/-- TB_DIFF: d where it fits; beyond 32 bits the register's value is not stated (log 22). -/
def diffShown (s : State) (d : Int) : Int :=
  if -(2 ^ 31) ≤ d && d < 2 ^ 31 then d else signed (Config.freeNat s.freeNo) 32

/-- A comparison window is judged by the advance of TIME_IN across it (03 R91-R93). -/
def judgeWindow (dTin : Int) (s : State) : State :=
  let d := windowDiff dTin
  let s1 := useFree 1 { s with tb := { s.tb with diff := diffShown s d } }
  if s1.tb.quality = 1 then
    let n := if d.natAbs ≤ 50000 then min 255 (s1.tb.count + 1) else 0
    let s2 := { s1 with tb := { s1.tb with count := n } }
    if 80 ≤ n && (s2.tb.autoRelock || s2.tb.keepHoldover) then relock s2 else s2
  else if 100000 < d.natAbs then
    let n := s1.tb.count + 1
    let s2 := { s1 with tb := { s1.tb with count := n } }
    if 8 ≤ n then enterHoldover 1 s2 else s2
  else { s1 with tb := { s1.tb with count := 0, goodRate := s1.tb.rate } }

/-- TIME_IN at a window edge, on the straight line between the accepted strobes just before and just after it, in whole ns (03 R91; log
22). Strobes stand oldest first, each with its stamp and TIME_IN. -/
def interpolate (e : Int) : List (Int × Nat) → Option Int
  | a :: b :: t =>
    if a.1 ≤ e && e ≤ b.1 && a.1 ≠ b.1 then some (a.2 + ((b.2 : Int) - a.2) * (e - a.1) / (b.1 - a.1)) else interpolate e (b :: t)
  | _ => none

/-- The strobes that later edges need: from the last one at or before an edge on. -/
def strobesFrom (e : Int) : List (Int × Nat) → List (Int × Nat)
  | a :: b :: t => if b.1 ≤ e then strobesFrom e (b :: t) else a :: b :: t
  | l => l

/-- A strobe after the edge has been accepted, so the window that ends there can be judged, in window order (03 R91). -/
def edgeDue (s : State) (edge : Nat) : Bool :=
  s.mainUp && s.tb.loaded && !s.tb.timeLost && s.tb.lastEdge < edge && edge ≤ s.tb.lastStamp

/-- TB_COMPARE_WINDOW_END: the window of 4,096 KCLK periods that ends at stamp `edge` is judged, where the edge before it has a value too
(03 R91). An edge before which no strobe was accepted has none. -/
def windowEnd (edge : Nat) (s : State) : State :=
  if !edgeDue s edge then s
  else
    let t := s.tb
    let v := interpolate edge t.strobeLog
    let s1 := { s with tb := { t with
      kclkLost := false, lastEdge := edge, edgeTimeIn := v, strobeLog := strobesFrom edge t.strobeLog } }
    match t.edgeTimeIn, v with
    | some u, some v => judgeWindow (v - u) s1
    | _, _ => s1

/-! ### Strobes -/

/-- An accepted strobe: the first since GX_PORST_N loads TIME_IN where it is selected, a later one slews, and more than 1 ms of
offset is a reference fault (03 R90). Where the first strobe is accepted with KCLK selected nothing is loaded, then or later; and the load
takes TIME_IN even where that lies below the running time base. R88 and R90 do not say either (DESIGN CHOICE, log 104). -/
def acceptStrobe (timeIn : Nat) (stamp : Int) (s : State) : State :=
  let first := !s.tb.loaded
  let load := first && !s.tb.selKclk
  let t := s.tb
  let at_ : Nat := if load then timeIn else stamp.toNat
  let s1 := { s with tb := { t with
    now := if load then timeIn else t.now, loaded := true, everValid := true, timeLost := false, strobes := min 2 (t.strobes + 1),
    interval := if t.strobes = 0 then 1000000000 else at_ - t.lastStamp, lastStamp := at_, lastTimeIn := timeIn,
    strobeLog := if first then [((at_ : Int), timeIn)] else t.strobeLog ++ [(stamp, timeIn)],
    quality := if t.quality = 2 then 0 else t.quality } }
  let e : Int := (timeIn : Int) - stamp
  if first || t.selKclk then s1
  else if 1000000 < e.natAbs then enterHoldover 2 s1
  else if t.quality = 1 then s1
  else slew e s1

/-- TIME_STROBE rises. A strobe while TIME_VALID is 0 is ignored, and TIME_IN is then lost (02 R51, 03 R92). -/
def strobe (timeIn : Nat) (valid : Bool) (j : Int) (s : State) : State :=
  if !(s.chip.porstN && s.chip.keeperInit) then s
  else
    let s1 := { s with tb := { s.tb with timeValid := valid } }
    if valid then acceptStrobe timeIn (stampAt s j) s1 else if s.tb.timeLost then s1 else loseTimeIn s1

/-- The loss interval passes without a strobe, or TIME_VALID falls (03 R92). -/
def timeInLoss (validFell : Bool) (s : State) : State :=
  if !s.chip.porstN then s
  else if validFell then loseTimeIn { s with tb := { s.tb with timeValid := false } }
  else if s.tb.lastStamp + max 10000000 (4 * strobeInterval s) ≤ s.now then loseTimeIn s
  else s

/-- A RELOCK write: in holdover relock starts, else no effect (03 R93). The holdover ends even while the selected reference is still lost;
R93 does not except that case (DESIGN CHOICE, log 23). -/
def relockWrite (s : State) : State := if s.tb.quality = 1 then relock s else s

/-- REF_SEL as the register reads: a written value that awaits its edge, else the one in effect. -/
def TimeBase.refSel (t : TimeBase) : Bool := match t.selNext with | some (k, _, _) => k | none => t.selKclk

/-- REF_SEL changes: it takes effect at the next KCLK edge, and the time base slews to the other reference; a TIME_IN that is lost begins a
holdover there, whose CORRECTED fault the model raises with the write (03 R90, R92; log 102). -/
def refSelWrite (kclk : Bool) (s : State) : State :=
  if s.tb.refSel == kclk then s
  else if s.tb.selKclk == kclk then { s with tb := { s.tb with selNext := none } }
  else
    let s1 := useFree 2 { s with tb := { s.tb with selNext := some (kclk, s.now + 1 + Config.freeNat (s.freeNo + 1) % 30518, anyRate s) } }
    if !kclk && s.tb.timeLost && s.tb.quality ≠ 1 then report1 123 1 0x17 0 false s1 else s1

/-! ### Commands -/

/-- TIME_STROBE_EDGE (03 R90). -/
def execTimeStrobeEdge (dt timeIn : Nat) (valid : Bool) (j : Int) (s : State) : Host.Outcome State Fault Refusal :=
  event (Instr.timeStrobeEdge dt timeIn valid j).wf dt s (strobe timeIn valid j)

/-- TB_COMPARE_WINDOW_END (03 R91). -/
def execTbCompareWindowEnd (dt edge : Nat) (s : State) : Host.Outcome State Fault Refusal :=
  event (Instr.tbCompareWindowEnd dt edge).wf dt s (windowEnd edge)

/-- TIME_IN_LOSS_TIMEOUT (03 R92). -/
def execTimeInLossTimeout (dt : Nat) (validFell : Bool) (s : State) : Host.Outcome State Fault Refusal :=
  event (Instr.timeInLossTimeout dt validFell).wf dt s (timeInLoss validFell)

/-- What KCLK_LOSS does, where it can happen. -/
def onKclkLoss (s : State) : State :=
  if s.chip.porstN then loseKclk s else s

/-- KCLK_LOSS (03 R92). -/
def execKclkLoss (dt : Nat) (s : State) : Host.Outcome State Fault Refusal :=
  event (Instr.kclkLoss dt).wf dt s onKclkLoss

/-- TB_RELOCK (03 R93). -/
def execTbRelock (dt : Nat) (priv : Bool) (s : State) : Host.Outcome State Fault Refusal :=
  event (Instr.tbRelock dt priv).wf dt s (keeperWrite priv relockWrite)

/-- TB_REF_SEL_WRITE (03 R90). -/
def execTbRefSelWrite (dt : Nat) (priv kclk : Bool) (s : State) : Host.Outcome State Fault Refusal :=
  event (Instr.tbRefSelWrite dt priv kclk).wf dt s (keeperWrite priv (refSelWrite kclk))

/-- TB_NOW_LO_READ: TB_NOW_HI is latched (03 R88). -/
def execTbNowLoRead (dt : Nat) (priv debug : Bool) (s : State) : Host.Outcome State Fault Refusal :=
  event (Instr.tbNowLoRead dt priv debug).wf dt s (keeperRead priv debug (fun s => s.now % 2 ^ 32)
    (fun s => { s with tb := { s.tb with hiLatch := s.now / 2 ^ 32 } }))

end Sys2Proof.Machine
end

