-- ==== Sys2Proof/Machine/Intake.lean ====
section
/-! DEFINITION. Sensor intake: CSI-2 packets, frames and their defects, strips, byte-clock windows, sync groups and raw mirroring
(08 R257-R283; 07 R233, R247). -/

namespace Sys2Proof.Machine

/-! ### Ports, streams, frames -/

/-- Bits of SNS_EVT become 1. -/
def snsEvt (p mask : Nat) : State → State := modPort p (fun x => { x with evt := x.evt ||| BitVec.ofNat 14 mask })

/-- A packet or frame is discarded without error: SNS_DROP_CNT + 1. -/
def dropPacket (p : Nat) : State → State := modPort p (fun x => { x with drops := sat32 (x.drops + 1) })

/-- The stream of a virtual channel. -/
def vcStream (s : State) (p vc : Nat) : Option (Nat × Stream) := s.streams.find? (fun x => x.2.port = p && x.2.vc = vc)

/-- LINE_BYTES of a stream (R256). -/
def Stream.lineLen (t : Stream) : Nat := lineBytes t.dtype t.width

/-- Strips of its frames (R267). -/
def Stream.strips (t : Stream) : Nat := cdiv t.height 64

/-- Change the frame of a gathering. -/
def modFrame (wid : Nat) (f : Frame → Frame) : State → State := modWork wid (fun w => { w with frame := w.frame.map f })

/-- The frame of a gathering. -/
def frameOf (s : State) (wid : Nat) : Option Frame := (Tbl.get? s.works wid).bind (·.frame)

/-- Open frames on a port: stream and gathering. -/
def openFrames (s : State) (p : Nat) : List (Nat × Nat) :=
  s.streams.filterMap (fun x => if x.2.port = p then x.2.cur.map (fun w => (x.1, w)) else none)

/-- A strip from which on every strip is defective. -/
def Frame.spoilFrom (f : Frame) (n : Nat) : Frame := { f with badFrom := some (min n (f.badFrom.getD n)) }

/-- The strip being filled and every later one are defective, and the frame is CORRUPT; once all HEIGHT lines are in, no strip is being
filled and none receives a line any more (R263). -/
def Frame.spoilRest (f : Frame) (height : Nat) : Frame :=
  { (if f.got < height then f.spoilFrom (f.got / 64) else f) with corrupt := true }

/-- A strip is defective. -/
def Frame.spoil (f : Frame) (n : Nat) : Frame := { f with badStrips := insertNat n f.badStrips }

/-- The strip is defective (R263). -/
def Frame.isBad (f : Frame) (n : Nat) : Bool := mem f.badStrips n || (match f.badFrom with | some k => k ≤ n | none => false)

/-! ### Padding (R262) -/

/-- A group of pixels of a data type whose components all have the pad codes `y` and `c`. -/
def padGroup (d y c : Nat) : List Byte :=
  match d with
  | 0x2A => leBytes (y % 2 ^ 8) 1
  | 0x2B => List.replicate 4 (BitVec.ofNat 8 (bits y 2 8)) ++ leBytes (y % 4 * 85) 1
  | 0x2C => List.replicate 2 (BitVec.ofNat 8 (bits y 4 8)) ++ leBytes (y % 16 * 17) 1
  | 0x2D => List.replicate 4 (BitVec.ofNat 8 (bits y 6 8)) ++ leBytes (y % 64 * 266305) 3
  | 0x2E => leBytes y 2
  | 0x2F => List.replicate 2 (BitVec.ofNat 8 (bits y 12 8)) ++ List.replicate 2 (BitVec.ofNat 8 (bits y 4 8)) ++ leBytes (y % 16 * 17) 1
  | 0x1E => [BitVec.ofNat 8 c, BitVec.ofNat 8 y, BitVec.ofNat 8 c, BitVec.ofNat 8 y]
  | 0x1F => [BitVec.ofNat 8 (bits c 2 8), BitVec.ofNat 8 (bits y 2 8), BitVec.ofNat 8 (bits c 2 8), BitVec.ofNat 8 (bits y 2 8),
             BitVec.ofNat 8 (c % 4 * 17 + y % 4 * 68)]
  | 0x24 => List.replicate 3 (BitVec.ofNat 8 y)
  | _ => []

/-- A line of pad codes. -/
def padCodes (d width y c : Nat) : List Byte :=
  match dtypeGroup d with
  | some g => (List.replicate (width / g.1) (padGroup d y c)).flatten
  | none => []

/-- The padded line of a frame: the pad codes, or the last line received. -/
def padLine (t : Stream) (f : Frame) : List Byte :=
  match f.padMode, f.lastLine with
  | true, some l => l
  | _, _ => padCodes t.dtype t.width f.padY f.padC

/-- Lines of the frame as landed, lines still missing or held counted as padding. -/
def landedLines (t : Stream) (f : Frame) : List (List Byte) :=
  (upto 0 t.height).map (fun k => match f.lines.getD k [] with | [] => padLine t f | l => l)

/-! ### Line buffers (R233, R269) -/

/-- Line buffers that the stream's binding declares (log 43). -/
def lineBuffersOf (s : State) (t : Stream) : Nat :=
  match (Tbl.get? s.bindings t.binding).bind Binding.image with
  | some i => Config.lineBuffers i.bindingId + 1
  | none => 1

/-- Strips of a frame whose buffers are in use: they received lines, or have been padded, and are not released. -/
def Frame.using (f : Frame) : List Nat := (f.stripTimes.map (·.1) ++ f.ready.map (·.1)).filter (fun n => !mem f.released n && !mem f.held n)

/-- The line buffer for strip `n` of gathering `wid` is held by an earlier strip of the frame or of an earlier frame. -/
def bufferHeld (s : State) (i wid : Nat) (t : Stream) (n : Nat) : Bool :=
  let m := lineBuffersOf s t
  s.works.any (fun p => p.2.kind == .live i && p.2.phase != .done && (match p.2.frame with
    | some f => f.using.any (fun k => k % m = n % m && (if p.1 = wid then k < n else p.1 < wid))
    | none => false))

/-! ### Mirror copies (R281-R283) -/

/-- PITCH of a mirrored stream. -/
def mirrorPitch (t : Stream) : Nat := cdiv t.lineLen 64 * 64

/-- The mirror gathering of the frame with a counter. -/
def mirrorOf (s : State) (i counter : Nat) : Option (Nat × Work) := s.works.find? (fun p => p.2.kind == .mirror i && p.2.counter = counter)

/-- Lines of a frame in order up to the first that is held back. -/
def landedPrefix (f : Frame) : List (List Byte) := f.lines.takeWhile (fun l => !l.isEmpty)

/-- Payload of a mirror gathering from the frame's lines. -/
def mirrorBytes (t : Stream) (lines : List (List Byte)) : List Byte := lines.flatMap (fun l => slice l 0 (mirrorPitch t))

/-- Present the folios of a mirror copy that are complete; the last waits until the frame is settled. The words of lines known to be bad
are written poisoned (02 R37). -/
def feedMirror (i counter : Nat) (bad : List Nat) (lines : List (List Byte)) (last : Bool) (s : State) : State :=
  match mirrorOf s i counter, Tbl.get? s.streams i with
  | some (wid, w), some t =>
    let bytes := mirrorBytes t lines
    let n := if last then w.total else min (bytes.length / 4096) (w.total - 1)
    forEach ((upto 0 n).filter (fun k => !w.hasFolio k)) (fun k s => putFolio wid k (slice bytes (4096 * k) 4096) s)
      (modWork wid (fun w => { w with poison := bad.map (fun k => (k * mirrorPitch t, t.lineLen)) }) s)
  | _, _ => s

/-- Bytes of a mirror copy that wait in the staging buffer of its port: landed and not yet written. -/
def stagedBytes (s : State) (i : Nat) (t : Stream) (wid : Nat) (w : Work) : Nat :=
  let landed := match s.works.find? (fun p => p.2.kind == .live i && p.2.counter = w.counter) with
    | some p => (match p.2.frame with | some f => (landedPrefix f).length * mirrorPitch t | none => 0)
    | none => 0
  let out := (s.txs.filter (fun x => match x.purpose with | .folio v _ => v = wid | _ => false)).length * 256
  landed - (4096 * w.folios.length - out)

/-- Bytes that wait in the staging buffer of a port. -/
def portStaged (s : State) (p : Nat) : Nat :=
  (s.works.map (fun x => match x.2.kind with
    | .mirror i => (match Tbl.get? s.streams i with
      | some t => if t.port = p then stagedBytes s i t x.1 x.2 else 0
      | none => 0)
    | _ => 0)).sum

/-- The mirror copy of a frame is abandoned when the 64 KiB staging buffer of its port overflows. -/
def checkStaging (p i counter : Nat) (s : State) : State :=
  match mirrorOf s i counter with
  | some (wid, _) => if 65536 < portStaged s p then abandonMirror wid s else s
  | none => s

/-! ### Lines (R257, R258, R266, R269) -/

/-- A line takes its place. Lines of a strip that was padded when its buffer was released are there already. -/
def Frame.put (f : Frame) (line : List Byte) : Frame :=
  { f with lines := if f.got < f.lines.length then f.lines else f.lines ++ [line], got := f.got + 1 }

/-- A line that a Line Start announced and no long packet brought: it is padded, and the frame becomes CORRUPT (R258). After HEIGHT lines
there is no place for it, and it only makes the frame CORRUPT. -/
def missLine (t : Stream) (f : Frame) : Frame :=
  { (if f.got < t.height then (f.spoil (f.got / 64)).put (padLine t f) else f) with corrupt := true }

/-- What a long packet brought besides its payload. -/
structure LineIn where
  payload : List Byte
  crcOk : Bool
  fifoLost : Bool
  storeErr : Bool
  deriving DecidableEq, Repr

/-- The word count differs from LINE_BYTES; bytes that the FIFO lost are not counted against it (log 43). -/
def LineIn.wrongLen (x : LineIn) (t : Stream) : Bool := x.payload.length ≠ t.lineLen && !x.fifoLost

/-- The line's bytes: those beyond LINE_BYTES are discarded, missing ones padded. -/
def LineIn.line (x : LineIn) (t : Stream) (f : Frame) : List Byte :=
  x.payload.take t.lineLen ++ (padLine t f).drop x.payload.length

/-- The line is defective in a frame of this mode. -/
def LineIn.bad (x : LineIn) (t : Stream) (f : Frame) : Bool :=
  x.wrongLen t || !x.crcOk || x.fifoLost || x.storeErr || (f.marked && !f.lineOpen)

/-- The frame after a line; `held` says that its line buffer is held. -/
def takeLine (t : Stream) (x : LineIn) (held : Bool) (now : Nat) (f : Frame) : Frame :=
  let n := f.got / 64
  let line := x.line t f
  let f1 := if x.bad t f then { f.spoil n with corrupt := true } else f
  let f2 := if held then { f1.spoil n with corrupt := true, held := insertNat n f1.held } else { f1 with stripTimes := Tbl.set f1.stripTimes n now }
  { f2.put (if held then [] else line) with lineOpen := false, lastLine := some line, lastPkt := now,
                                            badLines := if x.storeErr then f2.badLines ++ [f.got] else f2.badLines }

/-- SNS_EVT bits of a line. -/
def lineEvents (t : Stream) (x : LineIn) (held : Bool) : Nat :=
  (if x.wrongLen t then 256 else 0) + (if x.crcOk then 0 else 32) + (if x.fifoLost then 8 else 0) + (if held then 1024 else 0)

/-- A long packet of the stream's type with an open frame (rows 5 to 7). -/
def acceptLine (p i wid : Nat) (t : Stream) (f : Frame) (x : LineIn) (s : State) : State :=
  if t.height ≤ f.got then
    snsEvt p 128 (modFrame wid (fun f => { f with overlong := true, lineOpen := false, lastPkt := s.now }) s)
  else
    let n := f.got / 64
    let held := f.lines.length ≤ f.got && (mem f.held n || bufferHeld s i wid t n)
    let s1 := snsEvt p (lineEvents t x held) (modFrame wid (takeLine t x held s.now) s)
    let s2 := when (!x.crcOk) (modPort p (fun q => { q with crcErr := sat32 (q.crcErr + 1) })) s1
    let s3 := when x.fifoLost (report1 106 2 0x1D p false) s2
    let s4 := when x.storeErr (report1 108 2 0x02 p false) s3
    match frameOf s4 wid with
    | some g => checkStaging p i g.counter (feedMirror i g.counter g.badLines (landedPrefix g) false s4)
    | none => s4

/-- Header ECC (row 1): an uncorrectable header discards the packet, and every open frame on the port becomes CORRUPT. -/
def withHeader (p : Nat) (ecc : Ecc) (f : State → State) (s : State) : State :=
  if !s.mainUp then s
  else match ecc with
    | .ok => f s
    | .corrected => f (modPort p (fun x => { x with eccCorr := sat32 (x.eccCorr + 1) }) s)
    | .bad =>
      forEach (openFrames s p) (fun w s => match Tbl.get? s.streams w.1 with
          | some t => modFrame w.2 (fun f => f.spoilRest t.height) s
          | none => s)
        (snsEvt p 16 (modPort p (fun x => { x with eccErr := sat32 (x.eccErr + 1) }) s))

/-- A long packet (rows 2 to 7). -/
def longPacket (p vc dtype : Nat) (x : LineIn) (s : State) : State :=
  match vcStream s p vc with
  | none => dropPacket p s
  | some (i, t) =>
    if t.st == .attaching || (dtypeGroup dtype).isNone then dropPacket p s
    else match t.cur with
      | none => if dtype ≠ t.dtype then s else dropPacket p s
      | some wid =>
        match frameOf s wid with
        | none => s
        | some f =>
          if dtype ≠ t.dtype then
            modFrame wid (fun f => { f.spoilRest t.height with lineOpen := false, lastPkt := s.now }) s
          else acceptLine p i wid t f x s

/-- Line Start (R258). -/
def lineStart (p vc : Nat) (s : State) : State :=
  match vcStream s p vc with
  | none => dropPacket p s
  | some (_, t) =>
    if t.st == .attaching then dropPacket p s
    else match t.cur with
      | none => s
      | some wid => modFrame wid (fun f =>
          if f.got = 0 && !f.marked then { f with marked := true, lineOpen := true }
          else if !f.marked then f
          else if f.lineOpen then missLine t f
          else { f with lineOpen := true }) s

/-- Line End (R258): accepted and otherwise ignored. -/
def lineEnd (p vc : Nat) (s : State) : State :=
  match vcStream s p vc with
  | none => dropPacket p s
  | some (_, t) => if t.st == .attaching then dropPacket p s else s

/-! ### The close of a frame (R259, R261, R262, R271) -/

/-- Missing lines are padded, and their strips are defective. -/
def padFrame (t : Stream) (f : Frame) : Frame :=
  if f.got < t.height then
    let pad := padLine t f
    { f with
      truncated := true, lines := f.lines ++ List.replicate (t.height - f.lines.length) pad,
      badStrips := (upto (f.got / 64) (t.strips - f.got / 64)).foldl (fun l n => insertNat n l) f.badStrips }
  else f

/-- A qualified frame that closes without a byte-clock fault counts towards UP (R275). -/
def qualifyFrame (p : Nat) (f : Frame) (s : State) : State :=
  let x := s.port p
  if f.qualify && !f.clockFault && x.st == .qualifying && 0 < x.qualLeft then
    modPort p (fun x => { x with qualLeft := x.qualLeft - 1, st := if x.qualLeft = 1 then .up else x.st }) s
  else s

/-- An open frame closes at a time, with or without a Frame End. -/
def closeFrame (i wid at_ : Nat) (fe : Bool) (s : State) : State :=
  match Tbl.get? s.streams i, frameOf s wid with
  | some t, some f =>
    let f1 := padFrame t f
    let f2 := { f1 with closed := some at_, corrupt := f1.corrupt || (!fe && t.height ≤ f.got) }
    let s1 := modStream i (fun t => { t with cur := none }) (modWork wid (fun w => { w with
      frame := some f2, exposure := f.fsStamp - f.expo, frameEnd := at_ }) s)
    let s2 := snsEvt t.port ((if f.got < t.height then 64 else 0) + (if fe then 0 else 2048)) s1
    feedMirror i f.counter f2.badLines (landedPrefix f2) false (qualifyFrame t.port f s2)
  | _, _ => s

/-! ### Frame Start and Frame End (R259, R260, R270-R272) -/

/-- The stamp of a packet; a lost one is replaced by the time base. -/
def packetStamp (s : State) (j : Int) (lost : Bool) : Nat := if lost then s.now else (stampAt s j).toNat

/-- The stamp queue overran: CDC_OVR.STAMP, and CORRECTED on source 120 (R272, 03 R96). -/
def noteOverrun (lost : Bool) : State → State :=
  when lost (fun s => report1 120 1 0x11 0 false { s with power := { s.power with ovrStamp := true } })

/-- The counter's step, whether the frame becomes CORRUPT and whether FN_GAP is set (R260; log 42). -/
def counterStep (t : Stream) (wrap fn : Nat) : Nat × Bool × Bool :=
  let prev := t.prevFn.getD 0
  if fn = 0 then (1, false, false)
  else if !t.started then (fn - t.counter, false, false)
  else if wrap < fn || fn = prev then (1, true, false)
  else if prev < fn then (fn - prev, false, decide (1 < fn - prev))
  else (fn + wrap - prev, false, decide (1 < fn + wrap - prev))

/-- The sensor frame counter advances. -/
def advanceCounter (i fn step : Nat) : State → State :=
  modStream i (fun t => { t with
    counter := (t.counter + step) % 2 ^ 64, started := true, prevFn := if fn = 0 then t.prevFn else some fn })

/-- The group of a stream. -/
def groupOf (s : State) (i : Nat) : Option (Nat × Group) := s.groups.find? (fun g => mem g.2.members i)

/-- The image and entry point of a stream in the generation in force. -/
def streamImage (s : State) (t : Stream) : Option (Binding × Image × EntryPt) :=
  match Tbl.get? s.bindings t.binding with
  | some b => (match b.image with | some i => (i.point? t.entry).map (fun p => (b, i, p)) | none => none)
  | none => none

/-- The draw key that a stream's gathering uses. -/
def streamKey (s : State) (t : Stream) (p : EntryPt) : Option DrawKey :=
  if p.draws then ((s.ctx t.ctx).keys.getD t.keySlot {}).cur else none

/-- A gathering of a stream that begins now. -/
def streamWork (s : State) (t : Stream) (kind : WorkKind) (i : Nat) (b : Binding) (p : EntryPt) (stamp : Nat) : Work :=
  { kind, ctx := t.ctx, cls := 0, streamId := i, binding := t.binding, gen := b.gen, entry := t.entry, guards := (s.ctx t.ctx).guards,
    key := streamKey s t p, drawPos := t.drawPos, views := p.views, total := cdiv p.outBytes 4096, counter := t.counter,
    tStart := stamp, members := [newMember p.outBytes p.views] }

/-- A buffer of a pool's set for `total` folios and the colophon. -/
def folioBuffer (s : State) (c pool total : Nat) : Option (Nat × Nat × Nat) :=
  match poolSet pool c with
  | some set => offerBuf s c set (4096 * total + 128)
  | none => none

/-- Add a gathering with its buffer, where stock offers one, and zero the colophon's place (R20, 14 R454). -/
def beginWork (w : Work) (buf : Option (Nat × Nat × Nat)) (s : State) : State :=
  let wid := s.workNext
  let s1 := addWork { w with buffer := buf } (match buf with | some b => setBuf b.1 b.2.1 (some .issued) s | none => s)
  when buf.isSome (zeroWrite wid) s1

/-- The draw position of the stream's next sample (12 R411). -/
def nextDraw (i : Nat) (img : Image) (p : EntryPt) : State → State :=
  modStream i (fun t => { t with drawPos := (t.drawPos + drawSpan img p) % 2 ^ 64 })

/-- A new frame. -/
def newFrame (x : Port) (fn stamp now counter : Nat) (corrupt : Bool) : Frame :=
  { fn, counter, fsStamp := stamp, lines := [], got := 0, lastPkt := now, marked := false, lineOpen := false, corrupt, overlong := false,
    truncated := false, badStrips := [], badFrom := none, stripTimes := [], held := [], ready := [], padMode := x.padMode, padY := x.padY,
    padC := x.padC, expo := x.expo, timeoutUs := x.timeoutUs, closed := none, settled := false,
    qualify := x.st == .qualifying && decide (0 < x.qualLeft) }

/-- The mirror copy of a frame begins (R281, R282). -/
def beginMirror (i counter : Nat) (s : State) : State :=
  match Tbl.get? s.streams i with
  | none => s
  | some t =>
    if t.mirrorPool = 0 then s
    else
      let total := cdiv (t.height * mirrorPitch t) 4096
      match folioBuffer s t.ctx t.mirrorPool total with
      | none => modPort t.port (fun p => { p with mirrorDrops := sat32 (p.mirrorDrops + 1) }) s
      | some b =>
        let w : Work := { kind := .mirror i, ctx := t.ctx, streamId := i + 0x8000, guards := (s.ctx t.ctx).guards, total, counter,
                          tStart := s.now, members := [newMember (4096 * total) 0] }
        beginWork w (some b) (modStream i (fun t => { t with mirror := some s.workNext }) s)

/-- A frame opens: stock issues a buffer of the stream's pool to its gathering, and its mirror copy begins. -/
def openFrame (i fn stamp : Nat) (corrupt : Bool) (s : State) : State :=
  match Tbl.get? s.streams i with
  | none => s
  | some t =>
    match streamImage s t with
    | none => dropPacket t.port s
    | some (b, img, p) =>
      let f := newFrame (s.port t.port) fn stamp s.now t.counter corrupt
      let w := { streamWork s t (.live i) i b p stamp with frame := some f, exposure := stamp - f.expo, guards := [] }
      let buf := folioBuffer s t.ctx t.outPool w.total
      let s1 := modStream i (fun t => { t with cur := some s.workNext, nFrames := t.nFrames + 1 }) (nextDraw i img p s)
      beginMirror i t.counter (addWork { w with buffer := buf } (match buf with | some b => setBuf b.1 b.2.1 (some .issued) s1 | none => s1))

/-! ### Views tipped in by intake and the press (07 R247; 08 R275, R278; 09 R326) -/

/-- The encode view of a gathering is not delivered: its unit is taken back, or one unit's worth of the rate passes uncoded. -/
def tipEncoder (wid : Nat) (s : State) : State :=
  match Tbl.get? s.works wid with
  | none => s
  | some w =>
    let img := (Tbl.get? s.bindings w.binding).bind (fun b => b.image? w.gen)
    match img, img.bind (fun i => i.point? w.entry), w.kind with
    | some i, some p, .live id | some i, some p, .missing id =>
      match encodeOf i p, p.encodeView i with
      | some (_, blk), some v =>
        if viewDone w v || mem w.shed v then s
        else modStream id (fun t => { t with enc := match w.encBefore with | some e => e | none => skipUnit blk t.enc }) s
      | _, _ => s
    | _, _, _ => s

/-- Every unfinished view of a gathering is tipped in with a status. -/
def tipViews (wid status : Nat) (s : State) : State := tipIn wid status (tipEncoder wid s)

/-- A gathering counts as missed (R247, R278). -/
def countMiss (s : State) : State := { s with press := { s.press with missCnt := sat32 (s.press.missCnt + 1), evt := s.press.evt ||| 2 } }

/-- A member is missing from a group frame: a placeholder gathering is committed (R278). -/
def missMember (frameEnd i : Nat) (s : State) : State :=
  match Tbl.get? s.streams i with
  | none => s
  | some t =>
    match streamImage s t with
    | none => s
    | some (b, img, p) =>
      let wid := s.workNext
      let w := { streamWork s t (.missing i) i b p s.now with counter := 2 ^ 64 - 1, exposure := 0, frameEnd }
      let buf := folioBuffer s t.ctx t.outPool w.total
      let s1 := tipViews wid 7 (beginWork w buf (nextDraw i img p (snsEvt t.port 8192 (countMiss s))))
      if buf.isNone then failWork wid 4 s1 else s1

/-- The window of the current group frame has expired. -/
def expireGroup (g : Nat) (s : State) : State :=
  match Tbl.get? s.groups g with
  | none => s
  | some x =>
    let t1 := x.t0 + x.windowUs * 1000
    forEach (x.members.filter (fun i => !mem x.joined i)) (missMember t1) (modGroup g (fun x => { x with expired := true }) s)

/-- A Frame Start of a member of a group, at its stamp (R277): the state after it. -/
def joinGroup (i stamp : Nat) (s : State) : State :=
  match groupOf s i with
  | none => s
  | some (g, x) =>
    if !x.inForce then modGroup g (fun x => { x with seen := insertNat i x.seen }) s
    else if x.frame = 0 || mem x.joined i then
      modGroup g (fun x => { x with frame := x.frame + 1, t0 := stamp, joined := [i], expired := false })
        (when (x.frame ≠ 0 && !x.expired) (expireGroup g) s)
    else if stamp ≤ x.t0 + x.windowUs * 1000 then modGroup g (fun x => { x with joined := insertNat i x.joined }) s
    else s

/-- The Frame Start is late to its group's frame (R279). -/
def lateToGroup (s : State) (i stamp : Nat) : Bool :=
  match groupOf s i with
  | none => false
  | some (_, x) => x.inForce && x.frame ≠ 0 && !mem x.joined i && decide (x.t0 + x.windowUs * 1000 < stamp)

/-- Frame Start on an attached stream. -/
def startFrame (p i fn stamp : Nat) (lost : Bool) (s : State) : State :=
  match Tbl.get? s.streams i with
  | none => s
  | some t =>
    let (step, corrupt, gap) := counterStep t (s.port p).fnWrap fn
    let s1 := advanceCounter i fn step s
    let s2 := match t.cur with | some w => closeFrame i w stamp false s1 | none => s1
    let s3 := when gap (snsEvt p 512) s2
    if t.st == .detaching || t.st == .safe || (s.port p).st == .lost then dropPacket p s3
    else if lateToGroup s3 i stamp then snsEvt p 4096 (dropPacket p s3)
    else openFrame i fn stamp (corrupt || lost) (joinGroup i stamp s3)

/-- Frame Start: the port keeps its stamp, and a stream that waits for it on an UP port is attached (R275, 05 R159). -/
def frameStart (p vc fn : Nat) (j : Int) (lost : Bool) (s : State) : State :=
  let stamp := packetStamp s j lost
  let s1 := noteOverrun lost (modPort p (fun x => { x with fsStamp := stamp }) s)
  match vcStream s1 p vc with
  | none => dropPacket p s1
  | some (i, t) =>
    if t.st == .attaching && (s1.port p).st != .up then dropPacket p s1
    else startFrame p i fn stamp lost (streamAttached i s1)

/-- Frame End. -/
def frameEnd (p vc fn : Nat) (j : Int) (lost : Bool) (s : State) : State :=
  let stamp := packetStamp s j lost
  let s1 := noteOverrun lost s
  match vcStream s1 p vc with
  | none => dropPacket p s1
  | some (i, t) =>
    match t.cur with
    | none => dropPacket p s1
    | some wid => closeFrame i wid stamp true (modFrame wid (fun f =>
        let f := if f.lineOpen then { missLine t f with lineOpen := false } else f
        { f with corrupt := f.corrupt || lost || fn ≠ f.fn }) s1)

/-- LINE_TIMEOUT: no long packet for the line timeout (R259). -/
def lineTimeout (i : Nat) (s : State) : State :=
  match Tbl.get? s.streams i with
  | none => s
  | some t =>
    match t.cur with
    | none => s
    | some wid =>
      match frameOf s wid with
      | some f => let e := f.lastPkt + f.timeoutUs * 1000; if e ≤ s.now then closeFrame i wid e false s else s
      | none => s

/-! ### Defects are settled (R261, R264, R265, R274) -/

/-- DETAIL of a frame's defects (06 R205): CORRUPT, TRUNCATED, OVERLONG, none. -/
def Frame.defect (f : Frame) : Nat := if f.corrupt || f.qualify then 3 else if f.truncated then 1 else if f.overlong then 2 else 0

/-- View `v` reads a defective strip, by the lines that the blocks of its stages read (R264). -/
def viewSpoiled (t : Stream) (i : Image) (p : EntryPt) (w : Work) (f : Frame) (v : Nat) : Bool :=
  let e : OpEnv := { key := (match w.key with | some k => k.key | none => 0), pos := w.drawPos, view := v, param := 0, ext := 0,
                     coeffs := i.coeffs }
  (viewStrips i p e t.dtype t.width t.height v).any f.isBad

/-- Views that a frame's defects make invalid. -/
def spoiledViews (s : State) (t : Stream) (w : Work) (f : Frame) : List Nat :=
  match (Tbl.get? s.bindings w.binding).bind (fun b => b.image? w.gen) with
  | some i => match i.point? w.entry with
    | some p => (upto 0 w.views).filter (viewSpoiled t i p w f)
    | none => []
  | none => []

/-- Counters of a frame's defects (05 R171). -/
def countDefects (i : Nat) (f : Frame) : State → State :=
  modStream i (fun t => { t with nTrunc := t.nTrunc + b2n f.truncated, nOver := t.nOver + b2n f.overlong,
                                 nCorrupt := t.nCorrupt + b2n (f.corrupt || f.qualify) })

/-- The defect status of a frame for a gathering. -/
def markDefect (f : Frame) (w : Work) : Work :=
  if f.defect = 0 then w
  else { w with members := w.members.map (fun m => { m with statuses := 9 :: m.statuses, defect := f.defect }) }

/-- The mirror copy takes the frame's times and status, and its last folio. -/
def settleMirror (i : Nat) (t : Stream) (w : Work) (f : Frame) (s : State) : State :=
  match mirrorOf s i f.counter with
  | some (m, _) => feedMirror i f.counter f.badLines (landedLines t f) true (modWork m (fun x =>
      { markDefect f x with exposure := w.exposure, frameEnd := w.frameEnd }) s)
  | none => s

/-- Settle the frame of a gathering; one that found no buffer has coded no unit (R265, 09 R326). -/
def settleWork (i wid : Nat) (s : State) : State :=
  match Tbl.get? s.streams i, Tbl.get? s.works wid with
  | some t, some w =>
    match w.frame with
    | none => s
    | some f =>
      let s1 := settleMirror i t w f (countDefects i f s)
      if w.phase == .done then dropWork wid s1
      else
        let s2 := modWork wid (fun w => invalidate (spoiledViews s t w f) [] (markDefect f w)) s1
        if w.buffer.isNone then failWork wid 4 (settleFrame wid (tipEncoder wid s2))
        else tryColophon wid (settleFrame wid (when f.qualify (tipViews wid 9) s2))
  | _, _ => s

/-- Settle the frames of a port that closed before the window that ends now (R274). -/
def settlePort (p : Nat) (s : State) : State :=
  forEach (s.works.filterMap (fun x => match x.2.kind, x.2.frame with
      | .live i, some f => (match Tbl.get? s.streams i, f.closed with
        | some t, some c => if t.port = p && !f.settled && decide (c + 8000 ≤ s.now) then some (i, x.1) else none
        | _, _ => none)
      | _, _ => none))
    (fun q s => settleWork q.1 q.2 s) s

/-! ### Byte-clock windows (R273-R275) -/

/-- The class of a window. -/
def windowClass (c n : Nat) : PclkClass :=
  if c = 0 then .zero else if 50 * ((c : Int) - n).natAbs ≤ n then .inside else .outside

/-- Strips that a byte-clock fault found now makes defective: those that received a line within the last two windows, and all later ones;
where none did, none (R263). -/
def clockSpoil (now : Nat) (f : Frame) : Frame :=
  let recent := (f.stripTimes.filter (fun x => now ≤ x.2 + 16000)).map (·.1)
  let f := { f with corrupt := true, clockFault := f.clockFault || f.closed.isNone }
  match recent with
  | n :: _ => f.spoilFrom n
  | [] => f

/-- A glitch or rate change: open frames, and frames closed within the last two windows, become CORRUPT. -/
def clockFault (p : Nat) (s : State) : State :=
  { s with works := s.works.map (fun x => (x.1, match x.2.kind, x.2.frame with
      | .live i, some f => (match Tbl.get? s.streams i with
        | some t =>
          if t.port = p && !f.settled && (match f.closed with | some c => decide (s.now < c + 16000) | none => true) then
            { x.2 with frame := some (clockSpoil s.now f) }
          else x.2
        | none => x.2)
      | _, _ => x.2)) }

/-- The byte clock stopped. -/
def losePort (p : Nat) (s : State) : State :=
  let s1 := snsEvt p 1 (modPort p (fun x => { x with st := .lost, qualLeft := 0, goodWins := 0 }) s)
  let s2 := forEach (openFrames s1 p) (fun w s => closeFrame w.1 w.2 s.now false (modFrame w.2 (fun f => { f with clockFault := true }) s)) s1
  report1 104 2 0x1C p false s2

/-- A stream of the port is attached. -/
def portAttached (s : State) (p : Nat) : Bool := s.streams.any (fun x => x.2.port = p && x.2.st != .attaching)

/-- An IN window that is no glitch: two of them end LOST, and bring a port without frames to qualify to UP. -/
def goodWindow (p : Nat) (s : State) : State :=
  let x := s.port p
  let n := min 2 (x.goodWins + 1)
  if x.st == .lost then
    modPort p (fun x => if n = 2 then { x with st := .qualifying, qualLeft := 2, goodWins := 0 } else { x with goodWins := n }) s
  else if x.st == .qualifying && (x.qualLeft = 0 || !portAttached s p) then
    modPort p (fun x => if n = 2 then { x with st := .up, qualLeft := 0, goodWins := 0 } else { x with goodWins := n }) s
  else s

/-- What a window's class does. -/
def actWindow (p : Nat) (c : PclkClass) (s : State) : State :=
  let x := s.port p
  match c with
  | .zero => if x.st == .lost then modPort p (fun x => { x with goodWins := 0 }) s else losePort p s
  | .inside =>
    goodWindow p (when (x.st != .lost && x.lastWin == .outside)
      (fun s => report1 105 1 0x1C p false (snsEvt p 2 (clockFault p s))) s)
  | .outside =>
    let s1 := modPort p (fun x => { x with goodWins := 0 }) s
    when (x.st != .lost && x.lastWin == .outside)
      (fun s => report1 105 1 0x1C p false (snsEvt p 4 (modPort p (fun x => { x with st := .qualifying, qualLeft := 2 }) (clockFault p s)))) s1

/-- PCLK_WINDOW. -/
def pclkWindow (p edges : Nat) (s : State) : State :=
  let x := s.port p
  if !s.mainUp || x.st == .off then s
  else
    let c := windowClass edges x.laneMbps
    settlePort p (modPort p (fun x => { x with pclkCnt := edges, lastWin := c }) (actWindow p c s))

/-! ### Strips (R267, R269; 07 R233, R246, R247) -/

/-- STRIP_READY: the last line of the strip has landed. -/
def stripReady (wid n : Nat) (s : State) : State :=
  match Tbl.get? s.works wid with
  | none => s
  | some w =>
    match w.kind, w.frame with
    | .live i, some f =>
      match Tbl.get? s.streams i with
      | some t =>
        if n < t.strips && min (64 * n + 64) t.height ≤ f.lines.length && !mem f.held n && !(f.ready.any (·.1 = n)) then
          modFrame wid (fun f => { f with ready := Tbl.set f.ready n s.now }) s
        else s
      | none => s
    | _, _ => s

/-- Stages of a gathering's entry point. -/
def stageCount (s : State) (w : Work) : Nat :=
  match ((Tbl.get? s.bindings w.binding).bind (fun b => b.image? w.gen)).bind (fun i => i.point? w.entry) with
  | some p => p.stageRun
  | none => 0

/-- The strip has been through every stage. -/
def stripDone (s : State) (w : Work) (n : Nat) : Bool := 2 * stageCount s w ≤ Tbl.getD w.strips n 0 && Tbl.has w.strips n

/-- Strip `n` of frame `f` found its buffer held and may be written now: every line becomes padding, and the strip is ready. -/
def fillHeld (t : Stream) (now n : Nat) (f : Frame) : Frame :=
  let pad := padLine t f
  let last := min (64 * n + 64) t.height
  let lines := f.lines ++ (if f.lines.length ≤ 64 * n then [] else List.replicate (last - f.lines.length) pad)
  { f with lines := (upto 0 lines.length).map (fun k => if k / 64 = n then pad else lines.getD k []),
           held := f.held.filter (· ≠ n), ready := Tbl.set f.ready n now }

/-- Write the held strips of a stream whose buffers are free now, oldest first. -/
def fillFree (i : Nat) (t : Stream) (s : State) : State :=
  forEach (s.works.filterMap (fun x => if x.2.kind == .live i then x.2.frame.map (fun f => (x.1, f)) else none))
    (fun x s => forEach x.2.held (fun n s =>
      if bufferHeld s i x.1 t n then s
      else
        let s1 := modFrame x.1 (fillHeld t s.now n) s
        match frameOf s1 x.1 with
        | some g => feedMirror i g.counter g.badLines (landedPrefix g) false s1
        | none => s1) s) s

/-- A late strip is counted and shown (07 R246). -/
def countLateStrip (s : State) : State :=
  { s with press := { s.press with stripLateCnt := sat32 (s.press.stripLateCnt + 1), evt := s.press.evt ||| 32 } }

/-- The strip's last folio was answered later than 80 us after its last input line, the moment it became ready (R267, 07 R246). -/
def Frame.lateStrip (f : Frame) (n : Nat) : Bool :=
  match f.ready.find? (·.1 = n), f.answers.find? (·.1 = n) with
  | some r, some a => decide (r.2 + 80000 < a.2)
  | _, _ => false

/-- A folio of strip `n` waits to be presented, or a transaction of it is not answered. -/
def stripPending (s : State) (wid : Nat) (w : Work) (f : Frame) (n : Nat) : Bool :=
  f.owners.any (fun o => o.2 = n && (Tbl.has w.queue o.1 || s.txs.any (fun x => x.purpose == .folio wid o.1)))

/-- Strip `n` leaves the quire stores: its line buffer is free, and the strip is judged (07 R233, R246). -/
def releaseStrip (wid n : Nat) (s : State) : State :=
  match Tbl.get? s.works wid with
  | none => s
  | some w =>
    match w.kind, w.frame with
    | .live i, some f =>
      match Tbl.get? s.streams i with
      | some t =>
        if mem f.released n || !(f.ready.any (·.1 = n)) then s
        else fillFree i t (when (f.lateStrip n) countLateStrip (modFrame wid (fun f => { f with released := insertNat n f.released }) s))
      | none => s
    | _, _ => s

/-- STRIP_BUFFER_RELEASE: every folio that depends on the strip has been written, so its line buffer is free (log 43). -/
def stripRelease (wid n : Nat) (s : State) : State :=
  match Tbl.get? s.works wid with
  | none => s
  | some w =>
    match w.frame with
    | some f => if stripDone s w n && !stripPending s wid w f n then releaseStrip wid n s else s
    | none => s

/-- The strips whose folios are all answered leave: those with folios that are followed by a folio of a later strip, and all of
them once every folio of the gathering is there (07 R233; log 55). -/
def settleStrips (wid : Nat) (s : State) : State :=
  match Tbl.get? s.works wid with
  | none => s
  | some w =>
    match w.frame with
    | some f =>
      let all := decide (w.folios.length = w.total)
      let over_ := (f.ready.map (·.1)).filter (fun n =>
        (all || (f.owners.any (·.2 = n) && f.owners.any (fun o => n < o.2))) && !stripPending s wid w f n)
      forEach over_ (releaseStrip wid) s
    | none => s

/-- VIEW_ABANDON: ABANDON_US after frame end every unfinished view is delivered as a placeholder. -/
def viewAbandon (wid : Nat) (s : State) : State :=
  match Tbl.get? s.works wid with
  | none => s
  | some w =>
    match w.kind, w.frame, (Tbl.get? s.bindings w.binding).bind (fun b => b.image? w.gen) with
    | .live _, some f, some img =>
      if f.closed.isNone || !(w.buffer.isSome && (w.phase == .collecting || w.phase == .zeroing || w.phase == .working)) || s.now < w.frameEnd + img.abandonUs * 1000 ||
          (upto 0 w.views).all (viewDone w) then s
      else tryColophon wid (tipViews wid 7 (countMiss s))
    | _, _, _ => s

/-! ### Commands -/

/-- CSI2_LONG_PACKET (08 R257). -/
def execCsi2LongPacket (dt port vc dtype : Nat) (ecc : Ecc) (payload : List Byte) (crcOk fifoLost storeErr : Bool) (s : State) :
    Host.Outcome State Fault Refusal :=
  event (Instr.csi2LongPacket dt port vc dtype ecc payload crcOk fifoLost storeErr).wf dt s
    (withHeader port ecc (longPacket port vc dtype { payload, crcOk, fifoLost, storeErr }))

/-- FRAME_START (08 R259). -/
def execFrameStart (dt port vc fn : Nat) (ecc : Ecc) (j : Int) (stampLost : Bool) (s : State) : Host.Outcome State Fault Refusal :=
  event (Instr.frameStart dt port vc fn ecc j stampLost).wf dt s (withHeader port ecc (frameStart port vc fn j stampLost))

/-- FRAME_END (08 R259). -/
def execFrameEnd (dt port vc fn : Nat) (ecc : Ecc) (j : Int) (stampLost : Bool) (s : State) : Host.Outcome State Fault Refusal :=
  event (Instr.frameEnd dt port vc fn ecc j stampLost).wf dt s (withHeader port ecc (frameEnd port vc fn j stampLost))

/-- LINE_START (08 R258). -/
def execLineStart (dt port vc : Nat) (ecc : Ecc) (s : State) : Host.Outcome State Fault Refusal :=
  event (Instr.lineStart dt port vc ecc).wf dt s (withHeader port ecc (lineStart port vc))

/-- LINE_END (08 R258). -/
def execLineEnd (dt port vc : Nat) (ecc : Ecc) (s : State) : Host.Outcome State Fault Refusal :=
  event (Instr.lineEnd dt port vc ecc).wf dt s (withHeader port ecc (lineEnd port vc))

/-- LINE_TIMEOUT (08 R259). -/
def execLineTimeout (dt stream : Nat) (s : State) : Host.Outcome State Fault Refusal :=
  event (Instr.lineTimeout dt stream).wf dt s (lineTimeout stream)

/-- PCLK_WINDOW (08 R273). -/
def execPclkWindow (dt port edges : Nat) (s : State) : Host.Outcome State Fault Refusal :=
  event (Instr.pclkWindow dt port edges).wf dt s (pclkWindow port edges)

/-- STRIP_READY (08 R267). -/
def execStripReady (dt work strip : Nat) (s : State) : Host.Outcome State Fault Refusal :=
  event (Instr.stripReady dt work strip).wf dt s (stripReady work strip)

/-- STRIP_BUFFER_RELEASE (08 R269). -/
def execStripBufferRelease (dt work strip : Nat) (s : State) : Host.Outcome State Fault Refusal :=
  event (Instr.stripBufferRelease dt work strip).wf dt s (stripRelease work strip)

/-- What SYNC_WINDOW_EXPIRY does, where it can happen. -/
def onSyncWindowExpiry (group : Nat) (s : State) : State :=
  match Tbl.get? s.groups group with
  | some x => if x.inForce && x.frame ≠ 0 && !x.expired && decide (x.t0 + x.windowUs * 1000 ≤ s.now) then expireGroup group s else s
  | none => s

/-- SYNC_WINDOW_EXPIRY (08 R278). -/
def execSyncWindowExpiry (dt group : Nat) (s : State) : Host.Outcome State Fault Refusal :=
  event (Instr.syncWindowExpiry dt group).wf dt s (onSyncWindowExpiry group)

/-- VIEW_ABANDON (07 R247). -/
def execViewAbandon (dt work : Nat) (s : State) : Host.Outcome State Fault Refusal :=
  event (Instr.viewAbandon dt work).wf dt s (viewAbandon work)

/-- GENERIC_SHORT_PACKET (08 R257). -/
def execGenericShortPacket (dt port : Nat) (ecc : Ecc) (s : State) : Host.Outcome State Fault Refusal :=
  event (Instr.genericShortPacket dt port ecc).wf dt s (withHeader port ecc (dropPacket port))

end Sys2Proof.Machine
end

