-- ==== Sys2Proof/Machine/Packets.lean ====
section
/-! DEFINITION. Packet intake: ring records and parser descriptors, doorbells, parsing, point blocks and their publication, motion
deskew (08 R284-R300). -/

namespace Sys2Proof.Machine

/-! ### Attributes and errors -/

/-- A transaction of a packet ring is refused (R300). -/
def refusePkt (c : Nat) (wr : Bool) (line : Nat) (s : State) : State := pktEvt 8 (refuse c wr line s)

/-- A read returned an error response or poison: MEM_ERR and fault 109 (R300, R301). -/
def pktMemErr (c : Nat) (s : State) : State := report1 109 2 0x19 c true (pktEvt 4 s)

/-- A guarded read of `n` bytes: the bytes, or the code 7 with the refused line, or the code 6. -/
def pktRead (s : State) (c : Nat) (m : ExtMem) (a n : Nat) : Except (Nat × Nat) (List Byte) :=
  match guardCheck (s.ctx c).guards false a n with
  | some line => .error (7, line)
  | none => if extBad m a n then .error (6, a) else .ok (extRead m a n)

/-- Present a read of a packet ring where its context's windows let it pass (R300; 13 R432). -/
def presentPkt (c a n : Nat) (s : State) : State :=
  when (guardCheck (s.ctx c).guards false a n).isNone (readTxs (pktTx true c) (.packet c) [(a, n)]) s

/-- What a failed read does besides its code. -/
def pktReadFailed (c : Nat) (e : Nat × Nat) (s : State) : State := if e.1 = 7 then refusePkt c false e.2 s else pktMemErr c s

/-! ### Ring record and descriptor (R285, R290, R291) -/

/-- The fields of a ring record. -/
def readPktRec (b : List Byte) : PktRec :=
  { ctx := byteAt b 0, format := byteAt b 1, log2Slots := byteAt b 2, slotLog2 := byteAt b 3, blockPoints := field b 4 4,
    ringBase := field b 8 8, descAddr := field b 0x10 8, motionAddr := field b 0x18 8, pubBase := field b 0x20 8, outPool := field b 0x28 4,
    pubLog2 := byteAt b 0x2C, deskewRef := byteAt b 0x2D, cutAz := field b 0x30 2, cut := bit (field b 0x32 2) 0, gapUs := field b 0x34 4,
    statusAddr := field b 0x38 8 }

/-- An address below 2^48 on a boundary. -/
def addrOk (a align : Nat) : Bool := a < 2 ^ 48 && a % align = 0

/-- The ranges of a ring record (CODE 1). -/
def pktRecOk (b : List Byte) (x : PktRec) : Bool :=
  x.format ≤ 1 && inRange 4 x.log2Slots 16 && inRange 7 x.slotLog2 14 && inRange 64 x.blockPoints 1048576 && addrOk x.ringBase 4096 &&
    addrOk x.descAddr 64 && addrOk x.motionAddr 64 && addrOk x.pubBase 4096 && inRange 4 x.pubLog2 16 && x.deskewRef ≤ 2 &&
    field b 0x32 2 ≤ 1 && inRange 100 x.gapUs 100000 && addrOk x.statusAddr 8

/-- FIELD_COUNT, CHECK_COUNT and ELEV_COUNT of a descriptor header. -/
def descFields (b : List Byte) : Nat := byteAt b 0xE
def descChecks (b : List Byte) : Nat := byteAt b 0xF
def descElev (b : List Byte) : Nat := byteAt b 0x12

/-- Bytes of a descriptor. -/
def descSize (b : List Byte) : Nat := 0x60 + 16 * descFields b + 2 * descElev b

/-- The descriptor header holds (CODE 4). -/
def descHeaderOk (x : PktRec) (b : List Byte) : Bool :=
  field b 0 4 = 0x31444B50 && 1 ≤ field b 4 2 && field b 4 2 ≤ field b 6 2 && field b 6 2 + 16 ≤ 2 ^ x.slotLog2 && 1 ≤ field b 0xA 2 &&
    inRange 1 (descFields b) 32 && descChecks b ≤ 4 && byteAt b 0x10 ≤ 2 && byteAt b 0x11 ≤ 1 && descElev b ≤ 128 && field b 0x14 4 = 0 &&
    (x.format = 1 || field b 0x18 8 = 0)

/-- A check record. -/
def readPktCheck (b : List Byte) : PktCheck :=
  { offset := field b 0 2, bytes := byteAt b 2, big := byteAt b 3 = 1, mask := field b 4 4, value := field b 8 4 }

/-- A field record. -/
def readPktField (b : List Byte) : PktField :=
  { offset := field b 0 2, perRecord := byteAt b 2 = 1, type := byteAt b 3, bitLo := byteAt b 4, bits := byteAt b 5, dest := byteAt b 6,
    shr := byteAt b 7, mul := sfield b 8 4, add := sfield b 0xC 4 }

/-- The descriptor's fields, from all its bytes. -/
def readPktDesc (b : List Byte) : PktDesc :=
  { minLen := field b 4 2, maxLen := field b 6 2, recOff := field b 8 2, recStride := field b 0xA 2, recCount := field b 0xC 2,
    timeSrc := byteAt b 0x10, geom := byteAt b 0x11, streamId := field b 0x18 8,
    checks := (records b 0x20 16 (descChecks b)).map readPktCheck, fields := (records b 0x60 16 (descFields b)).map readPktField,
    elev := (upto 0 (descElev b)).map (fun k => sfield b (0x60 + 16 * descFields b + 2 * k) 2) }

/-- Bytes that a field reads. -/
def PktField.size (f : PktField) : Nat := 2 ^ (f.type % 4)

/-- A target that a field may name in a geometry. -/
def destOk (geom dest : Nat) : Bool := dest ≤ 13 && !(inRange 1 dest 3 && geom ≠ 0) && !(inRange 4 dest 6 && geom ≠ 1)

/-- A field record is within its ranges. -/
def pktFieldOk (geom stride : Nat) (b : List Byte) (f : PktField) : Bool :=
  byteAt b 2 ≤ 1 && f.type < 16 && f.bitLo + f.bits ≤ 8 * f.size && destOk geom f.dest && f.shr ≤ 63 && !(f.dest = 11 && f.perRecord) &&
    (!f.perRecord || f.offset + f.size ≤ stride)

/-- Some field has a target. -/
def PktDesc.has (d : PktDesc) (dest : Nat) : Bool := d.fields.any (·.dest = dest)

/-- The fields and checks of a descriptor hold (CODE 5). -/
def descFieldsOk (x : PktRec) (b : List Byte) (d : PktDesc) : Bool :=
  (records b 0x20 16 (descChecks b)).all (fun c => mem [1, 2, 4] (byteAt c 2) && byteAt c 3 ≤ 1) &&
    (records b 0x60 16 (descFields b)).all (fun r => pktFieldOk d.geom d.recStride r (readPktField r)) &&
    noRepeats ((d.fields.map (·.dest)).filter (· ≠ 0)) &&
    (if d.geom = 0 then d.has 1 && d.has 2 && d.has 3 else d.has 4 && d.has 5 && (d.has 6 || (d.has 8 && !d.elev.isEmpty))) &&
    !(d.timeSrc = 1 && x.format = 0) && !(d.timeSrc = 2 && !d.has 11)

/-! ### Enabling a ring (R286) -/

/-- Validate a ring's record and descriptor: the code of the first failure with the address a failed read gives. -/
def setupRing (s : State) (r : Nat) (m : ExtMem) : Except (Nat × Nat × Nat) (PktRec × PktDesc) :=
  let a := s.pkt.table + 64 * r
  if extBad m a 64 then .error (6, 0, a)
  else
    let b := extRead m a 64
    let x := readPktRec b
    if !pktRecOk b x then .error (1, 0, 0)
    else if (s.ctx x.ctx).st != .opened then .error (2, 0, 0)
    else if !poolOk s x.ctx x.outPool then .error (3, 0, 0)
    else match pktRead s x.ctx m x.descAddr 0x60 with
      | .error e => .error (e.1, x.ctx, e.2)
      | .ok h =>
        if !descHeaderOk x h then .error (4, 0, 0)
        else match pktRead s x.ctx m x.descAddr (descSize h) with
          | .error e => .error (e.1, x.ctx, e.2)
          | .ok l => if descFieldsOk x l (readPktDesc l) then .ok (x, readPktDesc l) else .error (5, 0, 0)

/-- The reads that enabling a ring presents: its record as SYS traffic of class 3, then the descriptor's head and the rest of it
(R286, R300). -/
def presentSetup (r : Nat) (m : ExtMem) (s : State) : State :=
  let a := s.pkt.table + 64 * r
  let x := readPktRec (extRead m a 64)
  let s1 := readTxs { sys := true, cls := 3, prio := 2 } (.packet 0) [(a, 64)] s
  if extBad m a 64 || !pktRecOk (extRead m a 64) x || (s.ctx x.ctx).st != .opened || !poolOk s x.ctx x.outPool then s1
  else
    let s2 := presentPkt x.ctx x.descAddr 0x60 s1
    match pktRead s x.ctx m x.descAddr 0x60 with
    | .ok h => when (descHeaderOk x h) (presentPkt x.ctx (x.descAddr + 0x60) (descSize h - 0x60)) s2
    | .error _ => s2

/-- ENABLE[r] changes from 0 to 1. A ring that still stops is not started (log 44). -/
def enableRing (r : Nat) (m : ExtMem) (s0 : State) : State :=
  if (s0.pring r).enable || (s0.pring r).run || pktBusy s0 r then s0
  else
    let s := presentSetup r m s0
    match setupRing s0 r m with
    | .ok x => modPring r (fun _ => { enable := true, run := true, setup := some x, lastPkt := s.now }) s
    | .error e => notePktErr r e.1 (if e.1 = 7 then refusePkt e.2.1 false e.2.2 s else if e.1 = 6 then pktMemErr e.2.1 s else s)

/-- PKT_DOORBELL (R287): a count that moves on announces packets that have arrived (R295). A ring that does not run rejects it (log 44). -/
def pktDoorbell (r v : Nat) (s : State) : State :=
  let p := s.pring r
  match p.run, p.setup with
  | true, some (x, _) =>
    let n := 2 ^ x.log2Slots
    let d := (v + 2 * n - p.cons % (2 * n)) % (2 * n)
    if v < 2 * n && d ≤ n && p.prod - p.cons ≤ d then
      modPring r (fun p => { p with prod := p.cons + d, lastPkt := if p.prod < p.cons + d then s.now else p.lastPkt }) s
    else pktEvt 128 s
  | _, _ => pktEvt 128 s

/-! ### Fields and points (R291-R294) -/

/-- The value of a field before narrowing. -/
def pktField (payload : List Byte) (f : PktField) (base : Nat) : Option Int :=
  let n := f.size
  if payload.length < base + f.offset + n then none
  else
    let raw := slice payload (base + f.offset) n
    let w := if bit f.type 2 then beNat raw else leNat raw
    let v := bits w f.bitLo f.bits
    let v' : Int := if bit f.type 3 && 0 < f.bits then signed v f.bits else v
    some (asr (v' * f.mul) f.shr + f.add)

/-- Narrowing by target (R291). -/
def narrow (dest : Nat) (v : Int) : Int :=
  if dest = 5 then v % 65536
  else if dest = 6 then satS v 16
  else if dest = 7 then satU v 16
  else if dest = 8 || dest = 9 then satU v 8
  else if dest = 11 then satU v 64
  else if dest = 0 || dest = 13 then v
  else satS v 32

/-- Values of a record's fields by target; none where a field lies outside the payload. -/
def recordValues (payload : List Byte) (base : Nat) : List PktField → Option (List (Nat × Int))
  | [] => some []
  | f :: t =>
    match pktField payload f (if f.perRecord then base else 0), recordValues payload base t with
    | some v, some l => some ((f.dest, narrow f.dest v) :: l)
    | _, _ => none

/-- The value of a target, or a default. -/
def valueOf (l : List (Nat × Int)) (dest : Nat) (d : Int) : Int := match l.find? (·.1 = dest) with | some x => x.2 | none => d

/-- pi x 2^80, rounded down. -/
def pi80 : Nat := 3797952473636338580787993

/-- An alternating series of a sine, from the term `t`, with 80 fraction bits. -/
def sinSeries (x : Nat) : List Nat → Nat → Int
  | [], _ => 0
  | k :: ks, t => (t : Int) - sinSeries x ks (t * x / 2 ^ 80 * x / 2 ^ 80 / (k * (k + 1)))

/-- S(a) of R293 for a in the first quadrant; no value lies within 2^-21 of a tie, and the series is exact to 2^-70. -/
def sinQuarter (a : Nat) : Int :=
  let x := pi80 * a / 32768
  (2 * sinSeries x [2, 4, 6, 8, 10, 12, 14, 16, 18, 20, 22, 24] x * 16384 / (2 ^ 80 : Nat) + 1) / 2

/-- S(a) of R293. -/
def sin14 (a : Nat) : Int :=
  if a ≤ 16384 then sinQuarter a else if a ≤ 32768 then sinQuarter (32768 - a) else if a ≤ 49152 then -sinQuarter (a - 32768)
  else -sinQuarter (65536 - a)

/-- C(a) of R293. -/
def cos14 (a : Nat) : Int := sin14 ((a + 16384) % 65536)

/-- X, Y, Z of a spherical point (R293). -/
def spherical (range az el : Int) : Int × Int × Int :=
  let e := (el % 65536).toNat
  let a := az.toNat
  let h := rneDiv (range * cos14 e) 16384
  (satS (rneDiv (h * cos14 a) 16384) 32, satS (rneDiv (h * sin14 a) 16384) 32, satS (rneDiv (range * sin14 e) 16384) 32)

/-- The point of a record; none where it yields none (R292, R293). -/
def pointOf (d : PktDesc) (payload : List Byte) (tPkt : Int) (k : Nat) : Option Point :=
  match recordValues payload (d.recOff + k * d.recStride) d.fields with
  | none => none
  | some l =>
    let v (dest : Nat) : Int := valueOf l dest 0
    if d.has 13 && v 13 = 0 then none
    else
      let p : Point := { x := v 1, y := v 2, z := v 3, t := tPkt + v 10, range := v 4, az := (v 5).toNat, el := v 6,
                         intensity := (v 7).toNat, ring := (v 8).toNat, ret := (v 9).toNat, user0 := v 12 }
      if d.geom = 0 then some p
      else
        let el? : Option Int := if d.has 6 then some (v 6) else d.elev[p.ring]?
        el?.map (fun el => let q := spherical p.range (v 5) el; { p with x := q.1, y := q.2.1, z := q.2.2, el })

/-- Records of a packet. -/
def recordCount (d : PktDesc) (len : Nat) : Nat := if d.recCount ≠ 0 then d.recCount else (len - d.recOff) / d.recStride

/-! ### A packet (R287-R289) -/

/-- A check record holds. -/
def pktCheckOk (payload : List Byte) (c : PktCheck) : Bool :=
  let raw := slice payload c.offset c.bytes
  c.offset + c.bytes ≤ payload.length && Nat.land (if c.big then beNat raw else leNat raw) c.mask = c.value

/-- The AVTP checks and the payload they leave (R289). -/
def avtpPayload (d : PktDesc) (b : List Byte) : Option (List Byte) :=
  let n := beNat (slice b 20 2)
  if 24 ≤ b.length && bit (byteAt b 1) 7 && bits (byteAt b 1) 4 3 = 0 && beNat (slice b 4 8) = d.streamId && (d.timeSrc ≠ 1 || bit (byteAt b 1) 0) &&
      24 + n ≤ b.length then some (slice b 24 n) else none

/-- The time of an AVTP timestamp near RX_TIME (R289). -/
def avtpTime (rx ts : Nat) : Int := (rx : Int) + ((((ts : Int) - rx) % 2 ^ 32 + 2 ^ 31) % 2 ^ 32) - 2 ^ 31

/-- The payload of a packet that passes checks 2 to 5 (R288). -/
def checkPacket (x : PktRec) (d : PktDesc) (b : List Byte) : Option (List Byte) :=
  let p := if x.format = 1 then avtpPayload d b else some b
  p.bind (fun p =>
    if d.minLen ≤ p.length && p.length ≤ d.maxLen && d.checks.all (pktCheckOk p) &&
        (d.fields.filter (!·.perRecord)).all (fun f => (pktField p f 0).isSome) then some p else none)

/-- T_PKT (R294). -/
def packetTime (d : PktDesc) (rx : Nat) (b p : List Byte) : Int :=
  if d.timeSrc = 0 then rx
  else if d.timeSrc = 1 then avtpTime rx (beNat (slice b 12 4))
  else match d.fields.find? (·.dest = 11) with
    | some f => narrow 11 ((pktField p f 0).getD 0)
    | none => 0

/-! ### Blocks (R295-R299) -/

/-- Why a block closes before a point: bits 3, 5 and 6 of BFLAGS that apply. -/
def closeFlags (x : PktRec) (b : Block) (p : Point) : Nat :=
  match b.points, b.points.getLast? with
  | f :: _, some l =>
    let rel (az : Nat) : Nat := (az + 65536 - x.cutAz) % 65536
    (if x.cut && rel p.az < rel l.az then 8 else 0) + (if f.t + 200000000 < p.t then 32 else 0) + (if x.blockPoints ≤ b.points.length then 64 else 0)
  | _, _ => 0

/-- A motion record (R298). -/
def readMotion (b : List Byte) : Motion := { gen := field b 0 4, vx := sfield b 8 4, vy := sfield b 0xC 4, vz := sfield b 0x10 4, wz := sfield b 0x14 4 }

/-- One read of the motion record for a closed block (R298, R300): a record that matches serves; one that does not is read again after
1 us, up to 3 times in all; else the last record that matched serves, or zero motion. -/
def motionFor (r : Nat) (m : ExtMem) (b : Block) (s : State) : State :=
  let p := s.pring r
  match p.setup with
  | none => s
  | some (x, _) =>
    let s1 := presentPkt x.ctx x.motionAddr 64 s
    match pktRead s x.ctx m x.motionAddr 64 with
    | .error e => deskewBlock r (p.motion.getD {}) true b (pktReadFailed x.ctx e s1)
    | .ok l =>
      if field l 0 4 = field l 0x3C 4 then deskewBlock r (readMotion l) false b (modPring r (fun p => { p with motion := some (readMotion l) }) s1)
      else if b.reads + 1 < 3 then
        modPring r (fun p => { p with closing := p.closing ++ [{ b with reads := b.reads + 1, readAt := s.now }] }) s1
      else deskewBlock r (p.motion.getD {}) true b s1

/-- A closed block is due to have its motion record read: for the first time, or 1 us after its last read. -/
def Block.motionDue (b : Block) (now : Nat) : Bool := b.reads = 0 || decide (b.readAt + 1000 ≤ now)

/-- MOTION_RECORD_RETRY: one read for each closed block of the ring that is due. -/
def readMotionFor (r : Nat) (m : ExtMem) (s : State) : State :=
  let due := (s.pring r).closing.filter (·.motionDue s.now)
  forEach due (motionFor r m) (modPring r (fun p => { p with closing := p.closing.filter (fun b => !b.motionDue s.now) }) s)

/-- The open block of a ring closes with BFLAGS bits (R295, R298). -/
def closeBlock (r flags : Nat) (m : ExtMem) (s : State) : State :=
  let p := s.pring r
  match p.block, p.setup with
  | some b, some (x, _) =>
    let s1 := modPring r (fun p => { p with block := none, dropped := 0 }) s
    if x.motionAddr = 0 then publishBlock r 0 (closedBlock s p flags b) s1 else motionFor r m (closedBlock s p flags b) s1
  | _, _ => s

/-- A packet of the ring is dropped. -/
def dropPkt (r : Nat) (s : State) : State :=
  let s1 := modPring r (fun p => { p with dropped := p.dropped + 1 }) s
  { s1 with pkt := { s1.pkt with drops := sat32 (s1.pkt.drops + 1) } }

/-- Put a point into the ring's block, closing it before and opening one as needed; false where no buffer is left (R295). `fresh` says
that the packet has put no point into the open block yet. -/
def addPoint (r : Nat) (x : PktRec) (m : ExtMem) (gap fresh : Bool) (p : Point) (s : State) : State × Bool :=
  let flags := match (s.pring r).block with | some b => closeFlags x b p | none => 0
  let s1 := when (flags ≠ 0) (closeBlock r flags m) s
  match (s1.pring r).block with
  | some b => (modPring r (fun q => { q with block := some { b with points := b.points ++ [p], packets := b.packets + b2n fresh } }) s1, true)
  | none =>
    match (poolSet x.outPool x.ctx).bind (fun set => offerBuf s1 x.ctx set (64 + 32 * x.blockPoints)) with
    | none => (s1, false)
    | some buf =>
      let b : Block := { buffer := buf, points := [p], packets := 1, flags := if gap then 4 else 0, dropped := 0 }
      (modPring r (fun q => { q with block := some b }) (setBuf buf.1 buf.2.1 (some .issued) s1), true)

/-- Put the points of one packet into blocks. Without a buffer the rest of the packet is dropped, and STOCK is set. -/
def addPoints (r : Nat) (x : PktRec) (m : ExtMem) (gap : Bool) : List Point → Bool → State → State
  | [], _, s => s
  | p :: t, fresh, s =>
    match addPoint r x m gap fresh p s with
    | (s1, true) => addPoints r x m false t false s1
    | (s1, false) => pktEvt 1 (dropPkt r s1)

/-- Write the status word: CONS and PUB (R297). One that waits is replaced. -/
def writeStatus (r : Nat) (s : State) : State :=
  let p := s.pring r
  match p.setup with
  | none => s
  | some (x, _) =>
    let s1 := { s with txs := s.txs.filter (fun t => t.tag.isSome || t.purpose != .status r) }
    match guardCheck (s1.ctx x.ctx).guards true x.statusAddr 8 with
    | some line => stopPktRing r 7 (refusePkt x.ctx true line s1)
    | none => transfer (pktTx false x.ctx) (.status r) x.statusAddr 8 (leBytes p.consumed 4 ++ leBytes p.published 4) s1

/-- CONS advances past a packet, and the status word follows. -/
def consume (r : Nat) (s : State) : State :=
  writeStatus r (modPring r (fun p => { p with cons := p.cons + 1, consumed := p.consumed + 1 }) s)

/-- The ring stops as at a disable: its open block closes and is published (R286). -/
def stopRingClean (r : Nat) (m : ExtMem) (s : State) : State :=
  if (s.pring r).run then closeBlock r 128 m (modPring r (fun p => { p with enable := false, stopping := true }) s) else s

/-- A ring has a packet to parse. -/
def pktReady (s : State) (r : Nat) : Bool :=
  let p := s.pring r
  p.run && !p.stopping && p.cons < p.prod

/-- The ring that the round robin serves next (R300). -/
def pktNext (s : State) : Option Nat := ((upto (s.pkt.rr + 1) 8).map (· % 8)).find? (pktReady s)

/-- The points of a packet that has passed its checks. -/
def usePacket (r : Nat) (x : PktRec) (d : PktDesc) (m : ExtMem) (rx : Nat) (b payload : List Byte) (s : State) : State :=
  let seq := byteAt b 2
  let gap := x.format = 1 && (match (s.pring r).prevSeq with | some q => seq ≠ (q + 1) % 256 | none => false)
  let s1 := modPring r (fun p => { p with
    prevSeq := if x.format = 1 then some seq else p.prevSeq,
    block := if gap then p.block.map (fun b => { b with flags := Nat.lor b.flags 4 }) else p.block }) (when gap (pktEvt 64) s)
  let t := packetTime d rx b payload
  addPoints r x m (gap && (s.pring r).block.isNone) ((upto 0 (recordCount d payload.length)).filterMap (pointOf d payload t)) true s1

/-- PKT_PARSE: one packet of the ring whose turn it is (R287, R288, R300). -/
def pktParse (r : Nat) (m : ExtMem) (s : State) : State :=
  match pktNext s, (s.pring r).setup with
  | some k, some (x, d) =>
    if k ≠ r || s.faults.safe != .normal then s
    else
      let a := x.ringBase + (s.pring r).cons % 2 ^ x.log2Slots * 2 ^ x.slotLog2
      let s1 := presentPkt x.ctx a 16 { s with pkt := { s.pkt with rr := r } }
      let failed (e : Nat × Nat) (s : State) : State :=
        if e.1 = 7 then notePktErr r 7 (stopRingClean r m (pktReadFailed x.ctx e s)) else consume r (dropPkt r (pktReadFailed x.ctx e s))
      match pktRead s x.ctx m a 16 with
      | .error e => failed e s1
      | .ok h =>
        let len := field h 0 2
        if 2 ^ x.slotLog2 < len + 16 then consume r (dropPkt r (pktEvt 16 s1))
        else
          let s2 := presentPkt x.ctx (a + 16) len s1
          match pktRead s x.ctx m (a + 16) len with
          | .error e => failed e s2
          | .ok b =>
            match checkPacket x d b with
            | none => consume r (dropPkt r (pktEvt 16 s2))
            | some p => consume r (usePacket r x d m (field h 8 8) b p s2)
  | _, _ => s

/-- PKT_GAP_TIMEOUT: no packet has arrived for GAP_US, and none that has arrived waits (R295; log 44). -/
def pktGap (r : Nat) (m : ExtMem) (s : State) : State :=
  let p := s.pring r
  match p.setup, p.block with
  | some (x, _), some _ => if p.run && p.cons = p.prod && decide (p.lastPkt + x.gapUs * 1000 ≤ s.now) then closeBlock r 16 m s else s
  | _, _ => s

/-! ### Publication (R297, R300) -/

/-- The next write of a block, under the windows now in force. -/
def blockWrite (wid : Nat) (p : Purpose) (a n : Nat) (data : List Byte) (s : State) : State :=
  match Tbl.get? s.works wid with
  | none => s
  | some _ => workWrite wid p a n data (modWork wid (fun w => { w with guards := (s.ctx w.ctx).guards }) s)

/-- Every point write has its response: the block takes the next BLOCK_SEQ and its header is written. -/
def blockPointsDone (r wid : Nat) (s : State) : State :=
  match (Tbl.get? s.works wid).bind (fun w => w.block.map (fun b => (w.gen, b.1))), (s.pring r).setup with
  | some (gen, b), some (x, _) =>
    let seq := (s.pring r).blockSeq
    let s1 := { s with pkt := { s.pkt with points := sat32 (s.pkt.points + b.points.length) } }
    match guardCheck (s.ctx x.ctx).guards true b.buffer.2.2 64 with
    | some line => refuseWork wid line s1
    | none =>
      blockWrite wid (.header r wid) b.buffer.2.2 64 (blockHeader x r seq gen b)
        (modPring r (fun p => { p with blockSeq := seq + 1 }) (modWork wid (fun w => { w with block := some (b, seq), phase := .colophon }) s1))
  | _, _ => s

/-- The header has its response: the queue entry is written. -/
def blockHeaderDone (r wid : Nat) (s : State) : State :=
  match (Tbl.get? s.works wid).bind (·.block), (s.pring r).setup with
  | some (b, seq), some (x, _) =>
    let a := x.pubBase + 16 * (seq % 2 ^ x.pubLog2)
    match guardCheck (s.ctx x.ctx).guards true a 16 with
    | some line => stopPktRing r 7 (abandonBlock wid (refusePkt x.ctx true line s))
    | none => blockWrite wid (.queue r wid) a 16 (leBytes b.buffer.2.2 8 ++ leBytes seq 8) (modWork wid (fun w => { w with phase := .commit }) s)
  | _, _ => s

/-- The queue entry has its response: the block is the host's, and the status word is written. -/
def blockQueueDone (r wid : Nat) (s : State) : State :=
  match Tbl.get? s.works wid with
  | none => s
  | some w =>
    let s1 := dropWork wid (deliverBuf w.buffer s)
    writeStatus r (modPring r (fun p => { p with published := p.published + 1 }) { s1 with pkt := { s1.pkt with blocks := sat32 (s1.pkt.blocks + 1) } })

/-- A write of a block failed: the block is abandoned, and a number it took goes to the next block (R300; log 44). -/
def blockFailed (r wid : Nat) (s : State) : State :=
  match Tbl.get? s.works wid with
  | none => s
  | some w =>
    let back := w.phase != .working && (match w.block with | some (_, q) => q + 1 = (s.pring r).blockSeq | none => false)
    abandonBlock wid (when back (modPring r (fun p => { p with blockSeq := p.blockSeq - 1 })) s)

/-! ### PKT_CTL (R284, R286) -/

/-- ENABLE[r] is written. -/
def writeEnable (r : Nat) (on : Bool) (m : ExtMem) (s : State) : State :=
  if on then enableRing r m s else if (s.pring r).enable then stopRingClean r m s else s

/-- CLOSE_CONTEXT stops the rings of a context (R286). -/
def stopCtxRings (m : ExtMem) (c : Nat) (s : State) : State :=
  forEach (upto 0 8) (fun r s => match (s.pring r).run, (s.pring r).setup with
    | true, some (x, _) => if x.ctx = c then notePktErr r 8 (stopRingClean r m s) else s
    | _, _ => s) s

/-! ### Commands -/

/-- PKT_DOORBELL (08 R287). -/
def execPktDoorbell (dt ring prod : Nat) (priv : Bool) (s : State) : Host.Outcome State Fault Refusal :=
  event (Instr.pktDoorbell dt ring prod priv).wf dt s (mainWrite true priv (pktDoorbell ring prod))

/-- PKT_RING_ENABLE (08 R286). -/
def execPktRingEnable (dt ring : Nat) (priv : Bool) (mem : ExtMem) (s : State) : Host.Outcome State Fault Refusal :=
  event (Instr.pktRingEnable dt ring priv mem).wf dt s (mainWrite true priv (writeEnable ring true mem))

/-- PKT_RING_DISABLE (08 R286). -/
def execPktRingDisable (dt ring : Nat) (priv : Bool) (mem : ExtMem) (s : State) : Host.Outcome State Fault Refusal :=
  event (Instr.pktRingDisable dt ring priv mem).wf dt s (mainWrite true priv (writeEnable ring false mem))

/-- PKT_PARSE (08 R288). -/
def execPktParse (dt ring : Nat) (mem : ExtMem) (s : State) : Host.Outcome State Fault Refusal :=
  event (Instr.pktParse dt ring mem).wf dt s (pktParse ring mem)

/-- PKT_GAP_TIMEOUT (08 R295). -/
def execPktGapTimeout (dt ring : Nat) (mem : ExtMem) (s : State) : Host.Outcome State Fault Refusal :=
  event (Instr.pktGapTimeout dt ring mem).wf dt s (pktGap ring mem)

/-- MOTION_RECORD_RETRY (08 R298). -/
def execMotionRecordRetry (dt ring : Nat) (mem : ExtMem) (s : State) : Host.Outcome State Fault Refusal :=
  event (Instr.motionRecordRetry dt ring mem).wf dt s (readMotionFor ring mem)

/-- CLOSE_CONTEXT (05 R152, 06 R175). -/
def execCloseContext (dt box : Nat) (mem : ExtMem) (s : State) : Host.Outcome State Fault Refusal :=
  event (Instr.closeContext dt box mem).wf dt s (command box 0x03 anyReq (closeContext (stopCtxRings mem) box))

end Sys2Proof.Machine
end

