-- ==== Sys2Proof/Machine/Power.lean ====
section
/-! DEFINITION. Resets, power sequencing, clock and supply monitors, heat (02 R44, R55, R56, 03 R70-R87). -/

namespace Sys2Proof.Machine

/-! ### Resets and the wake -/

/-- GX_RST_N falls: main-domain reset; OPP_STAT takes its reset value while OPP_REQ and PWR_STATE stay, records note it (00 R8, 03 R97,
14 R468; log 103). -/
def rstAssert (s : State) : State :=
  let s1 := mainReset s
  { s1 with
    chip := { s1.chip with rstN := false },
    power := { s1.power with wake := .cause, oppStatReset := true },
    faults := { s1.faults with records := s1.faults.records.map (fun p => (p.1, { p.2 with sinceRst := true })) } }

/-- GX_RST_N rises: in KEEP, or with only the keeper powered, it is a wake cause; in any case the boot follows (03 R74). -/
def rstDeassert (keyHash : Nat) (keyValid : Bool) (s : State) : State :=
  if s.chip.rstN then s
  else
    let cold := s.power.state == .keep || !s.power.ctrl.req
    startWake { s with
      chip := { s.chip with rstN := true, rootKeyHash := keyHash, rootKeyValid := keyValid },
      power := { s.power with
        wake := .cause, wakePending := true, wakeCause := if cold then Nat.lor s.power.wakeCause 1 else s.power.wakeCause } }

/-- Keeper initialisation completes: the keep-store scan's rail is requested, the pin shows what is held, and a waiting wake
cause, that of a GX_RST_N which stands deasserted, is recorded and acted on (02 R56, 15 R505; log 19). -/
def keeperReady (s : State) : State :=
  if !s.chip.porstN || s.chip.keeperInit then s
  else
    let s1 := { s with
      chip := { s.chip with keeperInit := true },
      power := { s.power with
        mram := s.power.mram.raise, wakeCause := if s.power.wakePending then Nat.lor s.power.wakeCause 1 else s.power.wakeCause },
      faults := { s.faults with pinLow := false, pinClass := 0 } }
    let s2 := if s1.faults.pulseWaits then pulseNow s1 else s1
    startWake s2

/-- The wake timer expires, its milliseconds after KEEP was entered: a wake cause, recorded while GX_RST_N is asserted (03 R74, R97). -/
def wakeTimerExpiry (s : State) : State :=
  if s.power.wakeTimer ≠ 0 && s.power.state == .keep && s.power.keepSince + 1000000 * s.power.wakeTimer ≤ s.now then wakeCauseSeen 4 s
  else s

/-- KEEP is reached: main reset, clock requests and rail requests fall; with TIME_IN selected the time base goes into holdover
on KCLK without a fault (03 R73, R93). A granted debug level lasts until a reset input is asserted (04 R125), and test mode with it
(02 R61). -/
def keepEntry (s : State) : State :=
  if s.power.state != .enteringKeep || s.power.wake != .idle || !s.memIdle || s.rings.any (fun p => !p.2.entries.isEmpty || p.2.issued ≠ p.2.head) then s
  else
    let s1 := mainReset s
    let off (c : ClkState) : ClkState := { c with req := false }
    let low (r : RailState) : RailState := { r with req := false, up := false }
    { s1 with
      chip := { s1.chip with testGranted := s.chip.testGranted },
      control := { s1.control with dbgLevel := s.control.dbgLevel },
      power := { s1.power with
        state := .keep, keepSince := s.now, aclk := off s1.power.aclk, vclk := off s1.power.vclk, mclk := off s1.power.mclk, cclk := off s1.power.cclk,
        array := low s1.power.array, ctrl := low s1.power.ctrl, mram := low s1.power.mram },
      tb :=
        let t := { s1.tb with strobeLog := [], edgeTimeIn := none }
        if !t.selKclk && t.quality = 0 then { t with quality := 1, keepHoldover := true, count := 0, rate := t.goodRate } else t }

/-! ### Clocks -/

/-- The gathering has a codec stage. -/
def usesCodec (s : State) (w : Work) : Bool :=
  match Tbl.get? s.bindings w.binding with
  | some b => (match b.image? w.gen with
    | some i => (match i.point? w.entry with
      | some p => ((i.stages.drop p.firstStage).take p.stageRun).any (·.unit = 2)
      | none => false)
    | none => false)
  | none => false

/-- Work in flight that satisfies `p` completes CONTAINED_FAULT: a LIVE gathering delivers its views invalid, other work fails
(03 R80). -/
def failInFlight (p : Work → Bool) (s : State) : State :=
  forEach (s.works.filter (fun x => (x.2.started || x.2.cls = 0) && (x.2.phase == .working || x.2.phase == .collecting || x.2.phase == .zeroing) && p x.2))
    (fun x s => if x.2.cls = 0 then hitWork x.1 s else failWork x.1 8 s) s

/-- A clock is LOST: CLK_EVT and the reaction of 03 R80. -/
def clockLost (c : Clk) (s : State) : State :=
  let s1 := modClk c (fun k => { k with lost := true, down := true }) s
  match c with
  | .cclk => report [{ src := 120, cls := 3, cause := 0x10, detail := 0, part := 1 }] s1
  | .vclk => failInFlight (usesCodec s1) (report1 120 2 0x10 0 false s1)
  | _ =>
    if s.liveAdmitted then report1 120 3 0x10 0 false s1
    else failInFlight (fun _ => true) (report1 120 2 0x10 0 false s1)

/-- The edges of an 8 us window lie within 0.975 to 1.005 times the expected frequency (03 R80). While an operating-point change
is under way the frequency moves and the rate is not judged (log 21). -/
def rateOk (s : State) (c : Clk) (edges : Nat) : Bool :=
  s.power.oppWait ||
    (let e := 8 * clkMhz s.power.oppCurrent c
     975 * e ≤ 1000 * edges && 1000 * edges ≤ 1005 * e)

/-- A monitor window of a requested and acknowledged clock ends. -/
def clockWindow (c : Clk) (stopped : Bool) (edges : Nat) (s : State) : State :=
  let k := s.clk c
  if !(s.chip.porstN && k.req && k.ack) then s
  else if !stopped && rateOk s c edges then modClk c (fun k => { k with bad := false, down := false }) s
  else if k.down then s
  else if stopped || k.bad then clockLost c (modClk c (fun k => { k with bad := true }) s)
  else modClk c (fun k => { k with bad := true }) s

/-- An acknowledge level changes: a wake goes on; VCLK is requested where a codec core is on (03 R75, R79). -/
def clkAck (c : Clk) (level : Bool) (s : State) : State :=
  let s1 := modClk c (fun k => { k with ack := level }) s
  let s2 := if s1.codec.on ≠ 0 then { s1 with power := { s1.power with vclk := raiseClk s1.power.vclk } } else s1
  wakeAdvance s2

/-! ### Supplies (03 R84-R86) -/

/-- Count the droop skip, 1 ACLK cycle in 8 while the VDD_ARRAY warning holds, and report more than 1 us of it in one slot
(03 R86). While one warning lasts, only its first report counts towards escalation (14 R465). -/
def droopTick (s : State) : State :=
  if !s.power.array.warns || !s.mainUp then { s with power := { s.power with droopMark := s.now, droopReported := false } }
  else
    let ns := s.now - s.power.droopMark
    let total := s.power.slotDroopNs + ns
    let s1 := { s with power := { s.power with
      droopMark := s.now, slotDroopNs := total, droopSkips := sat32 (s.power.droopSkips + ns * clkMhz s.bookPoint .aclk / 8000) } }
    if 1000 < total && !s1.power.slotDroopRaised then
      report [{ src := 121, cls := 2, cause := 0x14, detail := 0, ongoing := s1.power.droopReported }]
        { s1 with power := { s1.power with slotDroopRaised := true, droopReported := true } }
    else s1

/-- A slot begins: its droop time counts from 0. -/
def droopSlot (s : State) : State :=
  let s1 := droopTick s
  { s1 with power := { s1.power with slotDroopNs := 0, slotDroopRaised := false } }

/-- A supply failure of a rail that is in use (03 R84). -/
def railFailed (r : Rail) (s : State) : State :=
  let s1 := modRail r (fun x => { x with evtFail := true }) s
  match r with
  | .array => report1 121 3 0x13 0 false s1
  | .ctrl => report [{ src := 122, cls := 3, cause := 0x13, detail := 0, part := 0 }] s1
  | .mram => s1
  | .keep => porstReset s1

/-- A supply warning begins (03 R84). -/
def railWarned (r : Rail) (s : State) : State :=
  let s1 := modRail r (fun x => { x with evtWarn := true }) s
  match r with
  | .array => report1 121 1 0x12 0 false s1
  | .ctrl => report [{ src := 122, cls := 1, cause := 0x12, detail := 0, part := 0 }] s1
  | .mram => report [{ src := 122, cls := 1, cause := 0x12, detail := 0, part := 1 }] s1
  | .keep => report [{ src := 122, cls := 1, cause := 0x12, detail := 0, part := 2 }] s1

/-- What a rail's monitor sees changes: a condition of SUPPLY_STAT that begins sets its bit of SUPPLY_EVT and acts (03 R84, R97). -/
def railChange (r : Rail) (f : RailState → RailState) (s : State) : State :=
  let s1 := modRail r f (droopTick s)
  let old := s.rail r
  let new := f old
  if !s.chip.porstN then s1
  else
    let s2 := if new.warns && !old.warns then railWarned r s1 else s1
    if new.fails && !old.fails then railFailed r s2 else s2

/-- Comparator levels change. -/
def supplyChange (r : Rail) (warn fail : Bool) : State → State := railChange r (fun x => { x with warn, fail })

/-- A supply-good input changes: a wake goes on, or a rail in use fails (03 R75, R84). -/
def pgChange (r : Rail) (level : Bool) (s : State) : State :=
  let s1 := railChange r (fun x => { x with pg := level, up := x.up || (level && x.req) }) s
  if level then wakeAdvance s1 else s1

/-! ### Heat (03 R87) -/

/-- The thermal stage for a highest reading in quarter degrees: entered at 135, 145, 150 degrees, left 2 degrees below; stage 3
is left by reset only. -/
def stageFor (old : Nat) (t : Int) : Nat :=
  if old = 3 || 600 ≤ t then 3
  else if 580 ≤ t || (old = 2 && 572 < t) then 2
  else if 540 ≤ t || (1 ≤ old && 532 < t) then 1
  else 0

/-- The sensors are read. -/
def thermalSample (readings : List Int) (s : State) : State :=
  if !s.mainUp then s
  else
    let t := readings.foldl (fun m x => if m < x then x else m) (readings.headD 0)
    let st := stageFor s.power.stage t
    let s1 := { s with power := { s.power with tjMax := t, stage := st, thermKept := 65536 * st + code t 16 } }
    if st = 3 && s.power.stage ≠ 3 then report1 123 3 0x16 0 false s1 else s1

/-! ### Operating points -/

/-- OPP_ACK is seen (03 R83, R551, R72). -/
def oppAck (s : State) : State :=
  if !s.oppBusy then s
  else
    let s1 := { s with power := { s.power with
      oppCurrent := s.power.oppPending, oppWait := false, oppReturn := false, oppBookAt := none, oppStatReset := false } }
    reachStandby (if s1.press.running then s1 else applyWanted s1)

/-- No OPP_ACK within 100 us: CONTAINED, and the GX returns to the previous point once; when the return is not acknowledged either,
CONTAINED again, and OPP_REQ and the booking stay until an OPP_ACK is seen (03 R83, R551). -/
def oppTimeout (s : State) : State :=
  if !s.power.oppWait then s
  else
    let p := s.power
    let p' := if p.oppReturn then { p with oppWait := false, oppReturn := false }
      else { p with oppPending := p.oppPrev, oppPrev := p.oppPending, oppReturn := true,
                    oppBookAt := some (max p.oppPending p.oppPrev) }
    report1 121 2 0x15 0 false { s with power := p' }

/-! ### Commands -/

/-- What GX_PORST_N_ASSERT does, where it can happen. -/
def onGxPorstNAssert (s : State) : State :=
  let s1 := porstReset s
  { s1 with chip := { s1.chip with porstN := false } }

/-- GX_PORST_N_ASSERT (02 R55, R56). -/
def execGxPorstNAssert (dt : Nat) (s : State) : Host.Outcome State Fault Refusal :=
  event (Instr.gxPorstNAssert dt).wf dt s onGxPorstNAssert

/-- What GX_PORST_N_DEASSERT does, where it can happen. -/
def onGxPorstNDeassert (inst group saddr mfr : Nat) (s : State) : State :=
  if s.chip.porstN then s
  else { s with chip := { s.chip with porstN := true, instId := inst, groupM1 := group, i3cSaddr := saddr, jtagMfr := mfr } }

/-- GX_PORST_N_DEASSERT: the straps are sampled (02 R48, R56). -/
def execGxPorstNDeassert (dt inst group saddr mfr : Nat) (s : State) : Host.Outcome State Fault Refusal :=
  event (Instr.gxPorstNDeassert dt inst group saddr mfr).wf dt s (onGxPorstNDeassert inst group saddr mfr)

/-- KEEPER_INIT_DONE (02 R56). -/
def execKeeperInitDone (dt : Nat) (s : State) : Host.Outcome State Fault Refusal :=
  event (Instr.keeperInitDone dt).wf dt s keeperReady

/-- GX_RST_N_ASSERT (02 R44). -/
def execGxRstNAssert (dt : Nat) (s : State) : Host.Outcome State Fault Refusal :=
  event (Instr.gxRstNAssert dt).wf dt s rstAssert

/-- GX_RST_N_DEASSERT (03 R74). -/
def execGxRstNDeassert (dt keyHash : Nat) (keyValid : Bool) (s : State) : Host.Outcome State Fault Refusal :=
  event (Instr.gxRstNDeassert dt keyHash keyValid).wf dt s (rstDeassert keyHash keyValid)

/-- WAKE_TIMER_EXPIRY (03 R74). -/
def execWakeTimerExpiry (dt : Nat) (s : State) : Host.Outcome State Fault Refusal :=
  event (Instr.wakeTimerExpiry dt).wf dt s wakeTimerExpiry

/-- PG_INPUT_CHANGE (03 R75, R84). -/
def execPgInputChange (dt : Nat) (rail : Rail) (level : Bool) (s : State) : Host.Outcome State Fault Refusal :=
  event (Instr.pgInputChange dt rail level).wf dt s (pgChange rail level)

/-- CLK_ACK_CHANGE (03 R79). -/
def execClkAckChange (dt : Nat) (clk : Clk) (level : Bool) (s : State) : Host.Outcome State Fault Refusal :=
  event (Instr.clkAckChange dt clk level).wf dt s (clkAck clk level)

/-- PWR_TARGET_KEEP (03 R73). -/
def execPwrTargetKeep (dt : Nat) (priv : Bool) (s : State) : Host.Outcome State Fault Refusal :=
  event (Instr.pwrTargetKeep dt priv).wf dt s (keeperWrite priv (writeTarget 1))

/-- KEEP_ENTRY (03 R73). -/
def execKeepEntry (dt : Nat) (s : State) : Host.Outcome State Fault Refusal :=
  event (Instr.keepEntry dt).wf dt s keepEntry

/-- PWR_TARGET_STANDBY (03 R72). -/
def execPwrTargetStandby (dt : Nat) (priv : Bool) (s : State) : Host.Outcome State Fault Refusal :=
  event (Instr.pwrTargetStandby dt priv).wf dt s (keeperWrite priv (writeTarget 2))

/-- PWR_TARGET_ACTIVE (03 R72). -/
def execPwrTargetActive (dt : Nat) (priv : Bool) (s : State) : Host.Outcome State Fault Refusal :=
  event (Instr.pwrTargetActive dt priv).wf dt s (keeperWrite priv (writeTarget 3))

/-- OPP_ACK_SEEN (03 R83). -/
def execOppAckSeen (dt : Nat) (s : State) : Host.Outcome State Fault Refusal :=
  event (Instr.oppAckSeen dt).wf dt s oppAck

/-- OPP_ACK_TIMEOUT (03 R83, R551). -/
def execOppAckTimeout (dt : Nat) (s : State) : Host.Outcome State Fault Refusal :=
  event (Instr.oppAckTimeout dt).wf dt s oppTimeout

/-- CLOCK_MONITOR_WINDOW (03 R80). -/
def execClockMonitorWindow (dt : Nat) (clk : Clk) (stopped : Bool) (edges : Nat) (s : State) : Host.Outcome State Fault Refusal :=
  event (Instr.clockMonitorWindow dt clk stopped edges).wf dt s (clockWindow clk stopped edges)

/-- SUPPLY_MONITOR_CHANGE (03 R84). -/
def execSupplyMonitorChange (dt : Nat) (rail : Rail) (warn fail : Bool) (s : State) : Host.Outcome State Fault Refusal :=
  event (Instr.supplyMonitorChange dt rail warn fail).wf dt s (supplyChange rail warn fail)

/-- THERMAL_SAMPLE (03 R87). -/
def execThermalSample (dt : Nat) (readings : List Int) (s : State) : Host.Outcome State Fault Refusal :=
  event (Instr.thermalSample dt readings).wf dt s (thermalSample readings)

end Sys2Proof.Machine
end

