-- ==== Sys2Proof/Machine/SysRegs.lean ====
section
/-! DEFINITION. Register words of the system ranges: identity, power, control complex, faults, keep-store, events,
management and time base (02 R48, 03 R97, R98, 04 R129, 14 R493, 15 R510, 16 R525, R526, R536). For each range: the word a read
returns, what a write does, and what a non-debug read of an RC register clears. -/

namespace Sys2Proof.Machine

/-- What a W1C write leaves of an event word. -/
def clearBits {w : Nat} (e : BitVec w) (v : Nat) : BitVec w := e &&& ~~~(BitVec.ofNat w v)

/-- A 32-bit two's complement word. -/
def word32 (v : Int) : Nat := code v 32

/-! ### Identity (02 R48) -/

/-- The identity words. -/
def identRead (s : State) (off : Nat) : Nat :=
  match off with
  | 0x00 => 0x00020100
  | 0x04 => 0x40041084
  | 0x08 => 0x1040FF44
  | 0x0C => 0x08000100
  | 0x10 => 0x000000FF
  | 0x14 => fld 4 s.chip.groupM1 + s.chip.instId
  | _ => 0

/-! ### Power, clocks, supplies, heat (03 R97) -/

/-- PWR_STATE.STATE; it reads KEEP until a wake from KEEP has reached READY (02 R45). -/
def pwrCode (s : State) : Nat :=
  match s.power.state with
    | .keep => 1 | .standby => 2 | .ready => 3 | .run => 4 | .enteringKeep => 6

/-- OPP_STAT.ADMIT_FLOOR (03 R97, R550). -/
def admitFloor (s : State) : Nat :=
  ((s.bindings.map (·.2)).filter (fun b => b.admitted && b.cls == some 0)).foldl (fun m b => min m b.opp) 2

/-- One value per fast clock, in the bytes of the clock registers. -/
def clkBytes (s : State) (f : ClkState → Nat) : Nat :=
  f s.power.aclk + fld 8 (f s.power.vclk) + fld 16 (f s.power.mclk) + fld 24 (f s.power.cclk)

/-- Change the four clocks by their bytes of a word. -/
def forClks (v : Nat) (f : Nat → ClkState → ClkState) (s : State) : State :=
  modClk .aclk (f (bits v 0 8)) (modClk .vclk (f (bits v 8 8)) (modClk .mclk (f (bits v 16 8)) (modClk .cclk (f (bits v 24 8)) s)))

/-- Two bits per rail in the layout of SUPPLY_STAT. -/
def railBits (s : State) (fail warn : RailState → Bool) : Nat :=
  let two (r : RailState) := b2n (fail r) + 2 * b2n (warn r)
  two s.power.array + fld 2 (two s.power.ctrl) + fld 4 (two s.power.mram) + fld 6 (two s.power.keep)

/-- SUPPLY_STAT. -/
def supplyStat (s : State) : Nat := railBits s (·.fails) (·.warns)

/-- OPP_STAT; a GX_RST_N leaves it at its reset value until OPP_REQ moves or is acknowledged again (R97; log 103). -/
def oppStat (s : State) : Nat :=
  fld 8 (admitFloor s) + (if s.power.oppStatReset then 0 else fld 4 s.power.oppPending + s.power.oppCurrent)

/-- THERM_STAT. -/
def thermStat (s : State) : Nat := fld 16 s.power.stage + code s.power.tjMax 16

/-- Code of a quire's power state in QPWR. -/
def QState.code : QState → Nat | .gated => 0 | .retain => 1 | .on => 2

/-- QPWRk. -/
def qpwrWord (s : State) (k : Nat) : Nat := ((upto 0 16).map (fun i => fld (2 * i) (s.quire (16 * k + i)).st.code)).sum

/-- The words of 0x00_0100-0x00_03FF. -/
def powerRead (s : State) (off : Nat) : Nat :=
  match off with
  | 0x100 => flag 8 (s.power.blocked || s.power.keepRefused) + pwrCode s
  | 0x104 => s.power.target
  | 0x108 => fld 8 s.power.slowest + fld 4 s.power.fastest
  | 0x10C => oppStat s
  | 0x110 => clkBytes s (fun c => b2n c.ssEn)
  | 0x114 => clkBytes s (fun c => flag 2 c.ack + flag 1 c.req)
  | 0x118 => clkBytes s (fun c => flag 2 c.lost)
  | 0x120 => qpwrWord s 0
  | 0x124 => qpwrWord s 1
  | 0x128 => qpwrWord s 2
  | 0x12C => qpwrWord s 3
  | 0x140 => supplyStat s
  | 0x144 => railBits s (·.evtFail) (·.evtWarn)
  | 0x148 => s.power.droopSkips
  | 0x150 => thermStat s
  | 0x160 => flag 2 s.power.ovrTx + flag 1 s.power.ovrRx + b2n s.power.ovrStamp
  | 0x170 => s.power.wakeTimer
  | 0x174 => s.power.wakeCause
  | _ => 0

/-- Registers of the power range that are in the keeper domain. -/
def powerKeeper (off : Nat) : Bool := off = 0x100 || off = 0x104 || off = 0x110 || off = 0x170 || off = 0x174

/-- A write of OPP_CTL: ignored where a field is 0b11, FASTEST is slower than SLOWEST, or FASTEST is slower than ADMIT_FLOOR
(03 R97, R550). -/
def oppCtlWrite (v : Nat) (s : State) : State :=
  let slow := bits v 8 2
  let fast := bits v 4 2
  if slow = 3 || fast = 3 || slow < fast || admitFloor s < fast then s
  else { s with power := { s.power with slowest := slow, fastest := fast } }

/-- Writes of the power range. -/
def powerWrite (off v : Nat) (s : State) : State :=
  match off with
  | 0x104 => writeTarget (bits v 0 2) s
  | 0x108 => oppCtlWrite v s
  | 0x110 => forClks v (fun b c => { c with ssEn := bit b 0 }) s
  | 0x118 => forClks v (fun b c => { c with lost := c.lost && !bit b 2 }) s
  | 0x144 =>
    let clr (lo : Nat) (r : RailState) : RailState := { r with evtFail := r.evtFail && !bit v lo, evtWarn := r.evtWarn && !bit v (lo + 1) }
    modRail .array (clr 0) (modRail .ctrl (clr 2) (modRail .mram (clr 4) (modRail .keep (clr 6) s)))
  | 0x160 => { s with power := { s.power with
      ovrStamp := s.power.ovrStamp && !bit v 0, ovrRx := s.power.ovrRx && !bit v 1, ovrTx := s.power.ovrTx && !bit v 2 } }
  | 0x170 => { s with power := { s.power with wakeTimer := v } }
  | _ => s

/-- RC registers of the power range. -/
def powerClear (off : Nat) (s : State) : State :=
  match off with
  | 0x148 => { s with power := { s.power with droopSkips := 0 } }
  | 0x174 => { s with power := { s.power with wakeCause := 0 } }
  | _ => s

/-! ### Control complex (04 R129) -/

/-- Code of a pair's state. -/
def PairState.code : PairState → Nat | .off => 0 | .boot => 1 | .run => 2 | .stopped => 3

/-- CC_STAT. -/
def ccStat (s : State) : Nat := fld 8 s.control.lastCause + fld 2 s.control.pair1.code + s.control.pair0.code

/-- Code of a semaphore agent's ERR bit. -/
def semErrWord (s : State) : Nat := maskOf 3 (fun i => s.control.semErr.any (fun g => match g with | .pair0 => i = 0 | .pair1 => i = 1 | .tap => i = 2))

/-- The words of 0x00_0400-0x00_07FF as the host side reads them; semaphores read 0 there (04 R122). -/
def controlRead (s : State) (off : Nat) : Nat :=
  let c := s.control
  match off with
  | 0x400 => ccStat s
  | 0x404 => 0
  | 0x408 => fld 14 c.bootAttempts + flag 13 c.bootFallback + flag 12 c.bootTrial + flag 8 c.bootSlotB + c.bootCode
  | 0x40C => c.fwRunning
  | 0x410 => c.fwSvn
  | 0x414 => c.rollbackCnt
  | 0x420 => half c.fwAddrA 0
  | 0x424 => half c.fwAddrA 1
  | 0x428 => half c.fwAddrB 0
  | 0x42C => half c.fwAddrB 1
  | 0x430 => c.restartCnt
  | 0x440 => flag 7 c.freezeLease + flag 1 c.halt1 + b2n c.halt0
  | 0x444 => fld 4 c.dbgFails + fld 2 c.dbgLevel + flag 1 c.halt1 + b2n c.halt0
  | 0x700 => semErrWord s
  | _ => 0

/-- Registers of the control range that are in the keeper domain. -/
def controlKeeper (off : Nat) : Bool := off = 0x420 || off = 0x424 || off = 0x428 || off = 0x42C || off = 0x430

/-- A firmware image address with one word replaced: bits 47:12 stand. -/
def addrWrite (old k v : Nat) : Nat :=
  if k = 0 then half old 1 * 2 ^ 32 + v / 4096 * 4096 else v % 65536 * 2 ^ 32 + half old 0

/-- A write of DEBUG_CTL (04 R127-R129): FREEZE_LEASE and the halts, then the steps. -/
def debugCtlWrite (v : Nat) : State → State :=
  debugWrite (fun s =>
    let s1 := setHalt 1 (bit v 1) (setHalt 0 (bit v 0) (setFreeze (bit v 7) s))
    let s2 := if bit v 2 then stepPair 0 s1 else s1
    if bit v 3 then stepPair 1 s2 else s2)

/-- Writes of the control range from the host side. -/
def controlWrite (off v : Nat) (s : State) : State :=
  let c := s.control
  match off with
  | 0x404 => if bit v 0 then controlRestart 0x40 false s else s
  | 0x420 => { s with control := { c with fwAddrA := addrWrite c.fwAddrA 0 v } }
  | 0x424 => { s with control := { c with fwAddrA := addrWrite c.fwAddrA 1 v } }
  | 0x428 => { s with control := { c with fwAddrB := addrWrite c.fwAddrB 0 v } }
  | 0x42C => { s with control := { c with fwAddrB := addrWrite c.fwAddrB 1 v } }
  | 0x440 => debugCtlWrite v s
  | 0x700 => { s with control := { c with semErr := c.semErr.filter (fun g => match g with
      | .pair0 => !bit v 0 | .pair1 => !bit v 1 | .tap => !bit v 2) } }
  | _ => s

/-- RC registers of the control range. -/
def controlClear (off : Nat) (s : State) : State :=
  if off = 0x430 then { s with control := { s.control with restartCnt := 0 } } else s

/-- A LEASE_US other than 0 without RENEW is not written; by an agent that is not the owner it is an error (04 R122). -/
def leaseAlone (g : SemAgent) (n : Nat) (s : State) : State := if (s.sem n).owner = some g then s else semError g s

/-- A write of SEMn by an agent: the former owner's access after an expiry only clears LOCK_LOST; else ACQUIRE, RENEW with
LEASE_US, RELEASE (04 R119-R122). Where one write sets several of them they act in that order (DESIGN CHOICE, log 101: R122 gives no
order). -/
def semWrite (g : SemAgent) (n v : Nat) : State → State :=
  semAccess g n (fun s =>
    let s1 := if bit v 3 then semTake g n s else s
    let s2 := if bit v 2 then semRenew g n (bits v 16 10) s1 else if bits v 16 10 = 0 then s1 else leaseAlone g n s1
    if bit v 1 then semRelease g n s2 else s2)

/-! ### Fault collector and safety (14 R493) -/

/-- Highest recorded class. -/
def maxClass (s : State) : Nat := s.faults.records.foldl (fun m p => max m p.2.cls) 0

/-- FAULT_STAT. -/
def faultStat (s : State) : Nat :=
  fld 24 s.faults.log.length + flag 23 s.faults.logOvr + fld 18 s.faults.pinClass + flag 17 (!s.faults.pinLow) +
    fld 8 s.faults.records.length + maxClass s

/-- FAULT_FIRST_INFO and FAULT_FIRST_DETAIL. -/
def firstInfo (s : State) : Nat := match s.faults.first with | some f => infoWord f.info | none => 0
def firstDetail (s : State) : Nat := match s.faults.first with | some f => f.info.detail | none => 0

/-- FAULT_STICKYk and FAULT_REC_CLASSk. -/
def stickyWord (s : State) (k : Nat) : Nat := maskOf 32 (fun i => Tbl.has s.faults.records (32 * k + i))
def recClassWord (s : State) (k : Nat) : Nat :=
  ((upto 0 16).map (fun i => fld (2 * i) (match Tbl.get? s.faults.records (16 * k + i) with | some r => r.cls | none => 0))).sum

/-- Code of the safe state. -/
def SafeState.code : SafeState → Nat | .normal => 0 | .entering => 1 | .deviceSafe => 2

/-- SAFE_STAT. -/
def safeStat (s : State) : Nat := fld 24 s.streamsSafe + fld 8 s.faults.safeCause + s.faults.safe.code

/-- Code of the self-test state. -/
def TestState.code : TestState → Nat | .idle => 0 | .running => 1 | .stalled => 2

/-- The words of 0x00_6000-0x00_6FFF. -/
def faultRead (s : State) (off : Nat) : Nat :=
  let f := s.faults
  let t (k : Nat) : Nat := match f.first with | some x => half x.info.time k | none => 0
  if 0x6020 ≤ off && off < 0x6030 then stickyWord s ((off - 0x6020) / 4)
  else if 0x6030 ≤ off && off < 0x6040 then (match f.first with | some x => wordOf x.sticky ((off - 0x6030) / 4) | none => 0)
  else if 0x6040 ≤ off && off < 0x6060 then recClassWord s ((off - 0x6040) / 4)
  else match off with
  | 0x6000 => faultStat s
  | 0x6004 => flag 7 f.padSlow + fld 2 f.holdMin + f.pulseMin
  | 0x6008 => firstInfo s
  | 0x6010 => t 0
  | 0x6014 => t 1
  | 0x6018 => firstDetail s
  | 0x601C => b2n f.evtEn
  | 0x6060 => logWord s
  | 0x6064 => f.logHi
  | 0x6068 => half f.logTime 0
  | 0x606C => half f.logTime 1
  | 0x6080 => safeStat s
  | 0x6084 => b2n f.safeEnter
  | 0x6090 => wordOf f.retired 0
  | 0x6094 => wordOf f.retired 1
  | 0x6098 => wordOf f.unitsRetired 0
  | 0x60A0 => fld 16 f.mismatchWindow + f.mismatchLimit
  | 0x60B0 => b2n f.testEnable
  | 0x60B4 => fld 24 f.testQuire + fld 16 f.testState.code + f.testFails
  | 0x60B8 => fld 16 f.testWorst + f.testLast
  | 0x60C0 => flag 31 f.fi.armed + fld 24 f.fi.source + fld 16 f.fi.cause + fld 2 f.fi.mode + f.fi.cls
  | 0x60C4 => b2n f.fi.armed
  | _ => 0

/-- Registers of the fault range that are in the keeper domain. -/
def faultKeeper (off : Nat) : Bool :=
  (off ≤ 0x606C && off ≠ 0x600C && off ≠ 0x601C) || off = 0x6090 || off = 0x6094 || off = 0x6098

/-- A write of FAULT_PIN_CTL (14 R493). -/
def pinCtlWrite (v : Nat) (s : State) : State :=
  let hold := bits v 2 2
  let pulse := bits v 0 2
  let s1 := { s with faults := { s.faults with padSlow := bit v 7 } }
  if hold = 0 || pulse = 0 || hold < pulse then s1
  else releasePin { s1 with faults := { s1.faults with holdMin := hold, pulseMin := pulse } }

/-- Writes of the fault range. -/
def faultWrite (off v : Nat) (s : State) : State :=
  if 0x6020 ≤ off && off < 0x6030 then
    forEach ((upto 0 32).filter (bit v)) (fun i => acknowledge (32 * ((off - 0x6020) / 4) + i)) s
  else match off with
  | 0x6000 => { s with faults := { s.faults with logOvr := s.faults.logOvr && !bit v 23 } }
  | 0x6004 => pinCtlWrite v s
  | 0x600C => if bit v 0 then { s with faults := { s.faults with first := none } } else s
  | 0x601C => { s with faults := { s.faults with evtEn := bit v 0 } }
  | 0x6084 => if bit v 0 then safeCtl s else s
  | 0x60A0 => { s with faults := { s.faults with
      mismatchWindow := if bits v 16 16 = 0 then s.faults.mismatchWindow else bits v 16 16,
      mismatchLimit := if bits v 0 4 < 2 then s.faults.mismatchLimit else bits v 0 4 } }
  | 0x60B0 => if !bit v 0 && s.liveAdmitted then s else { s with faults := { s.faults with testEnable := bit v 0 } }
  | 0x60C0 => writeFi (bit v 31) (bits v 2 4) (bits v 24 7) (bits v 16 8) (bits v 0 2) s
  | _ => s

/-- RC registers of the fault range. -/
def faultClear (off : Nat) (s : State) : State := if off = 0x6060 then takeLog s else s

/-! ### Keep-store (15 R510) -/

/-- The words of 0x00_7000-0x00_77FF. -/
def keepRegRead (s : State) (off : Nat) : Nat :=
  let k := s.keep
  match off with
  | 0x7000 => flag 31 k.scanDone + flag 30 k.writesOff + flag 29 k.compact.isSome + flag 28 (!k.waiting.isEmpty)
  | 0x7004 => k.evt.toNat
  | 0x7008 => k.evtEn.toNat
  | 0x700C => k.seq
  | 0x7010 => if k.scanDone then fld 16 k.journalFree + k.head else 0
  | 0x7014 => fld 24 k.errCause + k.errSlot
  | _ => 0

/-- Writes of the keep-store range. -/
def keepRegWrite (off v : Nat) (s : State) : State :=
  match off with
  | 0x7004 => { s with keep := { s.keep with evt := clearBits s.keep.evt v } }
  | 0x7008 => { s with keep := { s.keep with evtEn := BitVec.ofNat 3 v } }
  | _ => s

/-! ### Events (16 R525, R526) and management (R536) -/

/-- TGT_STAT. -/
def tgtStat (s : State) (t : Nat) : Nat :=
  let x := s.target t
  flag 31 x.out + flag 30 x.idle + flag 29 (x.moderated s.now) + flag 28 x.msgPend + fld 16 ((pendingAt s t).getD 0x3FF) +
    x.service.getD 0x3FF

/-- The words of a target's block. -/
def tgtRead (s : State) (t off : Nat) : Nat :=
  let x := s.target t
  match off with
  | 0x00 => claimValue s t
  | 0x08 => flag 31 x.enable + flag 28 x.message + flag 27 x.idleBypass + x.modUs
  | 0x0C => tgtStat s t
  | 0x10 => half x.msgAddr 0
  | 0x14 => half x.msgAddr 1
  | 0x18 => fld 10 x.msgData
  | 0x1C => x.msgErr
  | _ => 0

/-- IBI_PEND. -/
def ibiPending (s : State) : Nat := b2n s.mgmt.ibiFault.isSome + flag 1 s.mgmt.ibiSafe + flag 2 s.mgmt.ibiCmd.isSome

/-- The words of 0x00_8000-0x00_8FFF. -/
def eventRead (s : State) (off : Nat) : Nat :=
  let e := s.events
  let g := s.mgmt
  if off < 0x8240 then
    let k := (off - 0x8000) / 4
    ((upto 0 4).map (fun i => fld (8 * i) (routeOf s (4 * k + i)))).sum
  else if (0x8300 ≤ off && off < 0x8348) || (0x8380 ≤ off && off < 0x83C8) then wordOf e.enabled ((off - 0x8300) % 0x80 / 4)
  else if 0x8400 ≤ off && off < 0x8448 then maskOf 32 (fun i => sourceLevel s (8 * (off - 0x8400) + i))
  else if 0x8480 ≤ off && off < 0x84C8 then maskOf 32 (fun i => inService s (8 * (off - 0x8480) + i))
  else if 0x8800 ≤ off then tgtRead s ((off - 0x8800) / 32) (off % 32)
  else match off with
  | 0x8500 => flag 3 e.parity + flag 2 e.enableLost + flag 1 e.completeErr + b2n e.msgErr
  | 0x8504 => b2n e.sw
  | 0x8600 => flag 31 g.lock + fld 4 g.ibiClass + flag 3 g.ibiOnCmd + flag 2 g.permitKwrite + flag 1 g.permitRestart + b2n g.permitWake
  | 0x8604 => (match g.dynAddr with | some a => flag 23 true + fld 16 a | none => 0) + fld 8 (ibiPending s) + b2n g.enint
  | 0x8608 => g.evt.toNat
  | 0x860C => g.evtEn.toNat
  | _ => 0

/-- Registers of the event range that are in the keeper domain. -/
def eventKeeper (off : Nat) : Bool := 0x8600 ≤ off && off ≤ 0x860C

/-- A write of MGMT_CTL: LOCK freezes bits 5:0 (16 R531, R536). -/
def mgmtCtlWrite (v : Nat) (s : State) : State :=
  let g := s.mgmt
  let g1 := if g.lock then g else { g with
    ibiClass := if bits v 4 2 = 0 then g.ibiClass else bits v 4 2, ibiOnCmd := bit v 3, permitKwrite := bit v 2,
    permitRestart := bit v 1, permitWake := bit v 0 }
  { s with mgmt := { g1 with lock := g.lock || bit v 31 } }

/-- Writes of a target's block. -/
def tgtWrite (t off v : Nat) (s : State) : State :=
  match off with
  | 0x04 => complete t (bits v 0 10) s
  | 0x08 => modTarget t (fun x => { x with enable := bit v 31, message := bit v 28, idleBypass := bit v 27, modUs := bits v 0 10 }) s
  | 0x10 => modTarget t (fun x => { x with msgAddr := half x.msgAddr 1 * 2 ^ 32 + v / 4 * 4 }) s
  | 0x14 => modTarget t (fun x => { x with msgAddr := v % 65536 * 2 ^ 32 + half x.msgAddr 0 }) s
  | 0x18 => modTarget t (fun x => { x with msgData := v / 1024 }) s
  | _ => s

/-- Writes of the event range. -/
def eventWrite (off v : Nat) (s : State) : State :=
  let e := s.events
  let bitsOf (base : Nat) : List Nat := ((upto 0 32).filter (bit v)).map (fun i => 8 * (off - base) + i)
  if off < 0x8240 then
    let k := (off - 0x8000) / 4
    { s with events := { e with route := (upto 0 4).foldl (fun r i =>
        let t := bits v (8 * i) 6
        if t = 0 then Tbl.erase r (4 * k + i) else Tbl.set r (4 * k + i) t) e.route } }
  else if 0x8300 ≤ off && off < 0x8348 then { s with events := { e with enabled := (bitsOf 0x8300).foldl (fun l x => insertNat x l) e.enabled } }
  else if 0x8380 ≤ off && off < 0x83C8 then { s with events := { e with enabled := e.enabled.filter (fun x => !mem (bitsOf 0x8380) x) } }
  else if 0x8800 ≤ off then tgtWrite ((off - 0x8800) / 32) (off % 32) v s
  else match off with
  | 0x8500 => { s with events := { e with
      parity := e.parity && !bit v 3, enableLost := e.enableLost && !bit v 2, completeErr := e.completeErr && !bit v 1,
      msgErr := e.msgErr && !bit v 0 } }
  | 0x8504 => { s with events := { e with sw := bit v 0 } }
  | 0x8600 => mgmtCtlWrite v s
  | 0x8608 => { s with mgmt := { s.mgmt with evt := clearBits s.mgmt.evt v } }
  | 0x860C => { s with mgmt := { s.mgmt with evtEn := BitVec.ofNat 4 v } }
  | _ => s

/-- Registers of the event range that a non-debug read changes: TGT_CLAIM and TGT_MSG_ERR_CNT. -/
def eventClear (off : Nat) (s : State) : State :=
  if 0x8800 ≤ off then
    let t := (off - 0x8800) / 32
    if off % 32 = 0 then claim t s else if off % 32 = 0x1C then modTarget t (fun x => { x with msgErr := 0 }) s else s
  else s

/-! ### Time base (03 R98) -/

/-- TB_STAT. -/
def tbStat (s : State) : Nat := fld 4 s.tb.count + s.tb.quality

/-- The words of 0x00_9000-0x00_90FF. -/
def timeRead (s : State) (off : Nat) : Nat :=
  match off with
  | 0x9000 => half s.now 0
  | 0x9004 => s.tb.hiLatch
  | 0x9008 => flag 1 s.tb.autoRelock + b2n s.tb.refSel
  | 0x900C => tbStat s
  | 0x9010 => word32 s.tb.rate
  | 0x9014 => word32 s.tb.diff
  | 0x9018 => s.tb.evt
  | _ => 0

/-- Writes of the time-base range. -/
def timeWrite (off v : Nat) (s : State) : State :=
  match off with
  | 0x9008 =>
    let s1 := refSelWrite (bit v 0) { s with tb := { s.tb with autoRelock := bit v 1 } }
    if bit v 2 then relockWrite s1 else s1
  | 0x9018 => { s with tb := { s.tb with evt := Nat.land s.tb.evt (15 - v % 16) } }
  | _ => s

/-- Registers of the time-base range that a non-debug read changes: TB_NOW_LO latches TB_NOW_HI. -/
def timeClear (off : Nat) (s : State) : State :=
  if off = 0x9000 then { s with tb := { s.tb with hiLatch := half s.now 1 } } else s

/-- MGMT_LOCK: a write of MGMT_CTL.LOCK = 1 that leaves the other fields as they are (16 R531). -/
def execMgmtLock (dt : Nat) (priv : Bool) (s : State) : Host.Outcome State Fault Refusal :=
  event (Instr.mgmtLock dt priv).wf dt s (keeperWrite priv (fun s => { s with mgmt := { s.mgmt with lock := true } }))

end Sys2Proof.Machine
end

