-- ==== Sys2Proof/Machine/Press.lean ====
section
/-! DEFINITION. The press's periods: heartbeat, spares, plan synchronisation, shedding, the operating point, and what a period start
does (07 R223-R225, R229, R240-R252, R552; 14 R460, R482). -/

namespace Sys2Proof.Machine

/-! ### Heartbeat and spares -/

/-- Firmware writes PRESS_HB (R225). -/
def pressBeat (s : State) : State := if s.mainUp then { s with press := { s.press with fwMissed := 0 } } else s

/-- A write of PRESS_CTL.SPARES chooses the spares again; above 4, or while a binding is admitted, it changes nothing (R229, R252). -/
def writeSpares (k : Nat) (s : State) : State :=
  if 4 < k || anyAdmitted s then s else { s with press := { s.press with spares := k, spareSet := chooseSpares k s.faults.retired } }

/-! ### Plan synchronisation (R249-R251) -/

/-- The instance follows a lead. -/
def isFollower (s : State) : Bool := s.chip.groupM1 ≠ 0 && s.chip.instId ≠ 0

/-- e: a stamp against the nearest period start; a stamp half a period from both counts as late (log 45). -/
def syncError (t period phase : Int) : Int :=
  let r := (t - phase) % period
  if 2 * r ≤ period then r else r - period

/-- A LOCKED follower becomes UNLOCKED (R251). -/
def unlockSync (s : State) : State :=
  report1 123 1 0x18 0 false { s with press := { s.press with sync := .unlocked, syncGood := 0, syncBad := 0, evt := s.press.evt ||| 8 } }

/-- An accepted edge within 1 us, or beyond it. -/
def countEdge (near : Bool) (s : State) : State :=
  if near then
    let n := min 3 (s.press.syncGood + 1)
    { s with press := { s.press with syncGood := n, syncBad := 0, sync := if n = 3 then .locked else s.press.sync } }
  else
    let n := min 2 (s.press.syncBad + 1)
    let s1 := { s with press := { s.press with syncGood := 0, syncBad := n } }
    if s.press.sync == .locked && n = 2 then unlockSync s1 else s1

/-- An accepted PLAN_SYNC_IN edge (R250). -/
def syncEdge (j : Int) (s : State) : State :=
  if !(s.mainUp && isFollower s) then s
  else
    let t := stampAt s j
    let e := syncError t s.periodNs s.press.phase
    let s1 := { s with press := { s.press with syncOffset := e, lastEdge := s.now } }
    let s2 := if !anyAdmitted s && s.press.sync != .locked then
        { s1 with press := { s1.press with phaseNext := some (t % 2000).toNat } } else s1
    countEdge (decide (-1000 ≤ e && e ≤ 1000)) s2

/-- No edge within 2 press periods plus 10 us (R251). -/
def syncTimeout (s : State) : State :=
  if s.mainUp && s.press.sync == .locked && decide (s.press.lastEdge + 2 * s.periodNs + 10000 ≤ s.now) then unlockSync s else s

/-- SYNC, valid from the first period start (R249, R252). -/
def syncNow (s : State) : SyncState :=
  if s.chip.groupM1 = 0 then .solo else if s.chip.instId = 0 then .lead else if s.press.sync == .locked then .locked else .unlocked

/-! ### Steps of shedding (R241, R552) -/

/-- Bindings admitted LIVE. -/
def Binding.live (b : Binding) : Bool := b.admitted && b.cls == some 0

/-- V: the largest VIEWS among a binding's STREAM entry points. -/
def Binding.maxViews (b : Binding) : Nat :=
  match b.image with
  | some i => (i.entries.filter (·.stream)).foldl (fun m p => max m p.views) 0
  | none => 0

/-- Every (binding, view) pair in the order of shedding. -/
def shedPairs (s : State) : List (Nat × Nat) :=
  (upto 0 16).reverse.flatMap (fun pr =>
    (s.bindings.reverse.filter (fun p => p.2.live && p.2.precedence = pr)).flatMap (fun p =>
      (upto 1 (p.2.maxViews - 1)).reverse.map (fun v => (p.1, v))))

/-- Shed `n` more pairs: the last one shed stands first. -/
def pushPairs : Nat → List (Nat × Nat) → List (Nat × Nat) → List (Nat × Nat)
  | 0, _, shed => shed
  | _, [], shed => shed
  | n + 1, p :: t, shed => pushPairs n t (p :: shed)

/-- The shed pairs once `n` of them are to be shed: the last ones return first, and the next in order are added. -/
def fitPairs (all shed : List (Nat × Nat)) (n : Nat) : List (Nat × Nat) :=
  let kept := shed.filter (fun p => all.any (· == p))
  if n ≤ kept.length then kept.drop (kept.length - n)
  else pushPairs (n - kept.length) (all.filter (fun p => !kept.any (· == p))) kept

/-- The steps in force. -/
def stepsNow (s : State) : Nat := if s.press.level ≤ 3 then s.press.level else max 4 (3 + s.press.shedViews.length)

/-- Bring `n` steps into force; a change is an event and is counted once (R243; log 46). -/
def setSteps (n : Nat) (s : State) : State :=
  let level := min n 4
  let views := if n ≤ 3 then [] else fitPairs (shedPairs s) s.press.shedViews (n - 3)
  if level = s.press.level && views == s.press.shedViews then s
  else { s with
    press := { s.press with level, shedViews := views, evt := s.press.evt ||| 4 }, faults := { s.faults with nShed := s.faults.nShed + 1 } }

/-- Every step: all classes and every optional view. -/
def allSteps (s : State) : Nat := max 4 (3 + (shedPairs s).length)

/-- Steps that the thermal stage demands (R242). -/
def thermalDemand (s : State) : Nat := if s.power.stage = 0 then 0 else if s.power.stage = 1 then 2 else allSteps s

/-- The highest demand of any trigger. -/
def stepDemand (s : State) : Nat := max s.press.thermalSteps (max s.press.capacitySteps s.press.bandwidthSteps)

/-- A demand above the steps in force is met at once; a release undoes one step (R552). -/
def meetDemand (release : Bool) (s : State) : State :=
  let d := stepDemand s
  let n := stepsNow s
  setSteps (if d < n then (if release then max d (n - 1) else n) else d)
    { s with press := { s.press with trigThermal := s.press.thermalSteps ≠ 0, trigCapacity := s.press.capacitySteps ≠ 0,
                                     trigBandwidth := s.press.bandwidthSteps ≠ 0 } }

/-- A thermal stage that has risen sheds from the next slot on (R242; log 46). -/
def thermalRise (s : State) : State :=
  let d := thermalDemand s
  if s.press.thermalSteps < d then meetDemand false { s with press := { s.press with thermalSteps := d } } else s

/-- The thermal demand at a period start: it falls by one step a period. -/
def thermalStep (s : State) : State :=
  let d := thermalDemand s
  { s with press := { s.press with thermalSteps := max d (s.press.thermalSteps - 1) } }

/-- The bandwidth demand at a period start (R242). -/
def bandwidthStep (s : State) : State :=
  let p := s.press
  if p.lateWrite then
    { s with press := { p with bandwidthSteps := min (stepsNow s + 1) (3 + (shedPairs s).length), quietPeriods := 0, lateWrite := false } }
  else
    let q := min 2 (p.quietPeriods + 1)
    { s with press := { p with quietPeriods := q, bandwidthSteps := if q = 2 then p.bandwidthSteps - 1 else p.bandwidthSteps } }

/-! ### The capacity trigger (R242, 14 R482) -/

/-- The lowest-numbered free spare of a quire's half (14 R481). -/
def freeSpare (s : State) (q : Nat) : Option Nat :=
  (upto 0 64).find? (fun p => mem s.press.spareSet p && p / 32 = q / 32 && !mem s.faults.retired p && !(s.quire p).testing &&
    s.faults.migrations.all (·.dst ≠ p))

/-- Retired quires whose work no spare of their half can take. -/
def stranded (s : State) : List Nat :=
  s.faults.retired.filter (fun q => !(bookedOn s q).isEmpty && (freeSpare s q).isNone && s.faults.migrations.all (·.src ≠ q))

/-- Admitted bindings with a quire among the stranded, LIVE first. -/
def strandedBindings (s : State) : List Nat :=
  let qs := stranded s
  let hit := s.bindings.filter (fun p => p.2.admitted && (p.2.quiresA ++ p.2.quiresB).any (mem qs))
  ((hit.filter (·.2.live)) ++ hit.filter (!·.2.live)).map (·.1)

/-- The state in which binding `h` is placed again: its own bookings are off, and those of PROMPT bindings too where `shed`. -/
def unbooked (h : Nat) (shed : Bool) (s : State) : State :=
  { s with bindings := s.bindings.map (fun p =>
      if p.1 = h then (p.1, { p.2 with cls := none, quiresA := [], quiresB := [] })
      else if shed && p.2.cls == some 1 then (p.1, { p.2 with tableGen := 0 }) else p) }

/-- A binding placed again. -/
def rePlace (h : Nat) (shed : Bool) (s : State) : Option State :=
  match (Tbl.get? s.bindings h).bind (fun b => b.tableImage.map (fun i => (b, i))) with
  | none => none
  | some (b, i) =>
    match placement (unbooked h shed s) i b.live b.opp with
    | .ok p => some (modBinding h (fun b => { b with quiresA := p.1, quiresB := p.2.1, spare := p.2.2 }) s)
    | .error _ => none

/-- The LIVE bindings that stand on leaves which a PROMPT binding books in the same slots. -/
def sharers (s : State) : List Nat :=
  s.bindings.filterMap (fun p =>
    if p.2.cls == some 0 && (workQuires s).any (fun q =>
      !(p.2.bookedOn q).all (bookingFree (s.bindings.flatMap (fun x => if x.2.cls == some 1 then x.2.bookedOn q else [])))) then some p.1
    else none)

/-- A LIVE booking stands on leaves that a PROMPT binding books in the same slots. -/
def sharedBookings (s : State) : Bool := !(sharers s).isEmpty

/-- Every stream of a binding enters stream safe state. -/
def bindingStreamsSafe (h : Nat) (s : State) : State :=
  forEach (s.streams.filterMap (fun p => if p.2.binding = h then some p.1 else none)) streamSafe s

/-- Demand at least `n` steps for want of capacity. -/
def demandSteps (n : Nat) (s : State) : State := { s with press := { s.press with capacitySteps := max n s.press.capacitySteps } }

/-- Place one stranded binding with the fewest steps that allow it (log 47). -/
def placeStranded (h : Nat) (s : State) : State :=
  match rePlace h false s with
  | some t => t
  | none =>
    if (match Tbl.get? s.bindings h with | some b => b.live | none => false) then
      match rePlace h true s with
      | some t => demandSteps 3 t
      | none => bindingStreamsSafe h (demandSteps (allSteps s) s)
    else s

/-- Coefficient segments of retired quires on which nothing is booked any longer move to other quires. -/
def rehomeSegments (s : State) : State :=
  let idle (g : Segment) : Bool := mem s.faults.retired g.quire && (bookedOn s g.quire).isEmpty && (freeSpare s g.quire).isNone &&
    s.faults.migrations.all (·.src ≠ g.quire)
  forEach (s.mem.segments.filter idle) (fun g s =>
    match segmentHome s with
    | some q => { s with mem := { s.mem with segments := s.mem.segments.map (fun x => if x == g then { x with quire := q } else x) } }
    | none => s) s

/-- A record covers slot `i` of the period. -/
def SlotRec.covers (r : SlotRec) (i : Nat) : Bool := r.first ≤ i && i < r.first + r.run

/-- Units of a kind that a binding's stages book in slot `i`, for one replica. -/
def Binding.unitsAt (b : Binding) (kind i : Nat) : Nat :=
  match b.tableImage with
  | some img => ((enum img.stages).map (fun t =>
      if t.2.unit = kind && b.table.any (fun r => !r.replay && r.stage = t.1 && r.covers i) then t.2.units else 0)).sum
  | none => 0

/-- The bookings of some bindings fit the units of a kind that are not retired: trim engines (1) over both replicas, codec cores (2) in
each half besides (14 R483). -/
def unitsFit (s : State) (kind : Nat) (l : List (Nat × Binding)) : Bool :=
  let left (lo n : Nat) : Nat := n - (s.faults.unitsRetired.filter (fun u => lo ≤ u && u < lo + n)).length
  (upto 0 s.press.period).all (fun i =>
    let live := (l.map (fun p => if p.2.live then p.2.unitsAt kind i else 0)).sum
    let booked := live + (l.map (fun p => p.2.unitsAt kind i)).sum
    if kind = 1 then decide (booked ≤ left 0 16)
    else decide (booked ≤ left 16 8) && decide (live ≤ left 16 4) && decide (live ≤ left 20 4))

/-- Some stream of a binding runs outside stream safe state. -/
def streamsRun (s : State) (h : Nat) : Bool := s.streams.any (fun p => p.2.binding = h && p.2.st != .safe)

/-- Admitted bindings that book units of a kind, in the order of shedding. -/
def unitBindings (s : State) (kind : Nat) : List (Nat × Binding) :=
  (upto 0 16).reverse.flatMap (fun pr => s.bindings.reverse.filter (fun p =>
    p.2.admitted && p.2.precedence = pr && (!p.2.live || streamsRun s p.1) &&
      (upto 0 s.press.period).any (fun i => p.2.unitsAt kind i ≠ 0)))

/-- The LIVE bindings, in the order of shedding, without which the rest fit. -/
def shortBindings (s : State) (kind : Nat) : List (Nat × Binding) → List Nat
  | [] => []
  | p :: t => if unitsFit s kind (p :: t) then [] else p.1 :: shortBindings s kind t

/-- Retired units of a kind: stages move to units that are not booked in their slots, else PROMPT work is shed, else the streams that
cannot be placed enter stream safe state (14 R482, R483; log 47). -/
def unitStep (kind : Nat) (s : State) : State :=
  let l := unitBindings s kind
  if !s.faults.unitsRetired.any (fun u => if kind = 1 then u < 16 else 16 ≤ u) || unitsFit s kind l then s
  else
    let short := shortBindings s kind (l.filter (·.2.live))
    forEach short bindingStreamsSafe (demandSteps (if short.isEmpty then 3 else allSteps s) s)

/-- A stage of the binding's image draws. -/
def Binding.drawsWords (b : Binding) : Bool :=
  match b.tableImage with
  | some img => img.stages.any (fun t => t.unit = 3 || (match img.opbs[t.opb]? with | some o => blockDraws o | none => false))
  | none => false

/-- A half of the draw unit without a lane: no placement gives one replica of a LIVE binding with draw stages its draws, so its streams
enter stream safe state (12 R407, R417, 14 R484; log 87). -/
def laneStep (s : State) : State :=
  let has (k : Nat) : Bool := bit s.draw.inService.toNat k
  if (has 0 || has 1) && (has 2 || has 3) then s
  else forEach ((s.bindings.filter (fun p => p.2.live && p.2.drawsWords)).map (·.1)) bindingStreamsSafe s

/-- Firmware's re-placement at a period start: a LIVE binding that stands on PROMPT leaves is placed without them as soon as there is
room, which releases the steps; then what has lost its quires or units is placed (R242). -/
def capacityStep (s : State) : State :=
  if !s.fwRuns then s
  else
    let s0 := forEach (sharers s) (fun h s => (rePlace h false s).getD s) s
    let s1 := { s0 with press := { s0.press with capacitySteps := if sharedBookings s0 then 3 else 0 } }
    rehomeSegments (laneStep (unitStep 2 (unitStep 1 (forEach (strandedBindings s1) placeStranded s1))))

/-- Shedding at a period start. -/
def shedStep (s : State) : State := meetDemand true (bandwidthStep (capacityStep (thermalStep s)))

/-! ### A period start -/

/-- A best-effort entry that is ready: a chain's first member, checked and unfenced, within its deadline, whose gathering waits for its
start (R239, 06 R201). -/
def readyHead (s : State) (r : Ring) (e : Entry) : Bool :=
  (e.op = 1 || e.op = 6) && e.phase == .ready && e.count = e.first && unfenced r e && !(r.aborting && r.abortDue) && !r.ctlReset &&
    (e.deadline = 0 || s.now ≤ e.deadline) &&
    (match e.work.bind (Tbl.get? s.works) with | some w => !w.started | none => false)

/-- Some best-effort entry is ready. -/
def anyReady (s : State) : Bool := s.rings.any (fun p => p.2.entries.any (readyHead s p.2))

/-- The press keeps its periods, or begins them, at a period start (03 R71). -/
def periodRuns (s : State) : Bool :=
  anyAdmitted s || (if s.press.running then s.rings.any (fun p => p.2.tail ≠ p.2.done)
    else s.rings.any (fun p => p.2.entries.any (fun e => e.op = 1 || e.op = 6)))

/-- Press periods end: READY, with every quire that is ON in RETAIN; what waited for a period boundary is acted on (03 R70-R72, R83). -/
def stopPeriods (s : State) : State :=
  let s1 := { s with
    power := { s.power with state := if s.power.state == .run then .ready else s.power.state },
    press := { s.press with running := false,
                            quires := s.press.quires.map (fun q => if q.st == .on && !q.testing then { q with st := .retain } else q) } }
  reachStandby (retryTarget (applyWanted s1))

/-- The operating point of the new period (R240, 03 R83): a change already wanted, else the governor's choice. -/
def selectPoint (s : State) : State :=
  let s1 := applyWanted s
  if s1.oppBusy || s1.power.target = 2 then s1
  else
    let ready := anyReady s1
    let floor := admitFloor s1
    if ready && decide (s1.power.tjMax < 500) then requestOpp (min s1.power.fastest floor) s1
    else if !ready && !s1.press.beReady then requestOpp (min floor s1.power.slowest) s1
    else s1

/-- The heartbeat at a period start (R225). -/
def countMissed (s : State) : State :=
  let n := s.press.fwMissed
  let s1 := if n = 2 then
      forEach (s.bindings.filterMap (fun p => if p.2.live then some p.1 else none)) bindingStreamsSafe s else s
  { s1 with press := { s1.press with fwMissed := min 2 (n + 1), evt := if 1 ≤ n then s1.press.evt ||| 16 else s1.press.evt } }

/-- Values that take effect at a period start: the energy limit, the caps, and a slot table whose older generations are gone
(05 R168, R231). -/
def takePeriodValues (s : State) : State :=
  { s with
    press := { s.press with limUj := s.press.limNext.getD s.press.limUj, limNext := none },
    ctxs := s.ctxs.map (fun p => (p.1, { p.2 with capMw := p.2.capNext.getD p.2.capMw, capNext := none })),
    bindings := s.bindings.map (fun p => (p.1, if olderInFlight s p.1 p.2.gen then p.2 else { p.2 with tableGen := p.2.gen })) }

/-- The comparator's known mismatch is not flagged: a comparator fault, or an armed injection of it (14 R460, R490). -/
def comparatorCheck (flagged : Bool) (s : State) : State :=
  let inject := s.faults.fi.armed && s.faults.fi.mode = 6
  if flagged && !inject then s
  else report [{ src := 124, cls := 3, cause := 0x24, detail := 0, injected := inject }]
    (if inject then { s with faults := { s.faults with fi := { s.faults.fi with armed := false } } } else s)

/-- The level of PLAN_SYNC_OUT: high for 8 us from a period start (R249, 02 R56). -/
def State.planSyncOut (s : State) : Bool := decide (s.now < s.chip.planSyncEnd)

/-- A press period runs from now on. -/
def runPeriod (flagged : Bool) (s : State) : State :=
  let s1 := countMissed { s with
    power := { s.power with state := if s.power.state == .ready then .run else s.power.state },
    press := { s.press with
      running := true, periodStart := s.now, periodCnt := (s.press.periodCnt + 1) % 2 ^ 32, sync := syncNow s } }
  let s2 := if isFollower s1 then s1 else { s1 with chip := { s1.chip with planSyncEnd := s1.now + 8000 } }
  let s3 := when s2.fwRuns firmwareAcks (takePeriodValues s2)
  let s4 := shedStep (reachStandby (retryTarget (selectPoint s3)))
  comparatorCheck flagged { s4 with press := { s4.press with beReady := false } }

/-- PRESS_PERIOD_START: the row's time must be a start of the grid, once (R223; log 48). -/
def periodStart (flagged : Bool) (s : State) : State :=
  let onGrid := s.press.phase ≤ s.now && decide ((s.now - s.press.phase) % s.periodNs = 0)
  if !(s.mainUp && s.faults.safe == .normal && onGrid) || atPeriodStart s then s
  else
    let s1 := { s with press := { s.press with phase := s.press.phaseNext.getD s.press.phase, phaseNext := none } }
    if periodRuns s1 then runPeriod flagged s1 else if s1.press.running then stopPeriods s1 else s1

/-! ### The known-answer test of a draw lane -/

/-- A write that starts the test of a lane; it runs in a bubble (12 R417, R418). -/
def katBegin (lane : Nat) (s : State) : State :=
  { s with draw := { s.draw with katLane := lane, katStart := true } }

/-- The test runs at a slot boundary (12 R417). -/
def katRun (fail : Bool) (s : State) : State :=
  if !s.draw.katStart then s
  else
    let m := BitVec.ofNat 4 (2 ^ s.draw.katLane)
    let s1 := { s with draw := { s.draw with
      katStart := false, katDone := s.draw.katDone ||| m, katPass := if fail then s.draw.katPass &&& ~~~m else s.draw.katPass ||| m } }
    if fail then report1 125 2 8 s.draw.katLane false s1 else s1

/-! ### Commands -/

/-- PLAN_SYNC_EDGE (R250). -/
def execPlanSyncEdge (dt : Nat) (j : Int) (s : State) : Host.Outcome State Fault Refusal :=
  event (Instr.planSyncEdge dt j).wf dt s (syncEdge j)

/-- PLAN_SYNC_TIMEOUT (R251). -/
def execPlanSyncTimeout (dt : Nat) (s : State) : Host.Outcome State Fault Refusal :=
  event (Instr.planSyncTimeout dt).wf dt s syncTimeout

/-- PRESS_HB (R225). -/
def execPressHb (dt : Nat) (s : State) : Host.Outcome State Fault Refusal :=
  event (Instr.pressHb dt).wf dt s pressBeat

/-- PRESS_SPARES_WRITE (R229). -/
def execPressSparesWrite (dt : Nat) (priv : Bool) (k : Nat) (s : State) : Host.Outcome State Fault Refusal :=
  event (Instr.pressSparesWrite dt priv k).wf dt s (mainWrite true priv (writeSpares k))

/-- PRESS_PERIOD_START (R223). -/
def execPressPeriodStart (dt : Nat) (flagged : Bool) (s : State) : Host.Outcome State Fault Refusal :=
  event (Instr.pressPeriodStart dt flagged).wf dt s (periodStart flagged)

/-- DRAW_KAT_START (12 R417). -/
def execDrawKatStart (dt : Nat) (priv : Bool) (lane : Nat) (s : State) : Host.Outcome State Fault Refusal :=
  event (Instr.drawKatStart dt priv lane).wf dt s (mainWrite true priv (katBegin lane))

end Sys2Proof.Machine
end

