-- ==== Sys2Proof/Machine/Samples.lean ====
section
/-! DEFINITION. What a sample computes: SUBMIT entries with the shelf, DRAW entries, and the writes that end them (06 R184, R193-R196;
09 R306, R313; 12 R413, R414; 13 R429, R431, R440-R444). -/

namespace Sys2Proof.Machine

/-! ### Images of gatherings -/

/-- Image and entry point of the generation that a gathering uses. -/
def workImage (s : State) (w : Work) : Option (Image × EntryPt) :=
  match (Tbl.get? s.bindings w.binding).bind (fun b => b.image? w.gen) with
  | some i => (i.point? w.entry).map (fun p => (i, p))
  | none => none

/-- Memory as read, with the writes that earlier members have already made. -/
def overlay (m : ExtMem) (ws : List (Nat × List Byte)) : ExtMem := { m with segs := ws.reverse ++ m.segs }

/-- A stage of the entry point reads a coefficient set that has a lost segment (13 R429). -/
def segmentsLost (s : State) (w : Work) (i : Image) (p : EntryPt) : Bool :=
  p.stageList.any (fun k => match i.stages[k]? with
    | some t => s.mem.segments.any (fun g => g.lost && g.binding = w.binding && g.gen = w.gen && t.coeffFirst ≤ g.set &&
        decide (g.set < t.coeffFirst + t.coeffRun))
    | none => false)

/-- The resident sets of a binding that is not admitted take free places when a SUBMIT of it first starts, if all of them fit (13 R431). -/
def makeResident (w : Work) (s : State) : State :=
  match Tbl.get? s.bindings w.binding with
  | some b =>
    if b.admitted || s.mem.segments.any (fun g => g.binding = w.binding && g.gen = w.gen) then s
    else match b.image? w.gen with
      | some i => if residentSegs i ≤ allFreePlaces s then placeSegments w.binding w.gen i s else s
      | none => s
  | none => s

/-! ### The shelf (13 R440-R444) -/

/-- The kind-3 input of an entry. -/
def shelfSource (p : EntryPt) (e : Entry) : Option Nat := if p.kind0 = 3 then some e.in0 else if p.kind1 = 3 then some e.in1 else none

/-- An entry point looks its input up: its other input has kind 0. Else it fills. -/
def looksUp (p : EntryPt) : Bool := (p.kind0 = 3 && p.kind1 = 0) || (p.kind1 = 3 && p.kind0 = 0)

/-- Bytes of the index at the start of the region. -/
def shelfIndexBytes (size : Nat) : Nat := cdiv size (2 ^ 26) * 65536

/-- Address of chunk `k`. -/
def chunkAddr (s : State) (k : Nat) : Nat := s.shelf.base + shelfIndexBytes s.shelf.size + 65536 * k

/-- Chunks that no entry holds. -/
def freeChunks (s : State) : List Nat :=
  let held := s.shelf.entries.flatMap (·.chunks)
  (upto 0 ((s.shelf.size - shelfIndexBytes s.shelf.size) / 65536)).filter (fun k => !mem held k)

/-- The stretches of an entry's data. -/
def shelfStretches (s : State) (x : ShelfEntry) : List (Nat × Nat) :=
  (enum x.chunks).map (fun p => (chunkAddr s p.2, min 65536 (x.size - 65536 * p.1)))

/-- The visible entry that a lookup finds: same key, binding id and generation. -/
def shelfFind (s : State) (c source crop bid gen : Nat) : Option ShelfEntry :=
  s.shelf.entries.find? (fun x => x.visible && x.ctx = c && x.source = source && x.crop = crop && x.bindingId = bid && x.gen = gen)

/-- Remove a visible entry. -/
def shelfDrop (x : ShelfEntry) : State → State := hideShelf (· == x)

/-- An entry is used: it moves to the newest end of the order (R443). -/
def shelfUse (x : ShelfEntry) (s : State) : State :=
  { s with shelf := { s.shelf with
      clock := s.shelf.clock + 1, entries := s.shelf.entries.map (fun y => if y == x then { y with used := s.shelf.clock + 1 } else y) } }

/-- What a lookup gives: the stored output, or the status and DETAIL of the reader, with the shelf's reactions. -/
def shelfLookup (mem : ExtMem) (c source crop bid gen : Nat) (s : State) : State × Except (Nat × Nat) (List StageOut) :=
  match shelfFind s c source crop bid gen with
  | none => ({ s with shelf := { s.shelf with misses := sat32 (s.shelf.misses + 1) } }, .error (9, 0))
  | some x =>
    let s1 := shelfUse x { s with shelf := { s.shelf with hits := sat32 (s.shelf.hits + 1) } }
    let x := { x with used := s1.shelf.clock }
    let l := shelfStretches s x
    match l.find? (fun p => extBad mem p.1 p.2) with
    | some p => (shelfDrop x (report1 (112 + portOf p.1) 2 0x19 c false s1), .error (8, 0))
    | none =>
      let d := l.flatMap (fun p => extRead mem p.1 p.2)
      if crc32c d = x.crc then (s1, .ok (storedFrom d))
      else
        let last := match l.getLast? with | some p => (p.1 + p.2 - 1) / 64 * 64 | none => 0
        let s2 := shelfDrop x { s1 with mem := { s1.mem with evt := s1.mem.evt ||| 4 } }
        (report1 (112 + portOf last) 2 0x20 c true s2, .error (9, 0))

/-- The least recently used entry that satisfies `p` and may be evicted. -/
def shelfOldest (s : State) (p : ShelfEntry → Bool) : Option ShelfEntry :=
  (s.shelf.entries.filter (fun x => x.visible && !shelfPinned s x && p x)).foldl (fun (m : Option ShelfEntry) x => match m with
    | none => some x
    | some y => if x.used < y.used then some x else some y) none

/-- Evict entries that satisfy `p` while `full` holds. -/
def shelfMakeRoom (p : ShelfEntry → Bool) (full : State → Bool) : Nat → State → State
  | 0, s => s
  | n + 1, s =>
    if full s then (match shelfOldest s p with | some x => shelfMakeRoom p full n (shelfDrop x s) | none => s) else s

/-- Bytes that a context holds on the shelf. -/
def shelfUsed (s : State) (c : Nat) : Nat := ((s.shelf.entries.filter (fun x => x.ctx = c)).map (·.size)).sum

/-- Any of the free chunks may be taken (log 7). -/
def pickChunks (s : State) (fill : Nat) : Nat → List Nat → List Nat
  | 0, _ => []
  | n + 1, l =>
    match l[Config.chunkChoice (fill * 65536 + n) % max l.length 1]? with
    | some k => k :: pickChunks s fill n (l.filter (· ≠ k))
    | none => []

/-- Attributes of shelf traffic that an entry of a class causes (R440). -/
def shelfAttr (c cls : Nat) : TxAttr := { workAttr c cls with sys := true }

/-- A fill under a key: room is made, chunks are taken, and the data are written; the index record follows their responses (R442, R443). -/
def shelfFill (c cls source crop bid gen entry : Nat) (d : List Byte) (s : State) : State :=
  let size := d.length
  let skip (s : State) : State := { s with shelf := { s.shelf with skips := sat32 (s.shelf.skips + 1) } }
  let quota := (s.ctx c).quota
  let overQuota (s : State) : Bool := match quota with | some q => decide (q < shelfUsed s c + size) | none => false
  let need := cdiv size 65536
  let noRoom (s : State) : Bool := decide ((freeChunks s).length < need) || decide (65536 ≤ s.shelf.entries.length)
  if 2 ^ 24 < size || (match quota with | some q => decide (q < size) | none => false) then skip s
  else
    let s1 := shelfMakeRoom (fun x => x.ctx = c) overQuota s.shelf.entries.length (sweepShelf s)
    let s2 := shelfMakeRoom (fun _ => true) noRoom s1.shelf.entries.length s1
    if overQuota s2 || noRoom s2 then skip s2
    else
      let fill := s2.shelf.clock + 1
      let x : ShelfEntry := { ctx := c, source, crop, bindingId := bid, gen, entry, size, chunks := pickChunks s2 fill need (freeChunks s2),
                              crc := crc32c d, used := fill, visible := false, fill }
      let s3 := { s2 with shelf := { s2.shelf with clock := fill, entries := s2.shelf.entries ++ [x] } }
      forEach (enum (shelfStretches s3 x)) (fun p s =>
        transfer (shelfAttr c cls) (.shelfData fill) p.2.1 p.2.2 (slice d (65536 * p.1) p.2.2) s) s3

/-! ### One member of a chain -/

/-- What the members so far have left. -/
structure Batch where
  payload : List Byte := []
  /-- Writes besides folios, each with the member that leaves it. -/
  writes : List (Nat × Nat × List Byte) := []
  /-- Stretches of inputs that the members have read. -/
  reads : List (Nat × Nat) := []
  /-- Shelf entries that the members have looked up: first chunk and stretches. -/
  lookups : List (Nat × List (Nat × Nat)) := []
  statuses : List (List Nat) := []
  /-- Member, status and DETAIL of the first failure. -/
  fail : Option (Nat × Nat × Nat) := none
  deriving DecidableEq, Repr

/-- Counters and events of a decode and of a coded unit (09 R313, R324, R338). -/
def countCodec (r : Run) (s : State) : State :=
  let s1 := match r.decode with
    | some (code, slices) => { s with codec := { s.codec with
        decErr := if code = 0 then s.codec.decErr else sat32 (s.codec.decErr + 1), conceal := sat32 (s.codec.conceal + slices),
        evt := if code = 0 then s.codec.evt else s.codec.evt ||| 1 } }
    | none => s
  match r.enc with
  | some (_, o) => { s1 with codec := { s1.codec with
      fallback := sat32 (s1.codec.fallback + o.fallbackRows), evt := if o.cap then s1.codec.evt ||| 8 else s1.codec.evt } }
  | none => s1

/-- Key of an encode session: context and address (09 R308). -/
def sessionKey (c a : Nat) : Nat := c * 2 ^ 64 + a

/-- The units of the reference picture of an entry's encode session. -/
def sessionUnits (s : State) (w : Work) (e : Entry) : List CodedUnit := Tbl.getD s.codec.sessions (sessionKey w.ctx e.ext) []

/-- A coded unit's decisions are kept for the next unit of its session (09 R321). -/
def keepUnits (w : Work) (e : Entry) (r : Run) (s : State) : State :=
  match r.enc with
  | some (_, o) => { s with codec := { s.codec with sessions := Tbl.set s.codec.sessions (sessionKey w.ctx e.ext) o.after.units } }
  | none => s

/-- DRAW_EVAL_CNT advances by the evaluations made, a number the spec does not state (12 R418; log 53). -/
def countDraws (s : State) : State :=
  useFree 1 { s with draw := { s.draw with evals := sat32 (s.draw.evals + Config.freeNat s.freeNo) } }

/-- What running an entry's operators needs. -/
def entryEnv (w : Work) (i : Image) (p : EntryPt) (e : Entry) (mem : ExtMem) (stored : Option (List StageOut)) (units : List CodedUnit) :
    RunEnv :=
  { enc := { units }, image := i, ep := p, key := (match w.key with | some k => k.key | none => 0), pos := e.drawPos, in0 := e.in0, in1 := e.in1,
    param := e.param, ext := e.ext, gs := e.guards, mem, stored }

/-- The stored output that a lookup gives the first stage; none for an entry point that does not look up. -/
def memberStored (w : Work) (i : Image) (p : EntryPt) (e : Entry) (mem : ExtMem) (s : State) :
    State × Except (Nat × Nat) (Option (List StageOut)) :=
  match shelfSource p e with
  | some src =>
    if looksUp p then
      match shelfLookup mem w.ctx src e.param i.bindingId e.gen s with
      | (s1, .ok l) => (s1, .ok (some l))
      | (s1, .error x) => (s1, .error x)
    else (s, .ok none)
  | none => (s, .ok none)

/-- The shelf entry that a member reads: its first chunk and stretches. -/
def memberLookup (w : Work) (i : Image) (p : EntryPt) (e : Entry) (s : State) : List (Nat × List (Nat × Nat)) :=
  match (if looksUp p then shelfSource p e else none).bind (fun src => shelfFind s w.ctx src e.param i.bindingId e.gen) with
  | some x => [(x.chunks.headD 0, shelfStretches s x)]
  | none => []

/-- The output that a fill stores: that of the first stage with a barrier (R441). -/
def fillOutput (i : Image) (p : EntryPt) (r : Run) : List Byte :=
  match p.stageList.find? (fun k => match i.stages[k]? with | some t => t.barrier | none => false) with
  | some k => storedBytes (Tbl.getD r.outs k [])
  | none => []

/-- A read that was refused, or returned an error: the entry's status (06 R184, 02 R38). -/
def noteFail (c : Nat) (x : Nat × Nat) (s : State) : State × (Nat × Nat) :=
  if x.1 = 3 then (refuse c false x.2 s, (3, 0))
  else if x.1 = 8 then (report1 (112 + portOf x.2) 2 0x19 c true s, (8, 0))
  else (s, x)

/-- Image and entry point of the generation that a ring entry uses (01 R26). -/
def entryImage (s : State) (e : Entry) : Option (Image × EntryPt) :=
  match (Tbl.get? s.bindings e.handle).bind (fun b => b.image? e.gen) with
  | some i => (i.point? e.point).map (fun p => (i, p))
  | none => none

/-- The sets that an entry's stages read and that are not resident: the stream engine brings them from their sources (01 R29, 13 R431). -/
def streamedSets (s : State) (i : Image) (p : EntryPt) (e : Entry) : List CoeffRec :=
  let resident (k : Nat) : Bool := s.mem.segments.any (fun g => g.binding = e.handle && g.gen = e.gen && g.set = k)
  let used (k : Nat) : Bool := p.stageList.any (fun j => match i.stages[j]? with
    | some t => t.coeffFirst ≤ k && decide (k < t.coeffFirst + t.coeffRun)
    | none => false)
  (enum i.coeffs).filterMap (fun x => if used x.1 && !resident x.1 && x.2.data.isSome then some x.2 else none)

/-- The first streamed set that does not arrive as it was loaded: its status, and the refused line or the address that failed; an arrival
check that fails has DETAIL 2^48, beyond every address (13 R427, R431; 01 R24). -/
def streamFails (i : Image) (mem : ExtMem) (l : List CoeffRec) : Option (Nat × Nat) :=
  l.findSome? (fun c => match guardCheck i.guards false c.addr c.size with
    | some line => some (3, line)
    | none => if extBad mem c.addr c.size then some (8, c.addr) else if crc32c (extRead mem c.addr c.size) ≠ c.crc then some (8, 2 ^ 48) else none)

/-- The status of a failed read, or of a failed arrival check, which is a fault of the quire that the stages run in (13 R427; log 107). -/
def noteStream (w : Work) (x : Nat × Nat) (s : State) : State × (Nat × Nat) :=
  if x.1 = 8 && x.2 = 2 ^ 48 then (report1 (16 + w.home.getD 0) 2 4 0 false s, (8, 0)) else noteFail w.ctx x s

/-- Run one member; after a failure the later members do not run (06 R196). -/
def runMember (w : Work) (i : Image) (p : EntryPt) (mem : ExtMem) (k : Nat) (e : Entry) (b : Batch) (s : State) : Batch × State :=
  let m := overlay mem (b.writes.map (·.2))
  let sets := streamedSets s i p e
  if b.fail.isSome then (b, s)
  else if segmentsLost s { w with gen := e.gen } i p then ({ b with fail := some (k, 8, 0) }, s)
  else match streamFails i m sets with
  | some x => let (s1, y) := noteStream w x s; ({ b with fail := some (k, y.1, y.2) }, s1)
  | none =>
    match memberStored w i p e m s with
    | (s1, .error x) => ({ b with fail := some (k, x.1, x.2) }, s1)
    | (s1, .ok stored) =>
      let env := entryEnv w i p e m stored (sessionUnits s w e)
      let r := runEntry env
      let s2 := when p.draws countDraws (countCodec r (keepUnits w e r s1))
      match r.fail with
      | some x =>
        let (s3, y) := noteFail w.ctx x s2
        ({ b with writes := b.writes ++ r.writes.map (fun x => (k, x)), fail := some (k, y.1, y.2) }, s3)
      | none =>
        let s3 := match shelfSource p e with
          | some src => if looksUp p then s2 else shelfFill w.ctx w.cls src e.param i.bindingId e.gen p.num (fillOutput i p r) s2
          | none => s2
        ({ b with payload := b.payload ++ payloadOf env r false, writes := b.writes ++ r.writes.map (fun x => (k, x)),
                  reads := b.reads ++ sets.map (fun c => (c.addr, c.size)) ++ inputReads env, lookups := b.lookups ++ memberLookup w i p e s, statuses := b.statuses ++ [r.statuses] }, s3)

/-- Run the members of a chain in order, each under its own generation. -/
def runMembers (w : Work) (mem : ExtMem) : List Entry → Nat → Batch → State → Batch × State
  | [], _, b, s => (b, s)
  | e :: t, k, b, s =>
    let (b1, s1) := match entryImage s e with
      | some (i, p) => runMember w i p mem k e b s
      | none => (b, s)
    runMembers w mem t (k + 1) b1 s1

/-! ### Ends without output -/

/-- DETAIL of member `j` when member `k` ends the chain with a status and DETAIL. -/
def endDetail (status detail k j : Nat) : Nat := if j = k then detail else if status = 2 then 0xFF else 0

/-- End the members of a chain without output, each with its charge (06 R196, R205; 07 R238). -/
def endEach (c n first status detail k : Nat) : List Member → Nat → State → State
  | [], _, s => s
  | m :: t, j, s =>
    endEach c n first status detail k t (j + 1)
      (endEntry c n (first + j) (fun e => { e with status, detail := endDetail status detail k j, buffer := 0, bytesOut := 0, folios := 0,
                                                   colophon := 0, tDone := 0, energy := cdiv m.energyNj 1000 }) s)

/-- A chain ends without a gathering: stock takes its buffer back. -/
def endSample (wid k status detail : Nat) (s : State) : State :=
  match Tbl.get? s.works wid with
  | none => s
  | some w =>
    let s2 := countContained (if status = 8 then w.members.length else 0) (dropWork wid (returnBuf w.buffer s))
    match w.kind with
    | .chain c n first _ => endEach c n first status detail k w.members 0 s2
    | .draw c n count => endEach c n count status detail k w.members 0 s2
    | _ => s2

/-- The writes besides folios, each checked against its own entry's snapshot; a refusal ends the chain (06 R183, R184, 09 R306). -/
def resultWrites (wid : Nat) (s : State) : State :=
  match Tbl.get? s.works wid with
  | none => s
  | some w => forEach w.codecOut
      (fun p s => if p.2.2.isEmpty then s else guardedWrite (memberGuards s w p.1) wid (.result wid) p.2.1 p.2.2.length p.2.2 s)
      (modWork wid (fun w => { w with codecOut := [] }) s)

/-- Every folio of a payload is ready. -/
def putPayload (wid : Nat) (s : State) : State :=
  match Tbl.get? s.works wid with
  | none => s
  | some w => forEach (enum (foliosOf w.payload w.total)) (fun p s => putFolio wid p.1 p.2 s) (modWork wid (fun w => { w with payload := [] }) s)

/-- A sample's last barrier is past: its results and folios are written; an entry without output ends once its results are answered. -/
def finishSample (wid : Nat) (s : State) : State :=
  let s1 := resultWrites wid s
  match Tbl.get? s1.works wid with
  | none => s1
  | some w =>
    match w.fail with
    | none => tryColophon wid (putPayload wid s1)
    | some (status, detail) => if w.pendingTx = 0 then endSample wid w.failMember status detail s1 else s1

/-! ### SUBMIT and DRAW -/

/-- Members get the statuses that their runs left, with every view invalid where one stands (09 R313). -/
def markMembers (views : Nat) : List Member → List (List Nat) → List Member
  | m :: t, l :: u => (if l.isEmpty then m else { m with statuses := l ++ m.statuses, invalid := upto 0 views }) :: markMembers views t u
  | ms, _ => ms

/-- The entries of a chain, in order. -/
def chainEntries (s : State) (c n first len : Nat) : List Entry := (upto first len).filterMap (fun k => (s.ring c n).entry? k)

/-- The input reads of a gathering are presented with its context's tag and class (01 R24, 02 R33, R35; 13 R432-R436); no stage of it
passes its barrier before they are answered. -/
def presentInputs (wid : Nat) (w : Work) (l : List (Nat × Nat)) (s : State) : State :=
  readTxs (workAttr w.ctx w.cls) (.input wid) l (modWork wid (fun w => { w with pendingRd := w.pendingRd + readCount l }) s)

/-- The reads of looked-up shelf entries are SYS transactions of the entry's class (13 R440); they pin the entries (R442). -/
def presentLookups (wid : Nat) (w : Work) (l : List (Nat × List (Nat × Nat))) (s : State) : State :=
  forEach l (fun x s => readTxs (shelfAttr w.ctx w.cls) (.lookup wid x.1) x.2
    (modWork wid (fun w => { w with pendingRd := w.pendingRd + readCount x.2 }) s)) s

/-- The stages of a SUBMIT chain run (06 R193): its inputs are read, its operators evaluated, and what they leave is kept until the
stages have passed their barriers. A chain that ends here presents no reads (log 8). -/
def submitRun (c n count : Nat) (mem : ExtMem) (s : State) : State :=
  match ((s.ring c n).entry? count).bind (fun e => e.work.bind (fun wid => (Tbl.get? s.works wid).map (fun w => (wid, w)))) with
  | none => s
  | some (wid, w) =>
    match w.kind, workImage s w with
    | .chain c' n' first len, some (_, p) =>
      if !(c' = c && n' = n && first = count) || !w.started || w.ran then s
      else
        let (b, s1) := runMembers w mem (chainEntries s c n first len) 0 {} s
        let s2 := modWork wid (fun w => { w with
          ran := true, payload := b.payload, codecOut := b.writes, members := markMembers p.views w.members b.statuses }) s1
        match b.fail with
        | some (k, status, detail) =>
          if b.writes.isEmpty then endSample wid k status detail s2
          else finishSample wid (modWork wid (fun w => { w with fail := some (status, detail), failMember := k }) s2)
        | none => presentLookups wid w b.lookups (presentInputs wid w b.reads s2)
    | _, _ => s

/-- The fp32 pattern of floor(u / 2^8) x 2^-24 (12 R412). -/
def uniformBits (u : Nat) : Nat :=
  let n := u / 256
  if n = 0 then 0 else (Nat.log2 n + 103) * 2 ^ 23 + (n * 2 ^ (23 - Nat.log2 n) - 2 ^ 23)

/-- Value bytes of a DRAW entry (12 R414). -/
def drawValues (key pos stream kind p count : Nat) : List Byte :=
  let word (i : Nat) : Nat := ((drawQuad key 4 pos (i / 4) 0 stream).word i).toNat
  match kind with
  | 0 => (upto 0 count).flatMap (fun i => leBytes (word i) 4)
  | 1 => (upto 0 count).flatMap (fun i => leBytes (uniformBits (word i)) 4)
  | 2 => (upto 0 (cdiv count 8)).map (fun j => BitVec.ofNat 8 (ofBools ((upto 0 8).map (fun b => 8 * j + b < count && drawEvent (word (8 * j + b)) p))))
  | _ => (upto 0 count).flatMap (fun i => leBytes (code (nrm (drawQuad key 5 pos i 0 stream)) 32) 4)

/-- DRAW: the values are computed and written as one gathering (12 R413, R414). -/
def drawRun (c n count : Nat) (s : State) : State :=
  match (s.ring c n).entry? count with
  | none => s
  | some e =>
    match e.work.bind (fun wid => (Tbl.get? s.works wid).map (fun w => (wid, w))) with
    | none => s
    | some (wid, w) =>
      if w.kind != .draw c n count || !w.started || w.ran || w.suspended then s
      else
        let key := match w.key with | some k => k.key | none => 0
        let d := drawValues key e.drawPos (bits e.param 16 16) (bits e.param 0 8) e.ext (bits e.param 32 32)
        finishSample wid (countDraws (modWork wid (fun w => { w with ran := true, place := none, payload := d }) s))

/-! ### Commands -/

/-- SUBMIT (06 R193). -/
def execSubmit (dt ctx ring count : Nat) (mem : ExtMem) (s : State) : Host.Outcome State Fault Refusal :=
  event (Instr.submit dt ctx ring count mem).wf dt s (submitRun ctx ring count mem)

/-- DRAW (12 R413). -/
def execDraw (dt ctx ring count : Nat) (s : State) : Host.Outcome State Fault Refusal :=
  event (Instr.draw dt ctx ring count).wf dt s (drawRun ctx ring count)

end Sys2Proof.Machine
end

