-- ==== Sys2Proof/Machine/Governor.lean ====
section
/-! DEFINITION. Slots: bubbles, the governor, best-effort stages, the stages of LIVE strips, encoded units, quire power and codec cores
(07 R223, R224, R232, R235-R239, R243, R244; 09 R325-R333; 13 R422-R424; 03 R76, R77). -/

namespace Sys2Proof.Machine

/-! ### Reservations of a slot -/

/-- Number of the slot that `t` lies in. -/
def slotNo (s : State) (t : Nat) : Nat := (t - s.press.phase) / 2000

/-- Place of the present slot in the press period. -/
def slotIndex (s : State) : Nat := slotNo s s.now % max s.press.period 1

/-- The binding's reservations stand: it is in the plan (07 R227, R230). -/
def Binding.inPlan (b : Binding) : Bool := b.cls.isSome && (b.st == .planned || b.st == .retiring)

/-- Bindings in the plan. -/
def planned (s : State) : List (Nat × Binding) := s.bindings.filter (·.2.inPlan)

/-- Leaves of quire `q` that a binding books in slot `i`. -/
def bookedMask (b : Binding) (q i : Nat) : Nat := ((b.bookedOn q).filter (·.covers i)).foldl (fun m r => Nat.lor m r.leafMask) 0

/-- A PROMPT binding has an entry that is ready. -/
def promptReady (s : State) (h : Nat) : Bool :=
  s.rings.any (fun p => p.2.entries.any (fun e => readyHead s p.2 e && e.handle = h))

/-- Leaves of quire `q` that are not bubbles in slot `i`: booked for LIVE work or replays, or for PROMPT work whose binding has a ready
entry, other than binding `own` (R235, R241). -/
def reservedMask (s : State) (q i own : Nat) : Nat :=
  (planned s).foldl (fun m p =>
    if p.2.cls == some 0 || (p.1 ≠ own && s.press.level < 3 && promptReady s p.1) then Nat.lor m (bookedMask p.2 q i) else m) 0

/-- A quire is booked in one of the `n` slots from slot `i` on. -/
def bookedWithin (s : State) (q i n : Nat) : Bool :=
  (upto i n).any (fun j => (planned s).any (fun p => bookedMask p.2 q (j % max s.press.period 1) ≠ 0))

/-! ### Best-effort places -/

/-- The gathering is a best-effort one whose stages have started and are not through. -/
def Work.inStages (w : Work) : Bool :=
  w.started && w.fail.isNone && (match w.kind with | .chain _ _ _ _ | .draw _ _ _ => true | _ => false)

/-- Leaves of a quire that best-effort stages hold, suspended ones included. -/
def heldMask (s : State) (q : Nat) : Nat :=
  s.works.foldl (fun m p => match p.2.place with | some (q', k) => if q' = q then Nat.lor m k else m | none => m) 0

/-- Units of a kind that best-effort stages hold: kinds 1 trim, 2 codec and 3 draw stand as places 64 + kind. -/
def heldUnits (s : State) (kind : Nat) : Nat :=
  (s.works.map (fun p => match p.2.place with | some (q, k) => if q = 64 + kind && !p.2.suspended then k else 0 | none => 0)).sum

/-- Units of a kind that LIVE stages book in slot `i`, over both replicas. -/
def liveUnits (s : State) (kind i : Nat) : Nat :=
  ((planned s).map (fun p => if p.2.cls == some 0 then 2 * p.2.unitsAt kind i else 0)).sum

/-- Units of a kind in service. -/
def serviceUnits (s : State) (kind : Nat) : Nat :=
  if kind = 1 then 16 - (s.faults.unitsRetired.filter (· < 16)).length
  else if kind = 2 then
    min (if s.power.state == .standby then 1 else 8) (8 - (s.faults.unitsRetired.filter (16 ≤ ·)).length)
  else 1

/-- Units of a kind that PROMPT bindings other than `own` book in slot `i` while an entry of theirs is ready: they are offered those first
(R235). -/
def promptUnits (s : State) (kind i own : Nat) : Nat :=
  if 3 ≤ s.press.level then 0
  else ((planned s).map (fun p => if p.2.cls == some 1 && p.1 ≠ own && promptReady s p.1 then p.2.unitsAt kind i else 0)).sum

/-- Units of a kind that a best-effort stage of binding `own` may take in slot `i`; a codec core that is booked for LIVE work in the next
slot is given back in this one (R235, 09 R330). -/
def freeUnits (s : State) (kind i own : Nat) : Nat :=
  let live := if kind = 2 then max (liveUnits s 2 i) (liveUnits s 2 ((i + 1) % max s.press.period 1)) else liveUnits s kind i
  serviceUnits s kind - live - promptUnits s kind i own - heldUnits s kind

/-- The lowest `n` bits of a mask. -/
def lowestBits (mask : Nat) : Nat → List Nat → Nat
  | 0, _ => 0
  | _, [] => 0
  | n + 1, k :: t => if bit mask k then 2 ^ k + lowestBits mask n t else lowestBits mask (n + 1) t

/-- Leaves of quire `q` free for a stage of binding `own` in slot `i`. -/
def freeLeaves (s : State) (q i own : Nat) : Nat :=
  0xFFFFFFFF - Nat.lor (Nat.land (reservedMask s q i own) 0xFFFFFFFF) (heldMask s q)

/-- A quire may run best-effort work: not a spare, not retired, not under test, not moving (R235, 14 R473). -/
def quireOpen (s : State) (q : Nat) : Bool :=
  !(s.quire q).testing && s.faults.migrations.all (fun m => m.src ≠ q && m.dst ≠ q)

/-- Quires in the order in which the press takes them: ON, RETAIN, then GATED but never for BACKGROUND (R236). -/
def quireOrder (s : State) (cls : Nat) : List Nat :=
  let l := (workQuires s).filter (quireOpen s)
  let st (x : QState) : List Nat := l.filter (fun q => (s.quire q).st == x)
  st .on ++ st .retain ++ (if cls = 3 then [] else (st .gated).filter (mayWake s))

/-- Leaves reserved for stage `k` of a PROMPT binding in slot `i`: quire and mask (R235). -/
def ownPlace (s : State) (h k i n : Nat) : Option (Nat × Nat) :=
  match Tbl.get? s.bindings h with
  | some b =>
    if b.inPlan && b.cls == some 1 && s.press.level < 3 then
      (b.table.filter (fun r => r.stage = k && r.covers i)).findSome? (fun r =>
        match b.quiresA[r.relQuire]? with
        | some q =>
          let free := Nat.land r.leafMask (freeLeaves s q i h)
          if n ≤ popcount free then some (q, lowestBits free n (upto 0 32)) else none
        | none => none)
    else none
  | none => none

/-- Codec cores that a stage runs on: a decode whose unit allows no division runs on one (09 R328; the unit's bytes say whether an H.264,
H.265 or AV1 unit has tiles, WPP rows or slices at row starts). -/
def stageUnits (mem : ExtMem) (s : State) (w : Work) (op units : Nat) : Nat :=
  let in0 := match w.kind with | .chain c n first _ => (match (s.ring c n).entry? first with | some e => e.in0 | none => 0) | _ => 0
  let d := extRead mem in0 64
  if op ≠ 0x0400 then units
  else if byteAt d 4 ≤ 2 && Config.unitDivides (byteAt d 4) (extRead mem (field d 8 8) (field d 0x10 4)) then units
  else 1

/-- Where stage `k` of a gathering starts in slot `i`: a quire and leaves, or units (R236; log 49 for which leaves). -/
def placeStage (mem : ExtMem) (s : State) (w : Work) (i k : Nat) : Option (Nat × Nat) :=
  match w.kind with
  | .draw _ _ _ => if s.draw.inService = 0 then none else some (67, 1)
  | _ =>
    match (workImage s w).bind (fun x => x.1.stages[k]?) with
    | none => none
    | some t =>
      if t.unit = 0 then
        match ownPlace s w.binding k i t.leaves with
        | some p => some p
        | none => ((quireOrder s w.cls).find? (fun q => t.leaves ≤ popcount (freeLeaves s q i w.binding))).map (fun q =>
            (q, lowestBits (freeLeaves s q i w.binding) t.leaves (upto 0 32)))
      else if t.unit = 3 then (if s.draw.inService = 0 then none else some (67, 1))
      else
        let n := stageUnits mem s w (match workImage s w with | some (img, _) => stageOp img k | none => 0) t.units
        if n ≤ freeUnits s t.unit i w.binding then some (64 + t.unit, n) else none

/-! ### Microcode (03 R77, 05 R154) -/

/-- A quire that does not hold a generation's microcode receives it again from the image, through the generation's guard snapshot, and
firmware checks its hash. The result is the status that ends the work: a refused read, an error of memory, or another hash. -/
def loadMicro (mem : ExtMem) (h gen : Nat) (img : Image) (q : Nat) (s : State) : State × Option Nat :=
  if (s.quire q).micro.any (· == (h, gen)) || img.code.2 = 0 then (s, none)
  else
    let c := h / 2 ^ 24
    match guardCheck img.guards false img.code.1 img.code.2 with
    | some line => (refuse c false line s, some 3)
    | none =>
      let s1 := readTxs (imageRead c) (.fetched c) [img.code] s
      if extBad mem img.code.1 img.code.2 then (report1 (112 + portOf img.code.1) 2 0x19 c true s1, some 8)
      else if Config.sha384 (extRead mem img.code.1 img.code.2) ≠ img.codeHash then (s1, some 8)
      else (modQuire q (fun x => { x with micro := x.micro ++ [(h, gen)] }) s1, none)

/-- The microcode of some quires, in order, up to the first that fails. -/
def loadMicros (mem : ExtMem) (h gen : Nat) (img : Image) : List Nat → State → State × Option Nat
  | [], s => (s, none)
  | q :: t, s => match loadMicro mem h gen img q s with
    | (s1, none) => loadMicros mem h gen img t s1
    | r => r

/-- A stage takes its place; on a quire it needs the binding's microcode, without which its chain ends. -/
def takePlace (mem : ExtMem) (wid : Nat) (p : Nat × Nat) (s : State) : State :=
  let s1 := modWork wid (fun w => { w with place := some p, suspended := false, home := if p.1 < 64 then some p.1 else w.home }) s
  if 64 ≤ p.1 then s1
  else match (Tbl.get? s.works wid).bind (fun w => (workImage s w).map (fun x => (w, x.1))) with
    | some (w, img) =>
      match loadMicro mem w.binding w.gen img p.1 (quireOn p.1 s1) with
      | (s2, none) => s2
      | (s2, some status) => endSample wid 0 status 0 s2
    | none => quireOn p.1 s1

/-- A best-effort class that is shed (R241, R243). -/
def classShed (s : State) (cls : Nat) : Bool := (cls = 3 && 1 ≤ s.press.level) || (cls = 2 && 2 ≤ s.press.level) || (cls = 1 && 3 ≤ s.press.level)

/-- Stages under way go on or are suspended for this slot (01 R22, R236, R243). -/
def resumeStages (i : Nat) (s : State) : State :=
  forEach s.works (fun x s =>
    match x.2.place with
    | some (q, mask) =>
      if q < 64 then
        let stop := classShed s x.2.cls || Nat.land (reservedMask s q i x.2.binding) mask ≠ 0
        modWork x.1 (fun w => { w with suspended := stop }) s
      else s
    | none => s) s

/-- A core that is given up saves its state to memory with SYS writes; where, how much and which bytes is the GX's own (09 R330; log 106). -/
def saveCore (wid : Nat) (s : State) : State :=
  match Tbl.get? s.works wid with
  | none => s
  | some w =>
    let a := 64 * (Config.freeNat s.freeNo % 2 ^ 42)
    let n := Config.freeNat (s.freeNo + 1) % 2 ^ 32
    transfer { workAttr w.ctx w.cls with sys := true } (.area w.ctx) a n (slice (Config.freeBytes (s.freeNo + 2)) 0 n)
      (useFree 3 { modWork wid (fun w => { w with saved := some (a, n) }) s with
        codec := { s.codec with suspends := sat32 (s.codec.suspends + 1) } })

/-- A codec stage that goes on reads the saved state back. -/
def restoreCore (wid : Nat) (s : State) : State :=
  match (Tbl.get? s.works wid).bind (fun w => w.saved.map (fun p => (w, p))) with
  | some (w, p) => readTxs { workAttr w.ctx w.cls with sys := true } (.area w.ctx) [p] (modWork wid (fun w => { w with saved := none }) s)
  | none => s

/-- Trim, codec and draw stages under way keep their units while LIVE work leaves enough of them, the oldest first; a codec stage that
gives its core up is a suspension (01 R22, R243; 09 R330). -/
def resumeUnits (kind i : Nat) (s : State) : State :=
  let s0 := { s with works := s.works.map (fun x => (x.1, match x.2.place with
    | some (q, _) => if q = 64 + kind then { x.2 with suspended := true } else x.2 | none => x.2)) }
  forEach s.works (fun x t =>
    match x.2.place with
    | some (q, n) =>
      if q = 64 + kind then
        (if !classShed t x.2.cls && n ≤ freeUnits t kind i x.2.binding then restoreCore x.1 (modWork x.1 (fun w => { w with suspended := false }) t)
         else if kind = 2 && !x.2.suspended then saveCore x.1 t else t)
      else t
    | none => t) s0

/-- Stages that follow a barrier take a place: they do not pass the governor again (R239). -/
def continueStages (mem : ExtMem) (i : Nat) (s : State) : State :=
  forEach s.works (fun x s =>
    match Tbl.get? s.works x.1 with
    | some w =>
      let last := match workImage s w with | some (_, p) => p.firstStage + p.stageRun | none => 0
      if w.inStages && w.place.isNone && w.stage < last && !classShed s w.cls then
        (match placeStage mem s w i w.stage with | some p => takePlace mem x.1 p s | none => s)
      else s
    | none => s) s

/-! ### The governor (R238, R239) -/

/-- lim of R239 in nJ, after thermal scaling. -/
def limitNj (s : State) : Nat :=
  let l := s.press.limUj * 1000
  if 540 ≤ s.power.tjMax then 0
  else if 500 < s.power.tjMax then l * (540 - s.power.tjMax).toNat / 40 else l

/-- Charges of slots n - 500 to n - 1, or to n itself, that satisfy `p`. -/
def windowNj (s : State) (n : Nat) (own : Bool) (p : Nat → Bool) : Nat :=
  ((s.press.charges.filter (fun c => decide (n < c.1 + 501) && (own || decide (c.1 < n)) && p c.2.1)).map (·.2.2)).sum

/-- Charge of one member of a gathering at the current point. -/
def memberCharge (s : State) (w : Work) : Nat :=
  match workImage s w with
  | some (_, p) => p.energyNj.getD s.power.oppCurrent 0
  | none => 0

/-- The oldest ready entry of a context and class. -/
def oldestReady (s : State) (c cls : Nat) : Option (Nat × Entry) :=
  ((upto 0 4).flatMap (fun n => ((s.ring c n).entries.filter (fun e => readyHead s (s.ring c n) e && e.cls = cls)).map (fun e => (n, e)))).foldl
    (fun (m : Option (Nat × Entry)) x => match m with
      | none => some x
      | some y => if x.2.order < y.2.order then some x else some y) none

/-- Session address that a sample with these inputs names: in the bitstream descriptor of a decode, or EXTENSION of an encode
(09 R306-R308). -/
def sampleSession (mem : ExtMem) (img : Image) (p : EntryPt) (in0 ext : Nat) : Option Nat :=
  if p.stageList.any (fun k => stageOp img k = 0x0400) then some (field (extRead mem in0 64) 0x18 8)
  else if !p.stream && p.encodes img then some ext
  else none

/-- Session address of a ring entry. -/
def entrySession (mem : ExtMem) (s : State) (e : Entry) : Option Nat :=
  if e.op ≠ 1 then none
  else match (Tbl.get? s.bindings e.handle).bind (fun b => b.image? e.gen) with
    | some img => (img.point? e.point).bind (fun p => sampleSession mem img p e.in0 e.ext)
    | none => none

/-- The session addresses that the members of a chain name. -/
def workSessions (mem : ExtMem) (s : State) (w : Work) : List Nat :=
  match w.kind with
  | .chain c n first len => (chainEntries s c n first len).filterMap (entrySession mem s)
  | _ => []

/-- Entries of one context that name one session start one at a time, in the order in which they were fetched: no entry fetched before
`e` that names one of its chain's sessions is still to complete (09 R308). The session of a gathering under way is the one it had when it
started. -/
def sessionFree (mem : ExtMem) (s : State) (c : Nat) (e : Entry) (w : Work) : Bool :=
  let mine := workSessions mem s w
  let names (x : Entry) : List Nat :=
    match (if x.started then x.work.bind (Tbl.get? s.works) else none) with
    | some v => v.sessions
    | none => (entrySession mem s x).toList
  mine.isEmpty ||
    (upto 0 4).all (fun m => (s.ring c m).entries.all (fun x => e.order ≤ x.order || x.work == e.work || (names x).all (fun a => !mine.any (· == a))))

/-- Contexts in round-robin order from `k` on. -/
def ctxOrder (s : State) (k : Nat) : List Nat :=
  let l := s.ctxs.map (·.1)
  l.filter (k ≤ ·) ++ l.filter (· < k)

/-- A gathering starts on a place: it is charged, its entries run, and a binding too large for the context's partition ends DIM_LIMIT
(R238, 13 R424, R431). -/
def startWork (mem : ExtMem) (wid n : Nat) (p : Nat × Nat) (s : State) : State :=
  match Tbl.get? s.works wid with
  | none => s
  | some w =>
    let nj := memberCharge s w
    let total := w.members.length * nj
    let s1 := { s with press := { s.press with charges := if total = 0 then s.press.charges else s.press.charges ++ [(n, w.ctx, total)] } }
    let s2 := startEntries w (modWork wid (fun w => { w with
      started := true, tStart := s.now, stage := (match workImage s w with | some (_, q) => q.firstStage | none => 0),
      sessions := workSessions mem s w, members := w.members.map (fun m => { m with energyNj := nj }) }) s1)
    let tooLarge := match workImage s w, Tbl.get? s.bindings w.binding with
      | some (i, _), some b => !b.admitted && decide ((s.ctx w.ctx).qstoreKib < i.qstoreKib)
      | _, _ => false
    if tooLarge then failWork wid 5 s2 else takePlace mem wid p (makeResident w s2)

/-- One context's turn in a class: its oldest ready entry starts if energy, cap, session and place allow. The result tells whether one
started. -/
def governTurn (mem : ExtMem) (n i cls c : Nat) (s : State) : State × Bool :=
  match oldestReady s c cls with
  | none => (s, false)
  | some (_, e) =>
    match e.work.bind (fun wid => (Tbl.get? s.works wid).map (fun w => (wid, w))) with
    | none => (s, false)
    | some (wid, w) =>
      let est := w.members.length * memberCharge s w
      let capFull := match (s.ctx c).capMw with
        | some k => k ≠ 0 && decide (k * 1000 < windowNj s n true (· = c) + est)
        | none => false
      if decide (limitNj s < windowNj s n true (fun _ => true) + est) || capFull || !sessionFree mem s c e w then (s, false)
      else match placeStage mem s w i (match workImage s w with | some (_, p) => p.firstStage | none => 0) with
        | none => (s, false)
        | some p =>
          let s1 := startWork mem wid n p s
          ({ s1 with press := { s1.press with rr := modNth s1.press.rr (cls - 1) (fun _ => (c + 1) % 256) } }, true)

/-- The contexts of a class in turn. -/
def governClass (mem : ExtMem) (n i cls : Nat) : List Nat → State × Nat → State × Nat
  | [], a => a
  | c :: t, (s, k) =>
    let r := governTurn mem n i cls c s
    governClass mem n i cls t (r.1, k + b2n r.2)

/-- The governor of a slot (R239). -/
def govern (mem : ExtMem) (n i : Nat) (s : State) : State :=
  let s0 := { s with press := { s.press with charges := s.press.charges.filter (fun c => decide (n < c.1 + 501)) } }
  let cls (k : Nat) (a : State × Nat) : State × Nat :=
    if classShed a.1 k || (k = 3 && 0 < a.2) then a else governClass mem n i k (ctxOrder a.1 (a.1.press.rr.getD (k - 1) 0)) a
  let a := cls 3 (cls 2 (cls 1 (s0, 0)))
  { a.1 with press := { a.1.press with beReady := a.1.press.beReady || anyReady s } }

/-! ### LIVE strips (R224, R232) -/

/-- Zero bytes of one folio. -/
def zeroFolio : List Byte := List.replicate 4096 0

/-- A gathering takes the size that another generation gives it; where its buffer is too small, stock takes that back and offers another
(01 R20, R26; log 54). -/
def reform (wid : Nat) (t : Stream) (p : EntryPt) (s : State) : State :=
  match Tbl.get? s.works wid with
  | none => s
  | some w =>
    if w.members.all (fun m => m.bytes = p.outBytes) && w.views = p.views then s
    else
      let total := cdiv p.outBytes 4096
      let statuses := w.members.flatMap (·.statuses)
      let grown := fun (w : Work) => { w with views := p.views, total, members := [{ newMember p.outBytes p.views with statuses }] }
      match w.buffer with
      | some (k, _, _) =>
        if 4096 * total + 128 ≤ bufSize (k % 8) then modWork wid grown s
        else
          let s1 := returnBuf w.buffer s
          let buffer := folioBuffer s1 t.ctx t.outPool total
          modWork wid (fun w => { grown w with buffer }) (match buffer with | some b => setBuf b.1 b.2.1 (some .issued) s1 | none => s1)
      | none => modWork wid grown s

/-- The generation that a LIVE gathering uses is the one in force when its first strip starts (01 R26): a pending one takes force now. -/
def takeGeneration (wid i : Nat) (s : State) : State :=
  match Tbl.get? s.works wid, Tbl.get? s.streams i with
  | some w, some t =>
    let s1 := promote w.binding s
    match streamImage s1 t with
    | some (b, _, p) =>
      reform wid t p (modWork wid (fun w => { w with gen := b.gen, guards := (s1.ctx w.ctx).guards, key := streamKey s1 t p }) s1)
    | none => s1
  | _, _ => s

/-- Views that are shed for a gathering that starts now (R243, R552). -/
def shedViewsOf (s : State) (w : Work) : List Nat := (upto 1 (w.views - 1)).filter (fun v => s.press.shedViews.any (· == (w.binding, v)))

/-- Shed views are delivered as zeros with status DEGRADED; an encode view that is shed leaves the encoder's state but for F (R244,
09 R326). -/
def shedWork (wid i : Nat) (s : State) : State :=
  match Tbl.get? s.works wid with
  | none => s
  | some w =>
    let vs := shedViewsOf s w
    if vs.isEmpty then s
    else
      let s1 := modWork wid (fun w => { w with shed := vs, statuses := 0x0B :: w.statuses }) s
      let folios := match w.members with | m :: _ => vs.flatMap (viewFolios m) | [] => []
      let s2 := forEach folios (fun f s => putFolio wid f zeroFolio s) s1
      match workImage s w with
      | some (img, p) => (match encodeOf img p, p.encodeView img with
        | some (_, blk), some v => if mem vs v then modStream i (fun t => { t with enc := skipUnit blk t.enc }) s2 else s2
        | _, _ => s2)
      | none => s2

/-- A gathering's first strip starts. -/
def beginSample (wid i : Nat) (s : State) : State :=
  shedWork wid i (openZero wid (modWork wid (fun w => { w with started := true, tStart := s.now }) (takeGeneration wid i s)))

/-- Strips of a LIVE gathering that await stage number `k` of its entry point, with the time each became ready. -/
def dueStrips (w : Work) (k : Nat) : List (Nat × Nat) :=
  match w.frame with
  | some f => f.ready.filter (fun r => match Tbl.get? w.strips r.1 with | none => k = 0 | some v => v = 2 * k && k ≠ 0)
  | none => []

/-- First stage of a gathering's entry point. -/
def stageBase (s : State) (w : Work) : Nat := match workImage s w with | some (_, p) => p.firstStage | none => 0

/-- Strips of a binding's gatherings in stage `k` of the stage list now. -/
def runningStrips (s : State) (h k : Nat) : Nat :=
  (s.works.map (fun x => if x.2.binding = h then (x.2.strips.filter (fun r => r.2 % 2 = 1 && stageBase s x.2 + r.2 / 2 = k)).length else 0)).sum

/-- A LIVE gathering whose stages may run. -/
def liveRuns (s : State) (w : Work) : Option Nat :=
  match w.kind, w.frame with
  | .live i, some f =>
    if !f.qualify && w.buffer.isSome && (w.phase == .zeroing || w.phase == .working || w.phase == .collecting) &&
        (match Tbl.get? s.streams i with | some t => t.st != .safe | none => false) then some i else none
  | _, _ => none

/-- The records that reserve stage `k` of a binding in slot `i`. -/
def stageRecs (b : Binding) (k i : Nat) : List SlotRec := b.table.filter (fun r => !r.replay && r.stage = k && r.covers i)

/-- Strips that the reservation of a stage takes at once; a stage without a reservation of its own runs one at a time (log 50). -/
def stageRoom (b : Binding) (img : Image) (k i : Nat) : Nat :=
  match img.stages[k]? with
  | none => 0
  | some t =>
    if !b.table.any (fun r => !r.replay && r.stage = k) then 1
    else
      let recs := stageRecs b k i
      if recs.isEmpty then 0
      else if t.unit = 0 then max 1 ((recs.map (fun r => popcount r.leafMask)).sum / max t.leaves 1) else 1

/-- The quires of both replicas on which the records of a stage stand. -/
def recQuires (b : Binding) (recs : List SlotRec) : List Nat :=
  recs.flatMap (fun r => (b.quiresA[r.relQuire]?).toList ++ (b.quiresB[r.relQuire]?).toList)

/-- The quires of a strip's stage hold its microcode, or the gathering is hit (03 R77, 05 R154). -/
def stripMicro (mem : ExtMem) (wid : Nat) (quires : List Nat) (s : State) : State :=
  match (Tbl.get? s.works wid).bind (fun w => (workImage s w).map (fun x => (w, x.1))) with
  | some (w, img) => match loadMicros mem w.binding w.gen img quires s with
    | (s1, none) => s1
    | (s1, some _) => hitWork wid s1
  | none => s

/-- A segment that the gathering's stages read cannot be had (13 R429). -/
def segmentsGone (s : State) (wid : Nat) : Bool :=
  match Tbl.get? s.works wid with
  | some w => (match workImage s w with | some (im, p) => segmentsLost s w im p | none => false)
  | none => false

/-- A barrier follows stage `k` in the generation that a gathering uses (R218). -/
def barrierAfter (s : State) (wid k : Nat) : Bool :=
  match (Tbl.get? s.works wid).bind (workImage s) with
  | some (img, _) => (match img.stages[k]? with | some x => x.barrier | none => true)
  | none => true

/-- A strip starts stage `k` of the stage list, number `ord` of its entry point, under some records; without a barrier the next stage is due
at once (R218, R224). Its energy is that of the records, in both replicas (R238; log 50). -/
def startStrip (mem : ExtMem) (wid i n k ord : Nat) (b : Binding) (recs : List SlotRec) (s : State) : State :=
  let first := match Tbl.get? s.works wid with | some w => w.strips.isEmpty | none => false
  let s1 := stripMicro mem wid (recQuires b recs) (when first (beginSample wid i) s)
  let s2 := when (segmentsGone s1 wid) (hitWork wid) s1
  modWork wid (fun w => { w with
    strips := Tbl.set w.strips n (if barrierAfter s2 wid k then 2 * ord + 1 else 2 * ord + 2),
    members := w.members.map (fun m => { m with energyNj := m.energyNj + 2 * (recs.map (·.energyNj)).sum }) }) s2

/-- Start due strips of one stage, the one that became ready first first, while there is room. -/
def startDue (mem : ExtMem) (h i k : Nat) (b : Binding) (img : Image) : List (Nat × Nat × Nat × Nat) → State → State
  | [], s => s
  | (wid, strm, n, ord) :: t, s =>
    startDue mem h i k b img t
      (if runningStrips s h k < stageRoom b img k i then startStrip mem wid strm n k ord b (stageRecs b k i) s else s)

/-- Insert by time, behind those of the same time. -/
def insertDue {α : Type} (x : Nat × α) : List (Nat × α) → List (Nat × α)
  | [] => [x]
  | y :: t => if x.1 < y.1 then x :: y :: t else y :: insertDue x t

/-- Due strips of stage `k` of a binding: gathering, stream, strip and the stage's number in its entry point, oldest first. -/
def dueList (s : State) (h k : Nat) : List (Nat × Nat × Nat × Nat) :=
  let l := s.works.flatMap (fun x =>
    if x.2.binding ≠ h then []
    else match liveRuns s x.2, workImage s x.2 with
      | some i, some (_, p) =>
        if p.firstStage ≤ k && k < p.firstStage + p.stageRun then
          (dueStrips x.2 (k - p.firstStage)).map (fun r => (r.2, x.1, i, r.1, k - p.firstStage))
        else []
      | _, _ => [])
  (l.foldl (fun m x => insertDue x m) []).map (·.2)

/-- Start what is due in this slot for one LIVE binding, stage by stage. -/
def startBinding (mem : ExtMem) (i h : Nat) (s : State) : State :=
  match (Tbl.get? s.bindings h).bind (fun b => b.tableImage.map (fun img => (b, img))) with
  | none => s
  | some (b, img) => forEach (upto 0 img.stages.length) (fun k s => startDue mem h i k b img (dueList s h k) s) s

/-- Start what is due in this slot. -/
def startLive (mem : ExtMem) (i : Nat) (s : State) : State :=
  forEach ((planned s).filterMap (fun p => if p.2.cls == some 0 then some p.1 else none)) (startBinding mem i) s

/-! ### Replays (R234) -/

/-- The REPLAY records of a binding that cover slot `i`. -/
def replayRecs (b : Binding) (i : Nat) : List SlotRec := b.table.filter (fun r => r.replay && r.covers i)

/-- A replay that has been asked for starts in a REPLAY slot: it is counted, and its stage run adds the energy of the records it starts
under (R234, R238; 05 R171). -/
def startReplay (wid i : Nat) (c : FolioCmp) (s : State) : State :=
  match (Tbl.get? s.works wid).bind (fun w => Tbl.get? s.bindings w.binding) with
  | some b =>
    let recs := replayRecs b i
    if !c.replay || c.replaying || recs.isEmpty then s
    else
      let s1 := modWork wid (fun w => { w with
        compares := w.compares.map (fun x => if x.index = c.index then { x with replaying := true } else x),
        members := w.members.map (fun m => { m with energyNj := m.energyNj + (recs.map (·.energyNj)).sum }) }) s
      { s1 with faults := { s1.faults with nReplays := s1.faults.nReplays + 1 } }
  | none => s

/-- Start the replays that wait. -/
def startReplays (i : Nat) (s : State) : State := forEach s.works (fun x s => forEach x.2.compares (startReplay x.1 i) s) s

/-! ### Encoded units of LIVE gatherings (09 R325-R333) -/

/-- What running a stream's operators over its frame needs. -/
def liveEnv (s : State) (w : Work) (t : Stream) (f : Frame) (img : Image) (p : EntryPt) : RunEnv :=
  { image := img, ep := p, key := (match w.key with | some k => k.key | none => 0), pos := w.drawPos, in0 := 0, in1 := 0, param := 0, ext := 0,
    gs := w.guards, mem := {}, frame := some (t.dtype, t.width, t.height, landedLines t f),
    enc := w.encBefore.getD (match w.kind with | .live i => (match Tbl.get? s.streams i with | some t => t.enc | none => t.enc) | _ => t.enc) }

/-- Every strip of the frame is ready. -/
def allReady (t : Stream) (f : Frame) : Bool := decide (f.ready.length = cdiv t.height 64)

/-- The slice records of a coded unit (R332). -/
def unitRecords (i : Nat) (w : Work) (codec : Nat) (o : EncOut) : List (List Byte) :=
  let n := o.slices.length
  (enum o.slices).map (fun p =>
    sliceRecord i (b2n (p.1 = 0) + 2 * b2n (p.1 + 1 = n) + 8 * b2n o.idr) codec w.counter o.index p.1 p.2.1 p.2.2)

/-- The channel stops: a refused write (1) or an error response (2) (R331, R338). -/
def stopChannel (k err : Nat) (s : State) : State :=
  let s1 := modChan k (fun c => { c with stopped := true, err }) s
  { s1 with codec := { s1.codec with evt := s1.codec.evt ||| 2 } }

/-- The PAD record that fills the ring up to its end, with the identity of the record that follows it (R332). -/
def padRecord (r : List Byte) (n : Nat) : List Byte :=
  sliceRecord (field r 4 2) 4 (byteAt r 7) (field r 8 8) (field r 0x10 4) 0 0 (List.replicate (n - 32) 0)

/-- Write one slice record into the channel's ring, after a read of CONSUMED (R331, R332). Where the ring has no room, the record and every
later one of the unit are dropped. -/
def writeSlice (k wid : Nat) (w : Work) (r : List Byte) (ext : ExtMem) (s : State) : State :=
  let c := s.chan k
  if c.stopped || c.stream.isNone then s
  else match guardCheck w.guards false (c.sstat + 8) 8 with
    | some line => stopChannel k 1 (refuse w.ctx false line s)
    | none =>
      let s0 := readTxs (workAttr w.ctx 0) (.fetched w.ctx) [(c.sstat + 8, 8)] s
      if extBad ext (c.sstat + 8) 8 then stopChannel k 2 (report1 (112 + portOf c.sstat) 2 0x19 w.ctx false s0)
      else
        let (ws, drop) := sliceWrites (2 ^ c.sliceLog2) (leNat (extRead ext (c.sstat + 8) 8)) (padRecord r) [r] c.produced
        if drop then
          let s1 := modWork wid (fun w => { w with slices := [], slicesDropped := true }) (modChan k (fun c => { c with drops := sat32 (c.drops + 1) }) s0)
          { s1 with codec := { s1.codec with evt := s1.codec.evt ||| 4 } }
        else match ws.findSome? (fun x => guardCheck w.guards true (c.slice + x.1) x.2.1.length) with
          | some line => stopChannel k 1 (refuse w.ctx true line s0)
          | none =>
            let refused := guardCheck w.guards true c.sstat 8
            modChan k (fun c => { c with produced := (match ws.getLast? with | some x => x.2.2 | none => c.produced) })
              (forEach ws (fun x s => transfer (workAttr w.ctx 0) (.slice k x.2.2 refused) (c.slice + x.1) x.2.1.length x.2.1 s) s0)

/-- The places of a channel's work area that a unit writes, with their bytes, and those that it reads: the reference pictures of both
replicas and their state (R331; log 111 for the order within the area). -/
def areaAccess (c : Channel) (b : List Byte) (o : EncOut) : List (Nat × List Byte) × List (Nat × Nat) :=
  let x := encBlock b
  let slot (replica turn : Nat) : Nat := c.work + (2 * replica + turn % 2) * x.need
  let pictures := if x.codec ≤ 1 then [0, 1].map (fun r => (slot r o.index, slotBytes (sessionMode x.w x.h) (cdiv x.depth 8) x.need (reconPlanes x o.after.ref))) else []
  (pictures ++ [0, 1].map (fun r => (c.work + 4 * x.need + 32768 * r, (Config.channelState r o.unit).take 32768)),
    if o.idr then [] else [0, 1].map (fun r => (slot r (o.index + 1), x.need)))

/-- The channel's work area is read and written for a unit, against the gathering's snapshot; a refusal stops the channel (R331). -/
def useArea (k wid : Nat) (w : Work) (b : List Byte) (o : EncOut) (ext : ExtMem) (s : State) : State :=
  let (ws, rs) := areaAccess (s.chan k) b o
  match (rs.findSome? (fun x => guardCheck w.guards false x.1 x.2)).map (fun l => (false, l)) <|>
      (ws.findSome? (fun x => guardCheck w.guards true x.1 x.2.length)).map (fun l => (true, l)) with
  | some (wr, line) => stopChannel k 1 (refuse w.ctx wr line s)
  | none =>
    let s1 := match rs.find? (fun x => extBad ext x.1 x.2) with
      | some x => hitWork wid (report1 (112 + portOf x.1) 2 0x19 w.ctx false s)
      | none => s
    forEach ws (fun x s => transfer (workAttr w.ctx 0) (.produced k) x.1 x.2.length x.2 s) (readTxs (workAttr w.ctx 0) (.area w.ctx) rs s1)

/-- A unit goes to its channel: its work area, and its slices, which wait for the replicas' comparison (R329, R331, R332). -/
def feedChannel (k i wid : Nat) (w : Work) (b : List Byte) (o : EncOut) (ext : ExtMem) (s : State) : State :=
  if (s.chan k).stream ≠ some i || (s.chan k).stopped then s
  else
    let s1 := useArea k wid w b o ext s
    if (s1.chan k).stopped || (s1.chan k).sliceLog2 = 0 || (encBlock b).sliceRows = 0 then s1
    else modWork wid (fun w => { w with slices := unitRecords i w (encBlock b).codec o, sliceNo := 0 }) s1

/-- The encode view of a gathering is coded once its frame is complete: the unit, the encoder's state, and the channel. A unit whose
earlier stages fail is not coded (R326). -/
def codeWork (ext : ExtMem) (wid : Nat) (s : State) : State :=
  match Tbl.get? s.works wid with
  | none => s
  | some w =>
    match liveRuns s w, w.frame, workImage s w with
    | some i, some f, some (img, p) =>
      match Tbl.get? s.streams i, p.encodeView img, encodeOf img p with
      | some t, some v, some (_, blk) =>
        if w.encBefore.isSome || w.strips.isEmpty || !allReady t f || mem w.shed v then s
        else
          let r := runEntry (liveEnv s w t f img p)
          let s1 := modWork wid (fun w => { w with encBefore := some t.enc }) s
          match r.enc with
          | none => modStream i (fun t => { t with enc := skipUnit blk t.enc }) s1
          | some (_, o) =>
            let s2 := countCodec { enc := r.enc } (modStream i (fun t => { t with enc := o.after }) s1)
            match channelOf img p with
            | none => s2
            | some k => feedChannel k i wid w blk o ext s2
      | _, _, _ => s
    | _, _, _ => s

/-- Code the units whose frames are complete. -/
def codeUnits (mem : ExtMem) (s : State) : State := forEach (s.works.map (·.1)) (codeWork mem) s

/-! ### Quire power and codec cores (R237, 03 R76-R79, 09 R329, R338) -/

/-- The quire holds resident coefficients or strips of an admitted LIVE binding (03 R77). -/
def quireProtected (s : State) (q : Nat) : Bool :=
  s.mem.segments.any (fun g => g.quire = q && (match Tbl.get? s.bindings g.binding with | some b => b.live | none => false)) ||
    s.works.any (fun x => (liveRuns s x.2).isSome && !x.2.strips.isEmpty &&
      (match Tbl.get? s.bindings x.2.binding with | some b => b.live && mem (b.quiresA ++ b.quiresB) q | none => false))

/-- The first stage at or after `k` that a barrier follows. -/
def barrierStage (img : Image) (k : Nat) : Nat → Nat
  | 0 => k
  | n + 1 => match img.stages[k]? with
    | some t => if t.barrier then k else barrierStage img (k + 1) n
    | none => k

/-- Stages of the stage list that a gathering runs now: of a best-effort one those up to the barrier, of a LIVE one each strip's. -/
def stagesNow (s : State) (w : Work) : List Nat :=
  match workImage s w with
  | none => []
  | some (img, p) =>
    if (liveRuns s w).isSome then (w.strips.filter (fun r => r.2 % 2 = 1)).map (fun r => p.firstStage + r.2 / 2)
    else if w.inStages && w.place.isSome then upto w.stage (barrierStage img w.stage img.stages.length + 1 - w.stage)
    else []

/-- A gathering's stages read a segment (13 R427). -/
def reads (s : State) (w : Work) (stages : List Nat) (g : Segment) : Bool :=
  g.binding = w.binding && g.gen = w.gen && (match workImage s w with
    | some (img, _) => stages.any (fun k => match img.stages[k]? with
      | some t => t.coeffFirst ≤ g.set && decide (g.set < t.coeffFirst + t.coeffRun)
      | none => false)
    | none => false)

/-- A stage that runs waits for a segment whose home is quire `q` and which is read from its source again (03 R77, 13 R429). -/
def feeds (s : State) (q : Nat) : Bool :=
  s.mem.segments.any (fun g => g.quire = q && g.reloading && s.works.any (fun x => reads s x.2 (stagesNow s x.2) g))

/-- The quire's store holds what a gathering that is not through its stages has staged (R237). -/
def staged (s : State) (q : Nat) : Bool := s.works.any (fun x => x.2.inStages && x.2.home == some q)

/-- Slots before its first booked one in which a GATED quire wakes: 6 us, and one slot more where the stagger of 03 R78 delays some of the
quires that wake together (R237). -/
def wakeSlots (s : State) (i : Nat) : Nat :=
  if 8 < ((upto 0 64).filter (fun q => (s.quire q).st == .gated && bookedWithin s q i 5)).length then 5 else 4

/-- One quire's state for slot `i`: booked within 2 slots, or within `wake` where it must wake from GATED, it is ON; else it rests, and is
GATED once it has been idle for 500 slots and holds nothing that is needed (R237, 03 R77). -/
def quireStep (i wake q : Nat) (s : State) : State :=
  let x := s.quire q
  let held := heldMask s q ≠ 0 || x.testing || s.mem.tokens.any (fun t => t.1 = q) || (feeds s q && mayWake s q)
  let soon := bookedWithin s q i (if x.st == .gated then wake else 3)
  let idle := modQuire q (fun x => { x with idle := min 500 (x.idle + 1) }) s
  if mem s.faults.retired q && (bookedOn s q).isEmpty && s.faults.migrations.all (·.src ≠ q) && !x.testing && !quireProtected s q then gateQuire q s
  else if held || soon then quireOn q s
  else if x.st == .on then modQuire q (fun x => { x with st := .retain }) idle
  else if x.st == .retain then (if 500 ≤ x.idle && !quireProtected s q && !staged s q then gateQuire q s else idle)
  else s

/-- Every quire. -/
def quireSteps (i : Nat) (s : State) : State := forEach (upto 0 64) (quireStep i (wakeSlots s i)) s

/-- The lowest `n` of a list of cores as a mask. -/
def coreMask (l : List Nat) (n : Nat) : Nat := ((l.take n).map (2 ^ ·)).sum

/-- Codec cores of a range that are in service. -/
def coresIn (s : State) (lo n : Nat) : List Nat := (upto lo n).filter (fun c => !mem s.faults.unitsRetired (16 + c))

/-- Cores booked for LIVE work, half of them in each group of four, and cores running best-effort work (R329, R338). -/
def coreStep (i : Nat) (s : State) : State :=
  let half := liveUnits s 2 i / 2
  let live := Nat.lor (coreMask (coresIn s 0 4) half) (coreMask (coresIn s 4 4) half)
  let rest := (coresIn s 0 8).filter (fun c => !bit live c)
  let liveBusy := s.works.any (fun x => (liveRuns s x.2).isSome && (match workImage s x.2 with
    | some (img, p) => x.2.strips.any (fun r => r.2 % 2 = 1 && (match img.stages[p.firstStage + r.2 / 2]? with | some t => t.unit = 2 | none => false))
    | none => false))
  let busy := Nat.lor (if liveBusy then live else 0) (coreMask rest (heldUnits s 2))
  let on := Nat.lor live busy
  let s1 := { s with codec := { s.codec with live := BitVec.ofNat 8 live, busy := BitVec.ofNat 8 busy, on := BitVec.ofNat 8 on } }
  { s1 with power := { s1.power with vclk := if on ≠ 0 then raiseClk s1.power.vclk else { s1.power.vclk with req := false } } }

/-- Bubbles of the slot: leaves of the quires that are neither spare nor retired which nothing reserves, in leaf-us (R235, 05 R171). -/
def countBubbles (i : Nat) (s : State) : State :=
  let n := ((workQuires s).map (fun q => 32 - popcount (reservedMask s q i 0))).sum
  { s with faults := { s.faults with nBubble := s.faults.nBubble + 2 * n } }

/-! ### A slot -/

/-- What a slot runs while press periods run. -/
def runSlot (mem : ExtMem) (s : State) : State :=
  let n := slotNo s s.now
  let i := slotIndex s
  let s1 := resumeUnits 3 i (resumeUnits 2 i (resumeUnits 1 i (resumeStages i s)))
  let s2 := codeUnits mem (startReplays i (startLive mem i s1))
  let s3 := govern mem n i (continueStages mem i (countBubbles i s2))
  coreStep i (quireSteps i s3)

/-- Aborts pass their boundary (06 R210). -/
def abortBoundaries (s : State) : State := forEach (s.rings.map (·.1)) (fun k => abortBoundary (k / 4) (k % 4)) s

/-- SLOT_BOUNDARY: the row's time must be a boundary of the grid, once (R223; log 48). -/
def slotBoundary (mem : ExtMem) (katFail : Bool) (s : State) : State :=
  let onGrid := s.press.phase ≤ s.now && decide ((s.now - s.press.phase) % 2000 = 0)
  if !(s.mainUp && s.faults.safe == .normal && onGrid) || s.press.slotAt == some s.now then s
  else
    let s1 := { droopSlot s with press := { (droopSlot s).press with slotAt := some s.now } }
    let s2 := katRun katFail (thermalRise (abortBoundaries s1))
    if s2.press.running && s2.faults.safe == .normal then runSlot mem s2 else s2

/-! ### Stage barriers (13 R422) -/

/-- Every segment that the stages of a gathering read has arrived: none of them is being read again (13 R422, R427). -/
def arrivedAll (s : State) (w : Work) (stages : List Nat) : Bool := s.mem.segments.all (fun g => !(g.reloading && reads s w stages g))

/-- The quires that a gathering's stage runs on. -/
def stageQuires (s : State) (w : Work) : List Nat :=
  match w.place with
  | some (q, _) => if q < 64 then [q] else []
  | none => match w.kind, Tbl.get? s.bindings w.binding with
    | .live _, some b => b.quiresA ++ b.quiresB
    | _, _ => []

/-- An armed injection into a quire store or the kettle ring meets the stage: one bit is corrected, two are not, and a hop's parity fails
where the stage takes resident coefficients (14 R490, R463). -/
def injectStage (wid : Nat) (w : Work) (s : State) : State :=
  let fi := s.faults.fi
  let q := fi.source - 16
  let here := fi.armed && 16 ≤ fi.source && mem (stageQuires s w) q
  let be := match w.kind with | .live _ => false | _ => true
  let fire (cls cause part : Nat) : State :=
    report [{ src := fi.source, cls, cause, detail := 0, injected := true, part }]
      { s with faults := { s.faults with fi := { fi with armed := false } } }
  if here && fi.mode = 2 then fire 1 1 0
  else if here && fi.mode = 3 then fire 2 2 (if be then wid + 1 else 0)
  else if fi.armed && fi.mode = 4 && 16 ≤ fi.source && s.mem.segments.any (fun g => g.binding = w.binding && g.gen = w.gen) then
    fire 2 3 (wid + 1)
  else s

/-- A best-effort stage has reached its barrier: the next stage waits for its place, and after the last one the sample's results and
folios are written. -/
def sampleBarrier (wid : Nat) (w : Work) (s : State) : State :=
  match workImage s w with
  | none => s
  | some (img, p) =>
    let next := barrierStage img w.stage img.stages.length + 1
    let s1 := modWork wid (fun w => { w with place := none, stage := next }) s
    if p.firstStage + p.stageRun ≤ next then finishSample wid s1 else s1

/-- STAGE_BARRIER: a stage of a gathering that runs has ended, for a LIVE gathering that of a strip (R224, 13 R422). -/
def stageBarrier (wid n : Nat) (s : State) : State :=
  match Tbl.get? s.works wid with
  | none => s
  | some w =>
    match w.kind with
    | .live _ =>
      match Tbl.get? w.strips n with
      | some v =>
        if v % 2 = 0 || !arrivedAll s w (upto (stageBase s w) (v / 2 + 1)) then s
        else modWork wid (fun w => { w with strips := Tbl.set w.strips n (v + 1) }) (injectStage wid w s)
      | none => s
    | .chain _ _ _ _ =>
      if w.inStages && w.ran && w.place.isSome && !w.suspended && w.pendingRd = 0 && arrivedAll s w (stagesNow s w) then
        (let s1 := injectStage wid w s
         match Tbl.get? s1.works wid with
         | some w' => sampleBarrier wid w' s1
         | none => s1)
      else s
    | _ => s

/-! ### Commands -/

/-- SLOT_BOUNDARY (R239). -/
def execSlotBoundary (dt : Nat) (mem : ExtMem) (katFail : Bool) (s : State) : Host.Outcome State Fault Refusal :=
  event (Instr.slotBoundary dt mem katFail).wf dt s (slotBoundary mem katFail)

/-- STAGE_BARRIER (13 R422). -/
def execStageBarrier (dt work strip : Nat) (s : State) : Host.Outcome State Fault Refusal :=
  event (Instr.stageBarrier dt work strip).wf dt s (stageBarrier work strip)

end Sys2Proof.Machine
end

