-- ==== Sys2Proof/Machine/Folios.lean ====
section
/-! DEFINITION. The spine's comparison of LIVE folios, replays and contained folios (01 R19; 07 R234; 09 R329; 14 R456, R457, R478,
R480). -/

namespace Sys2Proof.Machine

/-! ### Copies -/

/-- The bits of one folio that a fault-free replica produces (01 R25). -/
def goodFolio (s : State) (w : Work) (t : Stream) (f : Frame) (img : Image) (p : EntryPt) (index : Nat) : List Byte :=
  let env := liveEnv s w t f img p
  slice (payloadOf env (runEntry env) w.slicesDropped) (4096 * index) 4096

/-- A copy as it arrives; none while it is missing. -/
def copyBytes (c : Copy) (good : List Byte) : Option (List Byte) :=
  match c with
  | .good => some good
  | .bad l => some (slice l 0 good.length)
  | .missing => none

/-- The view that folio `index` of a stream's gathering belongs to. -/
def Work.viewOf (w : Work) (index : Nat) : Nat := match w.members with | m :: _ => viewOfFolio m.viewStart index | [] => 0

/-- The strip that a folio's replay counts against: the latest one that is through every stage (R234; log 55). -/
def folioStrip (s : State) (w : Work) : Option Nat :=
  match w.frame with
  | some f => ((f.ready.map (·.1)).filter (stripDone s w)).getLast?
  | none => none

/-- The comparison of a folio that is under way. -/
def Work.compare? (w : Work) (index : Nat) : Option FolioCmp := w.compares.find? (·.index = index)

/-- Keep a comparison. -/
def keepCompare (wid : Nat) (c : FolioCmp) : State → State :=
  modWork wid (fun w => { w with compares := w.compares.filter (·.index ≠ c.index) ++ [c] })

/-- A comparison is over. -/
def dropCompare (wid index : Nat) : State → State := modWork wid (fun w => { w with compares := w.compares.filter (·.index ≠ index) })

/-- A folio is released to memory; it is one of the latest strip that is through every stage (log 55). -/
def releaseFolio (wid index : Nat) (bytes : List Byte) (s : State) : State :=
  let owner := (Tbl.get? s.works wid).bind (folioStrip s)
  let s1 := modFrame wid (fun f => match owner with | some n => { f with owners := Tbl.set f.owners index n } | none => f) s
  putFolio wid index bytes (dropCompare wid index s1)

/-! ### Containment (R478) -/

/-- A folio is written as zeros, and its view is invalid with CONTAINED_FAULT. -/
def zeroContained (wid index : Nat) (s : State) : State :=
  releaseFolio wid index zeroFolio (modWork wid (fun w => { w with members := markFolio 8 index w.members }) s)

/-- A contained folio: the fault is on the replay quire where it reported one, else on both replicas. -/
def containFolio (wid : Nat) (c : FolioCmp) (stream : Nat) (replayQuire : Option Nat) (s : State) : State :=
  let fault (q : Nat) : FaultIn := { src := 16 + q, cls := 2, cause := 6, detail := stream, injected := c.injected }
  report (match replayQuire with | some q => [fault q] | none => [fault c.quireA, fault c.quireB]) (zeroContained wid c.index s)

/-- The replicas' units disagree in a folio or a slice: no replay; the encoder takes back its rate state and the next unit is IDR, and no
more slices follow (09 R329; log 56). -/
def containUnit (wid : Nat) (c : FolioCmp) (stream v : Nat) (s : State) : State :=
  let before := (Tbl.get? s.works wid).bind (·.encBefore)
  let again := match Tbl.get? s.works wid with | some w => w.members.any (fun m => mem m.invalid v) | none => true
  let index := match Tbl.get? s.works wid with
    | some w => if c.index < w.total then c.index else (match w.members with | m :: _ => (viewFolios m v).headD 0 | [] => 0)
    | none => c.index
  let s1 := zeroContained wid index (dropCompare wid c.index (modWork wid (fun w => { w with slices := [] }) s))
  if again then s1
  else
    let s2 := modStream stream (fun t => { t with enc := { before.getD t.enc with forceIdr := true } }) s1
    report [{ src := 96 + (coresIn s 0 4).headD 0, cls := 2, cause := 5, detail := stream, injected := c.injected }] s2

/-! ### Agreement and disagreement -/

/-- The two copies disagree, or one has stayed away: a replay is asked for, which starts in the first REPLAY slot of the binding at or after
the report, or the folio is contained (R234, R478). -/
def disagree (wid : Nat) (c : FolioCmp) (s : State) : State :=
  match Tbl.get? s.works wid with
  | none => s
  | some w =>
    match w.kind, workImage s w with
    | .live i, some (img, p) =>
      let v := if w.total ≤ c.index then w.views - 1 else w.viewOf c.index
      if p.encodeView img = some v then containUnit wid c i v s
      else
        let n := (folioStrip s w).getD 0
        let spare := (Tbl.get? s.bindings w.binding).bind (·.spare)
        let ready := match spare, Tbl.get? s.bindings w.binding with
          | some q, some b => mem s.press.spareSet q && !mem s.faults.retired q && !(s.quire q).testing && b.table.any (·.replay)
          | _, _ => false
        if !ready || 1 ≤ Tbl.getD w.replays n 0 then containFolio wid c i none s
        else
          let c1 := { c with replay := true }
          startReplay wid (slotIndex s) c1 (keepCompare wid c1 (modWork wid (fun w => { w with replays := Tbl.set w.replays n 1 }) s))
    | _, _ => s

/-- Both copies are there: on agreement replica A's copy is written (R456). -/
def judge (wid : Nat) (c : FolioCmp) (s : State) : State :=
  match c.copyA, c.copyB with
  | some a, some b => if crc32c a = crc32c b && !c.injected then releaseFolio wid c.index a s else disagree wid c (keepCompare wid c s)
  | none, none => s
  | _, _ => keepCompare wid c s

/-- The next LIVE folio meets an armed injection into replica B's CRC (R490). -/
def takeInjection (s : State) : State × Bool :=
  if s.faults.fi.armed && s.faults.fi.mode = 1 then ({ s with faults := { s.faults with fi := { s.faults.fi with armed := false } } }, true)
  else (s, false)

/-- Two copies have arrived, or were there before. -/
def FolioCmp.withCopies (c : FolioCmp) (a b : Copy) (good : List Byte) (injected : Bool) : FolioCmp :=
  { c with
    copyA := (match c.copyA with | some x => some x | none => copyBytes a good),
    copyB := (match c.copyB with | some x => some x | none => copyBytes b good), injected := c.injected || injected }

/-- A comparison that begins now on two quires. -/
def newCompare (s : State) (index qa qb : Nat) : FolioCmp :=
  { index, copyA := none, copyB := none, quireA := qa, quireB := qb, replay := false, late := false, since := s.now }

/-- Copies of the next slice of a coded unit reach the spine: on agreement its record is written (R329, 09 R332; log 115). -/
def sliceCompare (wid k : Nat) (w : Work) (stream : Nat) (img : Image) (p : EntryPt) (a b : Copy) (mem : ExtMem) (s : State) : State :=
  match w.slices with
  | [] => s
  | r :: rest =>
    if w.sliceNo ≠ k then s
    else
      let index := w.total + k
      let c := ((w.compare? index).getD (newCompare s index 0 0)).withCopies a b r false
      match c.copyA, c.copyB with
      | some x, some y =>
        if crc32c x = crc32c y then
          (let s1 := dropCompare wid index (modWork wid (fun w => { w with slices := rest, sliceNo := k + 1 }) s)
           match channelOf img p with | some ch => writeSlice ch wid w x mem s1 | none => s1)
        else containUnit wid c stream (w.views - 1) s
      | none, none => s
      | _, _ => keepCompare wid c s

/-- Copies of a folio, or with a number behind the folios those of a slice, reach the spine (R456, 09 R329). The folios of a coded unit
follow its slices. -/
def folioCompare (wid index : Nat) (a b : Copy) (rel : Nat) (ext : ExtMem) (s : State) : State :=
  match Tbl.get? s.works wid with
  | none => s
  | some w =>
    match liveRuns s w, w.frame, workImage s w, Tbl.get? s.bindings w.binding with
    | some i, some f, some (img, p), some bd =>
      match Tbl.get? s.streams i with
      | none => s
      | some t =>
        let v := w.viewOf index
        let old := w.compare? index
        let uncoded := p.encodeView img = some v && (w.encBefore.isNone || !w.slices.isEmpty)
        let pending := match old with | some c => c.replay | none => false
        if w.total ≤ index then (if pending then s else sliceCompare wid (index - w.total) w i img p a b ext s)
        else if w.hasFolio index || mem w.shed v || uncoded || pending || (folioStrip s w).isNone || bd.quiresA.length ≤ rel then s
        else
          let good := goodFolio s w t f img p index
          let (s1, inj) := takeInjection s
          judge wid ((old.getD (newCompare s index (bd.quiresA.getD rel 0) (bd.quiresB.getD rel 0))).withCopies a b good inj) s1
    | _, _, _, _ => s

/-- A copy is still missing one slot after the other arrived (R456). -/
def folioTimeout (wid index : Nat) (s : State) : State :=
  match (Tbl.get? s.works wid).bind (fun w => (liveRuns s w).bind (fun _ => w.compare? index)) with
  | some c =>
    if c.replay || c.copyA.isSome == c.copyB.isSome || decide (s.now < c.since + 2000) then s
    else disagree wid { c with late := true } (keepCompare wid { c with late := true } s)
  | none => s

/-! ### Replays (R457) -/

/-- A mismatch attributed to a quire: CORRECTED, and with LIMIT of them within WINDOW_MS the quire is retired (R457, R480). -/
def blame (q stream : Nat) (injected : Bool) (s : State) : State :=
  let s1 := report [{ src := 16 + q, cls := 1, cause := 5, detail := stream, injected }] s
  let recent := s1.faults.mismatches.filter (fun m => decide (s1.now ≤ m.2 + 1000000 * s1.faults.mismatchWindow))
  let l := recent ++ [(q, s1.now)]
  let s2 := { s1 with faults := { s1.faults with mismatches := l } }
  if s2.faults.mismatchLimit ≤ (l.filter (fun m => m.1 = q)).length then retireQuire q (raiseFatal (16 + q) 5 stream s2) else s2

/-- A replay finishes (R457, R478). -/
def replayDone (wid index : Nat) (copy : Copy) (quireFault : Bool) (s : State) : State :=
  match Tbl.get? s.works wid with
  | none => s
  | some w =>
    match liveRuns s w, w.frame, workImage s w, w.compare? index with
    | some i, some f, some (img, p), some c =>
      match Tbl.get? s.streams i, (Tbl.get? s.bindings w.binding).bind (·.spare) with
      | some t, some q =>
        if !c.replaying then s
        else if quireFault then containFolio wid c i (some q) s
        else match copyBytes copy (goodFolio s w t f img p index) with
          | none => containFolio wid c i none s
          | some r =>
            let same (x : Option (List Byte)) : Bool := match x with | some l => crc32c l = crc32c r | none => false
            if same c.copyA then blame c.quireB i c.injected (releaseFolio wid index r s)
            else if same c.copyB then blame c.quireA i c.injected (releaseFolio wid index r s)
            else containFolio wid c i none s
      | _, _ => s
    | _, _, _, _ => s

/-! ### Commands -/

/-- FOLIO_COMPARE (R456). -/
def execFolioCompare (dt work index : Nat) (a b : Copy) (rel : CopyFrom) (s : State) : Host.Outcome State Fault Refusal :=
  event (Instr.folioCompare dt work index a b rel).wf dt s (folioCompare work index a b rel.rel rel.mem)

/-- FOLIO_COMPARE_TIMEOUT (R456). -/
def execFolioCompareTimeout (dt work index : Nat) (s : State) : Host.Outcome State Fault Refusal :=
  event (Instr.folioCompareTimeout dt work index).wf dt s (folioTimeout work index)

/-- REPLAY_DONE (R457). -/
def execReplayDone (dt work index : Nat) (copy : Copy) (quireFault : Bool) (s : State) : Host.Outcome State Fault Refusal :=
  event (Instr.replayDone dt work index copy quireFault).wf dt s (replayDone work index copy quireFault)

end Sys2Proof.Machine
end

