-- ==== Sys2Proof/Machine/I3c.lean ====
section
/-! DEFINITION. The I3C management target: addressing, the management window, its commands and its IBIs (16 R527-R536). How
the bus addresses a target is the I3C standard's (log 28). -/

namespace Sys2Proof.Machine

/-! ### Addressing and CCCs (16 R527) -/

/-- The target answers on the bus: keeper initialisation is complete (02 R56, 16 R534). -/
def i3cUp (s : State) : Bool := s.chip.porstN && s.chip.keeperInit

/-- The target does not acknowledge. -/
def i3cNack (s : State) : State := { s with mgmt := { s.mgmt with nack := true } }

/-- The target acknowledges and returns bytes. -/
def i3cReply (bs : List Byte) (s : State) : State := { s with mgmt := { s.mgmt with nack := false, rdata := bs } }

/-- A transfer to the dynamic address: acknowledged while the target holds one. -/
def i3cDirect (f : State → State) (s : State) : State := if i3cUp s && s.mgmt.dynAddr.isSome then f s else i3cNack s

/-- A broadcast CCC, which reaches the target whatever its address (a direct one reaches it only by its address). -/
def i3cBroadcast (f : State → State) (s : State) : State := if i3cUp s then f s else i3cNack s

/-- The dynamic address becomes `a`. -/
def giveAddr (a : Nat) (s : State) : State := i3cReply [] { s with mgmt := { s.mgmt with dynAddr := some a } }

/-- ENTDAA and SETDASA address a target that holds no dynamic address. -/
def i3cAssign (ok : Bool) (a : Nat) (s : State) : State := if i3cUp s && s.mgmt.dynAddr.isNone && ok then giveAddr a s else i3cNack s

/-- The provisional ID. -/
def provisionalId (s : State) : Nat := 2 ^ 32 + 0x5D47 * 2 ^ 16 + s.chip.instId

/-- Pending IBIs, 0-3. -/
def ibiCount (s : State) : Nat := b2n s.mgmt.ibiFault.isSome + b2n s.mgmt.ibiSafe + b2n s.mgmt.ibiCmd.isSome

/-- GETSTATUS: the count and the protocol error, which the read clears. -/
def getStatus (s : State) : State :=
  i3cReply (beBytes (ibiCount s + flag 5 s.mgmt.protErr) 2) { s with mgmt := { s.mgmt with protErr := false } }

/-! ### The management window (16 R528, R529) -/

/-- MG_STATE. -/
def mgState (s : State) : Nat :=
  pwrCode s + flag 3 (!s.fwRuns) + fld 4 s.faults.safe.code + flag 6 (!s.faults.pinLow) + fld 8 s.faults.pinClass +
    fld 10 (bits (ccStat s) 0 4)

/-- MG_THERM: THERM_STAT, or while VDD_ARRAY is off the last reading with STALE. -/
def mgTherm (s : State) : Nat := if s.mainUp && s.power.array.pg then thermStat s else flag 31 true + s.power.thermKept

/-- MG_CMD_STAT. -/
def mgCmdStat (s : State) : Nat := s.mgmt.status + flag 8 s.mgmt.busy + flag 9 s.mgmt.lost + fld 16 s.mgmt.lastCmd

/-- The 256 bytes of the window. -/
def windowBytes (s : State) : List Byte :=
  let w (v : Nat) := leBytes v 4
  w 0x00020100 ++ w (mgState s) ++ w (faultStat s) ++ w (firstInfo s) ++ w (firstDetail s) ++ w (mgTherm s) ++ w (supplyStat s) ++
    w (tbStat s) ++ leBytes s.mgmt.timeLatch 8 ++ leBytes 0 8 ++ (upto 0 4).flatMap (fun k => w (stickyWord s k)) ++
    (upto 0 8).flatMap (fun k => w (recClassWord s k)) ++ leBytes s.mgmt.cmd 1 ++ leBytes s.mgmt.region 1 ++
    leBytes s.mgmt.record 2 ++ w (mgCmdStat s) ++ List.replicate 24 0 ++ slice s.mgmt.kdata 0 52 ++ List.replicate 76 0

/-- `n` bytes of the window from an offset, modulo 256. -/
def windowRead (s : State) (off n : Nat) : List Byte := (upto off n).map (fun a => (windowBytes s).getD (a % 256) 0)

/-- One written byte of the window; only MG_CMD, MG_REGION, MG_RECORD and MG_KDATA take it. -/
def windowByte (a : Nat) (b : Byte) (g : Mgmt) : Mgmt :=
  match a with
  | 0x60 => { g with cmd := b.toNat }
  | 0x61 => { g with region := b.toNat }
  | 0x62 => { g with record := g.record / 256 * 256 + b.toNat }
  | 0x63 => { g with record := b.toNat * 256 + g.record % 256 }
  | _ => if 0x80 ≤ a && a < 0xB4 then { g with kdata := modNth g.kdata (a - 0x80) (fun _ => b) } else g

/-- The bytes of a write from an offset, modulo 256. -/
def windowWrite : Nat → List Byte → Mgmt → Mgmt
  | _, [], g => g
  | a, b :: t, g => windowWrite (a + 1) t (windowByte (a % 256) b g)

/-! ### Commands (16 R530, R531) -/

/-- A command ends with a status. -/
def endMgCmd (status : Nat) (s : State) : State :=
  let g := s.mgmt
  { s with mgmt := { g with
    status, busy := false,
    ibiCmd := if g.ibiOnCmd && g.enint && g.dynAddr.isSome then some (g.lastCmd, status) else g.ibiCmd } }

/-- A command ends successfully and sets its bit of MGMT_EVT. -/
def mgDone (evtBit : Nat) (s : State) : State :=
  endMgCmd 0 { s with mgmt := { s.mgmt with evt := s.mgmt.evt ||| BitVec.ofNat 4 (2 ^ evtBit) } }

/-- The codes that are commands. -/
def mgKnown (c : Nat) : Bool := c = 0x01 || c = 0x02 || c = 0x10 || c = 0x11

/-- A write has included MG_CMD. -/
def acceptMgCmd (s : State) : State :=
  let g := s.mgmt
  if g.busy then { s with mgmt := { g with lost := true } }
  else
    let s1 := { s with mgmt := { g with lost := false, lastCmd := g.cmd, busy := true } }
    if mgKnown g.cmd then s1 else endMgCmd 0x12 s1

/-- A private write: nothing unless it was received whole (16 R528, 03 R96). -/
def privateWrite (bytes : List Byte) (parityErr overrun : Bool) (s : State) : State :=
  let s := i3cReply [] s
  if parityErr || overrun then
    let s1 := { s with mgmt := { s.mgmt with protErr := true } }
    if overrun then report1 120 1 0x11 0 false { s1 with power := { s1.power with ovrRx := true } } else s1
  else match bytes with
    | [] => s
    | p :: data =>
      let a := p.toNat
      let g := windowWrite a data s.mgmt
      let s1 := { s with mgmt := { g with ptr := (a + data.length) % 256 } }
      if (upto a data.length).any (fun x => x % 256 = 0x60) then acceptMgCmd s1 else s1

/-- Bytes that go out before an underrun ends a read of `n` bytes early: fewer than `n`, a free number (03 R96; log 88). -/
def readEnd (s : State) (n : Nat) (underrun : Bool) : Nat := if underrun then Config.freeNat s.freeNo % max 1 n else n

/-- A private read of up to 8 bytes from PTR, which advances past the last byte transferred; an underrun ends it early (16 R528, 03 R96). -/
def privateRead (n : Nat) (underrun : Bool) (s : State) : State :=
  let k := readEnd s n underrun
  let s0 := if s.mgmt.ptr = 0x20 then { s with mgmt := { s.mgmt with timeLatch := s.now } } else s
  let s1 := i3cReply (windowRead s0 s0.mgmt.ptr k) { s0 with mgmt := { s0.mgmt with ptr := (s0.mgmt.ptr + k) % 256 } }
  if underrun then report1 120 1 0x11 0 false (useFree 1 { s1 with power := { s1.power with ovrTx := true } }) else s1

/-- The command `c` that the management port has accepted runs. -/
def mgCommand (c : Nat) (f : State → State) (s : State) : State :=
  if i3cUp s && s.mgmt.busy && s.mgmt.lastCmd = c then f s else s

/-- A keep-store access of the management port: it waits for SCAN_DONE and PG_MRAM, and in KEEP the keeper raises
RAIL_MRAM_REQ for it (16 R530). -/
def mgKeep (f : State → State) (s : State) : State :=
  if !s.power.mram.req then { s with power := { s.power with mram := { s.power.mram with req := true } } }
  else if !s.keep.scanDone || !s.power.mram.pg then s
  else f (if s.power.state == .keep then { s with mgmt := { s.mgmt with mramUse := some s.now } } else s)

/-- KREAD. -/
def mgRead (s : State) : State :=
  let g := s.mgmt
  if !recordOk g.region g.record then endMgCmd 5 s
  else mgKeep (fun s => endMgCmd 0 { s with mgmt := { s.mgmt with kdata := readRecord s (recordSlot g.region g.record) } }) s

/-- The end of a KWRITE whose record write has ended. -/
def mgWriteEnd (r : KRes) (s : State) : State :=
  match r with
  | .done => mgDone 3 s
  | .low => endMgCmd 0x0E s
  | .off => endMgCmd 0x10 s
  | .waits => s

/-- KWRITE, under the rules of KEEP_WRITE (05 R172). -/
def mgWrite (out : KOut) (s : State) : State :=
  let g := s.mgmt
  if s.keep.waiting.any (·.origin == .i3c) then s
  else if !g.permitKwrite then endMgCmd 0x10 s
  else if !recordOk g.region g.record then endMgCmd 5 s
  else mgKeep (fun s =>
    if !(g.region = 3 || (g.region = 4 && !s.keep.region4Used)) then endMgCmd 0x10 s
    else
      let r := requestWrite .i3c (recordSlot g.region g.record) g.kdata out s
      mgWriteEnd r.1 r.2) s

/-- WAKE: a wake cause in KEEP, without effect elsewhere (log 29). -/
def mgWake (s : State) : State :=
  if !s.mgmt.permitWake then endMgCmd 0x10 s
  else if s.power.state == .keep then mgDone 1 (wakeCauseSeen 2 s)
  else endMgCmd 0 s

/-- RESTART: a control restart; none while one is under way (log 29), BUSY while the main domain is down. -/
def mgRestart (s : State) : State :=
  if !s.mgmt.permitRestart then endMgCmd 0x10 s
  else if !s.mainUp then endMgCmd 0x0D s
  else if s.control.restarting then endMgCmd 0 s
  else mgDone 2 (controlRestart 0x42 false s)

/-! ### IBIs (16 R532) -/

/-- The pending IBI of the lowest order is sent; its reason is no longer pending. -/
def sendIbi (s : State) : State :=
  let g := s.mgmt
  match g.ibiFault with
  | some e => { s with mgmt := { g with ibiFault := none, ibiSent := 0xA1 :: leBytes (infoWord e) 4 } }
  | none =>
    if g.ibiSafe then { s with mgmt := { g with ibiSafe := false, ibiSent := 0xA2 :: leBytes (safeStat s) 4 } }
    else match g.ibiCmd with
      | some (c, st) => { s with mgmt := { g with ibiCmd := none, ibiSent := 0xA3 :: (leBytes c 1 ++ leBytes st 1) } }
      | none => s

/-- An IBI is requested; a NACK leaves it pending. -/
def ibiTurn (nacked : Bool) (s : State) : State :=
  if !i3cUp s || !s.mgmt.enint || s.mgmt.dynAddr.isNone || nacked then s else sendIbi s

/-! ### Commands -/

/-- ENTDAA (16 R527). -/
def execEntdaa (dt addr : Nat) (s : State) : Host.Outcome State Fault Refusal :=
  event (Instr.entdaa dt addr).wf dt s (i3cAssign true addr)

/-- What SETDASA does, where it can happen. -/
def onSetdasa (saddr addr : Nat) (s : State) : State :=
  i3cAssign (saddr = s.chip.i3cSaddr) addr s

/-- SETDASA (16 R527). -/
def execSetdasa (dt saddr addr : Nat) (s : State) : Host.Outcome State Fault Refusal :=
  event (Instr.setdasa dt saddr addr).wf dt s (onSetdasa saddr addr)

/-- SETNEWDA (16 R527). -/
def execSetnewda (dt addr : Nat) (s : State) : Host.Outcome State Fault Refusal :=
  event (Instr.setnewda dt addr).wf dt s (i3cDirect (giveAddr addr))

/-- What RSTDAA does, where it can happen. -/
def onRstdaa (s : State) : State :=
  if i3cUp s then loseAddr s else s

/-- RSTDAA (16 R527). -/
def execRstdaa (dt : Nat) (s : State) : Host.Outcome State Fault Refusal :=
  event (Instr.rstdaa dt).wf dt s onRstdaa

/-- ENEC: only ENINT has an effect (16 R527). -/
def execEnec (dt : Nat) (enint : Bool) (s : State) : Host.Outcome State Fault Refusal :=
  event (Instr.enec dt enint).wf dt s (i3cBroadcast (fun s => i3cReply [] { s with mgmt := { s.mgmt with enint := s.mgmt.enint || enint } }))

/-- DISEC: only ENINT has an effect (16 R527). -/
def execDisec (dt : Nat) (enint : Bool) (s : State) : Host.Outcome State Fault Refusal :=
  event (Instr.disec dt enint).wf dt s (i3cBroadcast (fun s => i3cReply [] { s with mgmt := { s.mgmt with enint := s.mgmt.enint && !enint } }))

/-- GETPID (16 R527). -/
def execGetpid (dt : Nat) (s : State) : Host.Outcome State Fault Refusal :=
  event (Instr.getpid dt).wf dt s (i3cDirect (fun s => i3cReply (beBytes (provisionalId s) 6) s))

/-- GETBCR (16 R527). -/
def execGetbcr (dt : Nat) (s : State) : Host.Outcome State Fault Refusal :=
  event (Instr.getbcr dt).wf dt s (i3cDirect (i3cReply [0x06]))

/-- GETDCR (16 R527). -/
def execGetdcr (dt : Nat) (s : State) : Host.Outcome State Fault Refusal :=
  event (Instr.getdcr dt).wf dt s (i3cDirect (i3cReply [0x00]))

/-- GETMWL (16 R527). -/
def execGetmwl (dt : Nat) (s : State) : Host.Outcome State Fault Refusal :=
  event (Instr.getmwl dt).wf dt s (i3cDirect (i3cReply (beBytes 8 2)))

/-- GETMRL (16 R527). -/
def execGetmrl (dt : Nat) (s : State) : Host.Outcome State Fault Refusal :=
  event (Instr.getmrl dt).wf dt s (i3cDirect (i3cReply (beBytes 8 2 ++ [5])))

/-- GETSTATUS (16 R527). -/
def execGetstatus (dt : Nat) (s : State) : Host.Outcome State Fault Refusal :=
  event (Instr.getstatus dt).wf dt s (i3cDirect getStatus)

/-- I3C_PRIVATE_WRITE (16 R528). -/
def execI3cPrivateWrite (dt : Nat) (bytes : List Byte) (parityErr overrun : Bool) (s : State) : Host.Outcome State Fault Refusal :=
  event (Instr.i3cPrivateWrite dt bytes parityErr overrun).wf dt s (i3cDirect (privateWrite bytes parityErr overrun))

/-- I3C_PRIVATE_READ (16 R528). -/
def execI3cPrivateRead (dt n : Nat) (underrun : Bool) (s : State) : Host.Outcome State Fault Refusal :=
  event (Instr.i3cPrivateRead dt n underrun).wf dt s (i3cDirect (privateRead n underrun))

/-- KREAD (16 R530). -/
def execKread (dt : Nat) (s : State) : Host.Outcome State Fault Refusal :=
  event (Instr.kread dt).wf dt s (mgCommand 0x01 mgRead)

/-- KWRITE (16 R530). -/
def execKwrite (dt : Nat) (out : KOut) (s : State) : Host.Outcome State Fault Refusal :=
  event (Instr.kwrite dt out).wf dt s (mgCommand 0x02 (mgWrite out))

/-- WAKE (16 R530). -/
def execWake (dt : Nat) (s : State) : Host.Outcome State Fault Refusal :=
  event (Instr.wake dt).wf dt s (mgCommand 0x10 mgWake)

/-- RESTART (16 R530). -/
def execRestart (dt : Nat) (s : State) : Host.Outcome State Fault Refusal :=
  event (Instr.restart dt).wf dt s (mgCommand 0x11 mgRestart)

/-- IBI_SEND (16 R532). -/
def execIbiSend (dt : Nat) (nacked : Bool) (s : State) : Host.Outcome State Fault Refusal :=
  event (Instr.ibiSend dt nacked).wf dt s (ibiTurn nacked)

end Sys2Proof.Machine
end

