-- ==== Sys2Proof/Machine/KeepCmds.lean ====
section
/-! DEFINITION. The keep-store's own events: the boot scan, waiting record writes, the journal, and the release of its rail
(15 R497-R509, 16 R530). -/

namespace Sys2Proof.Machine

/-- The journal's record write has ended (15 R503). -/
def journalEnd (lost : Nat) (r : KRes) (s : State) : State :=
  match r with
  | .done => loseEntries lost .ok { s with keep := { s.keep with jbuf := [], jretry := false } }
  | .low => { s with keep := { s.keep with jretry := true } }
  | _ => s

/-- A waiting request has ended: its origin is told (05 R172, R174; 04 R106, R123; 15 R503, R507; 16 R530). -/
def finishKeep (q : KReq) (lost : Nat) (r : KRes) (s : State) : State :=
  match q.origin with
  | .mailbox box => answerKeep box r s
  | .i3c => mgWriteEnd r s
  | .journal => if 128 ≤ q.slot && q.slot < 1664 && s.keep.compact.isNone then journalEnd lost r s else s
  | .confirm => (match r with
    | .done => if q.slot < 64 then recordConfirmed s else confirmDone s
    | _ => s)
  | .activate box => activated box r s
  | .challenge level => challengeCommitted level r s

/-- The oldest waiting request is carried out once no warning holds, or refused (15 R498, R507). -/
def keepTurn (out : KOut) (s : State) : State :=
  match s.keep.waiting with
  | [] => s
  | q :: t =>
    let s1 := { s with keep := { s.keep with waiting := t } }
    let lost := overwritten s.keep
    if s.keep.refuses then finishKeep q lost .off s1
    else if mramDown s then finishKeep q lost .low (lowVoltage s1)
    else if s.power.mram.warn then s
    else
      let r := doWrite q.slot q.data out s1
      finishKeep q lost r.1 r.2

/-- The oldest waiting request has waited 200 us under the warning (15 R507). -/
def keepTimeout (s : State) : State :=
  match s.keep.waiting with
  | [] => s
  | q :: t =>
    if s.power.mram.warn && q.time + 200000 ≤ s.now then
      finishKeep q 0 .low (lowVoltage { s with keep := { s.keep with waiting := t } })
    else s

/-- In KEEP, 1 ms after the last access from the management port, RAIL_MRAM_REQ falls (16 R530). -/
def mramRelease (s : State) : State :=
  match s.mgmt.mramUse with
  | some t =>
    if s.power.state == .keep && t + 1000000 ≤ s.now && s.keep.waiting.isEmpty then
      { s with power := { s.power with mram := { s.power.mram with req := false } }, mgmt := { s.mgmt with mramUse := none } }
    else s
  | none => s

/-- KEEP_SCAN (15 R505). -/
def execKeepScan (dt : Nat) (corrected bad : List Nat) (s : State) : Host.Outcome State Fault Refusal :=
  event (Instr.keepScan dt corrected bad).wf dt s (keepScan corrected bad)

/-- KEEP_RECORD_WRITE (15 R497). -/
def execKeepRecordWrite (dt : Nat) (out : KOut) (s : State) : Host.Outcome State Fault Refusal :=
  event (Instr.keepRecordWrite dt out).wf dt s (keepTurn out)

/-- KEEP_WARN_TIMEOUT (15 R507). -/
def execKeepWarnTimeout (dt : Nat) (s : State) : Host.Outcome State Fault Refusal :=
  event (Instr.keepWarnTimeout dt).wf dt s keepTimeout

/-- JOURNAL_APPEND (15 R503). -/
def execJournalAppend (dt : Nat) (outs : List KOut) (s : State) : Host.Outcome State Fault Refusal :=
  event (Instr.journalAppend dt outs).wf dt s (journalAppend outs)

/-- JOURNAL_RETRY (15 R503). -/
def execJournalRetry (dt : Nat) (outs : List KOut) (s : State) : Host.Outcome State Fault Refusal :=
  event (Instr.journalRetry dt outs).wf dt s (journalRetry outs)

/-- JOURNAL_COMPACTION (15 R504). -/
def execJournalCompaction (dt : Nat) (outs : List KOut) (s : State) : Host.Outcome State Fault Refusal :=
  event (Instr.journalCompaction dt outs).wf dt s (compactStep outs)

/-- MRAM_RAIL_RELEASE (16 R530). -/
def execMramRailRelease (dt : Nat) (s : State) : Host.Outcome State Fault Refusal :=
  event (Instr.mramRailRelease dt).wf dt s mramRelease

end Sys2Proof.Machine
end

