-- ==== Sys2Proof/Machine/Memory.lean ====
section
/-! DEFINITION. What comes back from the memory ports: read beats, write responses and time-outs, and the regulator's refill
(02 R33-R38, R545; 01 R21; 06 R188, R191, R206, R213; 08 R297, R300; 09 R331, R332; 13 R436, R442; 16 R521). -/

namespace Sys2Proof.Machine

/-! ### Faults of a port -/

/-- A fault that a transaction causes on source 112 + n: its context is the DETAIL, and a context's work of class 1-3 is best-effort
(R38, R545, 14 R554). -/
def txFault (x : Tx) (cause : Nat) (s : State) : State :=
  report1 (112 + x.port) 2 cause (if x.sys then 0 else x.ctx) (!x.sys && decide (1 ≤ x.cls)) s

/-- A beat or a response whose tag is not outstanding in its direction (R38). -/
def unknownTag (port : Nat) (s : State) : State := report1 (112 + port) 3 0x1B 0 false s

/-! ### Reads -/

/-- Lines of a fetch burst arrive: the beat's number, its bytes and whether it failed. -/
def fetchLine (c n count : Nat) (bytes : List Byte) (bad : Bool) : State → State :=
  modRing c n (fun r => { r with arrived := r.arrived ++ [{ count, bytes := slice bytes 0 64, bad }] })

/-- A work's input read is answered: one transaction fewer keeps its stages waiting. -/
def inputRead (wid : Nat) : State → State := modWork wid (fun w => { w with pendingRd := w.pendingRd - 1 })

/-- An input read has failed: the entry, or the whole chain, completes CONTAINED_FAULT (R38). -/
def inputFailed (wid : Nat) : State → State := endSample wid 0 8 0

/-- A lookup's read is answered: with an error the entry is evicted and the reader fails (13 R444); the last read unpins (R442). -/
def lookupRead (wid chunk : Nat) (bad last : Bool) (s : State) : State :=
  if bad then inputFailed wid (hideShelf (fun x => x.chunks.head? = some chunk) s)
  else if last then sweepShelf (inputRead wid s)
  else s

/-- One read data beat. Poison in bytes the work uses, and error responses, reach the work (R38). R34 has the beats of a tag return in
order from 0 with LAST on the last one and gives no reaction to any other beat: the model ignores such a beat (DESIGN CHOICE, log 95). -/
def readBeat (port tag : Nat) (data : List Byte) (beat : Nat) (last : Bool) (poison resp : Nat) (s : State) : State :=
  match findTx s port tag with
  | none => unknownTag port s
  | some x =>
    if !x.rd then unknownTag port s
    else if beat ≠ x.beats || last != (beat + 1 = x.lines) then s
    else
      let bad := x.poisoned beat poison || resp ≠ 0
      let s1 := if last then dropTx x.id s
        else { s with txs := s.txs.map (fun y => if y.id = x.id then { y with beats := beat + 1 } else y) }
      let s2 := if x.timedOut then s1
        else match x.purpose with
          | .fetch c n count _ => when bad (txFault x 0x19) (fetchLine c n (count + beat) data bad s1)
          | .input wid => if bad then inputFailed wid (txFault x 0x19 s1) else if last then inputRead wid s1 else s1
          | .lookup wid k => lookupRead wid k bad last (when bad (txFault x 0x19) s1)
          | .fetched _ => when bad (txFault x 0x19) s1
          | .packet c => when bad (pktMemErr c) s1
          | _ => s1
      pump s2

/-! ### Write responses -/

/-- A gathering has one transaction fewer outstanding. -/
def answered (wid : Nat) : State → State := modWork wid (fun w => { w with pendingTx := w.pendingTx - 1 })

/-- A status applies to the whole gathering from now on. -/
def addStatus (wid status : Nat) : State → State := modWork wid (fun w => { w with statuses := status :: w.statuses })

/-- The zero write is answered: the folios that wait are presented (14 R454). An error marks the gathering (log 57). -/
def zeroDone (wid : Nat) (err : Bool) (s : State) : State :=
  match Tbl.get? s.works wid with
  | some w =>
    if w.phase == .zeroing then
      tryColophon wid (flushFolios wid (when err (addStatus wid 8) (modWork wid (fun w => { w with phase := .working }) (answered wid s))))
    else answered wid s
  | none => s

/-- A folio is answered; an error clears the VALID bit of its view (R38). -/
def folioDone (wid index : Nat) (err : Bool) (s : State) : State :=
  let s1 := modWork wid (fun w => { w with tFolios := some s.now, members := if err then markFolio 8 index w.members else w.members }) (answered wid s)
  let s2 := modFrame wid (fun f => match Tbl.get? f.owners index with | some n => { f with answers := Tbl.set f.answers n s.now } | none => f) s1
  tryColophon wid (settleStrips wid s2)

/-- The result of an entry is answered (09 R306). -/
def resultDone (wid : Nat) (err : Bool) (s : State) : State :=
  let s1 := when err (addStatus wid 8) (answered wid s)
  match Tbl.get? s1.works wid with
  | some w =>
    (match w.fail with
     | some (status, detail) => if w.pendingTx = 0 then endSample wid w.failMember status detail s1 else s1
     | none => tryColophon wid s1)
  | none => s1

/-- The smallest PRODUCED among a channel's records that are not answered. -/
def firstSlice (s : State) (k : Nat) : Option Nat :=
  (s.txs.filterMap (fun x => match x.purpose with | .slice k' p _ => if k' = k then some p else none | _ => none)).foldl
    (fun (m : Option Nat) p => match m with | none => some p | some q => some (min p q)) none

/-- A slice record is answered: PRODUCED follows, never past a record that is not answered (09 R332; log 52). -/
def sliceDone (k produced : Nat) (refused : Option Nat) (ctx : Nat) (err : Bool) (s : State) : State :=
  let c := s.chan k
  if err then stopChannel k 2 s
  else if c.stopped || c.stream.isNone then s
  else
    let v := match firstSlice s k with | some p => if produced < p then some produced else none | none => some c.produced
    match v with
    | none => s
    | some v =>
      match refused with
      | some line => stopChannel k 1 (refuse ctx true line s)
      | none => transfer (workAttr ctx 0) (.produced k) c.sstat 8 (leBytes v 8) s

/-- A transaction of a point block is answered (08 R297, R300). -/
def blockDone (step : State → State) (r wid : Nat) (err : Bool) (s : State) : State :=
  if err then blockFailed r wid (answered wid s)
  else
    let s1 := answered wid s
    match Tbl.get? s1.works wid with
    | some w => if w.pendingTx = 0 then step s1 else s1
    | none => s1

/-- A shelf fill is given up: its chunks are free. -/
def shelfAbandon (fill : Nat) (s : State) : State :=
  { s with shelf := { s.shelf with entries := s.shelf.entries.filter (·.fill ≠ fill) } }

/-- The data of a fill are answered; the index record is written last (13 R442; log 39 for its place and bytes). -/
def shelfDataDone (x : Tx) (fill : Nat) (err : Bool) (s : State) : State :=
  match s.shelf.entries.find? (·.fill = fill) with
  | none => s
  | some e =>
    if err then shelfAbandon fill s
    else if s.txs.any (fun y => y.purpose == .shelfData fill) then s
    else
      transfer { ctx := x.ctx, sys := true, cls := x.cls, prio := x.prio, meter := x.meter } (.shelfIndex fill)
        (s.shelf.base + 64 * e.chunks.headD 0) 64 (slice (Config.freeBytes s.freeNo) 0 64) (useFree 1 s)

/-- The index record is answered: the entry is visible and replaces the one with its key (13 R441, R442). -/
def shelfIndexDone (fill : Nat) (err : Bool) (s : State) : State :=
  match s.shelf.entries.find? (·.fill = fill) with
  | none => s
  | some e =>
    if err then shelfAbandon fill s
    else
      let s1 := hideShelf (fun x => x.visible && x.ctx = e.ctx && x.source = e.source && x.crop = e.crop) s
      { s1 with shelf := { s1.shelf with
          entries := s1.shelf.entries.map (fun x => if x.fill = fill then { x with visible := true, fill := 0 } else x) } }

/-- What a write's answer does to the work it was for. -/
def writeDone (x : Tx) (err : Bool) (s : State) : State :=
  match x.purpose with
  | .zero wid => zeroDone wid err s
  | .folio wid index => folioDone wid index err s
  | .colophon wid => if err then colophonFailed wid s else writeCommit wid s
  | .commit wid => if err then colophonFailed wid s else committed wid s
  | .completion c n first slots => if err then completionFailed c n s else completionDone c n first slots s
  | .message t => messageDone t (b2n err) s
  | .result wid => resultDone wid err s
  | .slice k produced refused => sliceDone k produced refused x.ctx err s
  | .produced k => if err then stopChannel k 2 s else s
  | .points r wid => blockDone (blockPointsDone r wid) r wid err s
  | .header r wid => blockDone (blockHeaderDone r wid) r wid err s
  | .queue r wid => blockDone (blockQueueDone r wid) r wid err s
  | .status _ => s
  | .shelfData fill => shelfDataDone x fill err s
  | .shelfIndex fill => shelfIndexDone fill err s
  | .fetch _ _ _ _ | .read _ | .input _ | .lookup _ _ | .fetched _ | .packet _ | .area _ => s

/-- The fault of a write's error: a message counts by itself, and an error response on a write of packet intake has the effects of its own
table, which names no fault for it (16 R521, 08 R300). -/
def writeFault (x : Tx) (cause : Nat) (s : State) : State :=
  match x.purpose with
  | .message _ => if cause = 0x1A then txFault x cause s else s
  | .points _ _ | .header _ _ | .queue _ _ | .status _ => if cause = 0x19 then s else txFault x cause s
  | _ => txFault x cause s

/-- A LIVE write response later than 4 us counts against bandwidth (R66, 07 R242). -/
def noteLate (x : Tx) (s : State) : State :=
  if x.cls = 0 && !x.sys && !x.mirror && decide (x.issued + 4000 < s.now) then { s with press := { s.press with lateWrite := true } } else s

/-- A write response (R36, R38). -/
def writeResponse (port tag resp : Nat) (s : State) : State :=
  match findTx s port tag with
  | none => unknownTag port s
  | some x =>
    if x.rd then unknownTag port s
    else
      let s1 := noteLate x (dropTx x.id s)
      if x.timedOut then pump s1
      else
        let err := resp ≠ 0
        pump (writeDone x err (when err (writeFault x 0x19) s1))

/-! ### Time-outs -/

/-- A transaction has been outstanding for 100 us: its work goes on as after an error, and its tag stays in use (R38). -/
def memTimeout (port tag : Nat) (s : State) : State :=
  match findTx s port tag with
  | none => s
  | some x =>
    if x.timedOut || decide (s.now < x.issued + 100000) then s
    else
      let s1 := { s with txs := s.txs.map (fun y => if y.id = x.id then { y with timedOut := true, purpose := .read x.ctx } else y) }
      let s2 := writeFault x 0x1A s1
      pump (match x.purpose with
        | .fetch c n count _ => forEach (upto x.beats (x.lines - x.beats)) (fun k s => fetchLine c n (count + k) [] true s) s2
        | .input wid => inputFailed wid s2
        | .lookup wid k => lookupRead wid k true true s2
        | .message t => messageFailed t s2
        | .read _ | .fetched _ | .packet _ => s2
        | _ => writeDone x true s2)

/-! ### The regulator -/

/-- Every bucket receives its RATE, up to its DEPTH (13 R436). -/
def refillAll (s : State) : State :=
  pump { s with mem := { s.mem with
    class1 := s.mem.class1.refill, class2 := s.mem.class2.refill, class3 := s.mem.class3.refill,
    ctxBuckets := s.mem.ctxBuckets.map (fun p => (p.1, p.2.refill)) } }

/-! ### Commands -/

/-- MEM_READ_BEAT (R34). -/
def execMemReadBeat (dt port tag : Nat) (data : List Byte) (beat : Nat) (last : Bool) (poison resp : Nat) (s : State) :
    Host.Outcome State Fault Refusal :=
  event (Instr.memReadBeat dt port tag data beat last poison resp).wf dt s
    (fun s => when s.mainUp (readBeat port tag data beat last poison resp) s)

/-- What MEM_WRITE_RESPONSE does, where it can happen. -/
def onMemWriteResponse (port tag resp : Nat) (s : State) : State :=
  when s.mainUp (writeResponse port tag resp) s

/-- MEM_WRITE_RESPONSE (R36). -/
def execMemWriteResponse (dt port tag resp : Nat) (s : State) : Host.Outcome State Fault Refusal :=
  event (Instr.memWriteResponse dt port tag resp).wf dt s (onMemWriteResponse port tag resp)

/-- What MEM_TIMEOUT does, where it can happen. -/
def onMemTimeout (port tag : Nat) (s : State) : State :=
  when s.mainUp (memTimeout port tag) s

/-- MEM_TIMEOUT (R38). -/
def execMemTimeout (dt port tag : Nat) (s : State) : Host.Outcome State Fault Refusal :=
  event (Instr.memTimeout dt port tag).wf dt s (onMemTimeout port tag)

/-- What REGULATOR_REFILL does, where it can happen. -/
def onRegulatorRefill (s : State) : State :=
  when s.mainUp refillAll s

/-- REGULATOR_REFILL (13 R436). -/
def execRegulatorRefill (dt : Nat) (s : State) : Host.Outcome State Fault Refusal :=
  event (Instr.regulatorRefill dt).wf dt s onRegulatorRefill

end Sys2Proof.Machine
end

