-- ==== Sys2Proof/Machine/Maintain.lean ====
section
/-! DEFINITION. Maintenance: scrubbing, the sweep of stock, migrations, self-test and the reload of coefficient segments (13 R427-R431,
R446-R448; 14 R472-R477, R479-R481, R490). -/

namespace Sys2Proof.Machine

/-! ### When maintenance runs (14 R476) -/

/-- The block works: the main domain is up and the device is not in safe state. -/
def State.maintains (s : State) : Bool := s.mainUp && s.faults.safe == .normal

/-! ### Scrubbing (13 R446, R448) -/

/-- Sticky events of the memory system. -/
def memEvt (m : BitVec 5) (s : State) : State := { s with mem := { s.mem with evt := s.mem.evt ||| m } }

/-- An uncorrectable finding in quire `q`: counted, an event, and CONTAINED on the quire; `part` is the gathering whose data it hits. -/
def uncorrectable (q part : Nat) (injected : Bool) (s : State) : State :=
  report [{ src := 16 + q, cls := 2, cause := 2, detail := 0, injected, part }]
    (memEvt 1 { s with mem := { s.mem with scrubUncorr := sat32 (s.mem.scrubUncorr + 1) } })

/-- A correctable finding: corrected and written back. -/
def correctable (q : Nat) (injected : Bool) (s : State) : State :=
  report [{ src := 16 + q, cls := 1, cause := 1, detail := 0, injected }]
    { s with mem := { s.mem with scrubCorr := sat32 (s.mem.scrubCorr + 1) } }

/-- The segment that an identification names. -/
def findSegment (s : State) (h gen set seg : Nat) : Option Segment :=
  s.mem.segments.find? (fun g => g.binding = h && g.gen = gen && g.set = set && g.seg = seg)

/-- Change the segment that an identification names. -/
def modSegment (h gen set seg : Nat) (f : Segment → Segment) (s : State) : State :=
  { s with mem := { s.mem with segments := s.mem.segments.map (fun g =>
      if g.binding = h && g.gen = gen && g.set = set && g.seg = seg then f g else g) } }

/-- A reload of a segment begins: it takes its quire's token unless another activity holds it (13 R429, 14 R476). -/
def beginReload (g : Segment) (s : State) : State :=
  let s1 := modSegment g.binding g.gen g.set g.seg (fun x => { x with reloading := true }) s
  if Tbl.has s1.mem.tokens g.quire then s1 else takeToken g.quire 1 s1

/-- A word of a gathering's data is lost: where it lies in what the gathering writes is open, and it is written poisoned (02 R37). -/
def spoilWord (wid : Nat) (s : State) : State :=
  useFree 1 (modWork wid (fun w => { w with poison := w.poison ++ [(8 * (Config.freeNat s.freeNo % (512 * max w.total 1)), 8)] }) s)

/-- What the scrubber does about one finding (13 R448). -/
def scrubFinding (q : Nat) (f : ScrubFinding) (s : State) : State :=
  match f with
  | .corrected => correctable q false s
  | .free region =>
    uncorrectable q 0 false (memEvt 2 { s with mem := { s.mem with
      quarantine := if s.mem.quarantine.any (· == (q, region)) then s.mem.quarantine else s.mem.quarantine ++ [(q, region)] } })
  | .partition work => uncorrectable q work false (spoilWord (work - 1) s)
  | .live => uncorrectable q 0 false s
  | .segment h gen set seg =>
    match findSegment s h gen set seg with
    | some g => if g.quire = q then beginReload g (uncorrectable q 0 false s) else s
    | none => s

/-- An armed injection into the words of a quire meets the pass (14 R490). -/
def scrubInjection (q : Nat) (s : State) : State :=
  let fi := s.faults.fi
  let spent : State := { s with faults := { s.faults with fi := { fi with armed := false } } }
  if fi.armed && fi.source = 16 + q && fi.mode = 2 then correctable q true spent
  else if fi.armed && fi.source = 16 + q && fi.mode = 3 then uncorrectable q 0 true spent
  else s

/-- Some quire that is not GATED has gone without a pass for more than 100 ms since its last one; GATED quires are skipped. -/
def coverCheck (s : State) : State :=
  let last := s.mem.scrubLast.filter (fun p => (s.quire p.1).st != .gated)
  let s1 := { s with mem := { s.mem with scrubLast := last } }
  if last.any (fun p => decide (p.2 + 100000000 < s1.now)) then memEvt 16 s1 else s1

/-- The pass of a quire has been made now. -/
def passMade (q : Nat) (s : State) : State :=
  let ms := match Tbl.get? s.mem.scrubLast q with | some t => (s.now - t) / 1000000 | none => 0
  { s with mem := { s.mem with
      scrubQuire := q, scrubWorst := min 65535 (max s.mem.scrubWorst ms), scrubLast := Tbl.set s.mem.scrubLast q s.now } }

/-- A pass of a quire; while its token is held the pass is deferred (R446). -/
def scrubPass (q : Nat) (findings : List ScrubFinding) (s : State) : State :=
  let s0 := coverCheck s
  if !s0.maintains || mem s0.faults.retired q || (s0.quire q).st == .gated then s0
  else if tokenHeld s0 q 3 then { s0 with mem := { s0.mem with
      scrubDeferred := s0.mem.scrubDeferred.filter (·.1 ≠ q) ++ [(q, s0.now)] } }
  else
    let s1 := passMade q (quireOn q s0)
    forEach findings (scrubFinding q) (scrubInjection q s1)

/-- A deferred pass is retried after 1 ms. -/
def scrubRetry (q : Nat) (findings : List ScrubFinding) (s : State) : State :=
  match s.mem.scrubDeferred.find? (·.1 = q) with
  | some (_, t) =>
    if s.now < t + 1000000 then s
    else scrubPass q findings { s with mem := { s.mem with scrubDeferred := s.mem.scrubDeferred.filter (·.1 ≠ q) } }
  | none => s

/-! ### The sweep of stock (13 R447) -/

/-- A sweep read of buffer `i` of a pool returns; a refused read skips the buffer, and an error or poison quarantines it. -/
def stockSweep (key i resp : Nat) (poisoned : Bool) (s : State) : State :=
  match Tbl.get? s.pools key with
  | none => s
  | some p =>
    let c := key / 128
    let a := p.base + i * bufSize (key % 8)
    if !s.maintains || !s.mem.stockSweep || p.count ≤ i || Tbl.has p.bufs i then s
    else if (guardCheck (s.ctx c).guards false a (bufSize (key % 8))).isSome then s
    else if resp = 0 && !poisoned then s
    else
      noteMemFault 6 (112 + portOf a) (report1 (112 + portOf a) 2 0x19 c true (memEvt 2 (setBuf key i (some .quarantined) s)))

/-! ### Coefficient reloads (13 R429) -/

/-- The data of a segment's source as a reload reads them: none where the guard refuses, memory fails or the set is absent. -/
def reloadRead (s : State) (g : Segment) (ext : ExtMem) : Except (Option Nat) (List Byte) :=
  match (Tbl.get? s.bindings g.binding).bind (fun b => b.image? g.gen) with
  | none => .error none
  | some img => match img.coeffs[g.set]? with
    | none => .error none
    | some c =>
      let a := c.addr + 4096 * g.seg
      let n := min 4096 (c.size - 4096 * g.seg)
      if (guardCheck img.guards false a n).isSome then .error none
      else if extBad ext a n then .error (some a)
      else .ok (slice (extRead ext a n) 0 4096)

/-- A reload reads its source with the context's tag (13 R429); its class, PRIO and metering are those of the image reads (the spec
gives none; log 8). -/
def presentReload (g : Segment) (s : State) : State :=
  match ((Tbl.get? s.bindings g.binding).bind (fun b => b.image? g.gen)).bind (fun i => i.coeffs[g.set]?) with
  | some c => readTxs (imageRead (g.binding / 2 ^ 24)) (.fetched (g.binding / 2 ^ 24)) [(c.addr + 4096 * g.seg, min 4096 (c.size - 4096 * g.seg))] s
  | none => s

/-- A segment that stays unavailable (13 R429). -/
def reloadFailed (g : Segment) (s : State) : State :=
  report1 (16 + g.quire) 2 0x21 0 false (modSegment g.binding g.gen g.set g.seg (fun x => { x with reloading := false, lost := true }) s)

/-- A reload finishes: the place is rewritten, or the segment is unavailable until a new generation replaces it (log 58). -/
def reloadDone (h gen set seg : Nat) (ext : ExtMem) (s : State) : State :=
  match findSegment s h gen set seg with
  | none => s
  | some g =>
    if !s.maintains || g.lost || !g.reloading || (s.quire g.quire).st == .gated then s
    else
      let s1 := giveToken g.quire 1 s
      match reloadRead s1 g ext with
      | .ok bs =>
        let s1 := presentReload g s1
        if crc32c bs = g.crc then modSegment h gen set seg (fun x => { x with reloading := false }) s1 else reloadFailed g s1
      | .error none => reloadFailed g s1
      | .error (some a) =>
        let be := match Tbl.get? s1.bindings h with | some b => !b.live | none => true
        reloadFailed g (report1 (112 + portOf a) 2 0x19 (h / 2 ^ 24) be s1)

/-! ### Migrations (14 R472, R473, R481) -/

/-- A binding stands on quire `q`. -/
def Binding.standsOn (b : Binding) (q : Nat) : Bool := b.admitted && mem (b.quiresA ++ b.quiresB) q

/-- The migration that leaves quire `q`. -/
def migrationOf (s : State) (q : Nat) : Option Migration := s.faults.migrations.find? (·.src = q)

/-- No admitted binding stands on quire `q` any longer. -/
def handedOver (s : State) (q : Nat) : Bool := s.bindings.all (fun p => !p.2.standsOn q)

/-- Free spares: neither retired, nor under test, nor the target of a migration. -/
def freeSpares (s : State) : List Nat :=
  (upto 0 64).filter (fun p => mem s.press.spareSet p && !mem s.faults.retired p && !(s.quire p).testing &&
    s.faults.migrations.all (·.dst ≠ p))

/-- Replay records that stand on quire `q` move to the spare that R228 gives them. -/
def remapReplays (q : Nat) (s : State) : State :=
  forEach (s.bindings.filterMap (fun p => if p.2.live && p.2.spare = some q then some p.1 else none))
    (fun h s =>
      let t := modBinding h (fun b => { b with spare := none }) s
      match Tbl.get? t.bindings h with
      | some b => modBinding h (fun x => { x with spare := replaySpare t b.table }) t
      | none => t) s

/-- The spares once quire `q` takes the position of quire `p`. -/
def swapSpare (p q : Nat) (l : List Nat) : List Nat := if mem l q then l.filter (· ≠ p) else l.map (fun x => if x = p then q else x)

/-- Every binding of a migration has been handed over: its segments have their home on the target. A retired source takes the target's
spare position and is GATED (R481); a source of the rotation waits for its test (R472). -/
def finishMigration (m : Migration) (s : State) : State :=
  let s1 := giveToken m.src 2 (giveToken m.dst 2 { s with mem := { s.mem with
    segments := s.mem.segments.map (fun g => if g.quire = m.src then { g with quire := m.dst } else g) } })
  let s2 := remapReplays m.dst s1
  if m.retired then
    gateQuire m.src
      { s2 with
        faults := { s2.faults with migrations := s2.faults.migrations.filter (·.src ≠ m.src) },
        press := { s2.press with spareSet := swapSpare m.dst m.src s2.press.spareSet } }
  else s2

/-- A migration whose source no binding stands on any longer is through. -/
def tryFinish (q : Nat) (s : State) : State :=
  match migrationOf s q with
  | some m => if handedOver s q then finishMigration m s else s
  | none => s

/-- Firmware starts a migration of quire `q` onto the lowest free spare of its half; the rotation leaves another free spare
(R472, R481). -/
def startMigration (q : Nat) (s : State) : State :=
  let retired := mem s.faults.retired q
  match freeSpare s q with
  | none => s
  | some p =>
    if !s.fwRuns || (migrationOf s q).isSome || Tbl.has s.mem.tokens q || Tbl.has s.mem.tokens p || !mayWake s p ||
        (!retired && (freeSpares s).length < 2) then s
    else
      let m : Migration := { src := q, dst := p, began := s.now, retired }
      tryFinish q (remapReplays p (quireOn p
        (takeToken q 2 (takeToken p 2 { s with faults := { s.faults with migrations := s.faults.migrations ++ [m] } }))))

/-- A retired quire on which nothing stands: a spare keeps its position, and its replay records move (R481). -/
def retireSpare (q : Nat) (s : State) : State :=
  gateQuire q (remapReplays q s)

/-- The first quire of a half, from `n` on, that is not retired; past the last one the half begins again. -/
def dueQuire (s : State) (base n : Nat) : Option Nat :=
  let l := (upto base 32).filter (fun q => !mem s.faults.retired q)
  match l.find? (n ≤ ·) with | some q => some q | none => l.head?

/-- The quires that are due in the two halves, the one to test first. -/
def dueQuires (s : State) : List Nat :=
  let lo := (dueQuire s 0 s.faults.testNextLo).toList
  let hi := (dueQuire s 32 s.faults.testNextHi).toList
  if s.faults.testUpper then hi ++ lo else lo ++ hi

/-- MIGRATION_START: of a retired quire's work, or of the work of a quire that is due in the rotation. -/
def migrationStart (q : Nat) (s : State) : State :=
  if !s.maintains then s
  else if mem s.faults.retired q then
    (if mem s.press.spareSet q && handedOver s q then (if s.fwRuns then retireSpare q s else s) else startMigration q s)
  else if s.faults.testEnable && mem (dueQuires s) q && !mem s.press.spareSet q then startMigration q s
  else s

/-- MIGRATION_HANDOVER: the binding's work on the source goes to the target, in the same relative quires (R473). -/
def handover (q h : Nat) (s : State) : State :=
  match migrationOf s q with
  | none => s
  | some m =>
    if !s.maintains || mem s.faults.retired m.dst then s
    else
      let move (l : List Nat) : List Nat := l.map (fun x => if x = q then m.dst else x)
      let s1 := when (match Tbl.get? s.bindings h with | some b => b.admitted | none => false)
        (modBinding h (fun b => { b with quiresA := move b.quiresA, quiresB := move b.quiresB })) s
      tryFinish q (remapReplays m.dst s1)

/-- A best-effort gathering starts again from its entry's first stage, without a second charge (R473). -/
def restartSample (s : State) (w : Work) : Work :=
  match workImage s w with
  | some (_, p) => { w with place := none, suspended := false, stage := p.firstStage }
  | none => w

/-- MIGRATION_ABANDON_TIMEOUT: 1 ms after a migration began, best-effort stages on its source are abandoned. -/
def abandonStages (q : Nat) (s : State) : State :=
  match migrationOf s q with
  | none => s
  | some m =>
    if !s.maintains || decide (s.now < m.began + 1000000) then s
    else tryFinish q { s with works := s.works.map (fun x => (x.1,
      match x.2.place with | some (p, _) => if p = q then restartSample s x.2 else x.2 | none => x.2)) }

/-! ### Self-test (14 R472-R475) -/

/-- Nothing stands, runs or is held on quire `q`. -/
def vacant (s : State) (q : Nat) : Bool := handedOver s q && heldMask s q = 0

/-- Quire `q` can be tested now: a spare where it stands while another free spare remains, or a quire whose work has moved. -/
def testable (s : State) (q : Nat) : Bool :=
  !tokenHeld s q 2 && vacant s q && mayWake s q &&
    (if mem s.press.spareSet q then mem (freeSpares s) q && 2 ≤ (freeSpares s).length
     else (migrationOf s q).isSome && !Tbl.has s.mem.tokens q)

/-- The rotation begins again with the first quire of the lower half (R475). -/
def rotationStart (s : State) (q : Nat) : Bool := !s.faults.testUpper && (dueQuire s 0 0) == some q

/-- The test of quire `q` begins, and the other half's next quire migrates meanwhile. -/
def beginTest (q : Nat) (other : Option Nat) (s : State) : State :=
  let s1 := takeToken q 2 (modQuire q (fun x => { x with testing := true }) (quireOn q
    { s with faults := { s.faults with
        testState := .running, testQuire := q, testBegan := if rotationStart s q then s.now else s.faults.testBegan } }))
  match other with
  | some p => if p / 32 = q / 32 then s1 else migrationStart p s1
  | none => s1

/-- SELFTEST_STEP: a step that cannot proceed is STALLED until a spare becomes free (R472). -/
def selfTestStep (s : State) : State :=
  if !s.maintains || !s.faults.testEnable || s.faults.testState == .running then s
  else match dueQuires s with
    | [] => s
    | q :: rest =>
      let s1 := migrationStart q s
      let s2 := tryFinish q s1
      if testable s2 q then beginTest q rest.head? s2 else { s2 with faults := { s2.faults with testState := .stalled } }

/-- A rotation ends with the last quire of the upper half, or of the lower where the upper has none. -/
def rotationEnd (s : State) (q : Nat) : Bool := ((upto 0 64).filter (fun p => p = q || !mem s.faults.retired p)).getLast? == some q

/-- The step after the test of quire `q`: the other half is next. -/
def nextStep (q : Nat) (s : State) : State :=
  let f := s.faults
  let ms := min 65535 ((s.now - f.testBegan) / 1000000)
  let f1 := if q < 32 then { f with testNextLo := (q + 1) % 32 } else { f with testNextHi := 32 + (q + 1) % 32 }
  { s with faults := { f1 with
      testState := .idle, testUpper := !(decide (32 ≤ q)),
      testLast := if rotationEnd s q then ms else f.testLast, testWorst := if rotationEnd s q then max f.testWorst ms else f.testWorst } }

/-- SELFTEST_STEP_END: the tested quire takes the spare position of the quire that received its work; on a failure it does so
retired (R472, R474, R481). -/
def selfTestEnd (pass : Bool) (s : State) : State :=
  let q := s.faults.testQuire
  if !s.maintains || s.faults.testState != .running || !(s.quire q).testing then s
  else
    let s1 := giveToken q 2 (modQuire q (fun x => { x with testing := false }) s)
    let s2 := match migrationOf s1 q with
      | some m => { s1 with
          faults := { s1.faults with migrations := s1.faults.migrations.filter (·.src ≠ q) },
          press := { s1.press with spareSet := swapSpare m.dst q s1.press.spareSet } }
      | none => s1
    let s3 := nextStep q s2
    if pass then s3
    else retireQuire q <| gateQuire q
      (report1 (16 + q) 3 7 0 false { s3 with faults := { s3.faults with testFails := min 65535 (s3.faults.testFails + 1) } })

/-! ### Commands -/

/-- SCRUB_PASS (R446). -/
def execScrubPass (dt quire : Nat) (findings : List ScrubFinding) (s : State) : Host.Outcome State Fault Refusal :=
  event (Instr.scrubPass dt quire findings).wf dt s (scrubPass quire findings)

/-- SCRUB_RETRY (R446). -/
def execScrubRetry (dt quire : Nat) (findings : List ScrubFinding) (s : State) : Host.Outcome State Fault Refusal :=
  event (Instr.scrubRetry dt quire findings).wf dt s (scrubRetry quire findings)

/-- SELFTEST_STEP (R472). -/
def execSelftestStep (dt : Nat) (s : State) : Host.Outcome State Fault Refusal := event (Instr.selftestStep dt).wf dt s selfTestStep

/-- SELFTEST_STEP_END (R474). -/
def execSelftestStepEnd (dt : Nat) (pass : Bool) (s : State) : Host.Outcome State Fault Refusal :=
  event (Instr.selftestStepEnd dt pass).wf dt s (selfTestEnd pass)

/-- MIGRATION_START (R481). -/
def execMigrationStart (dt quire : Nat) (s : State) : Host.Outcome State Fault Refusal :=
  event (Instr.migrationStart dt quire).wf dt s (migrationStart quire)

/-- MIGRATION_HANDOVER (R473). -/
def execMigrationHandover (dt quire handle : Nat) (s : State) : Host.Outcome State Fault Refusal :=
  event (Instr.migrationHandover dt quire handle).wf dt s (handover quire handle)

/-- MIGRATION_ABANDON_TIMEOUT (R473). -/
def execMigrationAbandonTimeout (dt quire : Nat) (s : State) : Host.Outcome State Fault Refusal :=
  event (Instr.migrationAbandonTimeout dt quire).wf dt s (abandonStages quire)

/-- COEFF_RELOAD_DONE (R429). -/
def execCoeffReloadDone (dt handle gen set seg : Nat) (mem : ExtMem) (s : State) : Host.Outcome State Fault Refusal :=
  event (Instr.coeffReloadDone dt handle gen set seg mem).wf dt s (reloadDone handle gen set seg mem)

/-- STOCK_SWEEP (R447). -/
def execStockSweep (dt pool buf resp : Nat) (poisoned : Bool) (s : State) : Host.Outcome State Fault Refusal :=
  event (Instr.stockSweep dt pool buf resp poisoned).wf dt s (stockSweep pool buf resp poisoned)

end Sys2Proof.Machine
end

