-- ==== Sys2Proof/Machine/Operands.lean ====
section
/-! DEFINITION. Operand forms of register accesses: the control window map and how an offset names a numbered block (02 R41, R46;
05 R130; 06 R177, R185; 08 R253, R284; 09 R338). -/

namespace Sys2Proof.Machine

/-- The offset lies in a range of the control window map (02 R46). -/
def mapped (a : Nat) : Bool := a < 0x7800 || (0x8000 ≤ a && a < 0x9100) || (0x100000 ≤ a && a < 0x200000)

/-- The range of the offset needs PRIV: all but identity and context pages (02 R46). -/
def needsPriv (a : Nat) : Bool := 0x100 ≤ a && a < 0x100000

/-- Context and page offset of a context-page offset (02 R46). -/
def pageCtx (a : Nat) : Nat := (a - 0x100000) / 0x1000
def pageOff (a : Nat) : Nat := a % 0x1000

/-- The mailbox that an offset lies in: box and offset as on a context page; none outside the mailboxes (05 R130). -/
def boxOf (a : Nat) : Option (Nat × Nat) :=
  if 0x800 ≤ a && a < 0x900 then some (256, a - 0x700)
  else if 0x100000 ≤ a && 0x100 ≤ pageOff a && pageOff a < 0x200 then some (pageCtx a, pageOff a)
  else none

/-- The sensor port whose registers an offset lies in, with the offset in its block; none for packet intake (08 R253, R284). -/
def portOfs (a : Nat) : Option (Nat × Nat) :=
  let p := (a - 0x2000) / 0x100
  let o := a % 0x100
  if p = 15 && 0x80 ≤ o then none else some (p, o)

/-- The encode channel whose block an offset lies in, with the offset in the block (09 R338). -/
def chanOfs (a : Nat) : Option (Nat × Nat) :=
  if 0x3100 ≤ a && a < 0x3500 then some ((a - 0x3100) / 0x40, a % 0x40) else none

/-- Low or high word of a 64-bit value replaced. -/
def setHalf (old k v : Nat) : Nat := if k = 0 then bits old 32 32 * 2 ^ 32 + v else v * 2 ^ 32 + bits old 0 32

end Sys2Proof.Machine
end

