-- ==== Sys2Proof/Machine/Registers.lean ====
section
/-! DEFINITION. The remaining ranges of the control window, and the accesses to it: REGISTER_WRITE, RC_REGISTER_READ, SNS_FS_LO_READ
(00 R5-R7; 02 R41-R47; 05 R130; 06 R178, R185; 07 R252; 08 R253, R254, R284; 09 R338; 12 R418; 13 R449). -/

namespace Sys2Proof.Machine

/-! ### Mailboxes (05 R130) -/

/-- MBOX_STAT. -/
def mboxStat (s : State) (b : Nat) : Nat :=
  let m := s.box b
  fld 12 m.owed.length + fld 8 m.notices.length + flag 2 (!s.fwRuns) + flag 1 m.respValid + b2n m.busy

/-- The words of a mailbox. -/
def mboxRead (s : State) (b off : Nat) : Nat :=
  let m := s.box b
  if 0x100 ≤ off && off < 0x140 then field m.req (off - 0x100) 4
  else if 0x140 ≤ off && off < 0x180 then field m.rsp (off - 0x140) 4
  else match off with
  | 0x184 => mboxStat s b
  | 0x188 => flag 3 m.evtRestart + flag 2 m.evtOverrun + flag 1 m.evtNotice + b2n m.evtResp
  | 0x18C => m.evtEn.toNat
  | 0x190 => noticeWord s b
  | 0x194 => m.noticeHi
  | _ => 0

/-- Writes of a mailbox whose page answers; MBOX_GO has its own conditions. -/
def mboxWrite (b off v : Nat) (s : State) : State :=
  if 0x100 ≤ off && off < 0x140 then modBox b (fun m => { m with req := splice m.req (off - 0x100) (leBytes v 4) }) s
  else match off with
  | 0x188 => modBox b (fun m => { m with
      evtRestart := m.evtRestart && !bit v 3, evtOverrun := m.evtOverrun && !bit v 2, evtNotice := m.evtNotice && !bit v 1,
      evtResp := m.evtResp && !bit v 0 }) s
  | 0x18C => modBox b (fun m => { m with evtEn := BitVec.ofNat 4 v }) s
  | _ => s

/-- A read of a mailbox through its page: a closed page reads 0 but for the response that a close leaves reachable (05 R152). -/
def boxRead (s : State) (b off : Nat) : Nat :=
  if boxOpen s b then mboxRead s b off
  else if (s.ctx b).closeHold.isSome && ((0x140 ≤ off && off < 0x180) || off = 0x184) then mboxRead s b off else 0

/-- A write of a mailbox through its page. -/
def boxWrite (b off v : Nat) (s : State) : State :=
  if off = 0x180 then goWrite b (bit v 0) (bit v 1) s else if boxOpen s b then mboxWrite b off v s else s

/-! ### Context pages (06 R178, R185) -/

/-- A write of RINGn_STAT: each 1 clears its error bit; a ring that does not exist or whose context closes takes no write. -/
def ringStatWrite (c n v : Nat) (s : State) : State :=
  if (s.ring c n).st == .none || (s.ctx c).st != .opened then s
  else modRing c n (fun r => { r with
    receiptLost := r.receiptLost && !bit v 12, ctlErr := r.ctlErr && !bit v 11, cplErr := r.cplErr && !bit v 10,
    fetchErr := r.fetchErr && !bit v 9, dbErr := r.dbErr && !bit v 8 }) s

/-- CTX_STAT. -/
def ctxStat (s : State) (c : Nat) : Nat :=
  fld 20 (maskOf 4 (fun n => (s.ring c n).stream)) + fld 16 (maskOf 4 (fun n => (s.ring c n).st != .none)) + fld 8 c + 1

/-- The words of the page of a context that is open or closing, mailbox apart; while it is closing the ring registers read their last
values (R175). -/
def ctxRead (s : State) (c off : Nat) : Nat :=
  let x := s.ctx c
  if off < 0x100 then
    (if x.st == .closing then (if off % 0x40 < 0x20 then x.ringWords.getD (off / 0x40 * 8 + off % 0x40 / 4) 0 else 0)
     else ringRead (s.ring c (off / 0x40)) (off % 0x40))
  else match off with
  | 0x200 => ctxStat s c
  | 0x204 => flag 16 x.evtGuard + fld 8 x.evtErr.toNat + x.evtCpl.toNat
  | 0x208 => flag 16 x.enGuard + fld 8 x.enErr.toNat + x.enCpl.toNat
  | 0x20C => half x.gfAddr 0
  | 0x210 => flag 31 x.gfWrite + half x.gfAddr 1
  | _ => 0

/-- Writes of such a page. -/
def ctxWrite (c off v : Nat) (s : State) : State :=
  if off < 0x100 then
    (match off % 0x40 with
     | 0x0C => doorbell c (off / 0x40) (bits v 0 17) s
     | 0x18 => ringCtl c (off / 0x40) v s
     | 0x1C => ringStatWrite c (off / 0x40) v s
     | _ => s)
  else match off with
  | 0x204 => modCtx c (fun x => { x with
      evtGuard := x.evtGuard && !bit v 16, evtErr := clearBits x.evtErr (bits v 8 4), evtCpl := clearBits x.evtCpl (bits v 0 4) }) s
  | 0x208 => modCtx c (fun x => { x with
      enGuard := bit v 16, enErr := BitVec.ofNat 4 (bits v 8 4), enCpl := BitVec.ofNat 4 (bits v 0 4) }) s
  | _ => s

/-! ### Press and governor (07 R252) -/

/-- Code of SYNC. -/
def SyncState.code : SyncState → Nat | .solo => 0 | .lead => 1 | .locked => 2 | .unlocked => 3

/-- PRESS_STAT; SPARES_FREE counts the spares neither retired nor under self-test, from the first opening of the mailboxes after a reset
of the main domain on; before that it reads its reset value 0 (log 64). -/
def pressStat (s : State) : Nat :=
  let free := if s.press.sparesShown then (s.press.spareSet.filter (fun q => !mem s.faults.retired q && !(s.quire q).testing)).length else 0
  fld 24 free + fld 16 s.press.fwMissed + fld 8 s.press.sync.code + b2n s.press.running

/-- SHED_STAT. -/
def shedStat (s : State) : Nat :=
  fld 24 (min 255 s.press.shedViews.length) + flag 10 s.press.trigBandwidth + flag 9 s.press.trigCapacity + flag 8 s.press.trigThermal +
    s.press.level

/-- LEAF_SLOTS_FREE. -/
def leafSlotsFree (s : State) : Nat :=
  32 * (workQuires s).length * s.press.period - (s.bindings.map (fun p => leafSlots p.2.live p.2.table)).sum

/-- The words of 0x00_1000-0x00_1FFF. -/
def pressRead (s : State) (off : Nat) : Nat :=
  let p := s.press
  match off with
  | 0x1000 => p.spares
  | 0x1004 => pressStat s
  | 0x1008 => p.period
  | 0x100C => p.periodCnt
  | 0x1014 => shedStat s
  | 0x1018 => p.evt.toNat
  | 0x101C => p.evtEn.toNat
  | 0x1020 => limitNj s / 1000
  | 0x1024 => windowNj s (slotNo s s.now) false (fun _ => true) / 1000
  | 0x1028 => leafSlotsFree s
  | 0x1030 => p.lateCnt
  | 0x1034 => p.missCnt
  | 0x1038 => p.stripLateCnt
  | 0x1040 => word32 p.syncOffset
  | 0x1050 => fld 8 p.loadErrCtx + p.loadErrCheck
  | _ => 0

/-- Writes of the press range; PRESS_HB takes the core pairs' writes only (R252). -/
def pressWrite (core : Bool) (off v : Nat) (s : State) : State :=
  match off with
  | 0x1000 => writeSpares (bits v 0 4) s
  | 0x1010 => if core then pressBeat s else s
  | 0x1018 => { s with press := { s.press with evt := clearBits s.press.evt v } }
  | 0x101C => { s with press := { s.press with evtEn := BitVec.ofNat 6 v } }
  | _ => s

/-- RC registers of the press range. -/
def pressClear (off : Nat) (s : State) : State :=
  match off with
  | 0x1030 => { s with press := { s.press with lateCnt := 0 } }
  | 0x1034 => { s with press := { s.press with missCnt := 0 } }
  | 0x1038 => { s with press := { s.press with stripLateCnt := 0 } }
  | _ => s

/-! ### Sensor ports (08 R253, R254) -/

/-- Code of a port's state. -/
def PortState.code : PortState → Nat | .off => 0 | .qualifying => 1 | .up => 2 | .lost => 3

/-- SNS_STAT: a virtual channel shows as attached from its stream's first Frame Start after UP on (05 R159, R275). -/
def snsStat (s : State) (p : Nat) : Nat :=
  fld 16 (maskOf 16 (fun v => match vcStream s p v with | some x => x.2.st != .attaching | none => false)) + fld 8 (s.port p).qualLeft + (s.port p).st.code

/-- The words of a port's block. -/
def snsRead (s : State) (p off : Nat) : Nat :=
  let x := s.port p
  match off with
  | 0x00 => fld 16 x.fnWrap + flag 13 x.padMode + x.laneMbps
  | 0x04 => fld 16 x.padC + x.padY
  | 0x08 => x.expo
  | 0x0C => x.timeoutUs
  | 0x10 => snsStat s p
  | 0x14 => x.evt.toNat
  | 0x18 => x.evtEn.toNat
  | 0x1C => x.pclkCnt
  | 0x20 => x.eccCorr
  | 0x24 => x.eccErr
  | 0x28 => x.crcErr
  | 0x2C => x.drops
  | 0x30 => half x.fsStamp 0
  | 0x34 => x.fsHiLatch
  | 0x38 => x.mirrorDrops
  | _ => 0

/-- A write of SNS_CFG; R254 says when it is ignored. -/
def snsCfgWrite (p v : Nat) (s : State) : State :=
  let wrap := bits v 16 16
  let mbps := bits v 0 13
  if portAttached s p || wrap < 2 || !(mbps = 0 || (80 ≤ mbps && mbps ≤ 4500)) then s
  else modPort p (fun x => { x with fnWrap := wrap, padMode := bit v 13, laneMbps := mbps }) s

/-- Writes of a port's block. -/
def snsWrite (p off v : Nat) (s : State) : State :=
  match off with
  | 0x00 => snsCfgWrite p v s
  | 0x04 => modPort p (fun x => { x with padC := bits v 16 16, padY := bits v 0 16 }) s
  | 0x08 => modPort p (fun x => { x with expo := v }) s
  | 0x0C => if bits v 0 16 < 10 then s else modPort p (fun x => { x with timeoutUs := bits v 0 16 }) s
  | 0x14 => modPort p (fun x => { x with evt := clearBits x.evt v }) s
  | 0x18 => modPort p (fun x => { x with evtEn := BitVec.ofNat 14 v }) s
  | _ => s

/-- What a non-debug read of a port's block changes: RC counters, and SNS_FS_LO latches SNS_FS_HI. -/
def snsClear (p off : Nat) : State → State :=
  modPort p (fun x => match off with
    | 0x20 => { x with eccCorr := 0 }
    | 0x24 => { x with eccErr := 0 }
    | 0x28 => { x with crcErr := 0 }
    | 0x2C => { x with drops := 0 }
    | 0x30 => { x with fsHiLatch := half x.fsStamp 1 }
    | 0x38 => { x with mirrorDrops := 0 }
    | _ => x)

/-! ### Packet intake (08 R284) -/

/-- The words of packet intake's block. -/
def pktRegRead (s : State) (off : Nat) : Nat :=
  let k := s.pkt
  match off with
  | 0x00 => maskOf 8 (fun r => (s.pring r).enable)
  | 0x04 => half k.table 0
  | 0x08 => half k.table 1
  | 0x10 => maskOf 8 (fun r => (s.pring r).run)
  | 0x14 => k.evt.toNat
  | 0x18 => k.evtEn.toNat
  | 0x1C => k.points
  | 0x20 => k.drops
  | 0x24 => k.blocks
  | 0x28 => fld 8 k.errCode + k.errRing
  | _ => 0

/-- Writes of packet intake's block; a write of PKT_CTL acts on each ring whose bit changes. -/
def pktRegWrite (ext : ExtMem) (off v : Nat) (s : State) : State :=
  match off with
  | 0x00 => forEach (upto 0 8) (fun r s => if (s.pring r).enable == bit v r then s else writeEnable r (bit v r) ext s) s
  | 0x04 => { s with pkt := { s.pkt with table := setHalf s.pkt.table 0 (v / 512 * 512) } }
  | 0x08 => { s with pkt := { s.pkt with table := setHalf s.pkt.table 1 (v % 65536) } }
  | 0x0C => pktDoorbell (bits v 29 3) (bits v 0 17) s
  | 0x14 => { s with pkt := { s.pkt with evt := clearBits s.pkt.evt v } }
  | 0x18 => { s with pkt := { s.pkt with evtEn := BitVec.ofNat 8 v } }
  | _ => s

/-- RC registers of packet intake's block. -/
def pktRegClear (off : Nat) (s : State) : State :=
  match off with
  | 0x1C => { s with pkt := { s.pkt with points := 0 } }
  | 0x20 => { s with pkt := { s.pkt with drops := 0 } }
  | 0x24 => { s with pkt := { s.pkt with blocks := 0 } }
  | _ => s

/-! ### Codec (09 R338) -/

/-- STATE of a channel: STOPPED until its stream is detached, else BOUND by a stream, else IDLE or OFF by ENABLE. -/
def Channel.state (c : Channel) : ChanState :=
  if c.stopped then .stopped else if c.stream.isSome then .bound else if c.enable then .idle else .off

/-- Its code. -/
def ChanState.code : ChanState → Nat | .off => 0 | .idle => 1 | .bound => 2 | .stopped => 3

/-- The words of a channel's block. -/
def chanRead (c : Channel) (off : Nat) : Nat :=
  match off with
  | 0x00 => flag 31 c.enable + fld 16 c.ctx + c.sliceLog2
  | 0x04 => half c.work 0
  | 0x08 => half c.work 1
  | 0x0C => c.pages
  | 0x10 => half c.slice 0
  | 0x14 => half c.slice 1
  | 0x18 => half c.sstat 0
  | 0x1C => half c.sstat 1
  | 0x20 => fld 16 (if c.state == .bound then c.stream.getD 0 else 0) + fld 8 c.err + c.state.code
  | 0x24 => c.drops
  | _ => 0

/-- What a write of a channel's block leaves; RW registers are not written while STATE is BOUND. -/
def chanWrite (off v : Nat) (c : Channel) : Channel :=
  if c.state == .bound then c
  else match off with
  | 0x00 =>
    let n := bits v 0 5
    { c with enable := bit v 31, ctx := bits v 16 8, sliceLog2 := if n = 0 || (16 ≤ n && n ≤ 26) then n else c.sliceLog2 }
  | 0x04 => { c with work := setHalf c.work 0 (v / 4096 * 4096) }
  | 0x08 => { c with work := setHalf c.work 1 (v % 65536) }
  | 0x0C => { c with pages := bits v 0 24 }
  | 0x10 => { c with slice := setHalf c.slice 0 (v / 4096 * 4096) }
  | 0x14 => { c with slice := setHalf c.slice 1 (v % 65536) }
  | 0x18 => { c with sstat := setHalf c.sstat 0 (v / 64 * 64) }
  | 0x1C => { c with sstat := setHalf c.sstat 1 (v % 65536) }
  | _ => c

/-- The words of 0x00_3000-0x00_3FFF. -/
def codecRead (s : State) (off : Nat) : Nat :=
  let k := s.codec
  match chanOfs off with
  | some (n, o) => chanRead (s.chan n) o
  | none => match off with
    | 0x3000 => fld 16 k.live.toNat + fld 8 k.busy.toNat + k.on.toNat
    | 0x3004 => k.evt.toNat
    | 0x3008 => k.evtEn.toNat
    | 0x3010 => k.decErr
    | 0x3014 => k.conceal
    | 0x3018 => k.fallback
    | 0x301C => k.suspends
    | _ => 0

/-- Writes of the codec range. -/
def codecWrite (off v : Nat) (s : State) : State :=
  match chanOfs off with
  | some (n, o) => modChan n (chanWrite o v) s
  | none => match off with
    | 0x3004 => { s with codec := { s.codec with evt := clearBits s.codec.evt v } }
    | 0x3008 => { s with codec := { s.codec with evtEn := BitVec.ofNat 4 v } }
    | _ => s

/-- RC registers of the codec range. -/
def codecClear (off : Nat) (s : State) : State :=
  match chanOfs off with
  | some (n, o) => if o = 0x24 then modChan n (fun c => { c with drops := 0 }) s else s
  | none => match off with
    | 0x3010 => { s with codec := { s.codec with decErr := 0 } }
    | 0x3014 => { s with codec := { s.codec with conceal := 0 } }
    | 0x3018 => { s with codec := { s.codec with fallback := 0 } }
    | 0x301C => { s with codec := { s.codec with suspends := 0 } }
    | _ => s

/-! ### Draw unit (12 R418) -/

/-- BUSY: while a draw stage runs, which of the lanes in service evaluate is not stated (12 R407; log 65). -/
def drawBusy (s : State) : Nat :=
  if s.works.any (fun x => match x.2.place with | some (67, _) => true | _ => false) then
    Nat.land (Config.freeNat s.freeNo) s.draw.inService.toNat
  else 0

/-- The words of 0x00_4000-0x00_4FFF. -/
def drawRead (s : State) (off : Nat) : Nat :=
  let d := s.draw
  match off with
  | 0x4000 => fld 4 (drawBusy s) + d.inService.toNat
  | 0x4004 => d.evt.toNat
  | 0x4008 => d.evtEn.toNat
  | 0x400C => d.evals
  | 0x4010 => fld 4 d.katLane + b2n d.katStart
  | 0x4014 => fld 4 d.katPass.toNat + d.katDone.toNat
  | _ => 0

/-- Writes of the draw range. -/
def drawWrite (off v : Nat) (s : State) : State :=
  match off with
  | 0x4004 => { s with draw := { s.draw with evt := clearBits s.draw.evt v } }
  | 0x4008 => { s with draw := { s.draw with evtEn := BitVec.ofNat 2 v } }
  | 0x4010 => { s with draw := { s.draw with katLane := bits v 4 2, katStart := s.draw.katStart || bit v 0 } }
  | _ => s

/-- RC registers of the draw range. -/
def drawClear (off : Nat) (s : State) : State := if off = 0x400C then { s with draw := { s.draw with evals := 0 } } else s

/-! ### Memory system (13 R449) -/

/-- A bucket's register. -/
def bucketWord (b : Bucket) : Nat := fld 16 b.depth + b.rate

/-- A write of a bucket's register: a DEPTH below 64 leaves that field. -/
def bucketWrite (v : Nat) (b : Bucket) : Bucket := { b with depth := if bits v 16 16 < 64 then b.depth else bits v 16 16, rate := bits v 0 16 }

/-- Buffers of all pools that satisfy a condition on their state. -/
def quarantinedBufs (s : State) : Nat := (s.pools.map (fun p => (p.2.bufs.filter (fun b => b.2 == .quarantined)).length)).sum

/-- The words of 0x00_5000-0x00_5FFF. -/
def memRead (s : State) (off : Nat) : Nat :=
  let m := s.mem
  if 0x5400 ≤ off && off < 0x5800 then bucketWord (Tbl.getD m.ctxBuckets ((off - 0x5400) / 4) {})
  else match off with
  | 0x5004 => m.evt.toNat
  | 0x5008 => m.evtEn.toNat
  | 0x500C => fld 8 m.faultCause + m.faultSource
  | 0x5010 => bucketWord m.class1
  | 0x5014 => bucketWord m.class2
  | 0x5018 => bucketWord m.class3
  | 0x5020 => (s.pools.map (·.2.count)).sum
  | 0x5024 => quarantinedBufs s
  | 0x5030 => (s.shelf.entries.filter (·.visible)).length
  | 0x5034 => (s.shelf.entries.filter (shelfPinned s)).length
  | 0x5038 => s.shelf.hits
  | 0x503C => s.shelf.misses
  | 0x5040 => s.shelf.skips
  | 0x5050 => fld 16 m.dramRate + b2n m.stockSweep
  | 0x5054 => fld 16 m.scrubQuire + m.scrubWorst
  | 0x5058 => m.scrubCorr
  | 0x505C => m.scrubUncorr
  | 0x5060 => 4 * m.quarantine.length
  | _ => 0

/-- Writes of the memory-system range. -/
def memWrite (off v : Nat) (s : State) : State :=
  let m := s.mem
  if 0x5400 ≤ off && off < 0x5800 then
    let c := (off - 0x5400) / 4
    { s with mem := { m with ctxBuckets := Tbl.set m.ctxBuckets c (bucketWrite v (Tbl.getD m.ctxBuckets c {})) } }
  else match off with
  | 0x5004 => { s with mem := { m with evt := clearBits m.evt v } }
  | 0x5008 => { s with mem := { m with evtEn := BitVec.ofNat 5 v } }
  | 0x5010 => { s with mem := { m with class1 := bucketWrite v m.class1 } }
  | 0x5014 => { s with mem := { m with class2 := bucketWrite v m.class2 } }
  | 0x5018 => { s with mem := { m with class3 := bucketWrite v m.class3 } }
  | 0x5050 => { s with mem := { m with dramRate := if bits v 16 16 = 0 then m.dramRate else bits v 16 16, stockSweep := bit v 0 } }
  | _ => s

/-- RC registers of the memory-system range. -/
def memClear (off : Nat) (s : State) : State :=
  match off with
  | 0x5038 => { s with shelf := { s.shelf with hits := 0 } }
  | 0x503C => { s with shelf := { s.shelf with misses := 0 } }
  | 0x5040 => { s with shelf := { s.shelf with skips := 0 } }
  | 0x5058 => { s with mem := { s.mem with scrubCorr := 0 } }
  | 0x505C => { s with mem := { s.mem with scrubUncorr := 0 } }
  | _ => s

/-! ### The whole window (02 R46) -/

/-- The offset names a register of the keeper domain (02 R45). -/
def keeperReg (a : Nat) : Bool :=
  if a < 0x400 then powerKeeper a
  else if a < 0x800 then controlKeeper a
  else if 0x6000 ≤ a && a < 0x7000 then faultKeeper a
  else if 0x7000 ≤ a && a < 0x7018 then true
  else if 0x8000 ≤ a && a < 0x9000 then eventKeeper a
  else 0x9000 ≤ a && a < 0x9100

/-- The word that a read from the host side returns. -/
def regRead (s : State) (a : Nat) : Nat :=
  match boxOf a with
  | some (b, off) => boxRead s b off
  | none =>
    if a < 0x100 then identRead s a
    else if a < 0x400 then powerRead s a
    else if a < 0x800 then controlRead s a
    else if a < 0x1000 then 0
    else if a < 0x2000 then pressRead s a
    else if a < 0x3000 then (match portOfs a with | some (p, off) => snsRead s p off | none => pktRegRead s (a - 0x2F80))
    else if a < 0x4000 then codecRead s a
    else if a < 0x5000 then drawRead s a
    else if a < 0x6000 then memRead s a
    else if a < 0x7000 then faultRead s a
    else if a < 0x8000 then keepRegRead s a
    else if a < 0x9000 then eventRead s a
    else if a < 0x100000 then timeRead s a
    else if (s.ctx (pageCtx a)).st == .closed then 0
    else ctxRead s (pageCtx a) (pageOff a)

/-- The effect of a write; `core` marks one by a core pair. Semaphores take writes of the cores and the TAP, not of the host (04 R122). -/
def regWrite (core : Bool) (ext : ExtMem) (a v : Nat) (s : State) : State :=
  match boxOf a with
  | some (b, off) => boxWrite b off v s
  | none =>
    if a < 0x100 then s
    else if a < 0x400 then powerWrite a v s
    else if a < 0x800 then controlWrite a v s
    else if a < 0x1000 then s
    else if a < 0x2000 then pressWrite core a v s
    else if a < 0x3000 then (match portOfs a with | some (p, off) => snsWrite p off v s | none => pktRegWrite ext (a - 0x2F80) v s)
    else if a < 0x4000 then codecWrite a v s
    else if a < 0x5000 then drawWrite a v s
    else if a < 0x6000 then memWrite a v s
    else if a < 0x7000 then faultWrite a v s
    else if a < 0x8000 then keepRegWrite a v s
    else if a < 0x9000 then eventWrite a v s
    else if a < 0x100000 then timeWrite a v s
    else if (s.ctx (pageCtx a)).st == .closed then s
    else ctxWrite (pageCtx a) (pageOff a) v s

/-- The side effect of a non-debug read. -/
def regClear (a : Nat) (s : State) : State :=
  match boxOf a with
  | some (b, off) => if off = 0x190 && boxOpen s b then takeNotice b s else s
  | none =>
    if a < 0x100 then s
    else if a < 0x400 then powerClear a s
    else if a < 0x800 then controlClear a s
    else if a < 0x1000 then s
    else if a < 0x2000 then pressClear a s
    else if a < 0x3000 then (match portOfs a with | some (p, off) => snsClear p off s | none => pktRegClear (a - 0x2F80) s)
    else if a < 0x4000 then codecClear a s
    else if a < 0x5000 then drawClear a s
    else if a < 0x6000 then memClear a s
    else if a < 0x7000 then faultClear a s
    else if a < 0x8000 then s
    else if a < 0x9000 then eventClear a s
    else if a < 0x100000 then timeClear a s
    else s

/-! ### Accesses -/

/-- The domain of the register runs. -/
def regUp (s : State) (a : Nat) : Bool := if keeperReg a then s.keeperUp else s.mainUp

/-- SEMn that an offset names (04 R122). -/
def semOf (a : Nat) : Option Nat := if 0x600 ≤ a && a < 0x700 then some ((a - 0x600) / 4) else none

/-- The semaphore agent of an accessing agent; the host is none. -/
def semAgent : Agent → Option SemAgent | .host => none | .pair0 => some .pair0 | .pair1 => some .pair1 | .tap => some .tap

/-- The agent can make an access: a pair while it runs (04 R122). -/
def agentUp (s : State) (g : Agent) : Bool := match semAgent g with | some x => agentLive s x | none => true

/-- A write by an agent other than the host, which has no control-port response: of SEMn as the agent, else as an ordinary
privileged write (04 R122, R126; log 66). -/
def agentWrite (g : Agent) (ext : ExtMem) (a v : Nat) (s : State) : State :=
  match semAgent g, semOf a with
  | some x, some n => semWrite x n v s
  | _, _ => if agentUp s g && regUp s a && mapped a then regWrite (g != .tap) ext a v s else s

/-- REGISTER_WRITE: the decode of R41, then the effect. -/
def registerWrite (g : Agent) (a v be : Nat) (priv : Bool) (ext : ExtMem) (s : State) : State :=
  if g != .host then agentWrite g ext a v s
  else if be ≠ 15 || !mapped a then respond 2 0 s
  else if keeperReg a then keeperWrite priv (regWrite false ext a v) s
  else mainWrite (needsPriv a) priv (regWrite false ext a v) s

/-- A read by an agent other than the host: of SEMn as the agent, else of the register; the word goes back on the agent's own path
(04 R119, R121, R122, R126). A debug read has no side effect (00 R6). -/
def agentRead (x : SemAgent) (up debug : Bool) (a : Nat) (s : State) : State :=
  match semOf a with
  | some n => semRead x n debug s
  | none =>
    if up && regUp s a && mapped a then
      let s1 := putRead x (regRead s a) s
      if debug then s1 else regClear a s1
    else s

/-- RC_REGISTER_READ: the decode of R41, where a byte enable other than 0b1111 is UNMAPPED; reads of the TAP are debug reads (04 R126). -/
def registerRead (g : Agent) (a be : Nat) (priv debug : Bool) (s : State) : State :=
  match semAgent g with
  | none =>
    if be ≠ 15 || !mapped a then respond 2 0 s
    else if keeperReg a then keeperRead priv debug (regRead · a) (regClear a) s
    else mainRead (needsPriv a) priv debug (regRead · a) (regClear a) s
  | some x => agentRead x (agentUp s g) (debug || g == .tap) a s

/-! ### Commands -/

/-- REGISTER_WRITE (00 R5). -/
def execRegisterWrite (dt : Nat) (agent : Agent) (addr data be : Nat) (priv : Bool) (mem : ExtMem) (s : State) :
    Host.Outcome State Fault Refusal :=
  event (Instr.registerWrite dt agent addr data be priv mem).wf dt s (registerWrite agent addr data be priv mem)

/-- RC_REGISTER_READ (00 R5). -/
def execRcRegisterRead (dt : Nat) (agent : Agent) (addr : Nat) (req : ReadReq) (debug : Bool) (s : State) : Host.Outcome State Fault Refusal :=
  event (Instr.rcRegisterRead dt agent addr req debug).wf dt s (registerRead agent addr req.be req.priv debug)

/-- SNS_FS_LO_READ (08 R253). -/
def execSnsFsLoRead (dt port : Nat) (priv debug : Bool) (s : State) : Host.Outcome State Fault Refusal :=
  event (Instr.snsFsLoRead dt port priv debug).wf dt s (mainRead true priv debug (fun s => snsRead s port 0x30) (snsClear port 0x30))

end Sys2Proof.Machine
end

