-- ==== Sys2Proof/Machine/RingCmds.lean ====
section
/-! DEFINITION. Commands on work rings and the entries that need no stages (06 R187-R214). -/

namespace Sys2Proof.Machine

/-- RING_DOORBELL: TAIL is bits 16:0 of the word written, the reserved bits above are ignored (06 R185, R187). -/
def execRingDoorbell (dt ctx ring v : Nat) (s : State) : Host.Outcome State Fault Refusal :=
  event (Instr.ringDoorbell dt ctx ring v).wf dt s (mainWrite false true (doorbell ctx ring (bits v 0 17)))

/-- RING_PAUSE: RINGn_CTL written 0 (06 R210). -/
def execRingPause (dt ctx ring : Nat) (s : State) : Host.Outcome State Fault Refusal :=
  event (Instr.ringPause dt ctx ring).wf dt s (mainWrite false true (ringCtl ctx ring 0))

/-- RING_RESUME: ENABLE written 1 (06 R210). -/
def execRingResume (dt ctx ring : Nat) (s : State) : Host.Outcome State Fault Refusal :=
  event (Instr.ringResume dt ctx ring).wf dt s (mainWrite false true (ringCtl ctx ring 1))

/-- RING_ABORT: ABORT written 1 (06 R210). -/
def execRingAbort (dt ctx ring : Nat) (s : State) : Host.Outcome State Fault Refusal :=
  event (Instr.ringAbort dt ctx ring).wf dt s (mainWrite false true (ringCtl ctx ring 2))

/-- RING_CTL_RESET: RESET written 1 (06 R211). -/
def execRingCtlReset (dt ctx ring : Nat) (s : State) : Host.Outcome State Fault Refusal :=
  event (Instr.ringCtlReset dt ctx ring).wf dt s (mainWrite false true (ringCtl ctx ring 4))

/-- RING_FETCH_ISSUE (06 R188, R189, R191). -/
def execRingFetchIssue (dt : Nat) (s : State) : Host.Outcome State Fault Refusal :=
  event (Instr.ringFetchIssue dt).wf dt s fetchTurn

/-- ENTRY_FETCHED (06 R188, R194-R198). -/
def execEntryFetched (dt ctx ring : Nat) (s : State) : Host.Outcome State Fault Refusal :=
  event (Instr.entryFetched dt ctx ring).wf dt s (entryFetched ctx ring)

/-- FREE_BUFFER (06 R197). -/
def execFreeBuffer (dt ctx ring count : Nat) (s : State) : Host.Outcome State Fault Refusal :=
  event (Instr.freeBuffer dt ctx ring count).wf dt s (freeBuffer ctx ring count)

/-- SHELF_EVICT (06 R193, 13 R442). -/
def execShelfEvict (dt ctx ring count : Nat) (s : State) : Host.Outcome State Fault Refusal :=
  event (Instr.shelfEvict dt ctx ring count).wf dt s (shelfEvict ctx ring count)

/-- FENCE (06 R200). -/
def execFence (dt ctx ring count : Nat) (s : State) : Host.Outcome State Fault Refusal :=
  event (Instr.fence dt ctx ring count).wf dt s (fenceEntry ctx ring count)

/-- NOP (06 R193, R208). -/
def execNop (dt ctx ring count : Nat) (s : State) : Host.Outcome State Fault Refusal :=
  event (Instr.nop dt ctx ring count).wf dt s (nopEntry ctx ring count)

/-- ENTRY_DEADLINE (06 R201). -/
def execEntryDeadline (dt ctx ring count : Nat) (s : State) : Host.Outcome State Fault Refusal :=
  event (Instr.entryDeadline dt ctx ring count).wf dt s (entryDeadline ctx ring count)

end Sys2Proof.Machine
end

