-- ==== Sys2Proof/Machine/Dispatch.lean ====
section
/-! DEFINITION. The dispatch of every command to its meaning. -/

namespace Sys2Proof.Machine

/-- The effect of a command on everything but the queue. -/
def exec (i : Instr) (s : State) : Host.Outcome State Fault Refusal :=
  match i with
  | .gxPorstNAssert dt => Sys2Proof.Machine.execGxPorstNAssert dt s
  | .gxPorstNDeassert dt inst group saddr mfr => Sys2Proof.Machine.execGxPorstNDeassert dt inst group saddr mfr s
  | .gxRstNAssert dt => Sys2Proof.Machine.execGxRstNAssert dt s
  | .gxRstNDeassert dt keyHash keyValid => Sys2Proof.Machine.execGxRstNDeassert dt keyHash keyValid s
  | .wakeTimerExpiry dt => Sys2Proof.Machine.execWakeTimerExpiry dt s
  | .pgInputChange dt rail level => Sys2Proof.Machine.execPgInputChange dt rail level s
  | .clkAckChange dt clk level => Sys2Proof.Machine.execClkAckChange dt clk level s
  | .pwrTargetKeep dt priv => Sys2Proof.Machine.execPwrTargetKeep dt priv s
  | .keepEntry dt => Sys2Proof.Machine.execKeepEntry dt s
  | .pwrTargetStandby dt priv => Sys2Proof.Machine.execPwrTargetStandby dt priv s
  | .pwrTargetActive dt priv => Sys2Proof.Machine.execPwrTargetActive dt priv s
  | .oppAckSeen dt => Sys2Proof.Machine.execOppAckSeen dt s
  | .oppAckTimeout dt => Sys2Proof.Machine.execOppAckTimeout dt s
  | .clockMonitorWindow dt clk stopped edges => Sys2Proof.Machine.execClockMonitorWindow dt clk stopped edges s
  | .supplyMonitorChange dt rail warn fail => Sys2Proof.Machine.execSupplyMonitorChange dt rail warn fail s
  | .thermalSample dt readings => Sys2Proof.Machine.execThermalSample dt readings s
  | .timeStrobeEdge dt timeIn valid j => Sys2Proof.Machine.execTimeStrobeEdge dt timeIn valid j s
  | .tbCompareWindowEnd dt edge => Sys2Proof.Machine.execTbCompareWindowEnd dt edge s
  | .timeInLossTimeout dt validFell => Sys2Proof.Machine.execTimeInLossTimeout dt validFell s
  | .kclkLoss dt => Sys2Proof.Machine.execKclkLoss dt s
  | .tbRelock dt priv => Sys2Proof.Machine.execTbRelock dt priv s
  | .tbRefSelWrite dt priv kclk => Sys2Proof.Machine.execTbRefSelWrite dt priv kclk s
  | .tbNowLoRead dt priv debug => Sys2Proof.Machine.execTbNowLoRead dt priv debug s
  | .gxSafeReqEdge dt level => Sys2Proof.Machine.execGxSafeReqEdge dt level s
  | .safeCtlEnter dt priv => Sys2Proof.Machine.execSafeCtlEnter dt priv s
  | .planSyncEdge dt j => Sys2Proof.Machine.execPlanSyncEdge dt j s
  | .planSyncTimeout dt => Sys2Proof.Machine.execPlanSyncTimeout dt s
  | .hostIdleEdge dt t level => Sys2Proof.Machine.execHostIdleEdge dt t level s
  | .registerWrite dt agent addr data be priv mem => Sys2Proof.Machine.execRegisterWrite dt agent addr data be priv mem s
  | .rcRegisterRead dt agent addr req debug => Sys2Proof.Machine.execRcRegisterRead dt agent addr req debug s
  | .snsFsLoRead dt port priv debug => Sys2Proof.Machine.execSnsFsLoRead dt port priv debug s
  | .mboxGo dt box ack priv => Sys2Proof.Machine.execMboxGo dt box ack priv s
  | .mboxAck dt box priv => Sys2Proof.Machine.execMboxAck dt box priv s
  | .mboxNoticeRead dt box priv debug => Sys2Proof.Machine.execMboxNoticeRead dt box priv debug s
  | .ringDoorbell dt ctx ring v => Sys2Proof.Machine.execRingDoorbell dt ctx ring v s
  | .ringPause dt ctx ring => Sys2Proof.Machine.execRingPause dt ctx ring s
  | .ringResume dt ctx ring => Sys2Proof.Machine.execRingResume dt ctx ring s
  | .ringAbort dt ctx ring => Sys2Proof.Machine.execRingAbort dt ctx ring s
  | .ringCtlReset dt ctx ring => Sys2Proof.Machine.execRingCtlReset dt ctx ring s
  | .pktDoorbell dt ring prod priv => Sys2Proof.Machine.execPktDoorbell dt ring prod priv s
  | .pktRingEnable dt ring priv mem => Sys2Proof.Machine.execPktRingEnable dt ring priv mem s
  | .pktRingDisable dt ring priv mem => Sys2Proof.Machine.execPktRingDisable dt ring priv mem s
  | .ccRestartWrite dt priv => Sys2Proof.Machine.execCcRestartWrite dt priv s
  | .semReadAcquire dt agent n debug => Sys2Proof.Machine.execSemReadAcquire dt agent n debug s
  | .semAcquire dt agent n => Sys2Proof.Machine.execSemAcquire dt agent n s
  | .semRenew dt agent n lease => Sys2Proof.Machine.execSemRenew dt agent n lease s
  | .semRelease dt agent n => Sys2Proof.Machine.execSemRelease dt agent n s
  | .leaseExpiry dt n => Sys2Proof.Machine.execLeaseExpiry dt n s
  | .debugHalt dt priv pair halt => Sys2Proof.Machine.execDebugHalt dt priv pair halt s
  | .debugStep dt priv pair => Sys2Proof.Machine.execDebugStep dt priv pair s
  | .freezeLeaseWrite dt priv v => Sys2Proof.Machine.execFreezeLeaseWrite dt priv v s
  | .debugChallenge dt ask out => Sys2Proof.Machine.execDebugChallenge dt ask out s
  | .debugUnlockResponse dt key sig testMode => Sys2Proof.Machine.execDebugUnlockResponse dt key sig testMode s
  | .debugChallengeTimeout dt => Sys2Proof.Machine.execDebugChallengeTimeout dt s
  | .tgtClaim dt t priv debug => Sys2Proof.Machine.execTgtClaim dt t priv debug s
  | .tgtComplete dt t src priv => Sys2Proof.Machine.execTgtComplete dt t src priv s
  | .faultAcknowledge dt src priv => Sys2Proof.Machine.execFaultAcknowledge dt src priv s
  | .faultFirstClr dt priv => Sys2Proof.Machine.execFaultFirstClr dt priv s
  | .faultLogRead dt priv debug => Sys2Proof.Machine.execFaultLogRead dt priv debug s
  | .fiArm dt priv mode src cause cls => Sys2Proof.Machine.execFiArm dt priv mode src cause cls s
  | .drawKatStart dt priv lane => Sys2Proof.Machine.execDrawKatStart dt priv lane s
  | .pressHb dt => Sys2Proof.Machine.execPressHb dt s
  | .pressSparesWrite dt priv k => Sys2Proof.Machine.execPressSparesWrite dt priv k s
  | .mgmtLock dt priv => Sys2Proof.Machine.execMgmtLock dt priv s
  | .mailboxOpen dt mem outs => Sys2Proof.Machine.execMailboxOpen dt mem outs s
  | .fwConfirm dt outs => Sys2Proof.Machine.execFwConfirm dt outs s
  | .fwConfirmRetry dt outs => Sys2Proof.Machine.execFwConfirmRetry dt outs s
  | .watchdogExpiry dt pair => Sys2Proof.Machine.execWatchdogExpiry dt pair s
  | .lockstepMismatch dt pair => Sys2Proof.Machine.execLockstepMismatch dt pair s
  | .controlSramError dt word finding => Sys2Proof.Machine.execControlSramError dt word finding s
  | .coreException dt core cause faultAddr => Sys2Proof.Machine.execCoreException dt core cause faultAddr s
  | .mmuRefusal dt => Sys2Proof.Machine.execMmuRefusal dt s
  | .getVersion dt box => Sys2Proof.Machine.execGetVersion dt box s
  | .openContext dt box => Sys2Proof.Machine.execOpenContext dt box s
  | .closeContext dt box mem => Sys2Proof.Machine.execCloseContext dt box mem s
  | .contextClosed dt ctx => Sys2Proof.Machine.execContextClosed dt ctx s
  | .loadBinding dt box mem alloc => Sys2Proof.Machine.execLoadBinding dt box mem alloc s
  | .loadBindingReplace dt box mem => Sys2Proof.Machine.execLoadBindingReplace dt box mem s
  | .admitBinding dt box => Sys2Proof.Machine.execAdmitBinding dt box s
  | .admissionTakesEffect dt handle => Sys2Proof.Machine.execAdmissionTakesEffect dt handle s
  | .retireBinding dt box => Sys2Proof.Machine.execRetireBinding dt box s
  | .bindingLeavesPlan dt handle => Sys2Proof.Machine.execBindingLeavesPlan dt handle s
  | .attachStream dt box => Sys2Proof.Machine.execAttachStream dt box s
  | .streamAttached dt stream => Sys2Proof.Machine.execStreamAttached dt stream s
  | .detachAfterFrame dt box => Sys2Proof.Machine.execDetachAfterFrame dt box s
  | .detachAtOnce dt box => Sys2Proof.Machine.execDetachAtOnce dt box s
  | .defineSyncGroup dt box => Sys2Proof.Machine.execDefineSyncGroup dt box s
  | .syncGroupEffect dt group => Sys2Proof.Machine.execSyncGroupEffect dt group s
  | .createPool dt box => Sys2Proof.Machine.execCreatePool dt box s
  | .destroyPool dt box => Sys2Proof.Machine.execDestroyPool dt box s
  | .poolDrained dt handle cls => Sys2Proof.Machine.execPoolDrained dt handle cls s
  | .setGuard dt box => Sys2Proof.Machine.execSetGuard dt box s
  | .setDrawKey dt box => Sys2Proof.Machine.execSetDrawKey dt box s
  | .loadCoeff dt box mem => Sys2Proof.Machine.execLoadCoeff dt box mem s
  | .updateFinalState dt obj => Sys2Proof.Machine.execUpdateFinalState dt obj s
  | .setEnergyBudget dt box => Sys2Proof.Machine.execSetEnergyBudget dt box s
  | .shelfRegion dt box => Sys2Proof.Machine.execShelfRegion dt box s
  | .shelfQuota dt box => Sys2Proof.Machine.execShelfQuota dt box s
  | .shelfFlush dt box => Sys2Proof.Machine.execShelfFlush dt box s
  | .ringCreate dt box => Sys2Proof.Machine.execRingCreate dt box s
  | .ringResetDrain dt box => Sys2Proof.Machine.execRingResetDrain dt box s
  | .ringResetAbort dt box => Sys2Proof.Machine.execRingResetAbort dt box s
  | .ringResetDestroy dt box => Sys2Proof.Machine.execRingResetDestroy dt box s
  | .ringResetDone dt ctx ring => Sys2Proof.Machine.execRingResetDone dt ctx ring s
  | .queryStats dt box => Sys2Proof.Machine.execQueryStats dt box s
  | .keepRead dt box => Sys2Proof.Machine.execKeepRead dt box s
  | .keepWrite dt box out => Sys2Proof.Machine.execKeepWrite dt box out s
  | .fwStage dt box mem => Sys2Proof.Machine.execFwStage dt box mem s
  | .fwActivate dt box out => Sys2Proof.Machine.execFwActivate dt box out s
  | .ringFetchIssue dt => Sys2Proof.Machine.execRingFetchIssue dt s
  | .entryFetched dt ctx ring => Sys2Proof.Machine.execEntryFetched dt ctx ring s
  | .submit dt ctx ring count mem => Sys2Proof.Machine.execSubmit dt ctx ring count mem s
  | .freeBuffer dt ctx ring count => Sys2Proof.Machine.execFreeBuffer dt ctx ring count s
  | .shelfEvict dt ctx ring count => Sys2Proof.Machine.execShelfEvict dt ctx ring count s
  | .fence dt ctx ring count => Sys2Proof.Machine.execFence dt ctx ring count s
  | .nop dt ctx ring count => Sys2Proof.Machine.execNop dt ctx ring count s
  | .draw dt ctx ring count => Sys2Proof.Machine.execDraw dt ctx ring count s
  | .entryDeadline dt ctx ring count => Sys2Proof.Machine.execEntryDeadline dt ctx ring count s
  | .slotBoundary dt mem katFail => Sys2Proof.Machine.execSlotBoundary dt mem katFail s
  | .pressPeriodStart dt flagged => Sys2Proof.Machine.execPressPeriodStart dt flagged s
  | .stageBarrier dt work strip => Sys2Proof.Machine.execStageBarrier dt work strip s
  | .folioCompare dt work index a b rel => Sys2Proof.Machine.execFolioCompare dt work index a b rel s
  | .folioCompareTimeout dt work index => Sys2Proof.Machine.execFolioCompareTimeout dt work index s
  | .replayDone dt work index copy quireFault => Sys2Proof.Machine.execReplayDone dt work index copy quireFault s
  | .memReadBeat dt port tag data beat last poison resp => Sys2Proof.Machine.execMemReadBeat dt port tag data beat last poison resp s
  | .memWriteResponse dt port tag resp => Sys2Proof.Machine.execMemWriteResponse dt port tag resp s
  | .memTimeout dt port tag => Sys2Proof.Machine.execMemTimeout dt port tag s
  | .viewAbandon dt work => Sys2Proof.Machine.execViewAbandon dt work s
  | .csi2LongPacket dt port vc dtype ecc payload crcOk fifoLost storeErr => Sys2Proof.Machine.execCsi2LongPacket dt port vc dtype ecc payload crcOk fifoLost storeErr s
  | .frameStart dt port vc fn ecc j stampLost => Sys2Proof.Machine.execFrameStart dt port vc fn ecc j stampLost s
  | .frameEnd dt port vc fn ecc j stampLost => Sys2Proof.Machine.execFrameEnd dt port vc fn ecc j stampLost s
  | .lineStart dt port vc ecc => Sys2Proof.Machine.execLineStart dt port vc ecc s
  | .lineEnd dt port vc ecc => Sys2Proof.Machine.execLineEnd dt port vc ecc s
  | .lineTimeout dt stream => Sys2Proof.Machine.execLineTimeout dt stream s
  | .pclkWindow dt port edges => Sys2Proof.Machine.execPclkWindow dt port edges s
  | .stripReady dt work strip => Sys2Proof.Machine.execStripReady dt work strip s
  | .stripBufferRelease dt work strip => Sys2Proof.Machine.execStripBufferRelease dt work strip s
  | .syncWindowExpiry dt group => Sys2Proof.Machine.execSyncWindowExpiry dt group s
  | .pktParse dt ring mem => Sys2Proof.Machine.execPktParse dt ring mem s
  | .pktGapTimeout dt ring mem => Sys2Proof.Machine.execPktGapTimeout dt ring mem s
  | .motionRecordRetry dt ring mem => Sys2Proof.Machine.execMotionRecordRetry dt ring mem s
  | .regulatorRefill dt => Sys2Proof.Machine.execRegulatorRefill dt s
  | .scrubPass dt quire findings => Sys2Proof.Machine.execScrubPass dt quire findings s
  | .scrubRetry dt quire findings => Sys2Proof.Machine.execScrubRetry dt quire findings s
  | .selftestStep dt => Sys2Proof.Machine.execSelftestStep dt s
  | .selftestStepEnd dt pass => Sys2Proof.Machine.execSelftestStepEnd dt pass s
  | .migrationStart dt quire => Sys2Proof.Machine.execMigrationStart dt quire s
  | .migrationHandover dt quire handle => Sys2Proof.Machine.execMigrationHandover dt quire handle s
  | .migrationAbandonTimeout dt quire => Sys2Proof.Machine.execMigrationAbandonTimeout dt quire s
  | .coeffReloadDone dt handle gen set seg mem => Sys2Proof.Machine.execCoeffReloadDone dt handle gen set seg mem s
  | .faultReport dt faults => Sys2Proof.Machine.execFaultReport dt faults s
  | .faultPulseEnd dt => Sys2Proof.Machine.execFaultPulseEnd dt s
  | .keepScan dt corrected bad => Sys2Proof.Machine.execKeepScan dt corrected bad s
  | .keepRecordWrite dt out => Sys2Proof.Machine.execKeepRecordWrite dt out s
  | .keepWarnTimeout dt => Sys2Proof.Machine.execKeepWarnTimeout dt s
  | .journalAppend dt outs => Sys2Proof.Machine.execJournalAppend dt outs s
  | .journalRetry dt outs => Sys2Proof.Machine.execJournalRetry dt outs s
  | .journalCompaction dt outs => Sys2Proof.Machine.execJournalCompaction dt outs s
  | .mramRailRelease dt => Sys2Proof.Machine.execMramRailRelease dt s
  | .evtSignal dt t => Sys2Proof.Machine.execEvtSignal dt t s
  | .evtMessage dt t => Sys2Proof.Machine.execEvtMessage dt t s
  | .moderationExpiry dt t => Sys2Proof.Machine.execModerationExpiry dt t s
  | .evtStateParity dt kind => Sys2Proof.Machine.execEvtStateParity dt kind s
  | .entdaa dt addr => Sys2Proof.Machine.execEntdaa dt addr s
  | .setdasa dt saddr addr => Sys2Proof.Machine.execSetdasa dt saddr addr s
  | .setnewda dt addr => Sys2Proof.Machine.execSetnewda dt addr s
  | .rstdaa dt => Sys2Proof.Machine.execRstdaa dt s
  | .enec dt enint => Sys2Proof.Machine.execEnec dt enint s
  | .disec dt enint => Sys2Proof.Machine.execDisec dt enint s
  | .getpid dt => Sys2Proof.Machine.execGetpid dt s
  | .getbcr dt => Sys2Proof.Machine.execGetbcr dt s
  | .getdcr dt => Sys2Proof.Machine.execGetdcr dt s
  | .getmwl dt => Sys2Proof.Machine.execGetmwl dt s
  | .getmrl dt => Sys2Proof.Machine.execGetmrl dt s
  | .getstatus dt => Sys2Proof.Machine.execGetstatus dt s
  | .i3cPrivateWrite dt bytes parityErr overrun => Sys2Proof.Machine.execI3cPrivateWrite dt bytes parityErr overrun s
  | .i3cPrivateRead dt n underrun => Sys2Proof.Machine.execI3cPrivateRead dt n underrun s
  | .kread dt => Sys2Proof.Machine.execKread dt s
  | .kwrite dt out => Sys2Proof.Machine.execKwrite dt out s
  | .wake dt => Sys2Proof.Machine.execWake dt s
  | .restart dt => Sys2Proof.Machine.execRestart dt s
  | .ibiSend dt nacked => Sys2Proof.Machine.execIbiSend dt nacked s
  | .keeperInitDone dt => Sys2Proof.Machine.execKeeperInitDone dt s
  | .genericShortPacket dt port ecc => Sys2Proof.Machine.execGenericShortPacket dt port ecc s
  | .closeResponseHoldExpiry dt ctx => Sys2Proof.Machine.execCloseResponseHoldExpiry dt ctx s
  | .stockSweep dt pool buf resp poisoned => Sys2Proof.Machine.execStockSweep dt pool buf resp poisoned s
  | .minimumHighTimeEnd dt => Sys2Proof.Machine.execMinimumHighTimeEnd dt s
  | .idleRecordAck dt src => Sys2Proof.Machine.execIdleRecordAck dt src s

end Sys2Proof.Machine
end

