-- ==== Sys2Proof/Safety.lean ====
section
/-! DEFINITION. What claims mean by a safe run of the block. -/

namespace Sys2Proof.Safety

open Sys2Proof.Machine

/-- The queue holds only commands that the hardware can be given. -/
def queueOk (s : State) : Prop := ∀ c ∈ s.pending, c.wf = true

/-- The step answers a next state. -/
def completes (s : State) : Prop := ∃ t, step s = .next t

/-- Nothing that a command could end is under way: device safe state is not being entered, no stream is being detached, and no packet
ring is stopping. -/
def quiet (s : State) : Prop :=
  s.faults.safe ≠ .entering ∧ (∀ p ∈ s.streams, p.2.st ≠ .detaching) ∧ ∀ r < 8, (s.pring r).stopping = false

/-- Firmware is to carry out the request of a mailbox now: it is command `code`, accepted, in its turn, with its drain met, no close of its own
waiting for an answer, and it passes the checks common to all commands (05 R138, R142, R148). -/
def due (s : State) (box code : Nat) : Prop :=
  serves s box = true ∧ (s.box box).busy = true ∧ (s.box box).accepted = true ∧ (s.box box).cmd = code ∧ s.faults.safe = .normal ∧
    drainMet s (s.box box) = true ∧ inTurn s box = true ∧ closeWaits s box = false ∧
    ∃ sp, cmdSpec code (reqBytes (s.box box)) = some sp ∧ commonFail s box sp (reqBytes (s.box box)) = none

/-- The command has answered a mailbox's request (05 R137): the response stands with a status, a DETAIL and a payload. -/
def answered (s t : State) (box status detail : Nat) (payload : List Byte) : Prop :=
  (t.box box).busy = false ∧ (t.box box).accepted = false ∧ (t.box box).respValid = true ∧
    (t.box box).rsp = responseBytes status detail (s.box box).seq false payload

/-- A deferred request is accepted: OK with DETAIL DONE or PENDING (05 R144). -/
def taken (s t : State) (box : Nat) (payload : List Byte) : Prop := answered s t box 0 0 payload ∨ answered s t box 0 1 payload

/-- The control complex restarts for a cause: both pairs boot, the mailboxes are closed, and LAST_CAUSE names the cause (04 R112, R129). -/
def restarts (t : State) (cause : Nat) : Prop :=
  t.control.restarting = true ∧ t.control.pair0 = .boot ∧ t.control.pair1 = .boot ∧ t.control.fwUp = false ∧ t.control.lastCause = cause

/-- The record of a fault source has a class and a cause (14 R462, R463). -/
def recorded (t : State) (src cls cause : Nat) : Prop := (Tbl.get? t.faults.records src).map (fun r => (r.cls, r.cause)) = some (cls, cause)

/-- Every event target follows its sources: an output that stands at 1 has a source pending at its target, and a target without an
output or an outstanding message works in the mode that its TGT_CFG names (16 R517, R521). -/
def targetsFollow (s : State) : Prop :=
  ∀ p ∈ s.events.targets, (p.2.out = true → (pendingAt s p.1).isSome = true) ∧
    (p.2.out = false → p.2.msgPend = false → p.2.modeNow = p.2.message)

end Sys2Proof.Safety
end

