-- ==== Sys2Proof/Certificates/Slice0/Obligations.lean ====
section
/-! DEFINITION. The statements: what the commands do, family by family, and what the whole block keeps. -/

open Sys2Proof Sys2Proof.Machine

/-! ### The queue and the commands at large -/

/-- A step carries out the command at the front of the queue with the queue's rest; an empty queue idles. This is the model's own
queue (log 1). -/
def Obligations.StepRunsTheFrontCommand : Prop :=
  (∀ (c : Instr) (rest : List Instr) (s : State), s.pending = c :: rest → step s = exec c { s with pending := rest }) ∧
  (∀ s : State, s.pending = [] → step s = .next s)

/-- A command that the hardware can be given always completes, one whose operands name nothing of the hardware stops, and no command touches
the queue: what waits, and its order, is the sender's (log 1). -/
def Obligations.CommandsCompleteAndLeaveTheQueue : Prop :=
  (∀ (c : Instr) (s : State), (c.wf = true → ∃ t, exec c s = .next t) ∧ (c.wf = false → exec c s = .fault .badOperand)) ∧
    ∀ (c : Instr) (s t : State), exec c s = .next t → t.pending = s.pending

/-- An invariant of every step: if only commands that the hardware can be given wait, the step completes and again only such
commands wait. -/
def Obligations.WaitingCommandsStayGiven : Prop :=
  ∀ s : State, Safety.queueOk s → ∃ t, step s = .next t ∧ Safety.queueOk t

/-- After reset no command waits, every event target follows its sources, and the registers read the reset values that the register tables
give, those that are not 0 among them. -/
def Obligations.ResetIsAsStated : Prop :=
  State.reset.pending = [] ∧ Safety.targetsFollow State.reset ∧
    (∀ r ∈ [(0x0000, 0x00020100), (0x0004, 0x40041084), (0x0008, 0x1040FF44), (0x000C, 0x08000100), (0x0010, 0x000000FF), (0x0104, 3),
        (0x0108, 0x200), (0x010C, 0x200), (0x0400, 0xFF00), (0x0408, 1), (0x0430, 0), (0x0984, 0), (0x0884, 4), (0x1000, 4), (0x1008, 0x1F4),
        (0x1020, 0x9470), (0x1028, 0xEA600), (0x2000, 0xFFFF0000), (0x200C, 0xC8), (0x3000, 0), (0x4000, 0xF), (0x5010, 0x04000000),
        (0x5014, 0x04000BB8), (0x5018, 0x040003E8), (0x5050, 0x00400000), (0x57FC, 0x04000000), (0x6004, 0x8E), (0x60A0, 0x03E80003),
        (0x60B0, 1), (0x7000, 0), (0x8600, 0x27), (0x8800, 0x3FF), (0x8FEC, 0x03FF03FF), (0x9008, 2), (0x900C, 2)],
      regRead State.reset r.1 = r.2) ∧
    (∀ c < 256, ∀ off < 0x1000, regRead State.reset (0x100000 + 0x1000 * c + off) = 0)

/-! ### Resets (02 R44, R48, R55, R56, 03 R74) -/

/-- What the two resets do: GX_PORST_N resets the keeper domain with the time base and the fault collector, and the keep-store's
contents stay; its deassertion samples the straps; GX_RST_N clears every mailbox, closes every context and resets the event controller,
and its deassertion starts the wake. -/
def Obligations.ResetsTakeEffect : Prop :=
  (∀ (dt : Nat) (s : State), ∃ t, exec (.gxPorstNAssert dt) s = .next t ∧ t.chip.porstN = false ∧ t.chip.keeperInit = false ∧
    t.tb.now = 0 ∧ t.tb.quality = State.reset.tb.quality ∧ t.faults.records = [] ∧ t.faults.log = [] ∧ t.faults.first = none ∧
    t.mgmt.lock = false ∧ t.keep.mem = s.keep.mem ∧ t.boxes = [] ∧ t.ctxs = []) ∧
  (∀ (dt inst group saddr mfr : Nat) (s : State), inst < 4 → group < 4 → saddr < 128 → mfr < 2048 → s.chip.porstN = false →
    exec (.gxPorstNDeassert dt inst group saddr mfr) s = .next (settle s { s with chip := { s.chip with
      porstN := true, instId := inst, groupM1 := group, i3cSaddr := saddr, jtagMfr := mfr } })) ∧
  (∀ (dt : Nat) (s : State), s.chip.porstN = true → s.chip.keeperInit = false → s.faults.pulseWaits = false →
    ∃ t, exec (.keeperInitDone dt) s = .next t ∧ t.chip.keeperInit = true ∧ t.power.mram.req = true ∧ t.faults.pinLow = false ∧
      t.faults.pinClass = 0) ∧
  (∀ (dt : Nat) (s : State), ∃ t, exec (.gxRstNAssert dt) s = .next t ∧ t.chip.rstN = false ∧ t.boxes = [] ∧ t.ctxs = [] ∧
    t.rings = [] ∧ t.bindings = [] ∧ t.works = [] ∧ t.txs = [] ∧ t.events = State.reset.events ∧ t.faults.log = s.faults.log ∧
    t.mgmt.lock = s.mgmt.lock ∧ t.keep.mem = s.keep.mem) ∧
  (∀ (dt key : Nat) (valid : Bool) (s : State), key < 2 ^ 384 → s.chip.rstN = false → s.chip.porstN = true → s.chip.keeperInit = true →
    ∃ t, exec (.gxRstNDeassert dt key valid) s = .next t ∧ t.chip.rstN = true ∧ t.chip.rootKeyHash = key ∧ t.chip.rootKeyValid = valid ∧
      t.power.ctrl.req = true ∧ t.power.array.req = true ∧ t.power.mram.req = true ∧ t.power.wakePending = false ∧
      (s.power.state = .keep → t.power.wakeCause = Nat.lor s.power.wakeCause 1))

/-! ### Power states and their targets (03 R71-R75) -/

/-- PWR_TARGET: KEEP is stored, acted on at once and then ends in KEEP with every clock and rail request low and the keep-store unchanged;
while a LIVE binding is admitted it is refused with BLOCKED and leaves the target; STANDBY asks for operating point 2, and active leaves
STANDBY for READY and asks for FASTEST. -/
def Obligations.PowerTargets : Prop :=
  (∀ (dt : Nat) (s : State), s.keeperUp = true → s.mainUp = true → s.power.wake = .idle → s.power.state ≠ .enteringKeep →
    s.liveAdmitted = false →
    ∃ t, exec (.pwrTargetKeep dt true) s = .next t ∧ t.power.target = 1 ∧ t.power.state = .enteringKeep ∧ t.power.blocked = false ∧
      t.chip.rspCode = 0) ∧
  (∀ (dt : Nat) (s : State), s.keeperUp = true → s.mainUp = true → s.power.wake = .idle → s.power.state ≠ .enteringKeep →
    s.liveAdmitted = true →
    ∃ t, exec (.pwrTargetKeep dt true) s = .next t ∧ t.power.target = s.power.target ∧ t.power.state = s.power.state ∧
      t.power.keepRefused = true ∧ t.power.blocked = s.power.blocked) ∧
  (∀ (dt : Nat) (s : State), s.power.state = .enteringKeep → s.power.wake = .idle → s.memIdle = true →
    (∀ p ∈ s.rings, p.2.entries = [] ∧ p.2.issued = p.2.head) →
    ∃ t, exec (.keepEntry dt) s = .next t ∧ t.power.state = .keep ∧ t.power.aclk.req = false ∧ t.power.vclk.req = false ∧
      t.power.mclk.req = false ∧ t.power.cclk.req = false ∧ t.power.array.req = false ∧ t.power.ctrl.req = false ∧
      t.power.mram.req = false ∧ t.ctxs = [] ∧ t.keep.mem = s.keep.mem) ∧
  (∀ (dt : Nat) (s : State), s.keeperUp = true → s.mainUp = true → s.power.wake = .idle → s.power.state ≠ .enteringKeep →
    standbyOk s = true → s.press.running = false → s.oppBusy = false → s.power.oppPending ≠ 2 → s.faults.safe = .normal →
    ∃ t, exec (.pwrTargetStandby dt true) s = .next t ∧ t.power.target = 2 ∧ t.power.oppPending = 2 ∧ t.power.oppWait = true ∧
      t.power.blocked = false) ∧
  (∀ (dt : Nat) (s : State), s.keeperUp = true → s.mainUp = true → s.power.wake = .idle → s.power.state = .standby →
    s.power.target = 2 → s.power.blocked = false → s.press.running = false → s.oppBusy = false →
    s.power.oppPending ≠ s.power.fastest → s.faults.safe = .normal →
    ∃ t, exec (.pwrTargetActive dt true) s = .next t ∧ t.power.target = 3 ∧ t.power.state = .ready ∧
      t.power.oppPending = s.power.fastest ∧ t.power.oppWait = true)

/-- In KEEP the end of the wake timer, its milliseconds after KEEP was entered, is a wake cause: it is recorded in WAKE_CAUSE, and with
GX_RST_N deasserted the rails are requested; while GX_RST_N is asserted the cause waits. -/
def Obligations.WakesFromKeep : Prop :=
  (∀ (dt : Nat) (s : State), s.chip.porstN = true → s.chip.rstN = true → s.chip.keeperInit = true → s.power.state = .keep →
    s.power.wake = .idle → s.power.wakeTimer ≠ 0 → s.power.keepSince + 1000000 * s.power.wakeTimer ≤ (advance dt s).now →
    ∃ t, exec (.wakeTimerExpiry dt) s = .next t ∧ t.power.wakeCause = Nat.lor s.power.wakeCause 4 ∧ t.power.ctrl.req = true ∧
      t.power.array.req = true ∧ t.power.mram.req = true) ∧
  (∀ (dt : Nat) (s : State), s.chip.porstN = true → s.chip.rstN = false → s.power.state = .keep → s.power.wakeTimer ≠ 0 →
    s.power.keepSince + 1000000 * s.power.wakeTimer ≤ (advance dt s).now →
    ∃ t, exec (.wakeTimerExpiry dt) s = .next t ∧ t.power.wakeCause = Nat.lor s.power.wakeCause 4 ∧ t.power.wakePending = true ∧
      t.power.ctrl = s.power.ctrl)

/-! ### Clocks, supplies, operating points and heat (03 R75, R79, R80, R83, R84, R87, R551) -/

/-- An input level is followed; an acknowledged operating point becomes current; a point that is not acknowledged is given back with a
fault on source 121; a monitor window within range clears the clock's bad mark. -/
def Obligations.ClocksAndPoints : Prop :=
  (∀ (dt : Nat) (r : Rail) (s : State), r ≠ .keep → ∃ t, exec (.pgInputChange dt r true) s = .next t ∧ (t.rail r).pg = true) ∧
  (∀ (dt : Nat) (r : Rail) (s : State), r ≠ .keep → (s.rail r).up = false → s.power.array.warns = false →
    ∃ t, exec (.pgInputChange dt r false) s = .next t ∧ (t.rail r).pg = false ∧ t.faults.records = s.faults.records) ∧
  (∀ (dt : Nat) (c : Clk) (l : Bool) (s : State), ∃ t, exec (.clkAckChange dt c l) s = .next t ∧ (t.clk c).ack = l) ∧
  (∀ (dt : Nat) (s : State), s.oppBusy = true → s.press.running = true → s.faults.safe = .normal →
    ∃ t, exec (.oppAckSeen dt) s = .next t ∧ t.power.oppCurrent = s.power.oppPending ∧ t.power.oppWait = false ∧
      t.power.oppBookAt = none ∧
      (s.power.target = 2 ∧ s.power.blocked = false ∧ s.power.oppPending = 2 ∧ (s.power.state = .ready ∨ s.power.state = .run) →
        t.power.state = .standby)) ∧
  (∀ (dt : Nat) (s : State), s.power.oppWait = true → s.power.oppReturn = false → Tbl.get? s.faults.records 121 = none →
    s.faults.safe = .normal →
    ∃ t, exec (.oppAckTimeout dt) s = .next t ∧ t.power.oppPending = s.power.oppPrev ∧ t.power.oppReturn = true ∧
      Safety.recorded t 121 2 0x15) ∧
  (∀ (dt edges : Nat) (c : Clk) (s : State), s.chip.porstN = true → (s.clk c).req = true → (s.clk c).ack = true → rateOk s c edges = true →
    ∃ t, exec (.clockMonitorWindow dt c false edges) s = .next t ∧ (t.clk c).bad = false ∧ (t.clk c).down = false)

/-- Supplies and heat: the monitors of a rail that is not in use only show their levels; a warning of a rail in use sets its event and raises
CORRECTED on source 121 or 122 with cause 0x12; TJ_MAX is the highest of the 16 readings, and below 150 C thermal stage 0 holds exactly while
TJ_MAX is below 135 C and, where a stage stood before, at most 133 C. -/
def Obligations.SuppliesAndHeat : Prop :=
  (∀ (dt : Nat) (r : Rail) (warn fail : Bool) (s : State), (s.rail r).up = false → s.power.array.warns = false →
    ∃ t, exec (.supplyMonitorChange dt r warn fail) s = .next t ∧ (t.rail r).warn = warn ∧ (t.rail r).fail = fail ∧
      t.faults.records = s.faults.records) ∧
  (∀ (dt : Nat) (r : Rail) (s : State), s.chip.porstN = true → (s.rail r).up = true → (s.rail r).warn = false → s.power.array.warns = false →
    Tbl.get? s.faults.records (if r = .array then 121 else 122) = none →
    ∃ t, exec (.supplyMonitorChange dt r true false) s = .next t ∧ (t.rail r).warn = true ∧ (t.rail r).evtWarn = true ∧
      Safety.recorded t (if r = .array then 121 else 122) 1 0x12) ∧
  (∀ (dt : Nat) (readings : List Int) (s : State), readings.length = 16 → (∀ x ∈ readings, -32768 ≤ x ∧ x < 32768) → s.mainUp = true →
    (∀ x ∈ readings, x < 600) → s.power.stage ≠ 3 →
    ∃ t, exec (.thermalSample dt readings) s = .next t ∧ t.power.tjMax ∈ readings ∧ (∀ x ∈ readings, x ≤ t.power.tjMax) ∧
      (t.power.stage = 0 ↔ t.power.tjMax < 540 ∧ (s.power.stage = 0 ∨ t.power.tjMax ≤ 532)))

/-! ### The time base (03 R88-R94) -/

/-- The time base: the first strobe of a selected TIME_IN loads it; a later one within 1 ms slews it towards TIME_IN at no more than 500 ppm; a
good window keeps its rate and clears the count, a bad one counts, each by TIME_IN on the line between the accepted strobes; and a read of
TB_NOW_LO returns the low word and, unless it is a debug read, latches the high one. -/
def Obligations.TimeBaseFollowsItsReference : Prop :=
  (∀ (dt timeIn : Nat) (j : Int) (s : State), timeIn < 2 ^ 64 → s.chip.porstN = true → s.chip.keeperInit = true → s.tb.loaded = false →
    s.tb.selKclk = false → s.tb.selNext = none →
    ∃ t, exec (.timeStrobeEdge dt timeIn true j) s = .next t ∧ t.tb.now = timeIn ∧ t.tb.loaded = true ∧ t.tb.timeLost = false ∧
      t.tb.quality = (if s.tb.quality = 2 then 0 else s.tb.quality)) ∧
  (∀ (dt timeIn : Nat) (j : Int) (s : State), timeIn < 2 ^ 64 → s.chip.porstN = true → s.chip.keeperInit = true → s.tb.loaded = true →
    s.tb.selKclk = false → s.tb.selNext = none → s.tb.quality = 0 → ((timeIn : Int) - stampAt (advance dt s) j).natAbs ≤ 1000000 →
    ∃ t, exec (.timeStrobeEdge dt timeIn true j) s = .next t ∧ t.tb.now = (s.tb.now + dt) % 2 ^ 64 ∧ t.tb.lastTimeIn = timeIn ∧
      -500000 ≤ t.tb.rate ∧ t.tb.rate ≤ 500000 ∧ t.tb.rate.sign = ((timeIn : Int) - stampAt (advance dt s) j).sign ∧ t.tb.quality = 0) ∧
  (∀ (dt edge : Nat) (u v : Int) (s : State), edge < 2 ^ 64 → s.tb.selNext = none → edgeDue s edge = true → s.tb.quality ≠ 1 →
    s.tb.edgeTimeIn = some u → interpolate edge s.tb.strobeLog = some v → (windowDiff (v - u)).natAbs ≤ 100000 →
    ∃ t, exec (.tbCompareWindowEnd dt edge) s = .next t ∧ t.tb.diff = windowDiff (v - u) ∧ t.tb.count = 0 ∧ t.tb.goodRate = s.tb.rate ∧
      t.tb.kclkLost = false ∧ t.tb.lastEdge = edge ∧ t.tb.edgeTimeIn = some v) ∧
  (∀ (dt edge : Nat) (u v : Int) (s : State), edge < 2 ^ 64 → s.tb.selNext = none → edgeDue s edge = true → s.tb.quality ≠ 1 →
    s.tb.edgeTimeIn = some u → interpolate edge s.tb.strobeLog = some v → 100000 < (windowDiff (v - u)).natAbs → s.tb.count < 7 →
    ∃ t, exec (.tbCompareWindowEnd dt edge) s = .next t ∧ t.tb.count = s.tb.count + 1 ∧ t.tb.quality = s.tb.quality) ∧
  (∀ (dt : Nat) (debug : Bool) (s : State), s.keeperUp = true →
    ∃ t, exec (.tbNowLoRead dt true debug) s = .next t ∧ t.chip.rspCode = 0 ∧ t.chip.rspData = (s.tb.now + dt) % 2 ^ 64 % 2 ^ 32 ∧
      t.tb.hiLatch = (if debug then s.tb.hiLatch else (s.tb.now + dt) % 2 ^ 64 / 2 ^ 32))

/-- Losing the selected reference begins a holdover with the rate of the last good window and a CORRECTED fault on source 123; RELOCK
ends a holdover and has no effect otherwise; REF_SEL selects the reference, from the next KCLK edge on. -/
def Obligations.HoldoverAndRelock : Prop :=
  (∀ (dt : Nat) (s : State), s.chip.porstN = true → s.tb.selKclk = false → s.tb.selNext = none → s.tb.quality ≠ 1 → Tbl.get? s.faults.records 123 = none →
    ∃ t, exec (.timeInLossTimeout dt true) s = .next t ∧ t.tb.timeLost = true ∧ t.tb.timeValid = false ∧ t.tb.quality = 1 ∧
      t.tb.rate = s.tb.goodRate ∧ Safety.recorded t 123 1 0x17) ∧
  (∀ (dt : Nat) (s : State), s.chip.porstN = true → s.tb.selKclk = true → s.tb.selNext = none → s.tb.quality ≠ 1 → Tbl.get? s.faults.records 123 = none →
    ∃ t, exec (.kclkLoss dt) s = .next t ∧ t.tb.kclkLost = true ∧ t.tb.quality = 1 ∧ t.tb.rate = s.tb.goodRate ∧
      Safety.recorded t 123 1 0x17) ∧
  (∀ (dt : Nat) (s : State), s.keeperUp = true → s.tb.quality = 1 →
    ∃ t, exec (.tbRelock dt true) s = .next t ∧ t.tb.quality ≠ 1 ∧ t.tb.count = 0 ∧ t.tb.keepHoldover = false) ∧
  (∀ (dt : Nat) (s : State), s.keeperUp = true → s.tb.selNext = none → s.tb.quality ≠ 1 →
    exec (.tbRelock dt true) s = .next (settle s (respond 0 0 (advance dt s)))) ∧
  (∀ (dt : Nat) (kclk : Bool) (s : State), s.keeperUp = true →
    ∃ t, exec (.tbRefSelWrite dt true kclk) s = .next t ∧ t.tb.refSel = kclk ∧ t.chip.rspCode = 0 ∧
      (s.tb.selNext = none → s.tb.selKclk ≠ kclk →
        ∃ at_ r, t.tb.selNext = some (kclk, at_, r) ∧ (advance dt s).now < at_ ∧ at_ ≤ (advance dt s).now + 30518)) ∧
  (∀ (dt at_ : Nat) (kclk : Bool) (r : Int) (s : State), s.chip.porstN = true → s.tb.selNext = some (kclk, at_, r) →
    at_ ≤ (s.tb.now + dt) % 2 ^ 64 → s.tb.kclkLost = false → kclk = true ∨ s.tb.timeLost = false →
    (advance dt s).tb.selKclk = kclk ∧ (advance dt s).tb.rate = r ∧ (advance dt s).tb.refSel = kclk)

/-! ### The event controller (16 R514-R523) -/

/-- A claim puts the highest-priority pending source in service and lowers EVT_OUT; its completion ends the service, and any other
completion sets COMPLETE_ERR. -/
def Obligations.ClaimAndComplete : Prop :=
  (∀ (dt k n : Nat) (s : State), k < 64 → s.mainUp = true → (s.target k).service = none → pendingAt s k = some n →
    ∃ t, exec (.tgtClaim dt k true false) s = .next t ∧ t.chip.rspData = n ∧ (t.target k).service = some n ∧ (t.target k).out = false) ∧
  (∀ (dt k : Nat) (s : State), k < 64 → s.mainUp = true → (s.target k).service = none → pendingAt s k = none →
    exec (.tgtClaim dt k true false) s = .next (settle s (respond 0 0x3FF (advance dt s)))) ∧
  (∀ (dt k n : Nat) (s : State), k < 64 → s.mainUp = true → (s.target k).service = some n →
    exec (.tgtClaim dt k true false) s = .next (settle s (respond 0 0x3FF (advance dt s)))) ∧
  (∀ (dt k : Nat) (s : State), k < 64 → s.mainUp = true → exec (.tgtClaim dt k true true) s = .next (settle s (respond 0
    (match (s.target k).service, pendingAt (advance dt s) k with | none, some n => n | _, _ => 0x3FF) (advance dt s)))) ∧
  (∀ (dt k n : Nat) (s : State), k < 64 → n < 1024 → s.mainUp = true → (s.target k).service = some n →
    ∃ t, exec (.tgtComplete dt k n true) s = .next t ∧ (t.target k).service = none ∧ t.events.completeErr = s.events.completeErr) ∧
  (∀ (dt k n : Nat) (s : State), k < 64 → n < 1024 → s.mainUp = true → (s.target k).service ≠ some n →
    ∃ t, exec (.tgtComplete dt k n true) s = .next t ∧ (t.target k).service = (s.target k).service ∧ t.events.completeErr = true)

/-- A ready target raises EVT_OUT in level mode and issues one message in message mode, and either starts its moderation timer, which ends when
its time has passed; HOST_IDLE is followed; of a parity error in the controller's state, one that the copy restores is CORRECTED and changes no
enable, one in an enable or a routing word is CONTAINED and clears the enables of that word's sources alone, and one in a target's service
state ends the service and changes no enable. -/
def Obligations.TargetsSignal : Prop :=
  (∀ (dt k : Nat) (s : State), k < 64 → Safety.quiet s → readyToSignal (advance dt s) k = true → (s.target k).modeNow = false →
    (s.target k).out = false →
    ∃ t, exec (.evtSignal dt k) s = .next t ∧ (t.target k).out = true ∧
      (t.target k).modEnd = (if (s.target k).modUs = 0 then none else some ((advance dt s).now + 1000 * (s.target k).modUs))) ∧
  (∀ (dt k : Nat) (s : State), k < 64 → Safety.quiet s → readyToSignal (advance dt s) k = true → (s.target k).modeNow = true →
    (s.target k).msgPend = false → (s.target k).msgSent = false →
    ∃ t, exec (.evtMessage dt k) s = .next t ∧ (t.target k).msgPend = true ∧ (t.target k).msgSent = true ∧
      (t.target k).modEnd = (if (s.target k).modUs = 0 then none else some ((advance dt s).now + 1000 * (s.target k).modUs))) ∧
  (∀ (dt k : Nat) (s : State), k < 64 → (s.target k).moderated (advance dt s).now = false →
    ∃ t, exec (.moderationExpiry dt k) s = .next t ∧ (t.target k).modEnd = none) ∧
  (∀ (dt k : Nat) (level : Bool) (s : State), k < 64 → s.mainUp = true →
    ∃ t, exec (.hostIdleEdge dt k level) s = .next t ∧ (t.target k).idle = level) ∧
  (∀ (dt : Nat) (s : State), eventsRun s = true → Tbl.get? s.faults.records 126 = none →
    ∃ t, exec (.evtStateParity dt .restored) s = .next t ∧ t.events.parity = true ∧ t.events.enabled = s.events.enabled ∧
      Safety.recorded t 126 1 3) ∧
  (∀ (dt k : Nat) (s : State), k < 18 → eventsRun s = true → Tbl.get? s.faults.records 126 = none →
    ∃ t, exec (.evtStateParity dt (.enableWord k)) s = .next t ∧ t.events.enableLost = true ∧
      (∀ n, n ∈ t.events.enabled ↔ n ∈ s.events.enabled ∧ n / 32 ≠ k) ∧
      Safety.recorded t 126 2 3) ∧
  (∀ (dt k : Nat) (s : State), k < 144 → eventsRun s = true → Tbl.get? s.faults.records 126 = none →
    ∃ t, exec (.evtStateParity dt (.routeWord k)) s = .next t ∧ t.events.enableLost = true ∧
      (∀ n, n ∈ t.events.enabled ↔ n ∈ s.events.enabled ∧ n / 4 ≠ k) ∧
      Safety.recorded t 126 2 3) ∧
  (∀ (dt k : Nat) (s : State), k < 64 → eventsRun s = true → Tbl.get? s.faults.records 126 = none →
    ∃ t, exec (.evtStateParity dt (.service k)) s = .next t ∧ (t.target k).service = none ∧ t.events.enabled = s.events.enabled)

/-! ### The fault collector (14 R465-R490) -/

/-- The first fault of a source, below FATAL, sets its record with its class, cause, DETAIL, time and whether it counts; a second counting
CORRECTED fault escalates the record to CONTAINED with the cause of the second. -/
def Obligations.FaultsAreRecorded : Prop :=
  (∀ (dt : Nat) (f : FaultIn) (s : State), (Instr.faultReport dt [f]).wf = true → s.chip.porstN = true →
    Tbl.get? s.faults.records f.src = none → f.cls ≠ 3 →
    ∃ t, exec (.faultReport dt [f]) s = .next t ∧
      (Tbl.get? t.faults.records f.src).map (fun r => (r.cls, r.cause, r.detail, r.counting, r.time)) =
        some (f.cls, f.cause, f.detail, counts f, (s.tb.now + dt) % 2 ^ 64)) ∧
  (∀ (dt : Nat) (f : FaultIn) (r : Record) (s : State), (Instr.faultReport dt [f]).wf = true → s.chip.porstN = true →
    Tbl.get? s.faults.records f.src = some r → f.cls = 1 → r.cls = 1 → r.counting = true → counts f = true →
    ∃ t, exec (.faultReport dt [f]) s = .next t ∧
      (Tbl.get? t.faults.records f.src).map (fun r => (r.cls, r.escalated, r.cause)) = some (2, true, f.cause))

/-- The fault pin: it rises at the end of a pulse where no record holds it, and a pulse held back by the minimum high time starts when
that time has passed. -/
def Obligations.FaultPin : Prop :=
  (∀ (dt : Nat) (s : State), s.chip.keeperInit = true → s.faults.pinLow = true → s.faults.pulse = true →
    (∀ p ∈ s.faults.records, p.2.pin < s.faults.holdMin) →
    ∃ t, exec (.faultPulseEnd dt) s = .next t ∧ t.faults.pulse = false ∧ t.faults.pinLow = false ∧ t.faults.pinClass = 0 ∧
      t.faults.highHold = true) ∧
  (∀ (dt : Nat) (p : Nat × Record) (s : State), s.faults.pulse = true → p ∈ s.faults.records → s.faults.holdMin ≤ p.2.pin →
    ∃ t, exec (.faultPulseEnd dt) s = .next t ∧ t.faults.pulse = false ∧ t.faults.pinLow = s.faults.pinLow ∧
      t.faults.pinClass = s.faults.pinClass) ∧
  (∀ (dt : Nat) (s : State), s.faults.highHold = true → s.faults.pulseWaits = true →
    ∃ t, exec (.minimumHighTimeEnd dt) s = .next t ∧ t.faults.highHold = false ∧ t.faults.pulseWaits = false ∧ t.faults.pinLow = true ∧
      t.faults.pulse = true)

/-- Acknowledgement removes a record below FATAL, and only that one; a FATAL record of the whole device stays until GX_RST_N. Firmware
acknowledges a journaled record of 1 ms and more on its own. -/
def Obligations.RecordsAreAcknowledged : Prop :=
  (∀ (dt src : Nat) (r : Record) (s : State), src < 128 → s.keeperUp = true → Tbl.wf s.faults.records = true →
    Tbl.get? s.faults.records src = some r → r.cls ≠ 3 →
    ∃ t, exec (.faultAcknowledge dt src true) s = .next t ∧ Tbl.get? t.faults.records src = none ∧
      ∀ k, k ≠ src → Tbl.get? t.faults.records k = Tbl.get? s.faults.records k) ∧
  (∀ (dt src : Nat) (r : Record) (s : State), src < 128 → s.keeperUp = true → Tbl.get? s.faults.records src = some r → r.cls = 3 →
    r.scope = .device → r.sinceRst = false →
    ∃ t, exec (.faultAcknowledge dt src true) s = .next t ∧ t.faults.records = s.faults.records) ∧
  (∀ (dt src : Nat) (r : Record) (s : State), src < 128 → s.keeperUp = true → Tbl.wf s.faults.records = true →
    Tbl.get? s.faults.records src = some r → r.cls = 3 → r.scope = .device → r.sinceRst = true →
    ∃ t, exec (.faultAcknowledge dt src true) s = .next t ∧ Tbl.get? t.faults.records src = none) ∧
  (∀ (dt src : Nat) (r : Record) (s : State), src < 128 → s.keeperUp = true → Tbl.wf s.faults.records = true →
    Tbl.get? s.faults.records src = some r → r.cls = 3 → r.scope = .device → r.sinceRst = true →
    ∃ t, exec (.faultAcknowledge dt src true) s = .next t ∧ Tbl.get? t.faults.records src = none) ∧
  (∀ (dt src : Nat) (r : Record) (s : State), src < 128 → s.fwRuns = true → s.control.halt1 = false → s.press.running = false → Tbl.wf s.faults.records = true →
    Tbl.get? s.faults.records src = some r → r.cls ≠ 3 → journaled s src = true → r.time + 1000000 ≤ (s.tb.now + dt) % 2 ^ 64 →
    ∃ t, exec (.idleRecordAck dt src) s = .next t ∧ Tbl.get? t.faults.records src = none)

/-- The first-fault capture is cleared by its register; a non-debug read of the log removes the oldest entry and latches its DETAIL and
time, a debug read leaves it. -/
def Obligations.CaptureAndLog : Prop :=
  (∀ (dt : Nat) (s : State), s.mainUp = true →
    ∃ t, exec (.faultFirstClr dt true) s = .next t ∧ t.faults.first = none ∧ t.faults.records = s.faults.records) ∧
  (∀ (dt : Nat) (e : LogEntry) (l : List LogEntry) (s : State), s.keeperUp = true → s.faults.log = e :: l →
    ∃ t, exec (.faultLogRead dt true false) s = .next t ∧ t.chip.rspData = infoWord e ∧ t.faults.log = l ∧
      t.faults.logHi = e.detail ∧ t.faults.logTime = e.time) ∧
  (∀ (dt : Nat) (e : LogEntry) (l : List LogEntry) (s : State), s.keeperUp = true → s.faults.log = e :: l →
    ∃ t, exec (.faultLogRead dt true true) s = .next t ∧ t.chip.rspData = infoWord e ∧ t.faults.log = e :: l)

/-- Device safe state is entered by GX_SAFE_REQ and by SAFE_CTL.ENTER, with the cause of each; the commit gate lets only what is already
presented and SYS writes pass. Fault injection is armed at debug level 2 only; modes 0 and 5 raise their fault at once, and a MODE of 7 and
more leaves the field. -/
def Obligations.SafeStateAndInjection : Prop :=
  (∀ (dt : Nat) (s : State), s.mainUp = true → s.chip.safeReq = false → s.faults.safe = .normal →
    ∃ t, exec (.gxSafeReqEdge dt true) s = .next t ∧ t.chip.safeReq = true ∧ t.faults.safe ≠ .normal ∧ t.faults.safeCause = 2 ∧
      t.txs = s.txs.filter Tx.passesGate) ∧
  (∀ (dt : Nat) (s : State), s.mainUp = true → s.faults.safe = .normal →
    ∃ t, exec (.safeCtlEnter dt true) s = .next t ∧ t.faults.safe ≠ .normal ∧ t.faults.safeCause = 3 ∧
      t.txs = s.txs.filter Tx.passesGate) ∧
  (∀ (dt mode src cause cls : Nat) (s : State), mode < 7 → mode ≠ 0 → mode ≠ 5 → src < 128 → cause < 256 → cls < 4 → s.mainUp = true →
    s.control.dbgLevel = 2 →
    ∃ t, exec (.fiArm dt true mode src cause cls) s = .next t ∧ t.faults.fi.armed = true ∧ t.faults.fi.mode = mode ∧
      t.faults.fi.source = src ∧ t.faults.fi.cause = cause ∧ t.faults.fi.cls = cls) ∧
  (∀ (dt src cause cls : Nat) (s : State), src < 128 → cause < 256 → cls = 1 ∨ cls = 2 → s.mainUp = true → s.control.dbgLevel = 2 →
    Tbl.get? s.faults.records src = none →
    ∃ t, exec (.fiArm dt true 0 src cause cls) s = .next t ∧ t.faults.fi.armed = false ∧ Safety.recorded t src cls cause) ∧
  (∀ (dt src cause cls : Nat) (s : State), src < 128 → cause < 256 → cls < 4 → s.mainUp = true → s.control.dbgLevel = 2 →
    Tbl.get? s.faults.records 124 = none →
    ∃ t, exec (.fiArm dt true 5 src cause cls) s = .next t ∧ t.faults.fi.armed = false ∧ Safety.recorded t 124 1 0x25) ∧
  (∀ (dt mode src cause cls : Nat) (s : State), 7 ≤ mode → mode < 16 → src < 128 → cause < 256 → cls < 4 → s.mainUp = true →
    s.control.dbgLevel = 2 → s.faults.fi.mode ≠ 0 → s.faults.fi.mode ≠ 5 →
    ∃ t, exec (.fiArm dt true mode src cause cls) s = .next t ∧ t.faults.fi.armed = true ∧ t.faults.fi.mode = s.faults.fi.mode) ∧
  (∀ (dt src cause cls : Nat) (s : State), src < 128 → cause < 256 → cls = 1 ∨ cls = 2 → s.mainUp = true → s.control.dbgLevel = 2 →
    Tbl.get? s.faults.records src = none →
    ∃ t, exec (.fiArm dt true 0 src cause cls) s = .next t ∧ t.faults.fi.armed = false ∧ Safety.recorded t src cls cause) ∧
  (∀ (dt src cause cls : Nat) (s : State), src < 128 → cause < 256 → cls < 4 → s.mainUp = true → s.control.dbgLevel = 2 →
    Tbl.get? s.faults.records 124 = none →
    ∃ t, exec (.fiArm dt true 5 src cause cls) s = .next t ∧ t.faults.fi.armed = false ∧ Safety.recorded t 124 1 0x25) ∧
  (∀ (dt mode src cause cls : Nat) (s : State), 7 ≤ mode → mode < 16 → src < 128 → cause < 256 → cls < 4 → s.mainUp = true →
    s.control.dbgLevel = 2 → s.faults.fi.mode ≠ 0 → s.faults.fi.mode ≠ 5 →
    ∃ t, exec (.fiArm dt true mode src cause cls) s = .next t ∧ t.faults.fi.armed = true ∧ t.faults.fi.mode = s.faults.fi.mode) ∧
  (∀ (dt mode src cause cls : Nat) (s : State), mode < 16 → src < 128 → cause < 256 → cls < 4 → s.mainUp = true →
    s.control.dbgLevel ≠ 2 →
    ∃ t, exec (.fiArm dt true mode src cause cls) s = .next t ∧ t.faults.fi = s.faults.fi)

/-! ### Mailboxes (05 R131-R142) -/

/-- GO takes a copy of the request and firmware accepts one whose LENGTH, FLAGS and COMMAND are in range; while BUSY a GO is an overrun
and changes nothing else; ACK clears the response; the notice register gives the oldest notice and removes it. -/
def Obligations.MailboxExchange : Prop :=
  (∀ (dt box : Nat) (s : State), box ≤ 256 → s.mainUp = true → serves s box = true → boxOpen s box = true →
    (box < 256 → (s.ctx box).closeHold = none) → (s.box box).busy = false →
    (∀ m : Mbox, m = { s.box box with buf := (s.box box).req } → m.len ≤ 56 ∧ m.flags < 2 ∧ cmdSpec m.cmd (reqBytes m) ≠ none) →
    ∃ t, exec (.mboxGo dt box false true) s = .next t ∧ (t.box box).busy = true ∧ (t.box box).accepted = true ∧
      (t.box box).buf = (s.box box).req ∧ (t.box box).evtOverrun = (s.box box).evtOverrun ∧ t.chip.rspCode = 0) ∧
  (∀ (dt box : Nat) (s : State), box ≤ 256 → s.mainUp = true → boxOpen s box = true → (box < 256 → (s.ctx box).closeHold = none) →
    (s.box box).busy = true →
    ∃ t, exec (.mboxGo dt box false true) s = .next t ∧ (t.box box).evtOverrun = true ∧ (t.box box).busy = true ∧
      (t.box box).buf = (s.box box).buf ∧ (t.box box).accepted = (s.box box).accepted) ∧
  (∀ (dt box : Nat) (s : State), box ≤ 256 → s.mainUp = true → boxOpen s box = true →
    ∃ t, exec (.mboxAck dt box true) s = .next t ∧ (t.box box).respValid = false ∧ (t.box box).rsp = (s.box box).rsp ∧
      (t.box box).busy = (s.box box).busy) ∧
  (∀ (dt : Nat) (n : Notice) (l : List Notice) (s : State), s.mainUp = true → Safety.quiet s → (s.box 256).notices = n :: l →
    ∃ t, exec (.mboxNoticeRead dt 256 true false) s = .next t ∧ t.chip.rspCode = 0 ∧
      t.chip.rspData = n.cmd * 2 ^ 24 + n.status * 2 ^ 16 + n.seq ∧ (t.box 256).notices = l ∧ (t.box 256).noticeHi = n.value) ∧
  (∀ (dt c : Nat) (n : Notice) (l : List Notice) (s : State), c < 256 → s.mainUp = true → Safety.quiet s → (s.ctx c).st = .opened →
    (s.box c).notices = n :: l →
    ∃ t, exec (.mboxNoticeRead dt c false false) s = .next t ∧ t.chip.rspCode = 0 ∧
      t.chip.rspData = n.cmd * 2 ^ 24 + n.status * 2 ^ 16 + n.seq ∧ (t.box c).notices = l ∧ (t.box c).noticeHi = n.value)

/-! ### The control complex (04 R99-R128) -/

/-- The boot ends and the mailboxes open: where the image of the active slot verifies it runs, with FW_RUNNING and FW_SVN as its header says;
without a root key the complex stays stopped with boot code 2. -/
def Obligations.FirmwareOpensTheMailboxes : Prop :=
  (∀ (dt : Nat) (mem : ExtMem) (outs : List KOut) (s : State), (Instr.mailboxOpen dt mem outs).wf = true →
    bootReady s = true → rootOk s = true → s.keep.indexBad = false → s.keep.boot.2.1 = false → s.chip.safeReq = false →
    ∃ t, exec (.mailboxOpen dt mem outs) s = .next t ∧ ∀ i, verifyImage s mem (slotAddrOf s s.keep.boot.1) none = .ok i →
      t.control.pair0 = .run ∧ t.control.pair1 = .run ∧ t.control.fwUp = true ∧
      t.control.restarting = false ∧ t.control.fwRunning = i.version ∧ t.control.fwSvn = i.svn ∧ t.control.bootSlotB = s.keep.boot.1 ∧
      t.control.bootTrial = false ∧ t.control.bootFallback = false ∧ t.control.bootCode = 0 ∧
      t.control.rollbackCnt = s.keep.counter 0) ∧
  (∀ (dt : Nat) (mem : ExtMem) (outs : List KOut) (s : State), (Instr.mailboxOpen dt mem outs).wf = true →
    bootReady s = true → rootOk s = false →
    ∃ t, exec (.mailboxOpen dt mem outs) s = .next t ∧ t.control.pair0 = .stopped ∧ t.control.pair1 = .stopped ∧ t.control.bootCode = 2 ∧
      t.control.fwUp = s.control.fwUp)

/-- A restart from its register, and the faults that force one, each FATAL on its own source: both pairs boot again, the mailboxes close, and
LAST_CAUSE names what forced it; the watchdog of a halted pair does not expire, a fault during a restart stops both pairs, a corrected SRAM
error is CORRECTED on source 4, and an uncorrectable word of data that the scrub finds is poisoned and CONTAINED on source 2, without a
restart. -/
def Obligations.ControlRestarts : Prop :=
  (∀ (dt : Nat) (s : State), s.mainUp = true → s.control.restarting = false →
    ∃ t, exec (.ccRestartWrite dt true) s = .next t ∧ Safety.restarts t 0x40) ∧
  (∀ (dt pair : Nat) (s : State), pair < 2 → pairRuns s pair = true → pairHalted s pair = false →
    (if pair = 0 then s.control.wd0 else s.control.wd1).left = none → (if pair = 0 then s.control.wd0 else s.control.wd1).due ≤ (advance dt s).now →
    Tbl.get? s.faults.records (5 + pair) = none → s.faults.safe = .normal → s.control.restarting = false →
    ∃ t, exec (.watchdogExpiry dt pair) s = .next t ∧ Safety.restarts t (5 + pair) ∧ Safety.recorded t (5 + pair) 3 0x0A) ∧
  (∀ (dt pair : Nat) (s : State), pair < 2 → pairRuns s pair = true → pairHalted s pair = true →
    exec (.watchdogExpiry dt pair) s = .next (settle s (advance dt s))) ∧
  (∀ (dt pair : Nat) (s : State), pair < 2 → pairRuns s pair = true → Tbl.get? s.faults.records pair = none →
    s.faults.safe = .normal → s.control.restarting = false →
    ∃ t, exec (.lockstepMismatch dt pair) s = .next t ∧ Safety.restarts t pair ∧ Safety.recorded t pair 3 9) ∧
  (∀ (dt : Nat) (s : State), pairRuns s 0 = true → Tbl.get? s.faults.records 9 = none →
    s.faults.safe = .normal → s.control.restarting = false →
    ∃ t, exec (.mmuRefusal dt) s = .next t ∧ Safety.restarts t 9 ∧
      Safety.recorded t 9 3 0x0C) ∧
  (∀ (dt pair : Nat) (s : State), pair < 2 → pairRuns s pair = true → Tbl.get? s.faults.records pair = none →
    s.faults.safe = .normal → s.control.restarting = true →
    ∃ t, exec (.lockstepMismatch dt pair) s = .next t ∧ t.control.restarting = false ∧ t.control.pair0 = .stopped ∧
      t.control.pair1 = .stopped ∧ t.control.fwUp = false) ∧
  (∀ (dt word : Nat) (s : State), word < 262144 → s.mainUp = true → Tbl.get? s.faults.records 4 = none →
    ∃ t, exec (.controlSramError dt word .corrected) s = .next t ∧
      Safety.recorded t 4 1 1) ∧
  (∀ (dt word : Nat) (f : SramFinding) (s : State), word < 262144 → f ≠ .corrected → 8 * word < s.control.textSize → s.mainUp = true →
    pairRuns s 0 = true → Tbl.get? s.faults.records 3 = none → s.faults.safe = .normal → s.control.restarting = false →
    ∃ t, exec (.controlSramError dt word f) s = .next t ∧ Safety.restarts t 3 ∧
      Safety.recorded t 3 3 2) ∧
  (∀ (dt word : Nat) (s : State), word < 262144 → s.control.textSize ≤ 8 * word → s.mainUp = true → Tbl.get? s.faults.records 2 = none →
    ∃ t, exec (.controlSramError dt word .scrubbed) s = .next t ∧ 8 * word ∈ t.control.sramPoison ∧ t.control.restarting = s.control.restarting ∧
      Safety.recorded t 2 2 2) ∧
  (∀ (dt word : Nat) (s : State), word < 262144 → s.control.textSize ≤ 8 * word → s.mainUp = true →
    pairRuns s 0 = true → Tbl.get? s.faults.records 2 = none → s.faults.safe = .normal → s.control.restarting = false →
    ∃ t, exec (.controlSramError dt word .read) s = .next t ∧ Safety.restarts t 2 ∧
      Safety.recorded t 2 3 2)

/-- An exception saves the core's registers in its save area of control SRAM, laid out as 04 R116 gives it, with BUSY 1, counts in SEQ, and
leaves every byte of the SRAM outside that area. A g31 outside its window, an exception that finds BUSY still 1, which saves nothing, and one
that finds the BUSY word uncorrectable are FATAL. The registers that firmware leaves in a core, and whether it has cleared BUSY since the last
exception, are free values (log 12). -/
def Obligations.ExceptionsAreSaved : Prop :=
  (∀ (dt core cause faultAddr : Nat) (s : State), core < 4 → cause < 2 ^ 32 → faultAddr < 2 ^ 64 →
    pairRuns s (core / 2) = true → pairHalted s (core / 2) = false → Mem.wf s.control.sram = true → s.control.cores.length = 4 →
    leNat (s.control.sram.readBytes (saveArea core + 0x128) 4) ≠ 1 → saveArea core + 0x128 ∉ s.control.sramPoison →
    ∃ t, exec (.coreException dt core cause faultAddr) s = .next t ∧
      (t.control.cores.getD core {}).excSeq = ((s.control.cores.getD core {}).excSeq + 1) % 2 ^ 32 ∧
      (∀ i < 32, t.control.sram.readBytes (saveArea core + 8 * i) 8 =
        leBytes ((ranCore s.chip.freeCtr (s.control.cores.getD core {})).g.getD i 0).toNat 8) ∧
      t.control.sram.readBytes (saveArea core + 0x100) 8 = leBytes (ranCore s.chip.freeCtr (s.control.cores.getD core {})).pc.toNat 8 ∧
      t.control.sram.readBytes (saveArea core + 0x108) 8 = leBytes (ranCore s.chip.freeCtr (s.control.cores.getD core {})).status.toNat 8 ∧
      t.control.sram.readBytes (saveArea core + 0x110) 4 = leBytes cause 4 ∧
      t.control.sram.readBytes (saveArea core + 0x114) 4 = leBytes (((s.control.cores.getD core {}).excSeq + 1) % 2 ^ 32) 4 ∧
      t.control.sram.readBytes (saveArea core + 0x118) 8 = leBytes faultAddr 8 ∧
      t.control.sram.readBytes (saveArea core + 0x120) 8 = leBytes (advance dt s).now 8 ∧
      t.control.sram.readBytes (saveArea core + 0x128) 8 = [1, 0, 0, 0, 0, 0, 0, 0] ∧
      (∀ i < 8, t.control.sram.readBytes (saveArea core + 0x130 + 8 * i) 8 =
        leBytes ((ranCore s.chip.freeCtr (s.control.cores.getD core {})).ctl.getD i 0).toNat 8) ∧
      t.control.sram.readBytes (saveArea core + 0x170) 144 = List.replicate 144 0 ∧
      (∀ a, a < saveArea core ∨ saveArea core + 0x200 ≤ a → t.control.sram.read a = s.control.sram.read a) ∧
      (stackOk (ranCore s.chip.freeCtr (s.control.cores.getD core {})) = false → Tbl.get? s.faults.records (7 + core / 2) = none →
        Safety.recorded t (7 + core / 2) 3 0x0B)) ∧
  (∀ (dt core cause faultAddr : Nat) (s : State), core < 4 → cause < 2 ^ 32 → faultAddr < 2 ^ 64 →
    pairRuns s (core / 2) = true → pairHalted s (core / 2) = false → saveArea core + 0x128 ∉ s.control.sramPoison →
    leNat (s.control.sram.readBytes (saveArea core + 0x128) 4) = 1 → Tbl.get? s.faults.records (7 + core / 2) = none →
    ∃ t, exec (.coreException dt core cause faultAddr) s = .next t ∧
      (Config.freeNat (s.chip.freeCtr + 44) % 2 = 1 → t.control.sram = s.control.sram ∧ Safety.recorded t (7 + core / 2) 3 0x0B)) ∧
  (∀ (dt core cause faultAddr : Nat) (s : State), core < 4 → cause < 2 ^ 32 → faultAddr < 2 ^ 64 →
    pairRuns s (core / 2) = true → pairHalted s (core / 2) = false → saveArea core + 0x128 ∈ s.control.sramPoison →
    Tbl.get? s.faults.records 2 = none →
    ∃ t, exec (.coreException dt core cause faultAddr) s = .next t ∧ t.control.sram = s.control.sram ∧
      Safety.recorded t 2 3 2)

/-- Semaphores: a free one is taken by a read or an explicit acquire, its owner alone renews and releases it, and a lease that runs out
frees it with a CORRECTED fault and a mark for the former owner. -/
def Obligations.SemaphoresAreLeased : Prop :=
  (∀ (dt n : Nat) (g : SemAgent) (s : State), n < 64 → g ≠ .tap → agentLive s g = true → g ∉ (s.sem n).lost → (s.sem n).owner = none →
    ∃ t, exec (.semReadAcquire dt g n false) s = .next t ∧ (t.sem n).owner = some g ∧
      (t.sem n).leaseEnd = (advance dt s).now + 1000 * (s.sem n).leaseUs ∧ (∀ k, k ≠ n → t.sem k = s.sem k) ∧
      (g = .pair0 → t.control.rdata0 = semWord (t.sem n) g false) ∧ (g = .pair1 → t.control.rdata1 = semWord (t.sem n) g false)) ∧
  (∀ (dt n : Nat) (g : SemAgent) (debug : Bool) (s : State), n < 64 → agentLive s g = true → g = .tap ∨ debug = true →
    ∃ t, exec (.semReadAcquire dt g n debug) s = .next t ∧ t.control.sems = s.control.sems ∧
      (g = .tap → t.mgmt.tapOut = leBytes (semWord (s.sem n) g ((s.sem n).lost.contains g)) 4)) ∧
  (∀ (dt n : Nat) (g : SemAgent) (s : State), n < 64 → agentLive s g = true → g ∉ (s.sem n).lost → (s.sem n).owner = none →
    ∃ t, exec (.semAcquire dt g n) s = .next t ∧ (t.sem n).owner = some g ∧
      (t.sem n).leaseEnd = (advance dt s).now + 1000 * (s.sem n).leaseUs ∧ ∀ k, k ≠ n → t.sem k = s.sem k) ∧
  (∀ (dt n lease : Nat) (g : SemAgent) (s : State), n < 64 → lease < 65536 → (Instr.semRenew dt g n lease).wf = true →
    agentLive s g = true → g ∉ (s.sem n).lost → (s.sem n).owner = some g → lease ≠ 0 →
    ∃ t, exec (.semRenew dt g n lease) s = .next t ∧ (t.sem n).owner = some g ∧ (t.sem n).leaseUs = lease ∧
      (t.sem n).leaseEnd = (advance dt s).now + 1000 * lease ∧ t.control.semErr = s.control.semErr) ∧
  (∀ (dt n : Nat) (g : SemAgent) (s : State), n < 64 → agentLive s g = true → g ∉ (s.sem n).lost → (s.sem n).owner = some g →
    ∃ t, exec (.semRelease dt g n) s = .next t ∧ (t.sem n).owner = none ∧ t.control.semErr = s.control.semErr) ∧
  (∀ (dt n : Nat) (g : SemAgent) (s : State), n < 64 → agentLive s g = true → g ∉ (s.sem n).lost → (s.sem n).owner ≠ some g →
    ∃ t, exec (.semRelease dt g n) s = .next t ∧ t.sem n = s.sem n ∧ g ∈ t.control.semErr) ∧
  (∀ (dt n lease : Nat) (g : SemAgent) (s : State), n < 64 → (Instr.semRenew dt g n lease).wf = true → agentLive s g = true →
    g ∉ (s.sem n).lost → (s.sem n).owner ≠ some g →
    ∃ t, exec (.semRenew dt g n lease) s = .next t ∧ t.sem n = s.sem n ∧ g ∈ t.control.semErr) ∧
  (∀ (dt n : Nat) (g : SemAgent) (s : State), n < 64 → (s.sem n).owner = some g → (s.sem n).frozen = none →
    (s.sem n).leaseEnd ≤ (advance dt s).now → Tbl.get? s.faults.records 11 = none →
    ∃ t, exec (.leaseExpiry dt n) s = .next t ∧ (t.sem n).owner = none ∧ g ∈ (t.sem n).lost ∧
      Safety.recorded t 11 1 0x0E)

/-- Debug: a challenge commits UNLOCK_SEQ and is returned, one without an unlock record grants level 2 where the hash of the root key is 0,
and after three failures none is given; what a level grants (halting, stepping, freezing leases) has
effect with a level granted only; a failed or late answer counts and grants nothing. -/
def Obligations.DebugIsUnlocked : Prop :=
  (∀ (dt : Nat) (tm : Bool) (s : State), s.mainUp = true → s.control.dbgFails < 3 → s.liveAdmitted = false → s.keep.unlockRecord = none →
    s.chip.rootKeyHash = 0 →
    ∃ t, exec (.debugChallenge dt ⟨2, tm⟩ .ok) s = .next t ∧ t.control.dbgLevel = 2 ∧ t.control.challenge = none ∧ t.chip.testGranted = tm) ∧
  (∀ (dt level : Nat) (tm : Bool) (s : State), (Instr.debugChallenge dt ⟨level, tm⟩ .ok).wf = true → s.mainUp = true → s.control.dbgFails < 3 →
    (level = 2 → s.liveAdmitted = false) → s.keep.unlockRecord ≠ none → s.keep.waiting = [] → s.keep.refuses = false → mramDown s = false →
    s.power.mram.warn = false →
    ∃ t, exec (.debugChallenge dt ⟨level, tm⟩ .ok) s = .next t ∧ t.keep.seq = s.keep.seq + 1 ∧
      t.keep.mem = putWords s.keep.mem (recordWords (s.keep.other (counterSlot 1)) s.keep.seq
        (leBytes (s.keep.counter 1 + 1) 8 ++ List.replicate 44 0)) ∧
      t.control.challenge = some { level, seq := t.keep.counter 1 % 2 ^ 32, time := (advance dt s).now } ∧
      t.mgmt.tapOut = challengeBytes s { level, seq := t.keep.counter 1 % 2 ^ 32, time := (advance dt s).now }) ∧
  (∀ (dt level : Nat) (tm : Bool) (out : KOut) (s : State), (Instr.debugChallenge dt ⟨level, tm⟩ out).wf = true → s.mainUp = true →
    3 ≤ s.control.dbgFails →
    ∃ t, exec (.debugChallenge dt ⟨level, tm⟩ out) s = .next t ∧ t.control.dbgLevel = s.control.dbgLevel ∧ t.mgmt.tapOut = [] ∧
      t.control.challenge = s.control.challenge) ∧
  (∀ (dt : Nat) (key sig : List Byte) (c : Challenge) (s : State), (Instr.debugUnlockResponse dt key sig false).wf = true →
    s.control.challenge = some c →
    ∃ t, exec (.debugUnlockResponse dt key sig false) s = .next t ∧ t.control.challenge = none ∧
      t.control.dbgLevel = (if unlockOk (advance dt s) c key sig then c.level else s.control.dbgLevel) ∧
      (unlockOk (advance dt s) c key sig = false → t.control.dbgFails = min 3 (s.control.dbgFails + 1))) ∧
  (∀ (dt : Nat) (c : Challenge) (s : State), s.control.challenge = some c → c.time + 10000000000 ≤ (advance dt s).now →
    ∃ t, exec (.debugChallengeTimeout dt) s = .next t ∧ t.control.challenge = none ∧ t.control.dbgLevel = s.control.dbgLevel ∧
      t.control.dbgFails = min 3 (s.control.dbgFails + 1)) ∧
  (∀ (dt pair : Nat) (h : Bool) (s : State), pair < 2 → s.mainUp = true → s.control.dbgLevel ≠ 0 →
    ∃ t, exec (.debugHalt dt true pair h) s = .next t ∧ pairHalted t pair = h ∧ pairHalted t (1 - pair) = pairHalted s (1 - pair)) ∧
  (∀ (dt pair : Nat) (s : State), pair < 2 → s.mainUp = true → s.control.dbgLevel ≠ 0 → pairHalted s pair = true →
    s.control.cores.length = 4 →
    ∃ t, exec (.debugStep dt true pair) s = .next t ∧ (t.control.cores.getD (2 * pair) {}).pc = Config.freeWord (s.chip.freeCtr + 32) ∧
      pairHalted t pair = true ∧ t.control.cores.getD (2 * (1 - pair)) {} = s.control.cores.getD (2 * (1 - pair)) {}) ∧
  (∀ (dt : Nat) (v : Bool) (s : State), s.mainUp = true → s.control.dbgLevel ≠ 0 →
    ∃ t, exec (.freezeLeaseWrite dt true v) s = .next t ∧ t.control.freezeLease = v) ∧
  (∀ (dt pair : Nat) (h : Bool) (s : State), pair < 2 → s.mainUp = true → s.control.dbgLevel = 0 →
    exec (.debugHalt dt true pair h) s = .next (settle s (respond 0 0 (advance dt s))))

/-! ### Firmware staging, confirmation and the keep-store (05 R173, R174, 15 R497-R509) -/

/-- A due FW_STAGE of an image that verifies stages it in the inactive slot, and of any other image stages nothing; FW_ACTIVATE of the staged
version commits the boot record and restarts; a trial is confirmed by the boot record and then the counter, each written where it does not hold
yet what it is to hold, and a retry does the same. -/
def Obligations.FirmwareIsStagedAndConfirmed : Prop :=
  (∀ (dt : Nat) (mem : ExtMem) (s : State), (Instr.fwStage dt 256 mem).wf = true → Safety.due s 256 0x7E →
    field (reqBytes (s.box 256)) 0x10 8 % 4096 = 0 → field (reqBytes (s.box 256)) 0x10 8 < 2 ^ 48 → trialRuns s = false → rootOk s = true →
    ∃ t, exec (.fwStage dt 256 mem) s = .next t ∧ (t.box 256).busy = false ∧ (t.box 256).respValid = true ∧
      slotAddrOf t (!inactiveB s) = slotAddrOf s (!inactiveB s) ∧
      (t.control.staged, slotAddrOf t (inactiveB s)) =
        (match verifyImage s mem (field (reqBytes (s.box 256)) 0x10 8) (some (field (reqBytes (s.box 256)) 0x18 4)) with
         | .ok i => (some { version := i.version, slotB := inactiveB s }, field (reqBytes (s.box 256)) 0x10 8)
         | .error _ => (s.control.staged, slotAddrOf s (inactiveB s)))) ∧
  (∀ (dt : Nat) (g : Staged) (s : State), Safety.due s 256 0x7F → s.keep.waiting = [] → s.control.staged = some g →
    g.version = field (reqBytes (s.box 256)) 8 4 → s.keep.refuses = false → mramDown s = false → s.power.mram.warn = false →
    s.control.restarting = false →
    ∃ t, exec (.fwActivate dt 256 .ok) s = .next t ∧ t.control.staged = none ∧ t.control.restarting = true ∧ t.control.lastCause = 0x41 ∧
      t.keep.seq = s.keep.seq + 1 ∧ t.keep.mem = putWords s.keep.mem
        (recordWords (s.keep.other 0) s.keep.seq (bootData s.keep.boot.1 true g.slotB 0))) ∧
  (∀ (dt : Nat) (c : Instr) (s : State), c = .fwConfirm dt [] ∨ c = .fwConfirmRetry dt [] → s.fwRuns = true → s.control.halt0 = false →
    s.keep.waiting = [] → s.control.confirm = .record → s.keep.refuses = false → mramDown s = false → s.power.mram.warn = false →
    s.control.fwSvn ≤ (wroteAll (s.keep.other 0) (bootData s.keep.boot.2.2.1 false s.keep.boot.2.2.1 s.keep.boot.2.2.2) s).keep.counter 0 →
    ∃ t, exec c s = .next t ∧ t.control.confirm = .none ∧ t.control.bootTrial = false ∧ t.keep.seq = s.keep.seq + 1 ∧
      t.keep.mem = putWords s.keep.mem
        (recordWords (s.keep.other 0) s.keep.seq (bootData s.keep.boot.2.2.1 false s.keep.boot.2.2.1 s.keep.boot.2.2.2))) ∧
  (∀ (dt : Nat) (c : Instr) (s : State), c = .fwConfirm dt [] ∨ c = .fwConfirmRetry dt [] → s.fwRuns = true → s.control.halt0 = false →
    s.keep.waiting = [] → s.control.confirm = .counter → s.keep.counter 0 < s.control.fwSvn → s.keep.refuses = false → mramDown s = false →
    s.power.mram.warn = false →
    ∃ t, exec c s = .next t ∧ t.control.confirm = .none ∧ t.control.bootTrial = false ∧ t.keep.seq = s.keep.seq + 1 ∧
      t.keep.mem = putWords s.keep.mem (recordWords (s.keep.other (counterSlot 0)) s.keep.seq
        (leBytes s.control.fwSvn 8 ++ List.replicate 44 0))) ∧
  (∀ (dt : Nat) (outs : List KOut) (c : Instr) (s : State), c = .fwConfirm dt outs ∨ c = .fwConfirmRetry dt outs → c.wf = true →
    s.fwRuns = true → s.control.halt0 = false → s.keep.waiting = [] → s.control.confirm = .counter → s.control.fwSvn ≤ s.keep.counter 0 →
    ∃ t, exec c s = .next t ∧ t.control.confirm = .none ∧ t.control.bootTrial = false ∧ t.keep = s.keep)

/-- A record write that succeeds leaves the slot with its data, number, sequence and commit mark and a CRC32C over them, changes no byte
outside the slot, and advances KEEP_SEQ by one (15 R494-R498). -/
def Obligations.RecordWritesFillTheirSlot : Prop :=
  ∀ (dt : Nat) (q : KReq) (l : List KReq) (s : State), s.keep.waiting = q :: l → q.slot < 4096 → q.data.length = 52 → s.keep.seq < 0xFFFFFFFF →
    Mem.wf s.keep.mem = true → s.keep.refuses = false → mramDown s = false → s.power.mram.warn = false → q.origin = .confirm → 64 ≤ q.slot →
    ∃ t, exec (.keepRecordWrite dt .ok) s = .next t ∧ t.keep.waiting = l ∧ t.keep.seq = s.keep.seq + 1 ∧ Mem.wf t.keep.mem = true ∧
      t.keep.mem.readBytes (64 * q.slot) 52 = q.data ∧ t.keep.mem.readBytes (64 * q.slot + 0x38) 8 = commitBytes q.slot s.keep.seq ∧
      leNat (t.keep.mem.readBytes (64 * q.slot + 0x34) 4) = crc32c (q.data ++ commitBytes q.slot s.keep.seq) ∧
      (∀ a, a < 64 * q.slot ∨ 64 * q.slot + 64 ≤ a → t.keep.mem.read a = s.keep.mem.read a)

/-- The boot scan ends with KEEP_SEQ above every valid record's; a record write that a supply warning has held back 200 us is refused
with LOW_VOLTAGE; the journal takes a waiting entry of the fault log, at once or with the retry after a refusal; without a refusal no retry is
made, and with 64 free records and more no compaction begins; the last step of a compaction writes its counter; the rail is released in KEEP
1 ms after its last use. -/
def Obligations.KeepStoreEvents : Prop :=
  (∀ (dt : Nat) (s : State), s.chip.porstN = true → s.chip.keeperInit = true → s.keep.scanDone = false → s.power.mram.pg = true →
    s.power.mram.req = true →
    ∃ t, exec (.keepScan dt [] []) s = .next t ∧ t.keep.scanDone = true ∧ t.keep.eccBad = [] ∧ t.keep.mem = s.keep.mem ∧
      ∀ i < 4096, ({ s.keep with eccBad := [], indexBad := false } : Keep).slotValid i = true → slotSeq (s.keep.slotBytes i) < t.keep.seq) ∧
  (∀ (dt : Nat) (q : KReq) (l : List KReq) (s : State), s.keep.waiting = q :: l → q.origin = .confirm → s.power.mram.warn = true →
    q.time + 200000 ≤ (advance dt s).now →
    ∃ t, exec (.keepWarnTimeout dt) s = .next t ∧ t.keep.waiting = l ∧ t.keep.mem = s.keep.mem ∧ t.keep.evt = (s.keep.evt ||| 2)) ∧
  (∀ (dt : Nat) (e : LogEntry) (s : State), journalOpen s = true → s.keep.jretry = false → s.keep.jbuf = [] → s.faults.log = [e] →
    s.keep.refuses = false → mramDown s = false → s.power.mram.warn = false → s.keep.waiting = [] →
    s.keep.journalValid s.keep.head = false →
    ∃ t, exec (.journalAppend dt [.ok]) s = .next t ∧ t.faults.log = [] ∧ t.keep.jbuf = [] ∧ t.keep.seq = s.keep.seq + 1 ∧
      t.keep.mem = putWords s.keep.mem
        (recordWords (128 + s.keep.head) s.keep.seq (journalData 0 [entryBytes e false e.detail]))) ∧
  (∀ (dt : Nat) (e : LogEntry) (s : State), journalOpen s = true → s.keep.jretry = true → s.keep.jbuf = [e] →
    s.keep.refuses = false → mramDown s = false → s.power.mram.warn = false → s.keep.waiting = [] →
    s.keep.journalValid s.keep.head = false →
    ∃ t, exec (.journalRetry dt [.ok]) s = .next t ∧ t.keep.jbuf = [] ∧ t.keep.jretry = false ∧ t.keep.seq = s.keep.seq + 1 ∧
      t.keep.mem = putWords s.keep.mem
        (recordWords (128 + s.keep.head) s.keep.seq (journalData 0 [entryBytes e false e.detail]))) ∧
  (∀ (dt : Nat) (outs : List KOut) (s : State), (Instr.journalRetry dt outs).wf = true → s.keep.jretry = false →
    exec (.journalRetry dt outs) s = .next (settle s (advance dt s))) ∧
  (∀ (dt : Nat) (outs : List KOut) (s : State), (Instr.journalCompaction dt outs).wf = true → s.keep.compact = none → 64 ≤ s.keep.journalFree →
    exec (.journalCompaction dt outs) s = .next (settle s (advance dt s))) ∧
  (∀ (dt n end_ : Nat) (s : State), s.fwRuns = true → s.control.halt1 = false → s.keep.scanDone = true → s.keep.refuses = false → mramDown s = false →
    s.power.mram.warn = false → s.keep.waiting = [] → s.keep.compact = some ([], n, end_) → s.keep.counter 2 < end_ + 1 →
    ∃ t, exec (.journalCompaction dt [.ok]) s = .next t ∧ t.keep.compact = none ∧ t.keep.seq = s.keep.seq + 1) ∧
  (∀ (dt at_ : Nat) (s : State), s.mgmt.mramUse = some at_ → s.power.state = .keep → at_ + 1000000 ≤ (advance dt s).now →
    s.keep.waiting = [] →
    ∃ t, exec (.mramRailRelease dt) s = .next t ∧ t.power.mram.req = false ∧ t.mgmt.mramUse = none)

/-! ### Requests through a mailbox (05 R150-R172) -/

/-- Requests that read: GET_VERSION, QUERY_STATS of each group and KEEP_READ answer OK with their payload, and an answer changes nothing but its
mailbox and which context was served last; KEEP_WRITE of a record of region 3 writes it. -/
def Obligations.QueriesAnswer : Prop :=
  (∀ (dt box : Nat) (s : State), box ≤ 256 → Safety.due s box 0x01 →
    exec (.getVersion dt box) s = .next (settle s (answer box 0 0
      (leBytes 0x00020100 4 ++ leBytes s.control.fwRunning 4 ++ leBytes 3 2 ++ leBytes 5 2 ++ leBytes s.control.fwSvn 4 ++
        leBytes (if box = 256 then 0xFFFF else box) 2) (advance dt s)))) ∧
  (∀ (dt box : Nat) (s : State), box ≤ 256 → Safety.due s box 0x70 → byteAt (reqBytes (s.box box)) 9 = 0 →
    exec (.queryStats dt box) s = .next (settle s (answer box 0 0
      (let x := s.ctx (byteAt (reqBytes (s.box box)) 8)
       leBytes x.nDone 8 ++ leBytes x.nMiss 8 ++ leBytes x.nGuard 8 ++ leBytes x.nEmpty 8 ++ leBytes x.energyUj 8 ++ leBytes x.bytes 8 ++
         leBytes (advance dt s).now 8) (advance dt s)))) ∧
  (∀ (dt box : Nat) (x : Stream) (s : State), box ≤ 256 → Safety.due s box 0x70 → byteAt (reqBytes (s.box box)) 9 = 1 →
    Tbl.get? s.streams (field (reqBytes (s.box box)) 0x0A 2) = some x → x.ctx = byteAt (reqBytes (s.box box)) 8 →
    exec (.queryStats dt box) s = .next (settle s (answer box 0 0
      (leBytes x.nFrames 8 ++ leBytes x.nTrunc 8 ++ leBytes x.nOver 8 ++ leBytes x.nCorrupt 8 ++ leBytes x.nLate 8 ++ leBytes x.nInvalid 8 ++
         leBytes (advance dt s).now 8) (advance dt s)))) ∧
  (∀ (dt box : Nat) (s : State), box ≤ 256 → Safety.due s box 0x70 → byteAt (reqBytes (s.box box)) 9 = 2 →
    exec (.queryStats dt box) s = .next (settle s (answer box 0 0
      (leBytes s.faults.nReplays 8 ++ leBytes s.faults.nContained 8 ++ leBytes s.faults.nRetired 8 ++ leBytes s.faults.nShed 8 ++
         leBytes s.faults.nBubble 8 ++ leBytes s.faults.nRestarts 8 ++ leBytes (advance dt s).now 8) (advance dt s)))) ∧
  (∀ (dt : Nat) (s : State), Safety.due s 256 0x78 → byteAt (reqBytes (s.box 256)) 8 < 5 →
    recordOk (byteAt (reqBytes (s.box 256)) 8) (field (reqBytes (s.box 256)) 0x0A 2) = true → s.power.mram.pg = true →
    exec (.keepRead dt 256) s = .next (settle s (answer 256 0 0
      (let slot := recordSlot (byteAt (reqBytes (s.box 256)) 8) (field (reqBytes (s.box 256)) 0x0A 2)
       if s.keep.slotValid slot then (s.keep.slotBytes slot).take 52 else List.replicate 52 0) (advance dt s)))) ∧
  (∀ (box status detail : Nat) (payload : List Byte) (s : State),
    Safety.answered s (answer box status detail payload s) box status detail payload ∧
      answer box status detail payload s = { s with
        boxes := (answer box status detail payload s).boxes,
        control := { s.control with lastServed := if box < 256 then box else s.control.lastServed } } ∧
      ∀ b, b ≠ box → (answer box status detail payload s).box b = s.box b) ∧
  (∀ (dt : Nat) (s : State), Safety.due s 256 0x79 → byteAt (reqBytes (s.box 256)) 8 = 3 → field (reqBytes (s.box 256)) 0x0A 2 < 2048 →
    s.keep.waiting = [] → s.keep.refuses = false → mramDown s = false → s.power.mram.warn = false →
    ∃ t, exec (.keepWrite dt 256 .ok) s = .next t ∧ Safety.answered s t 256 0 0 [] ∧ t.keep.seq = s.keep.seq + 1 ∧
      t.keep.mem = putWords s.keep.mem (recordWords (1664 + field (reqBytes (s.box 256)) 0x0A 2) s.keep.seq
        (slice (reqBytes (s.box 256)) 0x0C 52)))

/-- OPEN_CONTEXT opens a closed context with its partition and an empty mailbox, a context with admitted bindings or streams does not
close, CLOSE_CONTEXT makes a context CLOSING, and CONTEXT_CLOSED follows once nothing is left of it: the pools are gone, the context is closed
and the request is answered (log 109). -/
def Obligations.ContextsOpenAndClose : Prop :=
  (∀ (dt c : Nat) (s : State), Safety.due s 256 0x02 → c < 256 →
    pickCtx s (field (reqBytes (s.box 256)) 8 2) = some c → (s.ctx c).st = .closed →
    partitionSize (field (reqBytes (s.box 256)) 0x0C 4) = true → partitionFits (advance dt s) (field (reqBytes (s.box 256)) 0x0C 4) = true →
    ∃ t, exec (.openContext dt 256) s = .next t ∧ Safety.answered s t 256 0 0 (leBytes c 2) ∧
      t.ctx c = { st := .opened, qstoreKib := field (reqBytes (s.box 256)) 0x0C 4 } ∧ (∀ k, k ≠ c → t.ctx k = s.ctx k) ∧
      (t.box c).busy = false ∧ (t.box c).respValid = false) ∧
  (∀ (dt box : Nat) (mem : ExtMem) (s : State), (Instr.closeContext dt box mem).wf = true → Safety.due s box 0x03 →
    closeBusy s (byteAt (reqBytes (s.box box)) 8) = true →
    exec (.closeContext dt box mem) s = .next (settle s (answer box 0x0D 1 [] (advance dt s)))) ∧
  (∀ (dt box c : Nat) (mem : ExtMem) (s : State), (Instr.closeContext dt box mem).wf = true → Safety.due s box 0x03 →
    byteAt (reqBytes (s.box box)) 8 = c → closeBusy s c = false →
    ∃ t, exec (.closeContext dt box mem) s = .next t ∧ (t.ctx c).st = .closing ∧ (t.ctx c).closeBox = some box ∧ (t.box box).busy = true) ∧
  (∀ (dt c box : Nat) (s : State), c < 256 → (s.ctx c).st = .closing → closeDone s c = true → (s.ctx c).closeBox = some box →
    serves s box = true → (s.box box).busy = true → (s.box box).accepted = true → (s.box box).committed = none →
    ∃ t, exec (.contextClosed dt c) s = .next t ∧ (t.ctx c).st = .closed ∧ Safety.answered s t box 0 0 [] ∧
      (t.ctx c).closeHold = (if box = c then some ((advance dt s).now + 10000000) else none) ∧
      (∀ p ∈ t.pools, p.1 / 128 ≠ c) ∧ (∀ k, k ≠ c → t.ctx k = s.ctx k))

/-- Settings through the mailbox: a draw key fills its slot, the energy limits wait for the next press-period start, the shelf's region,
quota and flush act at once. -/
def Obligations.SettingsTakeForce : Prop :=
  (∀ (dt box : Nat) (s : State), box ≤ 256 → Safety.due s box 0x40 → byteAt (reqBytes (s.box box)) 9 < 16 →
    field (reqBytes (s.box box)) 0x10 8 ≠ 0 → (s.ctx (byteAt (reqBytes (s.box box)) 8)).keys.length = 16 →
    heldKeys s (byteAt (reqBytes (s.box box)) 8) (byteAt (reqBytes (s.box box)) 9)
      ((s.ctx (byteAt (reqBytes (s.box box)) 8)).keys.getD (byteAt (reqBytes (s.box box)) 9) {}) = [] →
    ∃ t, exec (.setDrawKey dt box) s = .next t ∧ Safety.answered s t box 0 0 [] ∧
      (((t.ctx (byteAt (reqBytes (s.box box)) 8)).keys.getD (byteAt (reqBytes (s.box box)) 9) {}).cur).map (fun k => (k.id, k.key)) =
        some (field (reqBytes (s.box box)) 0x10 8, field (reqBytes (s.box box)) 0x18 16) ∧
      ∀ k, k ≠ byteAt (reqBytes (s.box box)) 9 → (t.ctx (byteAt (reqBytes (s.box box)) 8)).keys.getD k {} =
        (s.ctx (byteAt (reqBytes (s.box box)) 8)).keys.getD k {}) ∧
  (∀ (dt : Nat) (s : State), Safety.due s 256 0x50 → field (reqBytes (s.box 256)) 8 2 = 0xFFFF →
    1000 ≤ field (reqBytes (s.box 256)) 0x0C 4 → field (reqBytes (s.box 256)) 0x0C 4 ≤ 38000 →
    ∃ t, exec (.setEnergyBudget dt 256) s = .next t ∧ Safety.answered s t 256 0 0 [] ∧
      t.press.limNext = some (field (reqBytes (s.box 256)) 0x0C 4)) ∧
  (∀ (dt : Nat) (s : State), Safety.due s 256 0x50 → field (reqBytes (s.box 256)) 8 2 < 256 →
    ∃ t, exec (.setEnergyBudget dt 256) s = .next t ∧ Safety.answered s t 256 0 0 [] ∧
      (t.ctx (field (reqBytes (s.box 256)) 8 2)).capNext =
        some (if field (reqBytes (s.box 256)) 0x0C 4 = 0 then none else some (field (reqBytes (s.box 256)) 0x0C 4))) ∧
  (∀ (dt : Nat) (s : State), Safety.due s 256 0x58 → byteAt (reqBytes (s.box 256)) 9 = 0 →
    field (reqBytes (s.box 256)) 0x10 8 % 65536 = 0 → 65536 ≤ field (reqBytes (s.box 256)) 0x18 8 →
    field (reqBytes (s.box 256)) 0x18 8 ≤ 2 ^ 32 →
    ∃ t, exec (.shelfRegion dt 256) s = .next t ∧ Safety.answered s t 256 0 0 [] ∧ t.shelf.base = field (reqBytes (s.box 256)) 0x10 8 ∧
      t.shelf.size = field (reqBytes (s.box 256)) 0x18 8 ∧ ∀ e ∈ t.shelf.entries, e.visible = false) ∧
  (∀ (dt : Nat) (s : State), Safety.due s 256 0x58 → byteAt (reqBytes (s.box 256)) 9 = 1 →
    ∃ t, exec (.shelfQuota dt 256) s = .next t ∧ Safety.answered s t 256 0 0 [] ∧
      (t.ctx (byteAt (reqBytes (s.box 256)) 8)).quota = some (field (reqBytes (s.box 256)) 0x10 8)) ∧
  (∀ (dt box : Nat) (s : State), box ≤ 256 → Safety.due s box 0x58 → byteAt (reqBytes (s.box box)) 9 = 2 →
    ∃ t, exec (.shelfFlush dt box) s = .next t ∧ Safety.answered s t box 0 0 [] ∧
      ∀ e ∈ t.shelf.entries, e.ctx = byteAt (reqBytes (s.box box)) 8 → e.visible = false)

/-- Pools: CREATE_POOL makes a pool with the address and count asked for, DESTROY_POOL marks those it names and frees those whose buffers
have all come back, and POOL_DRAINED frees the others when theirs have. -/
def Obligations.PoolsComeAndGo : Prop :=
  (∀ (dt box c set k count base : Nat) (s : State), box ≤ 256 → Safety.due s box 0x30 → c = byteAt (reqBytes (s.box box)) 8 →
    set = byteAt (reqBytes (s.box box)) 9 → k = byteAt (reqBytes (s.box box)) 0x0A → count = field (reqBytes (s.box box)) 0x0C 4 →
    base = field (reqBytes (s.box box)) 0x10 8 → set < 16 → k < 8 → 1 ≤ count → count ≤ 65536 → base % 4096 = 0 →
    Tbl.get? s.pools (poolKey c set k) = none → allBuffers s + count ≤ 1048576 →
    withinWindow (s.ctx c).guards false true base (count * bufSize k) = true →
    ∃ t, exec (.createPool dt box) s = .next t ∧ Safety.answered s t box 0 0 (leBytes (c * 2 ^ 24 + set * 2 ^ 16) 4) ∧
      Tbl.get? t.pools (poolKey c set k) = some { base, count } ∧
      ∀ j, j ≠ poolKey c set k → Tbl.get? t.pools j = Tbl.get? s.pools j) ∧
  (∀ (dt box c set k : Nat) (s : State), box ≤ 256 → Safety.due s box 0x31 → c = byteAt (reqBytes (s.box box)) 8 →
    k = byteAt (reqBytes (s.box box)) 9 → (k < 8 ∨ k = 255) → poolSet (field (reqBytes (s.box box)) 0x0C 4) c = some set →
    namedPools s c set k ≠ [] → (s.box box).room = true → Tbl.wf s.pools = true →
    ∃ t, exec (.destroyPool dt box) s = .next t ∧ Safety.taken s t box [] ∧
      ∀ key ∈ namedPools s c set k, ∀ p, Tbl.get? s.pools key = some p →
        Tbl.get? t.pools key = if p.drained then none else some { p with destroying := true }) ∧
  (∀ (dt h cls key : Nat) (p : Pool) (s : State), Tbl.wf s.pools = true → Tbl.get? s.pools key = some p →
    ∃ t, exec (.poolDrained dt h cls) s = .next t ∧
      Tbl.get? t.pools key = if p.destroying && p.drained then none else some p)

/-- A guard window takes its new bounds and rights at once, under a generation one higher, and the others stay; a pending generation of
a binding that nothing uses takes force, and requests whose final state is reached stop waiting. -/
def Obligations.GenerationsTakeForce : Prop :=
  (∀ (dt box c w : Nat) (s : State), box ≤ 256 → Safety.due s box 0x38 → c = byteAt (reqBytes (s.box box)) 8 →
    w = byteAt (reqBytes (s.box box)) 9 → w < 16 → (s.ctx c).guards.length = 16 → byteAt (reqBytes (s.box box)) 0x0A < 4 →
    field (reqBytes (s.box box)) 0x10 8 % 64 = 0 → (field (reqBytes (s.box box)) 0x18 8 + 1) % 64 = 0 →
    field (reqBytes (s.box box)) 0x10 8 ≤ field (reqBytes (s.box box)) 0x18 8 → (s.box box).room = true →
    ∃ t, exec (.setGuard dt box) s = .next t ∧ Safety.taken s t box (leBytes (((s.ctx c).guards.getD w {}).gen + 1) 4) ∧
      (t.ctx c).guards.getD w {} = 
        { rd := bit (byteAt (reqBytes (s.box box)) 0x0A) 0, wr := bit (byteAt (reqBytes (s.box box)) 0x0A) 1,
          base := field (reqBytes (s.box box)) 0x10 8, limit := field (reqBytes (s.box box)) 0x18 8,
          gen := ((s.ctx c).guards.getD w {}).gen + 1 } ∧
      ∀ k, k ≠ w → (t.ctx c).guards.getD k {} = (s.ctx c).guards.getD k {}) ∧
  (∀ (dt h g : Nat) (b : Binding) (s : State), (Instr.updateFinalState dt (.binding h)).wf = true → s.fwRuns = true →
    Tbl.get? s.bindings h = some b → b.pending = some g → bindingBusy s h = false →
    ∃ t, exec (.updateFinalState dt (.binding h)) s = .next t ∧
      (Tbl.get? t.bindings h).map (fun b => (b.gen, b.pending)) = some (g, none)) ∧
  (∀ (dt c w box : Nat) (s : State), (Instr.updateFinalState dt (.guard c w)).wf = true → s.fwRuns = true →
    ∃ t, exec (.updateFinalState dt (.guard c w)) s = .next t ∧ t.ctxs = s.ctxs ∧
      ∀ o ∈ (t.box box).owed, o.what = .guard c w → o.ended = none → Await.met (.guard c w) o.value s = false)

/-- Rings: RING_CREATE makes a running ring of the size asked for; a RING_RESET drain of an idle ring zeroes its counts at once, an abort
and a destroy begin ABORTING; the end of a reset leaves the ring running or, for a destroy, gone. -/
def Obligations.RingsAreCreatedAndReset : Prop :=
  (∀ (dt box c n l base : Nat) (s : State), box ≤ 256 → Safety.due s box 0x60 → Safety.quiet s → c = byteAt (reqBytes (s.box box)) 8 →
    n = byteAt (reqBytes (s.box box)) 9 → l = byteAt (reqBytes (s.box box)) 0x0A → base = field (reqBytes (s.box box)) 0x10 8 →
    n < 4 → 4 ≤ l → l ≤ 16 → base % 4096 = 0 → (s.ring c n).st = .none →
    withinWindow (s.ctx c).guards true true base (64 * 2 ^ l) = true →
    ∃ t, exec (.ringCreate dt box) s = .next t ∧ Safety.answered s t box 0 0 [] ∧
      t.ring c n = { st := .run, base, log2 := l, enable := true }) ∧
  (∀ (dt box c n : Nat) (s : State), box ≤ 256 → Safety.due s box 0x61 → Safety.quiet s → c = byteAt (reqBytes (s.box box)) 8 →
    n = byteAt (reqBytes (s.box box)) 9 → byteAt (reqBytes (s.box box)) 0x0A = 0 → n < 4 → (s.ring c n).st = .run →
    (s.ring c n).reset = none → (s.ring c n).ctlReset = false → (s.ring c n).done = (s.ring c n).head →
    (s.ring c n).issued = (s.ring c n).head →
    ∃ t, exec (.ringResetDrain dt box) s = .next t ∧ Safety.answered s t box 0 0 [] ∧ (t.ring c n).st = .run ∧ (t.ring c n).tail = 0 ∧
      (t.ring c n).head = 0 ∧ (t.ring c n).done = 0 ∧ (t.ring c n).reset = none) ∧
  (∀ (dt box c n : Nat) (s : State), box ≤ 256 → Safety.due s box 0x61 → Safety.quiet s → c = byteAt (reqBytes (s.box box)) 8 →
    n = byteAt (reqBytes (s.box box)) 9 → byteAt (reqBytes (s.box box)) 0x0A = 1 → n < 4 → (s.ring c n).st ≠ .none →
    (s.ring c n).reset = none → (s.box box).room = true →
    ∃ t, exec (.ringResetAbort dt box) s = .next t ∧ Safety.answered s t box 0 1 [] ∧ (t.ring c n).st = .aborting ∧
      (t.ring c n).reset = some 1 ∧ (t.ring c n).enable = false) ∧
  (∀ (dt box c n : Nat) (s : State), box ≤ 256 → Safety.due s box 0x61 → Safety.quiet s → c = byteAt (reqBytes (s.box box)) 8 →
    n = byteAt (reqBytes (s.box box)) 9 → byteAt (reqBytes (s.box box)) 0x0A = 2 → n < 4 → (s.ring c n).st ≠ .none →
    (s.ring c n).reset = none → ringStreams s c n = false → (s.box box).room = true →
    ∃ t, exec (.ringResetDestroy dt box) s = .next t ∧ Safety.answered s t box 0 1 [] ∧ (t.ring c n).st = .aborting ∧
      (t.ring c n).reset = some 2 ∧ (t.ring c n).enable = false) ∧
  (∀ (dt c n m : Nat) (s : State), c < 256 → n < 4 → Safety.quiet s → (s.ring c n).reset = some m → resetIdle (s.ring c n) = true →
    ∃ t, exec (.ringResetDone dt c n) s = .next t ∧ (t.ring c n).st = (if m = 2 then .none else .run) ∧ (t.ring c n).tail = 0 ∧
      (t.ring c n).head = 0 ∧ (t.ring c n).done = 0 ∧ (t.ring c n).reset = none)

/-! ### Bindings and streams (05 R153-R161, R166, 07 R227-R231) -/

/-- A valid image becomes a binding at generation 1 under a new handle; a replacement and a coefficient set of a binding in no use take
force at once as the next generation. -/
def Obligations.BindingsAreLoaded : Prop :=
  (∀ (dt box alloc h : Nat) (mem : ExtMem) (s : State), (Instr.loadBinding dt box mem alloc).wf = true →
    Safety.due s box 0x10 → field (reqBytes (s.box box)) 0x0C 4 = 0 → h = byteAt (reqBytes (s.box box)) 8 * 2 ^ 24 + alloc → h ≠ 0 →
    Tbl.get? s.bindings h = none → field (reqBytes (s.box box)) 0x10 8 % 4096 = 0 → field (reqBytes (s.box box)) 0x10 8 < 2 ^ 48 →
    field (reqBytes (s.box box)) 0x18 4 ≤ 2 ^ 25 → ctxBindings s (byteAt (reqBytes (s.box box)) 8) < 64 → s.bindings.length < 1024 →
    ∃ t, exec (.loadBinding dt box mem alloc) s = .next t ∧ ∀ bs i,
      firmwareRead s (byteAt (reqBytes (s.box box)) 8) mem (field (reqBytes (s.box box)) 0x10 8) (field (reqBytes (s.box box)) 0x18 4) = .ok bs →
      validate bs (field (reqBytes (s.box box)) 0x18 4) (field (reqBytes (s.box box)) 0x10 8) = .ok i →
      Safety.answered s t box 0 0 (leBytes h 4 ++ leBytes 1 4 ++ leBytes i.bindingId 4) ∧
      Tbl.get? t.bindings h = some (newBinding { i with guards := (s.ctx (byteAt (reqBytes (s.box box)) 8)).guards }) ∧
      ∀ k, k ≠ h → Tbl.get? t.bindings k = Tbl.get? s.bindings k) ∧
  (∀ (dt box h : Nat) (mem : ExtMem) (b : Binding) (s : State), (Instr.loadBindingReplace dt box mem).wf = true →
    Safety.due s box 0x10 → h = field (reqBytes (s.box box)) 0x0C 4 → h ≠ 0 → Tbl.get? s.bindings h = some b → b.admitted = false →
    b.st ≠ .retiring → b.pending = none → bindingBusy s h = false → field (reqBytes (s.box box)) 0x10 8 % 4096 = 0 →
    field (reqBytes (s.box box)) 0x10 8 < 2 ^ 48 → field (reqBytes (s.box box)) 0x18 4 ≤ 2 ^ 25 →
    ∃ t, exec (.loadBindingReplace dt box mem) s = .next t ∧ ∀ bs i,
      firmwareRead s (byteAt (reqBytes (s.box box)) 8) mem (field (reqBytes (s.box box)) 0x10 8) (field (reqBytes (s.box box)) 0x18 4) = .ok bs →
      validate bs (field (reqBytes (s.box box)) 0x18 4) (field (reqBytes (s.box box)) 0x10 8) = .ok i →
      Safety.answered s t box 0 0 (leBytes h 4 ++ leBytes (b.lastGen + 1) 4 ++ leBytes i.bindingId 4) ∧
      (Tbl.get? t.bindings h).map (fun x => (x.gen, x.pending, x.lastGen)) = some (b.lastGen + 1, none, b.lastGen + 1)) ∧
  (∀ (dt box h : Nat) (mem : ExtMem) (d : List Byte) (r : CoeffRec) (i : Image) (b : Binding) (s : State), (Instr.loadCoeff dt box mem).wf = true →
    Safety.due s box 0x48 → h = field (reqBytes (s.box box)) 0x0C 4 → Tbl.get? s.bindings h = some b → b.image = some i →
    b.admitted = false → b.st ≠ .retiring → b.pending = none → bindingBusy s h = false → byteAt (reqBytes (s.box box)) 9 ≤ 2 →
    coeffRecord s h (byteAt (reqBytes (s.box box)) 9) (field (reqBytes (s.box box)) 0x0A 2) = some r →
    r.size = field (reqBytes (s.box box)) 0x18 4 →
    firmwareRead s (byteAt (reqBytes (s.box box)) 8) mem (field (reqBytes (s.box box)) 0x10 8) (field (reqBytes (s.box box)) 0x18 4) = .ok d →
    crc32c d = field (reqBytes (s.box box)) 0x1C 4 →
    ∃ t, exec (.loadCoeff dt box mem) s = .next t ∧ Safety.answered s t box 0 0 (leBytes (b.lastGen + 1) 4) ∧
      (Tbl.get? t.bindings h).map (fun x => (x.gen, x.pending)) = some (b.lastGen + 1, none))

/-- A binding whose admission the checks of 07 R227 and the placement of R228 allow is ADMITTED with its class, point and quires, and
planned at a press-period start; one that nothing uses is retired at once, an admitted one waits to leave the plan. -/
def Obligations.BindingsAreAdmittedAndRetired : Prop :=
  (∀ (dt h cls opp : Nat) (b : Binding) (i : Image) (q : List Nat × List Nat × Option Nat) (s : State), Safety.due s 256 0x11 →
    h = field (reqBytes (s.box 256)) 0x0C 4 → cls = byteAt (reqBytes (s.box 256)) 9 → opp = byteAt (reqBytes (s.box 256)) 0x0B →
    Tbl.get? s.bindings h = some b → b.image = some i → cls ≤ 1 → byteAt (reqBytes (s.box 256)) 0x0A ≤ 15 → opp ≤ 2 →
    b.admitted = false → b.st ≠ .retiring → bit i.classes cls = true → s.power.fastest ≤ opp → opp ≤ s.power.slowest →
    i.slots.getD opp [] ≠ [] → (anyAdmitted s = true → i.periodSlots = s.press.period) → (cls = 0 → 1 ≤ s.press.spares) →
    (∀ c ∈ i.coeffs, c.resident = true ∧ c.data ≠ none) → i.coeffKib ≤ 16384 → residentSegs i ≤ unheldPlaces s →
    admittedSum s Image.rdBytes + i.rdBytes ≤ slotBandwidth opp → admittedSum s Image.wrBytes + i.wrBytes ≤ slotBandwidth opp →
    placement (advance dt s) i (cls = 0) opp = .ok q →
    ∃ t, exec (.admitBinding dt 256) s = .next t ∧
      Safety.answered s t 256 0 0 (leBytes (leafSlots (cls = 0) (i.slots.getD opp [])) 4 ++ leBytes i.periodSlots 4 ++ leBytes b.gen 4) ∧
      (Tbl.get? t.bindings h).map (fun x => (x.st, x.cls, x.opp, x.quiresA, x.quiresB, x.spare)) =
        some (.admitted, some cls, opp, q.1, q.2.1, q.2.2)) ∧
  (∀ (dt h : Nat) (b : Binding) (s : State), Tbl.get? s.bindings h = some b → b.st = .admitted → atPeriodStart (advance dt s) = true →
    s.power.oppWait = false → s.bookPoint ≤ b.opp →
    ∃ t, exec (.admissionTakesEffect dt h) s = .next t ∧ Tbl.get? t.bindings h = some { b with st := .planned }) ∧
  (∀ (dt box h : Nat) (b : Binding) (s : State), box ≤ 256 → Safety.due s box 0x12 → h = field (reqBytes (s.box box)) 0x0C 4 →
    Tbl.get? s.bindings h = some b → b.admitted = false → b.st ≠ .retiring → bindingBusy s h = false → hasStreams s h = false →
    Tbl.wf s.bindings = true →
    ∃ t, exec (.retireBinding dt box) s = .next t ∧ Safety.answered s t box 0 0 [] ∧ Tbl.get? t.bindings h = none) ∧
  (∀ (dt h : Nat) (b : Binding) (s : State), Safety.due s 256 0x12 → h = field (reqBytes (s.box 256)) 0x0C 4 →
    Tbl.get? s.bindings h = some b → b.admitted = true → b.cls ≠ none → b.st ≠ .retiring → (s.box 256).room = true →
    ∃ t, exec (.retireBinding dt 256) s = .next t ∧ Safety.answered s t 256 0 1 [] ∧
      (Tbl.get? t.bindings h).map (fun x => (x.st, x.cls)) = some (.retiring, b.cls)) ∧
  (∀ (dt h : Nat) (b : Binding) (s : State), Tbl.get? s.bindings h = some b → b.st = .retiring → b.cls ≠ none →
    atPeriodStart (advance dt s) = true → bindingBusy s h = false → hasStreams s h = false → Tbl.wf s.bindings = true →
    ∃ t, exec (.bindingLeavesPlan dt h) s = .next t ∧ Tbl.get? t.bindings h = none)

/-- An ATTACH_STREAM that passes its checks makes the stream and wakes its port, the first Frame Start on an UP port attaches it and makes
its ring a stream ring; a detachment drops a stream that was not attached yet and leaves an open frame to end; a sync group is defined,
dissolved and takes effect once every member has been seen. -/
def Obligations.StreamsAttachAndDetach : Prop :=
  (∀ (dt id : Nat) (s : State), Safety.due s 256 0x20 → Safety.quiet s → id = field (reqBytes (s.box 256)) 0x0A 2 →
    (∀ x ∈ attachChecks s id (attachFields (reqBytes (s.box 256))), x.1 = true) → (s.box 256).room = true →
    ∃ t, exec (.attachStream dt 256) s = .next t ∧ Safety.answered s t 256 0 1 [] ∧
      Tbl.get? t.streams id = some (attachFields (reqBytes (s.box 256))) ∧
      (t.port (attachFields (reqBytes (s.box 256))).port).st ≠ .off) ∧
  (∀ (dt id : Nat) (x : Stream) (s : State), id < 65536 → Safety.quiet s → Tbl.get? s.streams id = some x → x.st = .attaching →
    (s.port x.port).st = .up →
    ∃ t, exec (.streamAttached dt id) s = .next t ∧ Tbl.get? t.streams id = some { x with st := .attached } ∧
      (t.ring x.ctx x.ring).stream = true) ∧
  (∀ (dt id w : Nat) (x : Stream) (s : State), Safety.due s 256 0x21 → Safety.quiet s → byteAt (reqBytes (s.box 256)) 9 = 0 →
    id = field (reqBytes (s.box 256)) 0x0A 2 → Tbl.get? s.streams id = some x → x.ctx = byteAt (reqBytes (s.box 256)) 8 →
    x.st = .attached → x.cur = some w → (s.box 256).room = true →
    ∃ t, exec (.detachAfterFrame dt 256) s = .next t ∧ Safety.answered s t 256 0 1 [] ∧
      Tbl.get? t.streams id = some { x with st := .detaching, detachMode := some 0 }) ∧
  (∀ (dt id : Nat) (x : Stream) (s : State), Safety.due s 256 0x21 → byteAt (reqBytes (s.box 256)) 9 = 1 →
    id = field (reqBytes (s.box 256)) 0x0A 2 → Tbl.get? s.streams id = some x → x.ctx = byteAt (reqBytes (s.box 256)) 8 →
    x.st = .attaching → Tbl.wf s.streams = true →
    ∃ t, exec (.detachAtOnce dt 256) s = .next t ∧ Safety.answered s t 256 0 0 [] ∧ Tbl.get? t.streams id = none) ∧
  (∀ (dt g n w : Nat) (s : State), Safety.due s 256 0x22 → Safety.quiet s → n = byteAt (reqBytes (s.box 256)) 9 →
    g = field (reqBytes (s.box 256)) 0x0A 2 → w = field (reqBytes (s.box 256)) 0x0C 2 → 1 ≤ n → n ≤ 12 → g ≤ 15 →
    Tbl.get? s.groups g = none → 1 ≤ w → w ≤ 1000 →
    groupOk s (byteAt (reqBytes (s.box 256)) 8) (groupList (reqBytes (s.box 256))) = true →
    (∀ p ∈ s.groups, ∀ i ∈ p.2.members, i ∉ groupList (reqBytes (s.box 256))) → (s.box 256).room = true →
    ∃ t, exec (.defineSyncGroup dt 256) s = .next t ∧ Safety.answered s t 256 0 1 [] ∧
      Tbl.get? t.groups g = some { ctx := byteAt (reqBytes (s.box 256)) 8, members := groupList (reqBytes (s.box 256)), windowUs := w }) ∧
  (∀ (dt g : Nat) (x : Group) (s : State), Safety.due s 256 0x22 → byteAt (reqBytes (s.box 256)) 9 = 0 → g = field (reqBytes (s.box 256)) 0x0A 2 →
    g ≤ 15 → Tbl.get? s.groups g = some x → x.ctx = byteAt (reqBytes (s.box 256)) 8 → Tbl.wf s.groups = true →
    ∃ t, exec (.defineSyncGroup dt 256) s = .next t ∧ Safety.answered s t 256 0 0 [] ∧ Tbl.get? t.groups g = none) ∧
  (∀ (dt g : Nat) (x : Group) (s : State), g < 16 → Safety.quiet s → Tbl.get? s.groups g = some x → x.inForce = false →
    (∀ i ∈ x.members, i ∈ x.seen) →
    ∃ t, exec (.syncGroupEffect dt g) s = .next t ∧ Tbl.get? t.groups g = some { x with inForce := true })

/-! ### Work rings and entries (06 R187-R214) -/

/-- Register writes of a ring: a doorbell that meets the conditions of R187 moves TAIL to the count that bits 16:0 of the word name, one
that fails any of them sets DB_ERR and leaves TAIL, and the response is OK; PAUSE, RESUME and ABORT change the state; RESET of a paused
idle ring zeroes its counts. -/
def Obligations.RingRegisters : Prop :=
  (∀ (dt c n u v : Nat) (s : State), u < 2 ^ 32 → v = u % 2 ^ 17 → c < 256 → n < 4 → s.mainUp = true → Safety.quiet s →
    (s.ctx c).st = .opened → (s.ring c n).st ≠ .none → (s.ring c n).reset = none → v < 2 * (s.ring c n).size →
    (v + 2 * (s.ring c n).size - (s.ring c n).done % (2 * (s.ring c n).size)) % (2 * (s.ring c n).size) ≤ (s.ring c n).size →
    (s.ring c n).tail - (s.ring c n).done ≤
      (v + 2 * (s.ring c n).size - (s.ring c n).done % (2 * (s.ring c n).size)) % (2 * (s.ring c n).size) →
    ∃ t, exec (.ringDoorbell dt c n u) s = .next t ∧ t.chip.rspCode = 0 ∧ t.ring c n = { s.ring c n with
      tail := (s.ring c n).done + (v + 2 * (s.ring c n).size - (s.ring c n).done % (2 * (s.ring c n).size)) % (2 * (s.ring c n).size) }) ∧
  (∀ (dt c n u v : Nat) (s : State), u < 2 ^ 32 → v = u % 2 ^ 17 → c < 256 → n < 4 → s.mainUp = true → Safety.quiet s →
    (s.ctx c).st = .opened → (s.ring c n).st ≠ .none →
    (2 * (s.ring c n).size ≤ v ∨
      (s.ring c n).size < (v + 2 * (s.ring c n).size - (s.ring c n).done % (2 * (s.ring c n).size)) % (2 * (s.ring c n).size) ∨
      (v + 2 * (s.ring c n).size - (s.ring c n).done % (2 * (s.ring c n).size)) % (2 * (s.ring c n).size) <
        (s.ring c n).tail - (s.ring c n).done) →
    ∃ t, exec (.ringDoorbell dt c n u) s = .next t ∧ t.chip.rspCode = 0 ∧ (t.ring c n).dbErr = true ∧ (t.ring c n).tail = (s.ring c n).tail) ∧
  (∀ (dt c n : Nat) (s : State), c < 256 → n < 4 → s.mainUp = true → Safety.quiet s → (s.ctx c).st = .opened → (s.ring c n).st = .run →
    (s.ring c n).reset = none → (s.ring c n).enable = true →
    ∃ t, exec (.ringPause dt c n) s = .next t ∧ t.ring c n = { s.ring c n with st := .paused, enable := false }) ∧
  (∀ (dt c n : Nat) (s : State), c < 256 → n < 4 → s.mainUp = true → Safety.quiet s → (s.ctx c).st = .opened → (s.ring c n).st = .paused →
    (s.ring c n).reset = none → (s.ring c n).enable = false →
    ∃ t, exec (.ringResume dt c n) s = .next t ∧ t.ring c n = { s.ring c n with st := .run, enable := true }) ∧
  (∀ (dt c n : Nat) (s : State), c < 256 → n < 4 → s.mainUp = true → Safety.quiet s → (s.ctx c).st = .opened → (s.ring c n).st = .run →
    (s.ring c n).reset = none →
    ∃ t, exec (.ringAbort dt c n) s = .next t ∧ (t.ring c n).st = .aborting ∧ (t.ring c n).enable = false ∧
      (t.ring c n).tail = (s.ring c n).tail ∧ (t.ring c n).entries = (s.ring c n).entries) ∧
  (∀ (dt c n : Nat) (s : State), c < 256 → n < 4 → s.mainUp = true → Safety.quiet s → (s.ctx c).st = .opened → (s.ring c n).st = .paused →
    (s.ring c n).reset = none → (s.ring c n).done = (s.ring c n).head → (s.ring c n).issued = (s.ring c n).head →
    ∃ t, exec (.ringCtlReset dt c n) s = .next t ∧ (t.ring c n).st = .paused ∧ (t.ring c n).tail = 0 ∧ (t.ring c n).head = 0 ∧
      (t.ring c n).done = 0 ∧ (t.ring c n).entries = [])

/-- The ring that the round robin serves issues one burst of slots, as far as its windows let it; a ring whose next slot its windows
refuse stops with GUARD_VIOLATION. -/
def Obligations.RingsFetch : Prop :=
  (∀ (dt k want : Nat) (s : State), Safety.quiet s → nextRing s = some k →
    want = min ((s.ring (k / 4) (k % 4)).tail - (s.ring (k / 4) (k % 4)).issued) (burstRoom (s.ring (k / 4) (k % 4)) (s.ring (k / 4) (k % 4)).issued) →
    readableSlots (s.ctx (k / 4)).guards (s.ring (k / 4) (k % 4)) (s.ring (k / 4) (k % 4)).issued want = want → 0 < want →
    ∃ t, exec (.ringFetchIssue dt) s = .next t ∧ t.fetchRr = k ∧
      t.ring (k / 4) (k % 4) = { s.ring (k / 4) (k % 4) with issued := (s.ring (k / 4) (k % 4)).issued + want }) ∧
  (∀ (dt k : Nat) (s : State), Safety.quiet s → nextRing s = some k →
    lineOk (s.ctx (k / 4)).guards false ((s.ring (k / 4) (k % 4)).slotAddr (s.ring (k / 4) (k % 4)).issued) = false →
    ∃ t, exec (.ringFetchIssue dt) s = .next t ∧ (t.ring (k / 4) (k % 4)).st = .stopped ∧ (t.ring (k / 4) (k % 4)).errStatus = 3 ∧
      (t.ring (k / 4) (k % 4)).fetchErr = true ∧ (t.ctx (k / 4)).nGuard = (s.ctx (k / 4)).nGuard + 1) ∧
  (∀ (dt : Nat) (s : State), nextRing s = none → exec (.ringFetchIssue dt) s = .next (settle s (advance dt s)))

/-- A NOP entry as 06 R193 lays it out, fetched into a ring, passes HEAD and stands ready with the time of its acceptance. -/
def Obligations.FetchedEntriesAreAccepted : Prop :=
  ∀ (dt c n tag : Nat) (l : Fetched) (s : State), c < 256 → n < 4 → Safety.quiet s → tag < 2 ^ 32 →
    (s.ring c n).arrived.find? (·.count = (s.ring c n).head) = some l → l.bad = false →
    l.bytes = [5, 3, 1, 0] ++ leBytes tag 4 ++ List.replicate 6 0 ++ [0xFF, 0xFF] ++ List.replicate 48 0 →
    (s.ctx c).st ≠ .closing → ((s.ring c n).stream = false ∨ (s.ring c n).backlog = []) → (s.ring c n).aborting = false → (∀ e ∈ (s.ring c n).entries, e.count < (s.ring c n).head ∧ e.phase ≠ .gathering) →
    ∃ t, exec (.entryFetched dt c n) s = .next t ∧ (t.ring c n).head = (s.ring c n).head + 1 ∧
      ((t.ring c n).entry? (s.ring c n).head).map (fun e => (e.op, e.tag, e.phase, e.tAccept, e.chainLen)) =
        some (5, tag, .ready, (advance dt s).now, 1)

/-- Entries without stages end with their status: FENCE once what it waits for is complete, NOP on a ring without streams, FREE_BUFFER
of a buffer that the host holds, SHELF_EVICT with DETAIL 1 where the key was found, and an entry that has not started at its deadline. -/
def Obligations.PlainEntriesEnd : Prop :=
  (∀ (dt c n k : Nat) (e : Entry) (s : State), c < 256 → n < 4 → (s.ring c n).entry? k = some e → e.op = 4 → e.phase = .ready →
    (s.ring c n).ctlReset = false → fenceMet s c n e = true → Safety.quiet s →
    ∃ t, exec (.fence dt c n k) s = .next t ∧
      (((t.ring c n).entry? k).map (fun x => (x.status, x.detail, x.buffer)) = some (0, 0, 0)) ∧
      ((t.ring c n).entry? k).any (fun x => x.phase == .ended || x.phase == .writing) = true) ∧
  (∀ (dt c n k : Nat) (e : Entry) (s : State), c < 256 → n < 4 → entryReady s c n k = some e → e.op = 5 → (s.ring c n).stream = false →
    Safety.quiet s →
    ∃ t, exec (.nop dt c n k) s = .next t ∧
      (((t.ring c n).entry? k).map (fun x => (x.status, x.detail, x.buffer)) = some (0, 0, 0)) ∧
      ((t.ring c n).entry? k).any (fun x => x.phase == .ended || x.phase == .writing) = true) ∧
  (∀ (dt c n k i set key : Nat) (e : Entry) (s : State), c < 256 → n < 4 → entryReady s c n k = some e → e.op = 2 → olderFree s c e = false →
    poolSet e.pool c = some set → bufAt s c set e.in0 = some (key, i, some .host) → Safety.quiet s →
    ∃ t, exec (.freeBuffer dt c n k) s = .next t ∧
      (((t.ring c n).entry? k).map (fun x => (x.status, x.detail, x.buffer)) = some (0, 0, e.in0)) ∧
      t.pools = (setBuf key i none s).pools) ∧
  (∀ (dt c n k : Nat) (e : Entry) (x : ShelfEntry) (s : State), c < 256 → n < 4 → entryReady s c n k = some e → e.op = 3 →
    x ∈ s.shelf.entries → x.visible = true → x.ctx = c → x.source = e.in0 → x.crop = e.param → Safety.quiet s →
    ∃ t, exec (.shelfEvict dt c n k) s = .next t ∧
      (((t.ring c n).entry? k).map (fun x => (x.status, x.detail)) = some (0, 1)) ∧
      ∀ y ∈ t.shelf.entries, y.ctx = c → y.source = e.in0 → y.crop = e.param → y.visible = false) ∧
  (∀ (dt c n k : Nat) (e : Entry) (s : State), c < 256 → n < 4 → (s.ring c n).entry? k = some e → e.phase = .ready → e.deadline ≠ 0 →
    (s.ring c n).ctlReset = false → e.deadline ≤ (advance dt s).now → e.started = false → e.work = none → Safety.quiet s →
    ∃ t, exec (.entryDeadline dt c n k) s = .next t ∧
      (((t.ring c n).entry? k).map (fun x => (x.status, x.detail, x.buffer)) = some (7, 0, 0)))

/-- A started SUBMIT chain runs: its payload, results and statuses are those of its members run in order. A started DRAW writes the
values of 12 R414 for its key and position. -/
def Obligations.ChainsRun : Prop :=
  (∀ (dt c n k wid len : Nat) (mem : ExtMem) (e : Entry) (w : Work) (i : Image) (p : EntryPt) (b : Batch) (u s : State),
    (Instr.submit dt c n k mem).wf = true → (s.ring c n).entry? k = some e → e.work = some wid → Tbl.get? s.works wid = some w →
    w.kind = .chain c n k len → w.started = true → w.ran = false → workImage s w = some (i, p) →
    runMembers w mem (chainEntries s c n k len) 0 {} (advance dt s) = (b, u) → b.fail = none →
    exec (.submit dt c n k mem) s = .next (settle s (presentLookups wid w b.lookups (presentInputs wid w b.reads
      (modWork wid (fun w => { w with
        ran := true, payload := b.payload, codecOut := b.writes, members := markMembers p.views w.members b.statuses }) u))))) ∧
  (∀ (dt c n k wid : Nat) (e : Entry) (w : Work) (q : DrawKey) (s : State), c < 256 → n < 4 →
    (s.ring c n).entry? k = some e → e.work = some wid → Tbl.get? s.works wid = some w → w.kind = .draw c n k → w.started = true →
    w.ran = false → w.suspended = false → w.key = some q →
    exec (.draw dt c n k) s = .next (settle s (finishSample wid (countDraws (modWork wid (fun w => { w with
      ran := true, place := none,
      payload := drawValues q.key e.drawPos (bits e.param 16 16) (bits e.param 0 8) e.ext (bits e.param 32 32) }) (advance dt s))))))

/-! ### The memory ports (02 R33-R38, 13 R436) -/

/-- Read data reach the fetch they belong to; a write response frees its tag, that of a transaction given up too, and one to a tag that is not
outstanding is FATAL on the port's source; a transaction outstanding for 100 us is given up with a CONTAINED fault but keeps its tag; a refill
adds each bucket's RATE up to its DEPTH. -/
def Obligations.MemoryPortsAnswer : Prop :=
  (∀ (dt port tag beat c n count lines : Nat) (data : List Byte) (x : Tx) (s : State),
    (Instr.memReadBeat dt port tag data beat (decide (beat + 1 = x.lines)) 0 0).wf = true → s.mainUp = true → Safety.quiet s →
    findTx s port tag = some x → x.rd = true → x.timedOut = false → x.beats = beat → x.purpose = .fetch c n count lines →
    ∃ t, exec (.memReadBeat dt port tag data beat (decide (beat + 1 = x.lines)) 0 0) s = .next t ∧
      (t.ring c n).arrived = (s.ring c n).arrived ++ [{ count := count + beat, bytes := slice data 0 64, bad := false }]) ∧
  (∀ (dt port tag resp : Nat) (x : Tx) (s : State), port < 4 → tag < 1024 → resp < 4 → s.mainUp = true → findTx s port tag = some x →
    x.rd = false → x.timedOut = true →
    exec (.memWriteResponse dt port tag resp) s = .next (settle s (pump (noteLate x (dropTx x.id (advance dt s)))))) ∧
  (∀ (dt port tag r : Nat) (x : Tx) (s : State), port < 4 → tag < 1024 → s.mainUp = true → findTx s port tag = some x →
    x.rd = false → x.timedOut = false → x.purpose = .status r →
    exec (.memWriteResponse dt port tag 0) s = .next (settle s (pump (noteLate x (dropTx x.id (advance dt s)))))) ∧
  (∀ (dt port tag : Nat) (s : State), port < 4 → tag < 1024 → s.mainUp = true → findTx s port tag = none →
    Tbl.get? s.faults.records (112 + port) = none →
    ∃ t, exec (.memWriteResponse dt port tag 0) s = .next t ∧
      Safety.recorded t (112 + port) 3 0x1B) ∧
  (∀ (dt port tag c : Nat) (x : Tx) (s : State), port < 4 → tag < 1024 → s.mainUp = true → findTx s port tag = some x → x.timedOut = false →
    x.issued + 100000 ≤ (advance dt s).now → x.purpose = .read c → Tbl.get? s.faults.records (112 + port) = none → x.port = port →
    x.sys = true → (∀ y ∈ s.txs, y.id = x.id → y = x) →
    ∃ t, exec (.memTimeout dt port tag) s = .next t ∧ (∃ y ∈ t.txs, y.id = x.id ∧ y.tag = some tag ∧ y.timedOut = true) ∧
      Safety.recorded t (112 + port) 2 0x1A) ∧
  (∀ (dt : Nat) (s : State), s.mainUp = true → s.txs = [] →
    ∃ t, exec (.regulatorRefill dt) s = .next t ∧ t.mem.class1.level = min (s.mem.class1.level + s.mem.class1.rate) s.mem.class1.depth ∧
      t.mem.class2.level = min (s.mem.class2.level + s.mem.class2.rate) s.mem.class2.depth ∧
      t.mem.class3.level = min (s.mem.class3.level + s.mem.class3.rate) s.mem.class3.depth ∧ t.mem.class1.live = s.mem.class1.rate)

/-! ### Packet intake (08 R284-R300) -/

/-- A packet ring whose record and descriptor hold starts empty, one that fails stays stopped with the code in PKT_ERR; its doorbell
moves PROD; a packet that passes its checks gives its points to the ring's block and is consumed, one that fails a check of R288 is dropped
and counted; a disabled ring and one without a packet for GAP_US close their block; a closed block whose motion record does not match waits for
its next read, up to three in all, and one whose record matches is deskewed with it. -/
def Obligations.PacketRings : Prop :=
  (∀ (dt r : Nat) (mem : ExtMem) (x : PktRec × PktDesc) (s : State), (Instr.pktRingEnable dt r true mem).wf = true → s.mainUp = true →
    Safety.quiet s → (s.pring r).enable = false → (s.pring r).run = false → pktBusy s r = false → setupRing s r mem = .ok x →
    ∃ t, exec (.pktRingEnable dt r true mem) s = .next t ∧
      t.pring r = { enable := true, run := true, setup := some x, lastPkt := (advance dt s).now }) ∧
  (∀ (dt r code : Nat) (mem : ExtMem) (d : Nat × Nat) (s : State), (Instr.pktRingEnable dt r true mem).wf = true → s.mainUp = true →
    Safety.quiet s → (s.pring r).enable = false → (s.pring r).run = false → pktBusy s r = false → setupRing s r mem = .error (code, d) → code < 6 →
    ∃ t, exec (.pktRingEnable dt r true mem) s = .next t ∧ (t.pring r).run = false ∧ t.pkt.errCode = code ∧ t.pkt.errRing = r) ∧
  (∀ (dt r : Nat) (mem : ExtMem) (s : State), (Instr.pktRingDisable dt r true mem).wf = true → s.mainUp = true →
    (s.pring r).enable = true → (s.pring r).run = true → (s.pring r).block = none →
    ∃ t, exec (.pktRingDisable dt r true mem) s = .next t ∧ (t.pring r).enable = false ∧ (t.pring r).run = pktBusy s r) ∧
  (∀ (dt r : Nat) (mem : ExtMem) (x : PktRec) (d : PktDesc) (b : Block) (s : State), (Instr.pktRingDisable dt r true mem).wf = true →
    s.mainUp = true → (s.pring r).enable = true → (s.pring r).run = true → (s.pring r).block = some b → (s.pring r).setup = some (x, d) →
    x.motionAddr = 0 →
    exec (.pktRingDisable dt r true mem) s = .next (settle s (respond 0 0 (publishBlock r 0 (closedBlock (advance dt s) (s.pring r) 128 b)
      (modPring r (fun p => { p with enable := false, stopping := true, block := none, dropped := 0 }) (advance dt s)))))) ∧
  (∀ (dt r v : Nat) (x : PktRec) (d : PktDesc) (s : State), r < 8 → s.mainUp = true → Safety.quiet s → (s.pring r).run = true →
    (s.pring r).setup = some (x, d) → v < 2 * 2 ^ x.log2Slots → v < 2 ^ 17 →
    (v + 2 * 2 ^ x.log2Slots - (s.pring r).cons % (2 * 2 ^ x.log2Slots)) % (2 * 2 ^ x.log2Slots) ≤ 2 ^ x.log2Slots →
    (s.pring r).prod - (s.pring r).cons ≤
      (v + 2 * 2 ^ x.log2Slots - (s.pring r).cons % (2 * 2 ^ x.log2Slots)) % (2 * 2 ^ x.log2Slots) →
    ∃ t, exec (.pktDoorbell dt r v true) s = .next t ∧ (t.pring r).prod = (s.pring r).cons +
      (v + 2 * 2 ^ x.log2Slots - (s.pring r).cons % (2 * 2 ^ x.log2Slots)) % (2 * 2 ^ x.log2Slots)) ∧
  (∀ (dt r : Nat) (mem : ExtMem) (x : PktRec) (d : PktDesc) (h b : List Byte) (s : State), (Instr.pktParse dt r mem).wf = true →
    pktNext s = some r → (s.pring r).setup = some (x, d) → Safety.quiet s → s.faults.safe = .normal →
    pktRead s x.ctx mem (x.ringBase + (s.pring r).cons % 2 ^ x.log2Slots * 2 ^ x.slotLog2) 16 = .ok h →
    field h 0 2 + 16 ≤ 2 ^ x.slotLog2 →
    pktRead s x.ctx mem (x.ringBase + (s.pring r).cons % 2 ^ x.log2Slots * 2 ^ x.slotLog2 + 16) (field h 0 2) = .ok b →
    checkPacket x d b = none → guardCheck (s.ctx x.ctx).guards true x.statusAddr 8 = none →
    ∃ t, exec (.pktParse dt r mem) s = .next t ∧ (t.pring r).cons = (s.pring r).cons + 1 ∧
      (t.pring r).dropped = (s.pring r).dropped + 1 ∧ (t.pring r).block = (s.pring r).block) ∧
  (∀ (dt r : Nat) (mem : ExtMem) (x : PktRec) (d : PktDesc) (h b p : List Byte) (s : State), (Instr.pktParse dt r mem).wf = true →
    pktNext s = some r → (s.pring r).setup = some (x, d) → s.faults.safe = .normal →
    pktRead s x.ctx mem (x.ringBase + (s.pring r).cons % 2 ^ x.log2Slots * 2 ^ x.slotLog2) 16 = .ok h →
    field h 0 2 + 16 ≤ 2 ^ x.slotLog2 →
    pktRead s x.ctx mem (x.ringBase + (s.pring r).cons % 2 ^ x.log2Slots * 2 ^ x.slotLog2 + 16) (field h 0 2) = .ok b →
    checkPacket x d b = some p →
    exec (.pktParse dt r mem) s = .next (settle s (consume r (usePacket r x d mem (field h 8 8) b p
      (presentPkt x.ctx (x.ringBase + (s.pring r).cons % 2 ^ x.log2Slots * 2 ^ x.slotLog2 + 16) (field h 0 2)
        (presentPkt x.ctx (x.ringBase + (s.pring r).cons % 2 ^ x.log2Slots * 2 ^ x.slotLog2) 16
          { advance dt s with pkt := { s.pkt with rr := r } })))))) ∧
  (∀ (dt r : Nat) (mem : ExtMem) (x : PktRec) (d : PktDesc) (b : Block) (s : State), (Instr.pktGapTimeout dt r mem).wf = true →
    (s.pring r).setup = some (x, d) → (s.pring r).block = some b → (s.pring r).run = true → (s.pring r).cons = (s.pring r).prod →
    (s.pring r).lastPkt + x.gapUs * 1000 ≤ (advance dt s).now → x.motionAddr = 0 →
    exec (.pktGapTimeout dt r mem) s = .next (settle s (publishBlock r 0 (closedBlock (advance dt s) (s.pring r) 16 b)
      (modPring r (fun p => { p with block := none, dropped := 0 }) (advance dt s))))) ∧
  (∀ (dt r : Nat) (mem : ExtMem) (x : PktRec) (d : PktDesc) (b : Block) (l : List Byte) (s : State), (Instr.pktGapTimeout dt r mem).wf = true →
    Safety.quiet s → (s.pring r).setup = some (x, d) → (s.pring r).block = some b → (s.pring r).run = true →
    (s.pring r).cons = (s.pring r).prod → (s.pring r).lastPkt + x.gapUs * 1000 ≤ (advance dt s).now → x.motionAddr ≠ 0 →
    pktRead s x.ctx mem x.motionAddr 64 = .ok l → field l 0 4 ≠ field l 0x3C 4 → b.reads = 0 →
    ∃ t, exec (.pktGapTimeout dt r mem) s = .next t ∧ (t.pring r).block = none ∧
      (t.pring r).closing = (s.pring r).closing ++
        [{ closedBlock (advance dt s) (s.pring r) 16 b with reads := 1, readAt := (advance dt s).now }]) ∧
  (∀ (dt r : Nat) (mem : ExtMem) (x : PktRec) (d : PktDesc) (l : Block) (b : List Byte) (s : State), (Instr.motionRecordRetry dt r mem).wf = true →
    Safety.quiet s → (s.pring r).setup = some (x, d) → (s.pring r).closing = [l] → l.motionDue (advance dt s).now = true →
    pktRead s x.ctx mem x.motionAddr 64 = .ok b → field b 0 4 ≠ field b 0x3C 4 → l.reads + 1 < 3 →
    ∃ t, exec (.motionRecordRetry dt r mem) s = .next t ∧
      (t.pring r).closing = [{ l with reads := l.reads + 1, readAt := (advance dt s).now }]) ∧
  (∀ (dt r : Nat) (mem : ExtMem) (x : PktRec) (d : PktDesc) (l : Block) (b : List Byte) (s : State), (Instr.motionRecordRetry dt r mem).wf = true →
    (s.pring r).setup = some (x, d) → (s.pring r).closing = [l] → l.motionDue (advance dt s).now = true →
    pktRead s x.ctx mem x.motionAddr 64 = .ok b → field b 0 4 = field b 0x3C 4 →
    exec (.motionRecordRetry dt r mem) s = .next (settle s (deskewBlock r (readMotion b) false l
      (modPring r (fun p => { p with motion := some (readMotion b) }) (presentPkt x.ctx x.motionAddr 64
        (modPring r (fun p => { p with closing := [] }) (advance dt s)))))))

/-! ### Sensor intake (08 R257-R279, 07 R233, R247) -/

/-- Packets: a line of a stream's type joins its open frame as it came, packets of a virtual channel without a stream and generic short
packets are dropped and counted, a Line Start before the first line marks the frame's mode, a Line End does nothing more, and a header
with an uncorrectable error is counted and makes the port's open frames CORRUPT. -/
def Obligations.PacketsReachFrames : Prop :=
  (∀ (dt p vc dtype i wid : Nat) (payload : List Byte) (x : Stream) (f : Frame) (w : Work) (s : State),
    (Instr.csi2LongPacket dt p vc dtype .ok payload true false false).wf = true → s.mainUp = true → vcStream s p vc = some (i, x) →
    x.st ≠ .attaching → dtypeGroup dtype ≠ none → dtype = x.dtype → x.cur = some wid → Tbl.get? s.works wid = some w → w.frame = some f →
    f.got < x.height → f.lines.length = f.got → f.got / 64 ∉ f.held → bufferHeld s i wid x (f.got / 64) = false →
    payload.length = x.lineLen → (padLine x f).length ≤ payload.length → f.marked = false → mirrorOf s i f.counter = none →
    ∃ t, exec (.csi2LongPacket dt p vc dtype .ok payload true false false) s = .next t ∧
      (frameOf t wid).map (fun g => (g.got, g.lines, g.corrupt, g.lastPkt)) =
        some (f.got + 1, f.lines ++ [payload], f.corrupt, (advance dt s).now)) ∧
  (∀ (dt p vc dtype : Nat) (payload : List Byte) (crcOk fifoLost storeErr : Bool) (s : State),
    (Instr.csi2LongPacket dt p vc dtype .ok payload crcOk fifoLost storeErr).wf = true → s.mainUp = true → vcStream s p vc = none →
    exec (.csi2LongPacket dt p vc dtype .ok payload crcOk fifoLost storeErr) s =
      .next (settle s (modPort p (fun x => { x with drops := sat32 (x.drops + 1) }) (advance dt s)))) ∧
  (∀ (dt p vc i wid : Nat) (x : Stream) (w : Work) (f : Frame) (s : State), p < 16 → vc < 16 → s.mainUp = true →
    vcStream s p vc = some (i, x) → x.st ≠ .attaching → x.cur = some wid → Tbl.get? s.works wid = some w → w.frame = some f → f.got = 0 →
    f.marked = false →
    ∃ t, exec (.lineStart dt p vc .ok) s = .next t ∧ frameOf t wid = some { f with marked := true, lineOpen := true }) ∧
  (∀ (dt p vc i : Nat) (x : Stream) (s : State), p < 16 → vc < 16 → s.mainUp = true → vcStream s p vc = some (i, x) → x.st ≠ .attaching →
    exec (.lineEnd dt p vc .ok) s = .next (settle s (advance dt s))) ∧
  (∀ (dt p : Nat) (s : State), p < 16 → s.mainUp = true →
    exec (.genericShortPacket dt p .ok) s =
      .next (settle s (modPort p (fun x => { x with drops := sat32 (x.drops + 1) }) (advance dt s)))) ∧
  (∀ (dt p vc wid i : Nat) (x : Stream) (w : Work) (f : Frame) (s : State), p < 16 → vc < 16 → s.mainUp = true →
    openFrames s p = [(i, wid)] → Tbl.get? s.streams i = some x → f.got < x.height →
    Tbl.get? s.works wid = some w → w.frame = some f → Safety.quiet s →
    ∃ t, exec (.lineEnd dt p vc .bad) s = .next t ∧ (t.port p).eccErr = sat32 ((s.port p).eccErr + 1) ∧
      (frameOf t wid).map (fun g => (g.corrupt, g.isBad (f.got / 64))) = some (true, true))

/-- Frames: a Frame Start opens a frame with a gathering of its own and counts it, a Frame End closes it at its stamp, TRUNCATED where
lines are missing, and so does the line timeout; a group whose window ends goes on without the members that have not joined. -/
def Obligations.FramesOpenAndClose : Prop :=
  (∀ (dt p vc fn i : Nat) (j : Int) (x : Stream) (y : Binding × Image × EntryPt) (s : State), p < 16 → vc < 16 → fn < 65536 → s.mainUp = true →
    Safety.quiet s → vcStream s p vc = some (i, x) → Tbl.get? s.streams i = some x → x.st = .attached → (s.port p).st ≠ .lost → x.port = p →
    x.cur = none → x.mirrorPool = 0 → groupOf s i = none → streamImage s x = some y → (∀ q ∈ s.works, q.1 < s.workNext) →
    ∃ t, exec (.frameStart dt p vc fn .ok j false) s = .next t ∧
      (Tbl.get? t.streams i).map (fun x => (x.cur, x.nFrames)) = some (some s.workNext, x.nFrames + 1) ∧
      (frameOf t s.workNext).map (fun f => (f.fn, f.fsStamp, f.lines, f.closed)) =
        some (fn, (stampAt (advance dt s) j).toNat, [], none) ∧ t.workNext = s.workNext + 1) ∧
  (∀ (dt p vc fn i wid : Nat) (j : Int) (x : Stream) (w : Work) (f : Frame) (s : State), p < 16 → vc < 16 → fn < 65536 → s.mainUp = true →
    Safety.quiet s → vcStream s p vc = some (i, x) → Tbl.get? s.streams i = some x → x.cur = some wid → Tbl.get? s.works wid = some w →
    w.frame = some f → f.lineOpen = false → mirrorOf s i f.counter = none →
    ∃ t, exec (.frameEnd dt p vc fn .ok j false) s = .next t ∧ (Tbl.get? t.streams i).map (·.cur) = some none ∧
      (frameOf t wid).map (fun g => (g.closed, g.truncated, g.corrupt)) =
        some (some (stampAt (advance dt s) j).toNat, f.truncated || decide (f.got < x.height), f.corrupt || decide (fn ≠ f.fn))) ∧
  (∀ (dt i wid : Nat) (x : Stream) (w : Work) (f : Frame) (s : State), i < 65536 → Safety.quiet s → Tbl.get? s.streams i = some x →
    x.cur = some wid → Tbl.get? s.works wid = some w → w.frame = some f → f.lastPkt + f.timeoutUs * 1000 ≤ (advance dt s).now →
    mirrorOf s i f.counter = none →
    ∃ t, exec (.lineTimeout dt i) s = .next t ∧ (Tbl.get? t.streams i).map (·.cur) = some none ∧
      (frameOf t wid).map (fun g => g.closed) = some (some (f.lastPkt + f.timeoutUs * 1000))) ∧
  (∀ (dt g : Nat) (x : Group) (s : State), g < 16 → Tbl.get? s.groups g = some x → x.inForce = true → x.frame ≠ 0 → x.expired = false →
    x.t0 + x.windowUs * 1000 ≤ (advance dt s).now →
    exec (.syncWindowExpiry dt g) s = .next (settle s (forEach (x.members.filter (fun i => decide (i ∉ x.joined)))
      (missMember (x.t0 + x.windowUs * 1000)) (modGroup g (fun x => { x with expired := true }) (advance dt s)))))

/-- Byte clock and strips: two good windows bring a port that has no frame to qualify UP, a window without an edge makes it LOST with a
CONTAINED fault on source 104, a strip whose last line has landed is ready, one whose folios are all answered frees its line buffer, and
ABANDON_US after its end a frame's unfinished views are delivered as placeholders. -/
def Obligations.PortsAndStrips : Prop :=
  (∀ (dt p edges : Nat) (s : State), p < 16 → edges < 2 ^ 32 → s.mainUp = true → (s.port p).st = .qualifying → (s.port p).qualLeft = 0 →
    (s.port p).goodWins = 1 → (s.port p).lastWin = .inside → edges ≠ 0 → 50 * ((edges : Int) - (s.port p).laneMbps).natAbs ≤ (s.port p).laneMbps →
    exec (.pclkWindow dt p edges) s = .next (settle s (settlePort p (modPort p (fun x => { x with pclkCnt := edges, lastWin := .inside })
      (modPort p (fun x => { x with st := .up, qualLeft := 0, goodWins := 0 }) (advance dt s))))) ) ∧
  (∀ (dt p : Nat) (s : State), p < 16 → s.mainUp = true → (s.port p).st = .up → s.works = [] → openFrames s p = [] → Safety.quiet s →
    Tbl.get? s.faults.records 104 = none →
    ∃ t, exec (.pclkWindow dt p 0) s = .next t ∧ (t.port p).st = .lost ∧
      Safety.recorded t 104 2 0x1C) ∧
  (∀ (dt wid n i : Nat) (w : Work) (f : Frame) (x : Stream) (s : State), Tbl.get? s.works wid = some w → w.kind = .live i → w.frame = some f →
    Tbl.get? s.streams i = some x → n < x.strips → min (64 * n + 64) x.height ≤ f.lines.length → n ∉ f.held → (∀ r ∈ f.ready, r.1 ≠ n) →
    ∃ t, exec (.stripReady dt wid n) s = .next t ∧ frameOf t wid = some { f with ready := Tbl.set f.ready n (advance dt s).now }) ∧
  (∀ (dt wid n i : Nat) (w : Work) (f : Frame) (x : Stream) (s : State), Tbl.get? s.works wid = some w → w.kind = .live i → w.frame = some f →
    Tbl.get? s.streams i = some x → stripDone s w n = true → stripPending s wid w f n = false → n ∉ f.released → (∃ r ∈ f.ready, r.1 = n) →
    exec (.stripBufferRelease dt wid n) s = .next (settle s (fillFree i x (when (f.lateStrip n) countLateStrip
      (modFrame wid (fun f => { f with released := insertNat n f.released }) (advance dt s)))))) ∧
  (∀ (dt wid i : Nat) (w : Work) (f : Frame) (b : Binding) (img : Image) (s : State), Tbl.get? s.works wid = some w → w.kind = .live i →
    w.frame = some f → f.closed ≠ none → w.buffer ≠ none → w.phase = .working → Tbl.get? s.bindings w.binding = some b →
    b.image? w.gen = some img → w.frameEnd + img.abandonUs * 1000 ≤ (advance dt s).now → (∃ v < w.views, viewDone w v = false) →
    exec (.viewAbandon dt wid) s = .next (settle s (tryColophon wid (tipViews wid 7 (countMiss (advance dt s))))))

/-! ### The press's periods (07 R223-R252, 12 R417) -/

/-- Plan synchronisation at a follower: each edge gives SYNC_OFFSET and, while nothing is admitted and SYNC is not LOCKED, the next PHASE;
three near edges lock, two far edges or a missing one unlock with SYNC_LOST and a CORRECTED fault on source 123. -/
def Obligations.PlanSyncIsTracked : Prop :=
  (∀ (dt : Nat) (j : Int) (s : State), s.mainUp = true → isFollower s = true →
    -1000 ≤ syncError (stampAt (advance dt s) j) s.periodNs s.press.phase → syncError (stampAt (advance dt s) j) s.periodNs s.press.phase ≤ 1000 →
    ∃ t, exec (.planSyncEdge dt j) s = .next t ∧ t.press.syncOffset = syncError (stampAt (advance dt s) j) s.periodNs s.press.phase ∧
      t.press.lastEdge = (advance dt s).now ∧ t.press.syncGood = min 3 (s.press.syncGood + 1) ∧ t.press.syncBad = 0 ∧
      t.press.sync = (if 2 ≤ s.press.syncGood then .locked else s.press.sync) ∧
      t.press.phaseNext = (if anyAdmitted s = false ∧ s.press.sync ≠ .locked then some (stampAt (advance dt s) j % 2000).toNat
        else s.press.phaseNext)) ∧
  (∀ (dt : Nat) (j : Int) (s : State), s.mainUp = true → isFollower s = true →
    1000 < (syncError (stampAt (advance dt s) j) s.periodNs s.press.phase).natAbs → s.press.sync = .locked →
    Tbl.get? s.faults.records 123 = none →
    ∃ t, exec (.planSyncEdge dt j) s = .next t ∧ t.press.syncOffset = syncError (stampAt (advance dt s) j) s.periodNs s.press.phase ∧
      t.press.syncGood = 0 ∧ t.press.phaseNext = s.press.phaseNext ∧
      (s.press.syncBad = 0 → t.press.syncBad = 1 ∧ t.press.sync = .locked ∧ t.press.evt = s.press.evt) ∧
      (1 ≤ s.press.syncBad → t.press.sync = .unlocked ∧ t.press.evt = (s.press.evt ||| 8) ∧
        (Tbl.get? t.faults.records 123).map (·.cls) = some 1)) ∧
  (∀ (dt : Nat) (s : State), s.mainUp = true → s.press.sync = .locked → s.press.lastEdge + 2 * s.periodNs + 10000 ≤ (advance dt s).now →
    Tbl.get? s.faults.records 123 = none →
    ∃ t, exec (.planSyncTimeout dt) s = .next t ∧ t.press.sync = .unlocked ∧ t.press.evt = (s.press.evt ||| 8) ∧
      t.press.phase = s.press.phase ∧ (Tbl.get? t.faults.records 123).map (·.cls) = some 1) ∧
  (∀ (dt : Nat) (j : Int) (s : State), isFollower s = false → exec (.planSyncEdge dt j) s = .next (settle s (advance dt s)))

/-- The press: a heartbeat clears FW_MISSED; SPARES chooses the spares while nothing is admitted and k is at most 4; a period start takes
PHASE and runs a period while a binding is admitted; with nothing admitted and every ring empty the periods stop, RUN gives way to READY and
every quire that is ON and not under test goes to RETAIN; and a slot boundary runs its slot while periods run, and a known-answer test that
was started. -/
def Obligations.PressPeriodsRun : Prop :=
  (∀ (dt : Nat) (s : State), s.mainUp = true →
    exec (.pressHb dt) s = .next (settle s { advance dt s with press := { s.press with fwMissed := 0 } })) ∧
  (∀ (dt k : Nat) (s : State), k ≤ 4 → s.mainUp = true → anyAdmitted s = false →
    ∃ t, exec (.pressSparesWrite dt true k) s = .next t ∧ t.press.spares = k ∧ t.press.spareSet = chooseSpares k s.faults.retired ∧
      t.chip.rspCode = 0 ∧ (s.faults.retired = [] → t.press.spareSet = [31, 63, 30, 62].take k)) ∧
  (∀ (dt k : Nat) (s : State), k < 16 → s.mainUp = true → 4 < k ∨ anyAdmitted s = true →
    exec (.pressSparesWrite dt true k) s = .next (settle s (respond 0 0 (advance dt s)))) ∧
  (∀ (dt : Nat) (flagged : Bool) (s : State), s.mainUp = true → s.faults.safe = .normal → s.press.phase ≤ (advance dt s).now →
    ((advance dt s).now - s.press.phase) % s.periodNs = 0 → atPeriodStart (advance dt s) = false → anyAdmitted s = true →
    exec (.pressPeriodStart dt flagged) s = .next (settle s (runPeriod flagged
      { advance dt s with press := { s.press with phase := s.press.phaseNext.getD s.press.phase, phaseNext := none } }))) ∧
  (∀ (dt : Nat) (flagged : Bool) (s : State), Safety.quiet s → s.mainUp = true → s.faults.safe = .normal → s.press.phase ≤ (advance dt s).now →
    ((advance dt s).now - s.press.phase) % s.periodNs = 0 → s.press.running = true → s.press.periodStart ≠ (advance dt s).now →
    anyAdmitted s = false → (∀ p ∈ s.rings, p.2.tail = p.2.done) → s.power.target ≠ 2 → s.power.oppWanted = none →
    ∃ t, exec (.pressPeriodStart dt flagged) s = .next t ∧ t.press.running = false ∧
      t.power.state = (if s.power.state = .run then .ready else s.power.state) ∧
      t.press.quires = s.press.quires.map (fun q => if q.st = .on ∧ q.testing = false then { q with st := .retain } else q)) ∧
  (∀ (dt : Nat) (m : ExtMem) (katFail : Bool) (s : State), s.mainUp = true → s.faults.safe = .normal → s.press.phase ≤ (advance dt s).now →
    ((advance dt s).now - s.press.phase) % 2000 = 0 → s.press.slotAt ≠ some (advance dt s).now → s.press.running = true → s.rings = [] →
    s.power.array.warns = false → s.power.stage = 0 → s.draw.katStart = false →
    exec (.slotBoundary dt m katFail) s = .next (settle s (runSlot m
      { droopSlot (advance dt s) with press := { (droopSlot (advance dt s)).press with slotAt := some (advance dt s).now } }))) ∧
  (∀ (dt : Nat) (m : ExtMem) (s : State), s.mainUp = true → s.faults.safe = .normal → s.press.phase ≤ (advance dt s).now →
    ((advance dt s).now - s.press.phase) % 2000 = 0 → s.press.slotAt ≠ some (advance dt s).now → s.press.running = false → s.rings = [] →
    s.power.array.warns = false → s.power.stage = 0 → s.draw.katStart = true →
    ∃ t, exec (.slotBoundary dt m false) s = .next t ∧ t.draw.katStart = false ∧ t.press.slotAt = some (advance dt s).now ∧
      t.draw.katDone = s.draw.katDone ||| BitVec.ofNat 4 (2 ^ s.draw.katLane) ∧
      t.draw.katPass = s.draw.katPass ||| BitVec.ofNat 4 (2 ^ s.draw.katLane)) ∧
  (∀ (dt : Nat) (m : ExtMem) (katFail : Bool) (s : State), ((advance dt s).now - s.press.phase) % 2000 ≠ 0 →
    exec (.slotBoundary dt m katFail) s = .next (settle s (advance dt s)))

/-! ### Stages and folios (07 R224, R234; 13 R422; 14 R456, R457) -/

/-- The spine: a stage's barrier ends that stage; two equal copies of a folio are released, two that differ go to one replay, and a copy that
stays away for a slot counts as a difference; a replay that equals one copy is released and blames the other replica's quire, and one that
equals neither contains the folio. -/
def Obligations.FoliosAreCompared : Prop :=
  (∀ (dt wid n i v : Nat) (w : Work) (s : State), Tbl.get? s.works wid = some w → w.kind = .live i → Tbl.get? w.strips n = some v → v % 2 = 1 →
    s.faults.fi.armed = false → arrivedAll s w (upto (stageBase s w) (v / 2 + 1)) = true →
    exec (.stageBarrier dt wid n) s = .next (settle s (modWork wid (fun w => { w with strips := Tbl.set w.strips n (v + 1) }) (advance dt s)))) ∧
  (∀ (dt wid n c r a b : Nat) (w : Work) (img : Image) (p : EntryPt) (s : State), Tbl.get? s.works wid = some w → w.kind = .chain c r a b →
    w.inStages = true → w.ran = true → w.place.isSome = true → w.suspended = false → workImage s w = some (img, p) → s.faults.fi.armed = false →
    w.pendingRd = 0 → arrivedAll s w (stagesNow s w) = true →
    barrierStage img w.stage img.stages.length + 1 < p.firstStage + p.stageRun →
    exec (.stageBarrier dt wid n) s = .next (settle s (modWork wid
      (fun w => { w with place := none, stage := barrierStage img w.stage img.stages.length + 1 }) (advance dt s)))) ∧
  (∀ (dt wid index rel i n : Nat) (m : ExtMem) (w : Work) (f : Frame) (img : Image) (p : EntryPt) (bd : Binding) (x : Stream) (s : State),
    Tbl.get? s.works wid = some w → liveRuns s w = some i → w.frame = some f → workImage s w = some (img, p) →
    Tbl.get? s.bindings w.binding = some bd → Tbl.get? s.streams i = some x → index < w.total → w.hasFolio index = false →
    w.viewOf index ∉ w.shed → p.encodeView img ≠ some (w.viewOf index) → w.compare? index = none → folioStrip s w = some n →
    rel < bd.quiresA.length → s.faults.fi.armed = false →
    exec (.folioCompare dt wid index .good .good ⟨rel, m⟩) s =
      .next (settle s (releaseFolio wid index (goodFolio (advance dt s) w x f img p index) (advance dt s)))) ∧
  (∀ (dt wid index rel i n q : Nat) (m : ExtMem) (w : Work) (f : Frame) (img : Image) (p : EntryPt) (bd : Binding) (x : Stream) (bs : List Byte)
    (s : State),
    Tbl.get? s.works wid = some w → liveRuns s w = some i → w.frame = some f → workImage s w = some (img, p) →
    Tbl.get? s.bindings w.binding = some bd → Tbl.get? s.streams i = some x → index < w.total → w.hasFolio index = false →
    w.viewOf index ∉ w.shed → p.encodeView img ≠ some (w.viewOf index) → w.compare? index = none → folioStrip s w = some n →
    rel < bd.quiresA.length → s.faults.fi.armed = false → crc32c (slice bs 0 4096) ≠ crc32c (goodFolio (advance dt s) w x f img p index) →
    bd.spare = some q → q ∈ s.press.spareSet → q ∉ s.faults.retired → (s.quire q).testing = false → Tbl.getD w.replays n 0 = 0 →
    bd.table.any (·.replay) = true →
    ∃ t, exec (.folioCompare dt wid index .good (.bad bs) ⟨rel, m⟩) s = .next t ∧
      t.faults.nReplays = (if replayRecs bd (slotIndex (advance dt s)) = [] then s.faults.nReplays else s.faults.nReplays + 1) ∧
      (Tbl.get? t.works wid).bind (fun w => (w.compare? index).map (fun c => (c.replay, c.replaying, c.quireA, c.quireB))) =
        some (true, decide (replayRecs bd (slotIndex (advance dt s)) ≠ []), bd.quiresA.getD rel 0, bd.quiresB.getD rel 0) ∧
      (Tbl.get? t.works wid).map (fun w => Tbl.getD w.replays n 0) = some 1) ∧
  (∀ (dt wid index i : Nat) (w : Work) (c : FolioCmp) (s : State), Tbl.get? s.works wid = some w → liveRuns s w = some i →
    w.compare? index = some c → c.replay = false → c.copyA.isSome = true → c.copyB = none → c.since + 2000 ≤ (advance dt s).now →
    exec (.folioCompareTimeout dt wid index) s =
      .next (settle s (disagree wid { c with late := true } (keepCompare wid { c with late := true } (advance dt s))))) ∧
  (∀ (dt wid index i q : Nat) (w : Work) (f : Frame) (img : Image) (p : EntryPt) (bd : Binding) (x : Stream) (c : FolioCmp) (s : State),
    Tbl.get? s.works wid = some w → liveRuns s w = some i → w.frame = some f → workImage s w = some (img, p) →
    Tbl.get? s.bindings w.binding = some bd → Tbl.get? s.streams i = some x → bd.spare = some q → w.compare? index = some c →
    c.replaying = true → c.copyA = some (goodFolio (advance dt s) w x f img p index) →
    exec (.replayDone dt wid index .good false) s = .next (settle s (blame c.quireB i c.injected
      (releaseFolio wid index (goodFolio (advance dt s) w x f img p index) (advance dt s))))) ∧
  (∀ (dt wid index i q : Nat) (w : Work) (f : Frame) (img : Image) (p : EntryPt) (bd : Binding) (x : Stream) (c : FolioCmp) (a b : List Byte)
    (s : State), Tbl.get? s.works wid = some w → liveRuns s w = some i → w.frame = some f → workImage s w = some (img, p) →
    Tbl.get? s.bindings w.binding = some bd → Tbl.get? s.streams i = some x → bd.spare = some q → w.compare? index = some c →
    c.replaying = true → c.copyA = some a → c.copyB = some b → crc32c a ≠ crc32c (goodFolio (advance dt s) w x f img p index) →
    crc32c b ≠ crc32c (goodFolio (advance dt s) w x f img p index) →
    exec (.replayDone dt wid index .good false) s = .next (settle s (containFolio wid c i none (advance dt s))))

/-! ### Maintenance (13 R429, R446-R448; 14 R472-R476) -/

/-- Scrubbing: a pass of a quire whose token is free is made and reacts to its findings, one whose token is held is deferred and retried after
1 ms; a sweep read quarantines a FREE buffer that answers with an error or poison and leaves a good one; and a coefficient reload whose CRC
agrees makes its segment available again, while one that fails leaves it unavailable. -/
def Obligations.StoresAreScrubbed : Prop :=
  (∀ (dt q : Nat) (fs : List ScrubFinding) (s : State), q < 64 → fs.all ScrubFinding.wf = true → s.maintains = true → q ∉ s.faults.retired →
    (s.quire q).st ≠ .gated → tokenHeld s q 3 = false → s.faults.fi.armed = false →
    exec (.scrubPass dt q fs) s = .next (settle s (forEach fs (scrubFinding q)
      (passMade q (quireOn q (coverCheck (advance dt s))))))) ∧
  (∀ (dt q : Nat) (fs : List ScrubFinding) (s : State), q < 64 → fs.all ScrubFinding.wf = true → s.maintains = true → q ∉ s.faults.retired →
    (s.quire q).st ≠ .gated → tokenHeld s q 3 = true →
    ∃ t, exec (.scrubPass dt q fs) s = .next t ∧ (q, (advance dt s).now) ∈ t.mem.scrubDeferred ∧
      t.mem.scrubCorr = s.mem.scrubCorr ∧ t.mem.scrubUncorr = s.mem.scrubUncorr ∧ t.press.quires = s.press.quires) ∧
  (∀ (dt q t0 : Nat) (fs : List ScrubFinding) (s : State), q < 64 → fs.all ScrubFinding.wf = true →
    s.mem.scrubDeferred.find? (·.1 = q) = some (q, t0) → t0 + 1000000 ≤ (advance dt s).now →
    exec (.scrubRetry dt q fs) s = .next (settle s (scrubPass q fs
      { advance dt s with mem := { s.mem with scrubDeferred := s.mem.scrubDeferred.filter (·.1 ≠ q) } }))) ∧
  (∀ (dt key i resp : Nat) (poisoned : Bool) (p : Pool) (s : State), resp < 4 → Tbl.get? s.pools key = some p → s.maintains = true →
    s.mem.stockSweep = true → i < p.count → Tbl.has p.bufs i = false → resp ≠ 0 ∨ poisoned = true →
    guardCheck (s.ctx (key / 128)).guards false (p.base + i * bufSize (key % 8)) (bufSize (key % 8)) = none →
    exec (.stockSweep dt key i resp poisoned) s = .next (settle s (noteMemFault 6 (112 + portOf (p.base + i * bufSize (key % 8)))
      (report1 (112 + portOf (p.base + i * bufSize (key % 8))) 2 0x19 (key / 128) true
        (memEvt 2 (setBuf key i (some .quarantined) (advance dt s))))))) ∧
  (∀ (dt key i : Nat) (p : Pool) (s : State), Tbl.get? s.pools key = some p →
    exec (.stockSweep dt key i 0 false) s = .next (settle s (advance dt s))) ∧
  (∀ (dt h gen set seg : Nat) (m : ExtMem) (g : Segment) (bs : List Byte) (s : State), findSegment s h gen set seg = some g →
    s.maintains = true → g.lost = false → g.reloading = true → (s.quire g.quire).st ≠ .gated → reloadRead s g m = .ok bs → crc32c bs = g.crc →
    exec (.coeffReloadDone dt h gen set seg m) s = .next (settle s
      (modSegment h gen set seg (fun x => { x with reloading := false }) (presentReload g (giveToken g.quire 1 (advance dt s)))))) ∧
  (∀ (dt h gen set seg : Nat) (m : ExtMem) (g : Segment) (bs : List Byte) (s : State), findSegment s h gen set seg = some g →
    s.maintains = true → g.lost = false → g.reloading = true → (s.quire g.quire).st ≠ .gated → reloadRead s g m = .ok bs → crc32c bs ≠ g.crc →
    exec (.coeffReloadDone dt h gen set seg m) s = .next (settle s (reloadFailed g (presentReload g (giveToken g.quire 1 (advance dt s))))))

/-- Self-test and migration: a spare that is due is tested where it stands while another free spare remains, and a step that cannot proceed is
STALLED; a passed test gives the token back and the rotation goes on; a migration of a due quire takes both tokens and the lowest free spare of
its half; a handover moves a binding's quires, and 1 ms after its start best-effort stages on the source start again. -/
def Obligations.QuiresAreTestedAndMoved : Prop :=
  (∀ (dt q : Nat) (l : List Nat) (s : State), s.maintains = true → s.faults.testEnable = true → s.faults.testState ≠ .running →
    dueQuires s = q :: l → q ∈ s.press.spareSet → q ∉ s.faults.retired → migrationOf s q = none → testable s q = true →
    exec (.selftestStep dt) s = .next (settle s (beginTest q l.head? (advance dt s)))) ∧
  (∀ (dt q : Nat) (l : List Nat) (s : State), s.maintains = true → s.faults.testEnable = true → s.faults.testState ≠ .running →
    dueQuires s = q :: l → q ∈ s.press.spareSet → q ∉ s.faults.retired → migrationOf s q = none → testable s q = false →
    ∃ t, exec (.selftestStep dt) s = .next t ∧ t.faults.testState = .stalled ∧ t.mem.tokens = s.mem.tokens) ∧
  (∀ (dt : Nat) (s : State), s.maintains = true → s.faults.testState = .running → (s.quire s.faults.testQuire).testing = true →
    migrationOf s s.faults.testQuire = none →
    ∃ t, exec (.selftestStepEnd dt true) s = .next t ∧ t.faults.testState = .idle ∧ t.faults.retired = s.faults.retired ∧
      t.faults.testUpper = !decide (32 ≤ s.faults.testQuire) ∧ t.press.spareSet = s.press.spareSet ∧
      t.mem.tokens = (if Tbl.get? s.mem.tokens s.faults.testQuire = some 2 then Tbl.erase s.mem.tokens s.faults.testQuire else s.mem.tokens)) ∧
  (∀ (dt q p : Nat) (s : State), q < 64 → s.maintains = true → s.fwRuns = true → s.faults.testEnable = true → q ∉ s.faults.retired →
    q ∈ dueQuires s → q ∉ s.press.spareSet → freeSpare s q = some p → migrationOf s q = none → Tbl.has s.mem.tokens q = false →
    Tbl.has s.mem.tokens p = false → mayWake s p = true → 2 ≤ (freeSpares s).length → handedOver s q = false → p ≠ q →
    ∃ t, exec (.migrationStart dt q) s = .next t ∧
      t.faults.migrations = s.faults.migrations ++ [{ src := q, dst := p, began := (advance dt s).now, retired := false }] ∧
      Tbl.get? t.mem.tokens q = some 2 ∧ Tbl.get? t.mem.tokens p = some 2) ∧
  (∀ (dt q h : Nat) (m : Migration) (b : Binding) (s : State), q < 64 → s.maintains = true → migrationOf s q = some m →
    m.dst ∉ s.faults.retired → Tbl.get? s.bindings h = some b → b.admitted = true →
    exec (.migrationHandover dt q h) s = .next (settle s (tryFinish q (remapReplays m.dst (modBinding h (fun b => { b with
      quiresA := b.quiresA.map (fun x => if x = q then m.dst else x),
      quiresB := b.quiresB.map (fun x => if x = q then m.dst else x) }) (advance dt s)))))) ∧
  (∀ (dt q : Nat) (m : Migration) (s : State), q < 64 → s.maintains = true → migrationOf s q = some m → handedOver s q = false →
    m.began + 1000000 ≤ (advance dt s).now →
    ∃ t, exec (.migrationAbandonTimeout dt q) s = .next t ∧ t.works = s.works.map (fun x => (x.1,
      match x.2.place with | some (p, _) => if p = q then restartSample (advance dt s) x.2 else x.2 | none => x.2)))

/-! ### The I3C management target (16 R527-R532) -/

/-- Addressing: ENTDAA and a SETDASA of the static address give a target without a dynamic address one, SETNEWDA changes it, RSTDAA loses it
with ENINT and sets ADDR_LOST, a target without one does not acknowledge, and ENEC and DISEC set and clear ENINT. Nothing else of the block
changes. -/
def Obligations.AddressesAreGiven : Prop :=
  ∀ (dt a : Nat) (s : State), Safety.quiet s → i3cUp s = true → a < 128 →
    (s.mgmt.dynAddr = none →
      exec (.entdaa dt a) s = .next (settleTargets { advance dt s with mgmt := { s.mgmt with dynAddr := some a, nack := false, rdata := [] } })) ∧
    (s.mgmt.dynAddr = none → s.chip.i3cSaddr < 128 →
      exec (.setdasa dt s.chip.i3cSaddr a) s =
        .next (settleTargets { advance dt s with mgmt := { s.mgmt with dynAddr := some a, nack := false, rdata := [] } })) ∧
    (∀ b < 128, b ≠ s.chip.i3cSaddr →
      exec (.setdasa dt b a) s = .next (settleTargets { advance dt s with mgmt := { s.mgmt with nack := true } })) ∧
    (s.mgmt.dynAddr ≠ none →
      exec (.setnewda dt a) s = .next (settleTargets { advance dt s with mgmt := { s.mgmt with dynAddr := some a, nack := false, rdata := [] } })) ∧
    (s.mgmt.dynAddr = none →
      exec (.setnewda dt a) s = .next (settleTargets { advance dt s with mgmt := { s.mgmt with nack := true } })) ∧
    (s.mgmt.dynAddr ≠ none →
      exec (.rstdaa dt) s = .next (settleTargets { advance dt s with
        mgmt := { s.mgmt with dynAddr := none, enint := false, evt := s.mgmt.evt ||| 1 } })) ∧
    exec (.enec dt true) s = .next (settleTargets { advance dt s with mgmt := { s.mgmt with enint := true, nack := false, rdata := [] } }) ∧
    exec (.disec dt true) s = .next (settleTargets { advance dt s with mgmt := { s.mgmt with enint := false, nack := false, rdata := [] } })

/-- What the target tells: the provisional ID, BCR, DCR, the lengths 8, 8 and 5, and GETSTATUS with the pending IBIs and the protocol error,
which it clears. Nothing else of the block changes. -/
def Obligations.TheTargetIdentifiesItself : Prop :=
  ∀ (dt : Nat) (s : State), Safety.quiet s → i3cUp s = true → s.mgmt.dynAddr ≠ none →
    exec (.getpid dt) s = .next (settleTargets { advance dt s with
      mgmt := { s.mgmt with nack := false, rdata := beBytes (2 ^ 32 + 0x5D47 * 2 ^ 16 + s.chip.instId) 6 } }) ∧
    exec (.getbcr dt) s = .next (settleTargets { advance dt s with mgmt := { s.mgmt with nack := false, rdata := [0x06] } }) ∧
    exec (.getdcr dt) s = .next (settleTargets { advance dt s with mgmt := { s.mgmt with nack := false, rdata := [0x00] } }) ∧
    exec (.getmwl dt) s = .next (settleTargets { advance dt s with mgmt := { s.mgmt with nack := false, rdata := [0, 8] } }) ∧
    exec (.getmrl dt) s = .next (settleTargets { advance dt s with mgmt := { s.mgmt with nack := false, rdata := [0, 8, 5] } }) ∧
    ∃ t, exec (.getstatus dt) s = .next t ∧ t.mgmt.protErr = false ∧ t.mgmt.nack = false ∧
      t.mgmt.rdata = beBytes ((if s.mgmt.ibiFault.isSome then 1 else 0) + (if s.mgmt.ibiSafe then 1 else 0) +
        (if s.mgmt.ibiCmd.isSome then 1 else 0) + (if s.mgmt.protErr then 32 else 0)) 2

/-- Private transfers: a write sets PTR and puts its bytes from there, one with a parity error does nothing but set the protocol error, a read
returns the bytes from PTR and moves it modulo 256, and a read that starts at MG_TIME latches the time. -/
def Obligations.PrivateTransfersMoveBytes : Prop :=
  (∀ (dt : Nat) (a : Byte) (l : List Byte) (s : State), Safety.quiet s → i3cUp s = true → s.mgmt.dynAddr ≠ none → l.length ≤ 7 →
    (∀ i < l.length, (a.toNat + i) % 256 ≠ 0x60) →
    exec (.i3cPrivateWrite dt (a :: l) false false) s = .next (settleTargets { advance dt s with mgmt :=
      { windowWrite a.toNat l { s.mgmt with nack := false, rdata := [] } with ptr := (a.toNat + l.length) % 256 } })) ∧
  (∀ (dt : Nat) (c : Byte) (s : State), Safety.quiet s → i3cUp s = true → s.mgmt.dynAddr ≠ none → mgKnown c.toNat = true →
    ∃ t, exec (.i3cPrivateWrite dt [0x60, c] false false) s = .next t ∧ t.mgmt.cmd = c.toNat ∧ t.mgmt.busy = true ∧
      (s.mgmt.busy = true → t.mgmt.lost = true ∧ t.mgmt.lastCmd = s.mgmt.lastCmd ∧ t.mgmt.status = s.mgmt.status) ∧
      (s.mgmt.busy = false → t.mgmt.lost = false ∧ t.mgmt.lastCmd = c.toNat)) ∧
  (∀ (dt : Nat) (c : Byte) (s : State), Safety.quiet s → i3cUp s = true → s.mgmt.dynAddr ≠ none → mgKnown c.toNat = false → s.mgmt.busy = false →
    ∃ t, exec (.i3cPrivateWrite dt [0x60, c] false false) s = .next t ∧ t.mgmt.busy = false ∧ t.mgmt.lastCmd = c.toNat ∧ t.mgmt.status = 0x12) ∧
  (∀ (dt : Nat) (l : List Byte) (s : State), Safety.quiet s → i3cUp s = true → s.mgmt.dynAddr ≠ none → 1 ≤ l.length → l.length ≤ 8 →
    exec (.i3cPrivateWrite dt l true false) s =
      .next (settleTargets { advance dt s with mgmt := { s.mgmt with nack := false, rdata := [], protErr := true } })) ∧
  (∀ (dt n : Nat) (s : State), Safety.quiet s → i3cUp s = true → s.mgmt.dynAddr ≠ none → n ≤ 8 → s.mgmt.ptr ≠ 0x20 →
    exec (.i3cPrivateRead dt n false) s = .next (settleTargets { advance dt s with
      mgmt := { s.mgmt with nack := false, rdata := windowRead (advance dt s) s.mgmt.ptr n, ptr := (s.mgmt.ptr + n) % 256 } })) ∧
  (∀ (dt n : Nat) (s : State), i3cUp s = true → s.mgmt.dynAddr ≠ none → n ≤ 8 → s.mgmt.ptr = 0x20 →
    ∃ t, exec (.i3cPrivateRead dt n false) s = .next t ∧ t.mgmt.timeLatch = (advance dt s).now ∧
      t.mgmt.rdata = (leBytes (advance dt s).now 8).take n ∧ t.mgmt.ptr = 0x20 + n)

/-- Management commands: KREAD returns a record's data, KWRITE fills a host record's slot and no other byte of the keep-store, WAKE is a wake
cause in KEEP and no other effect elsewhere, RESTART is a control restart with cause 0x42, and BUSY while the main domain is down; KWRITE,
WAKE and RESTART without their PERMIT bit end PERMISSION, and KREAD and KWRITE of a record out of range end DIM_LIMIT. Pending IBIs are sent in
the order fault, safe state, command, and one that is not acknowledged stays pending. -/
def Obligations.ManagementCommandsRun : Prop :=
  (∀ (dt : Nat) (s : State), i3cUp s = true → s.mgmt.busy = true → s.mgmt.lastCmd = 0x01 →
    (recordOk s.mgmt.region s.mgmt.record = false →
      ∃ t, exec (.kread dt) s = .next t ∧ t.mgmt.busy = false ∧ t.mgmt.status = 5 ∧ t.mgmt.kdata = s.mgmt.kdata ∧ t.keep = s.keep) ∧
    (recordOk s.mgmt.region s.mgmt.record = true → s.power.mram.req = true → s.power.mram.pg = true → s.keep.scanDone = true →
      s.power.state ≠ .keep →
      ∃ t, exec (.kread dt) s = .next t ∧ t.mgmt.busy = false ∧ t.mgmt.status = 0 ∧
        t.mgmt.kdata = readRecord s (recordSlot s.mgmt.region s.mgmt.record) ∧ t.keep = s.keep)) ∧
  (∀ (dt : Nat) (s : State), i3cUp s = true → s.mgmt.busy = true → s.mgmt.lastCmd = 0x02 → s.keep.waiting = [] →
    (s.mgmt.permitKwrite = false →
      ∃ t, exec (.kwrite dt .ok) s = .next t ∧ t.mgmt.busy = false ∧ t.mgmt.status = 0x10 ∧ t.keep = s.keep) ∧
    (s.mgmt.permitKwrite = true → recordOk s.mgmt.region s.mgmt.record = false →
      ∃ t, exec (.kwrite dt .ok) s = .next t ∧ t.mgmt.busy = false ∧ t.mgmt.status = 5 ∧ t.keep = s.keep) ∧
    (s.mgmt.permitKwrite = true → s.mgmt.region = 3 → recordOk 3 s.mgmt.record = true → s.power.mram.req = true → s.power.mram.pg = true →
      s.power.mram.fail = false → s.power.mram.warn = false → s.keep.scanDone = true → s.keep.refuses = false → s.power.state ≠ .keep →
      ∃ t, exec (.kwrite dt .ok) s = .next t ∧ t.mgmt.busy = false ∧ t.mgmt.status = 0 ∧ t.mgmt.evt = (s.mgmt.evt ||| 8) ∧
        t.keep.seq = s.keep.seq + 1 ∧
        t.keep.mem = putWords s.keep.mem (recordWords (recordSlot 3 s.mgmt.record) s.keep.seq s.mgmt.kdata))) ∧
  (∀ (dt : Nat) (s : State), i3cUp s = true → s.mgmt.busy = true → s.mgmt.lastCmd = 0x10 →
    (s.mgmt.permitWake = false →
      ∃ t, exec (.wake dt) s = .next t ∧ t.mgmt.busy = false ∧ t.mgmt.status = 0x10 ∧ t.power.wakePending = s.power.wakePending) ∧
    (s.mgmt.permitWake = true → s.power.state ≠ .keep →
      ∃ t, exec (.wake dt) s = .next t ∧ t.mgmt.busy = false ∧ t.mgmt.status = 0 ∧ t.power.wakePending = s.power.wakePending ∧
        t.power.wakeCause = s.power.wakeCause) ∧
    (s.mgmt.permitWake = true → s.power.state = .keep → s.power.wake = .idle → s.chip.porstN = true →
      ∃ t, exec (.wake dt) s = .next t ∧ t.mgmt.busy = false ∧ t.mgmt.status = 0 ∧ t.mgmt.evt = (s.mgmt.evt ||| 2) ∧
        t.power.wakeCause = Nat.lor s.power.wakeCause 2)) ∧
  (∀ (dt : Nat) (s : State), i3cUp s = true → s.mgmt.busy = true → s.mgmt.lastCmd = 0x11 →
    (s.mgmt.permitRestart = false →
      ∃ t, exec (.restart dt) s = .next t ∧ t.mgmt.busy = false ∧ t.mgmt.status = 0x10 ∧ t.control = s.control) ∧
    (s.mgmt.permitRestart = true → s.mainUp = false →
      ∃ t, exec (.restart dt) s = .next t ∧ t.mgmt.busy = false ∧ t.mgmt.status = 0x0D ∧ t.control = s.control) ∧
    (s.mgmt.permitRestart = true → s.mainUp = true → s.control.restarting = false →
      exec (.restart dt) s = .next (settle s (mgDone 2 (controlRestart 0x42 false (advance dt s)))))) ∧
  (∀ (dt : Nat) (s : State), i3cUp s = true → s.mgmt.enint = true → s.mgmt.dynAddr ≠ none → Safety.quiet s →
    (∀ e, s.mgmt.ibiFault = some e → exec (.ibiSend dt false) s = .next (settleTargets { advance dt s with
      mgmt := { s.mgmt with ibiFault := none, ibiSent := 0xA1 :: leBytes (infoWord e) 4 } })) ∧
    (s.mgmt.ibiFault = none → s.mgmt.ibiSafe = true → exec (.ibiSend dt false) s = .next (settleTargets { advance dt s with
      mgmt := { s.mgmt with ibiSafe := false, ibiSent := 0xA2 :: leBytes (safeStat s) 4 } })) ∧
    (∀ c st, s.mgmt.ibiFault = none → s.mgmt.ibiSafe = false → s.mgmt.ibiCmd = some (c, st) →
      exec (.ibiSend dt false) s = .next (settleTargets { advance dt s with
        mgmt := { s.mgmt with ibiCmd := none, ibiSent := 0xA3 :: (leBytes c 1 ++ leBytes st 1) } })) ∧
    exec (.ibiSend dt true) s = .next (settleTargets (advance dt s)))

/-- R531: a command of the management port without its PERMIT bit ends PERMISSION and does nothing else; while LOCK = 1 a write of MGMT_CTL
leaves the PERMIT bits, IBI_CLASS and LOCK itself, until GX_PORST_N; while LOCK = 0 it writes its fields; and MGMT_LOCK sets LOCK and leaves
the PERMIT bits and IBI_CLASS. -/
def Obligations.ManagementIsLocked : Prop :=
  (∀ (dt : Nat) (c : Instr) (s : State), Safety.quiet s → i3cUp s = true → s.mgmt.busy = true → s.mgmt.ibiOnCmd = false → s.keep.waiting = [] →
    (c = .kwrite dt .ok ∧ s.mgmt.lastCmd = 0x02 ∧ s.mgmt.permitKwrite = false) ∨ (c = .wake dt ∧ s.mgmt.lastCmd = 0x10 ∧ s.mgmt.permitWake = false) ∨
      (c = .restart dt ∧ s.mgmt.lastCmd = 0x11 ∧ s.mgmt.permitRestart = false) →
    exec c s = .next (settleTargets { advance dt s with mgmt := { s.mgmt with status := 0x10, busy := false } })) ∧
  (∀ (dt v : Nat) (m : ExtMem) (s : State), v < 2 ^ 32 → s.keeperUp = true → s.mgmt.lock = true →
    ∃ t, exec (.registerWrite dt .host 0x8600 v 15 true m) s = .next t ∧ t.chip.rspCode = 0 ∧ t.mgmt.lock = true ∧
      t.mgmt.permitWake = s.mgmt.permitWake ∧ t.mgmt.permitRestart = s.mgmt.permitRestart ∧ t.mgmt.permitKwrite = s.mgmt.permitKwrite ∧
      t.mgmt.ibiClass = s.mgmt.ibiClass) ∧
  (∀ (dt v : Nat) (m : ExtMem) (s : State), v < 2 ^ 32 → s.keeperUp = true → s.mgmt.lock = false →
    ∃ t, exec (.registerWrite dt .host 0x8600 v 15 true m) s = .next t ∧ t.chip.rspCode = 0 ∧ t.mgmt.lock = bit v 31 ∧
      t.mgmt.permitWake = bit v 0 ∧ t.mgmt.permitRestart = bit v 1 ∧ t.mgmt.permitKwrite = bit v 2 ∧ t.mgmt.ibiOnCmd = bit v 3 ∧
      t.mgmt.ibiClass = (if bits v 4 2 = 0 then s.mgmt.ibiClass else bits v 4 2)) ∧
  (∀ (dt : Nat) (s : State), s.keeperUp = true →
    ∃ t, exec (.mgmtLock dt true) s = .next t ∧ t.mgmt.lock = true ∧ t.mgmt.permitWake = s.mgmt.permitWake ∧
      t.mgmt.permitRestart = s.mgmt.permitRestart ∧ t.mgmt.permitKwrite = s.mgmt.permitKwrite ∧ t.mgmt.ibiClass = s.mgmt.ibiClass) ∧
  (∀ (dt : Nat) (s : State), ∃ t, exec (.gxPorstNAssert dt) s = .next t ∧ t.mgmt.lock = false)

/-! ### Registers (00 R5-R7, 02 R41-R45) -/

/-- R41: an address outside the map or a request without all byte enables is answered UNMAPPED, as is any access of a domain that is down (R44,
R45), and an access without the PRIV it needs PERMISSION, with no effect and data 0; every other access is answered OK. -/
def Obligations.AccessesAreDecoded : Prop :=
  (∀ (dt a v be : Nat) (priv : Bool) (m : ExtMem) (s : State), (Instr.registerWrite dt .host a v be priv m).wf = true →
    (be ≠ 15 ∨ mapped a = false ∨ regUp s a = false →
      exec (.registerWrite dt .host a v be priv m) s = .next (settle s (respond 2 0 (advance dt s)))) ∧
    (be = 15 → mapped a = true → regUp s a = true → needsPriv a = true → priv = false →
      exec (.registerWrite dt .host a v be priv m) s = .next (settle s (respond 1 0 (advance dt s)))) ∧
    (be = 15 → mapped a = true → regUp s a = true → needsPriv a = false ∨ priv = true →
      exec (.registerWrite dt .host a v be priv m) s = .next (settle s (respond 0 0 (regWrite false m a v (advance dt s)))))) ∧
  (∀ (dt a be : Nat) (priv debug : Bool) (s : State), (Instr.rcRegisterRead dt .host a ⟨priv, be⟩ debug).wf = true →
    (be ≠ 15 ∨ mapped a = false ∨ regUp s a = false →
      exec (.rcRegisterRead dt .host a ⟨priv, be⟩ debug) s = .next (settle s (respond 2 0 (advance dt s)))) ∧
    (be = 15 → mapped a = true → regUp s a = true → needsPriv a = true → priv = false →
      exec (.rcRegisterRead dt .host a ⟨priv, be⟩ debug) s = .next (settle s (respond 1 0 (advance dt s)))) ∧
    (be = 15 → mapped a = true → regUp s a = true → needsPriv a = false ∨ priv = true → debug = true →
      exec (.rcRegisterRead dt .host a ⟨priv, be⟩ debug) s = .next (settle s (respond 0 (regRead (advance dt s) a) (advance dt s)))) ∧
    (be = 15 → mapped a = true → regUp s a = true → needsPriv a = false ∨ priv = true → debug = false →
      exec (.rcRegisterRead dt .host a ⟨priv, be⟩ debug) s =
        .next (settle s (regClear a (respond 0 (regRead (advance dt s) a) (advance dt s))))))

/-- Registers by range: a read of an RC counter returns it and clears it, the low word of a stamp latches the high one, W1C bits clear, RW
fields take what a write gives, a read-only word stays, a domain that is down answers UNMAPPED, and the page of a closed context's response
closes after its hold. -/
def Obligations.RegistersHoldTheirFields : Prop :=
  (∀ (dt : Nat) (s : State), s.keeperUp = true →
    ∃ t, exec (.rcRegisterRead dt .host 0x430 ⟨true, 15⟩ false) s = .next t ∧ t.chip.rspCode = 0 ∧ t.chip.rspData = s.control.restartCnt ∧
      t.control.restartCnt = 0) ∧
  (∀ (dt : Nat) (s : State), s.mainUp = true → Safety.quiet s →
    ∃ t, exec (.rcRegisterRead dt .host 0x400C ⟨true, 15⟩ false) s = .next t ∧ t.chip.rspData = s.draw.evals ∧ t.draw.evals = 0 ∧
      t.codec = s.codec ∧ t.mem = s.mem) ∧
  (∀ (dt : Nat) (s : State), s.mainUp = true →
    ∃ t, exec (.rcRegisterRead dt .host 0x5038 ⟨true, 15⟩ false) s = .next t ∧ t.chip.rspData = s.shelf.hits ∧ t.shelf = { s.shelf with hits := 0 }) ∧
  (∀ (dt p : Nat) (s : State), p < 16 → s.mainUp = true → Safety.quiet s →
    ∃ t, exec (.snsFsLoRead dt p true false) s = .next t ∧ t.chip.rspData = (s.port p).fsStamp % 2 ^ 32 ∧
      t.port p = { s.port p with fsHiLatch := (s.port p).fsStamp / 2 ^ 32 % 2 ^ 32 }) ∧
  (∀ (dt p : Nat) (s : State), p < 16 → s.mainUp = true → Safety.quiet s →
    ∃ t, exec (.snsFsLoRead dt p true true) s = .next t ∧ t.chip.rspData = (s.port p).fsStamp % 2 ^ 32 ∧ t.ports = s.ports) ∧
  (∀ (dt v : Nat) (m : ExtMem) (s : State), v < 2 ^ 32 → s.mainUp = true →
    ∃ t, exec (.registerWrite dt .host 0x4004 v 15 true m) s = .next t ∧ t.draw.evt = s.draw.evt &&& ~~~(BitVec.ofNat 2 v)) ∧
  (∀ (dt v : Nat) (m : ExtMem) (s : State), v < 2 ^ 32 → s.mainUp = true → Safety.quiet s →
    ∃ t, exec (.registerWrite dt .host 0x3008 v 15 true m) s = .next t ∧ t.codec = { s.codec with evtEn := BitVec.ofNat 4 v }) ∧
  (∀ (dt v k : Nat) (m : ExtMem) (s : State), v < 2 ^ 32 → k < 4 → s.mainUp = true → Safety.quiet s → (s.chan k).stream = none → (s.chan k).stopped = false →
    k < s.codec.channels.length →
    ∃ t, exec (.registerWrite dt .host (0x3104 + 0x40 * k) v 15 true m) s = .next t ∧
      t.chan k = { s.chan k with work := setHalf (s.chan k).work 0 (v / 4096 * 4096) }) ∧
  (∀ (dt v : Nat) (m : ExtMem) (s : State), v < 2 ^ 32 → s.mainUp = true →
    ∃ t, exec (.registerWrite dt .host 0x5010 v 15 true m) s = .next t ∧ t.mem.class1.rate = v % 65536 ∧
      t.mem.class1.depth = (if v / 65536 < 64 then s.mem.class1.depth else v / 65536)) ∧
  (∀ (dt v : Nat) (m : ExtMem) (s : State), v < 2 ^ 32 → s.mainUp = true →
    exec (.registerWrite dt .host 0x1004 v 15 true m) s = .next (settle s (respond 0 0 (advance dt s)))) ∧
  (∀ (dt lane : Nat) (s : State), lane < 4 → s.mainUp = true →
    ∃ t, exec (.drawKatStart dt true lane) s = .next t ∧ t.draw = { s.draw with katLane := lane, katStart := true }) ∧
  (∀ (dt a v : Nat) (priv : Bool) (m : ExtMem) (s : State), (Instr.registerWrite dt .host a v 15 priv m).wf = true → s.chip.rstN = false →
    exec (.registerWrite dt .host a v 15 priv m) s = .next (settle s (respond 2 0 (advance dt s)))) ∧
  (∀ (dt c t0 : Nat) (s : State), c < 256 → (s.ctx c).closeHold = some t0 → t0 ≤ (advance dt s).now →
    exec (.closeResponseHoldExpiry dt c) s = .next (settle s (modCtx c (fun x => { x with closeHold := none }) (advance dt s))))

/-! ### What every command keeps -/

/-- R517 and R521 hold after every command: whatever a command has done, each event output that stands at 1 has a source pending at its
target, and each target without output and message works in the mode its TGT_CFG names. -/
def Obligations.TargetsFollowTheirSources : Prop :=
  (∀ (c : Instr) (s t : State), exec c s = .next t → Safety.targetsFollow t) ∧
    ∀ s t : State, Safety.targetsFollow s → step s = .next t → Safety.targetsFollow t

/-- Frames. Time alone moves nothing but the time base. A command of the event controller leaves everything but the targets, the control
port's response and the time base; a private write of the I3C target without an overrun everything but its own registers; and a write of a
register of the codec or of the draw unit everything but that unit and the response. -/
def Obligations.CommandsKeepTheRest : Prop :=
  (∀ (dt : Nat) (s : State), advance dt s = { s with tb := (advance dt s).tb }) ∧
  (∀ (dt k src : Nat) (p d : Bool) (c : Instr) (s t : State), Safety.quiet s →
    c = .tgtClaim dt k p d ∨ c = .tgtComplete dt k src p ∨ c = .evtSignal dt k ∨ c = .moderationExpiry dt k ∨ c = .hostIdleEdge dt k p →
    exec c s = .next t → t = { s with tb := t.tb, chip := t.chip, events := t.events }) ∧
  (∀ (dt : Nat) (l : List Byte) (e : Bool) (s t : State), Safety.quiet s → exec (.i3cPrivateWrite dt l e false) s = .next t →
    t = { s with tb := t.tb, mgmt := t.mgmt, events := { s.events with targets := t.events.targets } }) ∧
  (∀ (dt a v be : Nat) (p : Bool) (m : ExtMem) (s t : State), Safety.quiet s → 0x3000 ≤ a → a < 0x5000 →
    exec (.registerWrite dt .host a v be p m) s = .next t →
    t = { s with tb := t.tb, chip := t.chip, codec := t.codec, draw := t.draw, events := { s.events with targets := t.events.targets } })
end

