-- ==== Sys2Proof/Laws/State.lean ====
section
/-! SUPPORT. What each named update of the state leaves and what it changes: one lemma per field per update, so that no later
proof unfolds a record update. -/

namespace Sys2Proof.Machine

variable (s : State)

/-! ### advance -/

@[simp] theorem advance_pending (dt : Nat) : (advance dt s).pending = s.pending := by unfold advance; split <;> rfl
@[simp] theorem advance_chip (dt : Nat) : (advance dt s).chip = s.chip := by unfold advance; split <;> rfl
@[simp] theorem advance_power (dt : Nat) : (advance dt s).power = s.power := by unfold advance; split <;> rfl
@[simp] theorem advance_control (dt : Nat) : (advance dt s).control = s.control := by unfold advance; split <;> rfl
@[simp] theorem advance_boxes (dt : Nat) : (advance dt s).boxes = s.boxes := by unfold advance; split <;> rfl
@[simp] theorem advance_ctxs (dt : Nat) : (advance dt s).ctxs = s.ctxs := by unfold advance; split <;> rfl
@[simp] theorem advance_rings (dt : Nat) : (advance dt s).rings = s.rings := by unfold advance; split <;> rfl
@[simp] theorem advance_fetchOrder (dt : Nat) : (advance dt s).fetchOrder = s.fetchOrder := by unfold advance; split <;> rfl
@[simp] theorem advance_fetchRr (dt : Nat) : (advance dt s).fetchRr = s.fetchRr := by unfold advance; split <;> rfl
@[simp] theorem advance_bindings (dt : Nat) : (advance dt s).bindings = s.bindings := by unfold advance; split <;> rfl
@[simp] theorem advance_press (dt : Nat) : (advance dt s).press = s.press := by unfold advance; split <;> rfl
@[simp] theorem advance_ports (dt : Nat) : (advance dt s).ports = s.ports := by unfold advance; split <;> rfl
@[simp] theorem advance_streams (dt : Nat) : (advance dt s).streams = s.streams := by unfold advance; split <;> rfl
@[simp] theorem advance_groups (dt : Nat) : (advance dt s).groups = s.groups := by unfold advance; split <;> rfl
@[simp] theorem advance_pkt (dt : Nat) : (advance dt s).pkt = s.pkt := by unfold advance; split <;> rfl
@[simp] theorem advance_codec (dt : Nat) : (advance dt s).codec = s.codec := by unfold advance; split <;> rfl
@[simp] theorem advance_draw (dt : Nat) : (advance dt s).draw = s.draw := by unfold advance; split <;> rfl
@[simp] theorem advance_pools (dt : Nat) : (advance dt s).pools = s.pools := by unfold advance; split <;> rfl
@[simp] theorem advance_shelf (dt : Nat) : (advance dt s).shelf = s.shelf := by unfold advance; split <;> rfl
@[simp] theorem advance_mem (dt : Nat) : (advance dt s).mem = s.mem := by unfold advance; split <;> rfl
@[simp] theorem advance_txs (dt : Nat) : (advance dt s).txs = s.txs := by unfold advance; split <;> rfl
@[simp] theorem advance_txNext (dt : Nat) : (advance dt s).txNext = s.txNext := by unfold advance; split <;> rfl
@[simp] theorem advance_works (dt : Nat) : (advance dt s).works = s.works := by unfold advance; split <;> rfl
@[simp] theorem advance_workNext (dt : Nat) : (advance dt s).workNext = s.workNext := by unfold advance; split <;> rfl
@[simp] theorem advance_chains (dt : Nat) : (advance dt s).chains = s.chains := by unfold advance; split <;> rfl
@[simp] theorem advance_faults (dt : Nat) : (advance dt s).faults = s.faults := by unfold advance; split <;> rfl
@[simp] theorem advance_keep (dt : Nat) : (advance dt s).keep = s.keep := by unfold advance; split <;> rfl
@[simp] theorem advance_events (dt : Nat) : (advance dt s).events = s.events := by unfold advance; split <;> rfl
@[simp] theorem advance_mgmt (dt : Nat) : (advance dt s).mgmt = s.mgmt := by unfold advance; split <;> rfl

/-! ### respond -/

@[simp] theorem respond_pending (code data : Nat) : (respond code data s).pending = s.pending := rfl
@[simp] theorem respond_power (code data : Nat) : (respond code data s).power = s.power := rfl
@[simp] theorem respond_tb (code data : Nat) : (respond code data s).tb = s.tb := rfl
@[simp] theorem respond_control (code data : Nat) : (respond code data s).control = s.control := rfl
@[simp] theorem respond_boxes (code data : Nat) : (respond code data s).boxes = s.boxes := rfl
@[simp] theorem respond_ctxs (code data : Nat) : (respond code data s).ctxs = s.ctxs := rfl
@[simp] theorem respond_rings (code data : Nat) : (respond code data s).rings = s.rings := rfl
@[simp] theorem respond_fetchOrder (code data : Nat) : (respond code data s).fetchOrder = s.fetchOrder := rfl
@[simp] theorem respond_fetchRr (code data : Nat) : (respond code data s).fetchRr = s.fetchRr := rfl
@[simp] theorem respond_bindings (code data : Nat) : (respond code data s).bindings = s.bindings := rfl
@[simp] theorem respond_press (code data : Nat) : (respond code data s).press = s.press := rfl
@[simp] theorem respond_ports (code data : Nat) : (respond code data s).ports = s.ports := rfl
@[simp] theorem respond_streams (code data : Nat) : (respond code data s).streams = s.streams := rfl
@[simp] theorem respond_groups (code data : Nat) : (respond code data s).groups = s.groups := rfl
@[simp] theorem respond_pkt (code data : Nat) : (respond code data s).pkt = s.pkt := rfl
@[simp] theorem respond_codec (code data : Nat) : (respond code data s).codec = s.codec := rfl
@[simp] theorem respond_draw (code data : Nat) : (respond code data s).draw = s.draw := rfl
@[simp] theorem respond_pools (code data : Nat) : (respond code data s).pools = s.pools := rfl
@[simp] theorem respond_shelf (code data : Nat) : (respond code data s).shelf = s.shelf := rfl
@[simp] theorem respond_mem (code data : Nat) : (respond code data s).mem = s.mem := rfl
@[simp] theorem respond_txs (code data : Nat) : (respond code data s).txs = s.txs := rfl
@[simp] theorem respond_txNext (code data : Nat) : (respond code data s).txNext = s.txNext := rfl
@[simp] theorem respond_works (code data : Nat) : (respond code data s).works = s.works := rfl
@[simp] theorem respond_workNext (code data : Nat) : (respond code data s).workNext = s.workNext := rfl
@[simp] theorem respond_chains (code data : Nat) : (respond code data s).chains = s.chains := rfl
@[simp] theorem respond_faults (code data : Nat) : (respond code data s).faults = s.faults := rfl
@[simp] theorem respond_keep (code data : Nat) : (respond code data s).keep = s.keep := rfl
@[simp] theorem respond_events (code data : Nat) : (respond code data s).events = s.events := rfl
@[simp] theorem respond_mgmt (code data : Nat) : (respond code data s).mgmt = s.mgmt := rfl

/-! ### useFree -/

@[simp] theorem useFree_pending (n : Nat) : (useFree n s).pending = s.pending := rfl
@[simp] theorem useFree_power (n : Nat) : (useFree n s).power = s.power := rfl
@[simp] theorem useFree_tb (n : Nat) : (useFree n s).tb = s.tb := rfl
@[simp] theorem useFree_control (n : Nat) : (useFree n s).control = s.control := rfl
@[simp] theorem useFree_boxes (n : Nat) : (useFree n s).boxes = s.boxes := rfl
@[simp] theorem useFree_ctxs (n : Nat) : (useFree n s).ctxs = s.ctxs := rfl
@[simp] theorem useFree_rings (n : Nat) : (useFree n s).rings = s.rings := rfl
@[simp] theorem useFree_fetchOrder (n : Nat) : (useFree n s).fetchOrder = s.fetchOrder := rfl
@[simp] theorem useFree_fetchRr (n : Nat) : (useFree n s).fetchRr = s.fetchRr := rfl
@[simp] theorem useFree_bindings (n : Nat) : (useFree n s).bindings = s.bindings := rfl
@[simp] theorem useFree_press (n : Nat) : (useFree n s).press = s.press := rfl
@[simp] theorem useFree_ports (n : Nat) : (useFree n s).ports = s.ports := rfl
@[simp] theorem useFree_streams (n : Nat) : (useFree n s).streams = s.streams := rfl
@[simp] theorem useFree_groups (n : Nat) : (useFree n s).groups = s.groups := rfl
@[simp] theorem useFree_pkt (n : Nat) : (useFree n s).pkt = s.pkt := rfl
@[simp] theorem useFree_codec (n : Nat) : (useFree n s).codec = s.codec := rfl
@[simp] theorem useFree_draw (n : Nat) : (useFree n s).draw = s.draw := rfl
@[simp] theorem useFree_pools (n : Nat) : (useFree n s).pools = s.pools := rfl
@[simp] theorem useFree_shelf (n : Nat) : (useFree n s).shelf = s.shelf := rfl
@[simp] theorem useFree_mem (n : Nat) : (useFree n s).mem = s.mem := rfl
@[simp] theorem useFree_txs (n : Nat) : (useFree n s).txs = s.txs := rfl
@[simp] theorem useFree_txNext (n : Nat) : (useFree n s).txNext = s.txNext := rfl
@[simp] theorem useFree_works (n : Nat) : (useFree n s).works = s.works := rfl
@[simp] theorem useFree_workNext (n : Nat) : (useFree n s).workNext = s.workNext := rfl
@[simp] theorem useFree_chains (n : Nat) : (useFree n s).chains = s.chains := rfl
@[simp] theorem useFree_faults (n : Nat) : (useFree n s).faults = s.faults := rfl
@[simp] theorem useFree_keep (n : Nat) : (useFree n s).keep = s.keep := rfl
@[simp] theorem useFree_events (n : Nat) : (useFree n s).events = s.events := rfl
@[simp] theorem useFree_mgmt (n : Nat) : (useFree n s).mgmt = s.mgmt := rfl

/-! ### modBox -/

@[simp] theorem modBox_pending (b : Nat) (f : Mbox → Mbox) : (modBox b f s).pending = s.pending := rfl
@[simp] theorem modBox_chip (b : Nat) (f : Mbox → Mbox) : (modBox b f s).chip = s.chip := rfl
@[simp] theorem modBox_power (b : Nat) (f : Mbox → Mbox) : (modBox b f s).power = s.power := rfl
@[simp] theorem modBox_tb (b : Nat) (f : Mbox → Mbox) : (modBox b f s).tb = s.tb := rfl
@[simp] theorem modBox_control (b : Nat) (f : Mbox → Mbox) : (modBox b f s).control = s.control := rfl
@[simp] theorem modBox_ctxs (b : Nat) (f : Mbox → Mbox) : (modBox b f s).ctxs = s.ctxs := rfl
@[simp] theorem modBox_rings (b : Nat) (f : Mbox → Mbox) : (modBox b f s).rings = s.rings := rfl
@[simp] theorem modBox_fetchOrder (b : Nat) (f : Mbox → Mbox) : (modBox b f s).fetchOrder = s.fetchOrder := rfl
@[simp] theorem modBox_fetchRr (b : Nat) (f : Mbox → Mbox) : (modBox b f s).fetchRr = s.fetchRr := rfl
@[simp] theorem modBox_bindings (b : Nat) (f : Mbox → Mbox) : (modBox b f s).bindings = s.bindings := rfl
@[simp] theorem modBox_press (b : Nat) (f : Mbox → Mbox) : (modBox b f s).press = s.press := rfl
@[simp] theorem modBox_ports (b : Nat) (f : Mbox → Mbox) : (modBox b f s).ports = s.ports := rfl
@[simp] theorem modBox_streams (b : Nat) (f : Mbox → Mbox) : (modBox b f s).streams = s.streams := rfl
@[simp] theorem modBox_groups (b : Nat) (f : Mbox → Mbox) : (modBox b f s).groups = s.groups := rfl
@[simp] theorem modBox_pkt (b : Nat) (f : Mbox → Mbox) : (modBox b f s).pkt = s.pkt := rfl
@[simp] theorem modBox_codec (b : Nat) (f : Mbox → Mbox) : (modBox b f s).codec = s.codec := rfl
@[simp] theorem modBox_draw (b : Nat) (f : Mbox → Mbox) : (modBox b f s).draw = s.draw := rfl
@[simp] theorem modBox_pools (b : Nat) (f : Mbox → Mbox) : (modBox b f s).pools = s.pools := rfl
@[simp] theorem modBox_shelf (b : Nat) (f : Mbox → Mbox) : (modBox b f s).shelf = s.shelf := rfl
@[simp] theorem modBox_mem (b : Nat) (f : Mbox → Mbox) : (modBox b f s).mem = s.mem := rfl
@[simp] theorem modBox_txs (b : Nat) (f : Mbox → Mbox) : (modBox b f s).txs = s.txs := rfl
@[simp] theorem modBox_txNext (b : Nat) (f : Mbox → Mbox) : (modBox b f s).txNext = s.txNext := rfl
@[simp] theorem modBox_works (b : Nat) (f : Mbox → Mbox) : (modBox b f s).works = s.works := rfl
@[simp] theorem modBox_workNext (b : Nat) (f : Mbox → Mbox) : (modBox b f s).workNext = s.workNext := rfl
@[simp] theorem modBox_chains (b : Nat) (f : Mbox → Mbox) : (modBox b f s).chains = s.chains := rfl
@[simp] theorem modBox_faults (b : Nat) (f : Mbox → Mbox) : (modBox b f s).faults = s.faults := rfl
@[simp] theorem modBox_keep (b : Nat) (f : Mbox → Mbox) : (modBox b f s).keep = s.keep := rfl
@[simp] theorem modBox_events (b : Nat) (f : Mbox → Mbox) : (modBox b f s).events = s.events := rfl
@[simp] theorem modBox_mgmt (b : Nat) (f : Mbox → Mbox) : (modBox b f s).mgmt = s.mgmt := rfl

/-! ### modCtx -/

@[simp] theorem modCtx_pending (c : Nat) (f : Ctx → Ctx) : (modCtx c f s).pending = s.pending := rfl
@[simp] theorem modCtx_chip (c : Nat) (f : Ctx → Ctx) : (modCtx c f s).chip = s.chip := rfl
@[simp] theorem modCtx_power (c : Nat) (f : Ctx → Ctx) : (modCtx c f s).power = s.power := rfl
@[simp] theorem modCtx_tb (c : Nat) (f : Ctx → Ctx) : (modCtx c f s).tb = s.tb := rfl
@[simp] theorem modCtx_control (c : Nat) (f : Ctx → Ctx) : (modCtx c f s).control = s.control := rfl
@[simp] theorem modCtx_boxes (c : Nat) (f : Ctx → Ctx) : (modCtx c f s).boxes = s.boxes := rfl
@[simp] theorem modCtx_rings (c : Nat) (f : Ctx → Ctx) : (modCtx c f s).rings = s.rings := rfl
@[simp] theorem modCtx_fetchOrder (c : Nat) (f : Ctx → Ctx) : (modCtx c f s).fetchOrder = s.fetchOrder := rfl
@[simp] theorem modCtx_fetchRr (c : Nat) (f : Ctx → Ctx) : (modCtx c f s).fetchRr = s.fetchRr := rfl
@[simp] theorem modCtx_bindings (c : Nat) (f : Ctx → Ctx) : (modCtx c f s).bindings = s.bindings := rfl
@[simp] theorem modCtx_press (c : Nat) (f : Ctx → Ctx) : (modCtx c f s).press = s.press := rfl
@[simp] theorem modCtx_ports (c : Nat) (f : Ctx → Ctx) : (modCtx c f s).ports = s.ports := rfl
@[simp] theorem modCtx_streams (c : Nat) (f : Ctx → Ctx) : (modCtx c f s).streams = s.streams := rfl
@[simp] theorem modCtx_groups (c : Nat) (f : Ctx → Ctx) : (modCtx c f s).groups = s.groups := rfl
@[simp] theorem modCtx_pkt (c : Nat) (f : Ctx → Ctx) : (modCtx c f s).pkt = s.pkt := rfl
@[simp] theorem modCtx_codec (c : Nat) (f : Ctx → Ctx) : (modCtx c f s).codec = s.codec := rfl
@[simp] theorem modCtx_draw (c : Nat) (f : Ctx → Ctx) : (modCtx c f s).draw = s.draw := rfl
@[simp] theorem modCtx_pools (c : Nat) (f : Ctx → Ctx) : (modCtx c f s).pools = s.pools := rfl
@[simp] theorem modCtx_shelf (c : Nat) (f : Ctx → Ctx) : (modCtx c f s).shelf = s.shelf := rfl
@[simp] theorem modCtx_mem (c : Nat) (f : Ctx → Ctx) : (modCtx c f s).mem = s.mem := rfl
@[simp] theorem modCtx_txs (c : Nat) (f : Ctx → Ctx) : (modCtx c f s).txs = s.txs := rfl
@[simp] theorem modCtx_txNext (c : Nat) (f : Ctx → Ctx) : (modCtx c f s).txNext = s.txNext := rfl
@[simp] theorem modCtx_works (c : Nat) (f : Ctx → Ctx) : (modCtx c f s).works = s.works := rfl
@[simp] theorem modCtx_workNext (c : Nat) (f : Ctx → Ctx) : (modCtx c f s).workNext = s.workNext := rfl
@[simp] theorem modCtx_chains (c : Nat) (f : Ctx → Ctx) : (modCtx c f s).chains = s.chains := rfl
@[simp] theorem modCtx_faults (c : Nat) (f : Ctx → Ctx) : (modCtx c f s).faults = s.faults := rfl
@[simp] theorem modCtx_keep (c : Nat) (f : Ctx → Ctx) : (modCtx c f s).keep = s.keep := rfl
@[simp] theorem modCtx_events (c : Nat) (f : Ctx → Ctx) : (modCtx c f s).events = s.events := rfl
@[simp] theorem modCtx_mgmt (c : Nat) (f : Ctx → Ctx) : (modCtx c f s).mgmt = s.mgmt := rfl

/-! ### modRing -/

@[simp] theorem modRing_pending (c n : Nat) (f : Ring → Ring) : (modRing c n f s).pending = s.pending := rfl
@[simp] theorem modRing_chip (c n : Nat) (f : Ring → Ring) : (modRing c n f s).chip = s.chip := rfl
@[simp] theorem modRing_power (c n : Nat) (f : Ring → Ring) : (modRing c n f s).power = s.power := rfl
@[simp] theorem modRing_tb (c n : Nat) (f : Ring → Ring) : (modRing c n f s).tb = s.tb := rfl
@[simp] theorem modRing_control (c n : Nat) (f : Ring → Ring) : (modRing c n f s).control = s.control := rfl
@[simp] theorem modRing_boxes (c n : Nat) (f : Ring → Ring) : (modRing c n f s).boxes = s.boxes := rfl
@[simp] theorem modRing_ctxs (c n : Nat) (f : Ring → Ring) : (modRing c n f s).ctxs = s.ctxs := rfl
@[simp] theorem modRing_fetchOrder (c n : Nat) (f : Ring → Ring) : (modRing c n f s).fetchOrder = s.fetchOrder := rfl
@[simp] theorem modRing_fetchRr (c n : Nat) (f : Ring → Ring) : (modRing c n f s).fetchRr = s.fetchRr := rfl
@[simp] theorem modRing_bindings (c n : Nat) (f : Ring → Ring) : (modRing c n f s).bindings = s.bindings := rfl
@[simp] theorem modRing_press (c n : Nat) (f : Ring → Ring) : (modRing c n f s).press = s.press := rfl
@[simp] theorem modRing_ports (c n : Nat) (f : Ring → Ring) : (modRing c n f s).ports = s.ports := rfl
@[simp] theorem modRing_streams (c n : Nat) (f : Ring → Ring) : (modRing c n f s).streams = s.streams := rfl
@[simp] theorem modRing_groups (c n : Nat) (f : Ring → Ring) : (modRing c n f s).groups = s.groups := rfl
@[simp] theorem modRing_pkt (c n : Nat) (f : Ring → Ring) : (modRing c n f s).pkt = s.pkt := rfl
@[simp] theorem modRing_codec (c n : Nat) (f : Ring → Ring) : (modRing c n f s).codec = s.codec := rfl
@[simp] theorem modRing_draw (c n : Nat) (f : Ring → Ring) : (modRing c n f s).draw = s.draw := rfl
@[simp] theorem modRing_pools (c n : Nat) (f : Ring → Ring) : (modRing c n f s).pools = s.pools := rfl
@[simp] theorem modRing_shelf (c n : Nat) (f : Ring → Ring) : (modRing c n f s).shelf = s.shelf := rfl
@[simp] theorem modRing_mem (c n : Nat) (f : Ring → Ring) : (modRing c n f s).mem = s.mem := rfl
@[simp] theorem modRing_txs (c n : Nat) (f : Ring → Ring) : (modRing c n f s).txs = s.txs := rfl
@[simp] theorem modRing_txNext (c n : Nat) (f : Ring → Ring) : (modRing c n f s).txNext = s.txNext := rfl
@[simp] theorem modRing_works (c n : Nat) (f : Ring → Ring) : (modRing c n f s).works = s.works := rfl
@[simp] theorem modRing_workNext (c n : Nat) (f : Ring → Ring) : (modRing c n f s).workNext = s.workNext := rfl
@[simp] theorem modRing_chains (c n : Nat) (f : Ring → Ring) : (modRing c n f s).chains = s.chains := rfl
@[simp] theorem modRing_faults (c n : Nat) (f : Ring → Ring) : (modRing c n f s).faults = s.faults := rfl
@[simp] theorem modRing_keep (c n : Nat) (f : Ring → Ring) : (modRing c n f s).keep = s.keep := rfl
@[simp] theorem modRing_events (c n : Nat) (f : Ring → Ring) : (modRing c n f s).events = s.events := rfl
@[simp] theorem modRing_mgmt (c n : Nat) (f : Ring → Ring) : (modRing c n f s).mgmt = s.mgmt := rfl

/-! ### modPort -/

@[simp] theorem modPort_pending (p : Nat) (f : Port → Port) : (modPort p f s).pending = s.pending := rfl
@[simp] theorem modPort_chip (p : Nat) (f : Port → Port) : (modPort p f s).chip = s.chip := rfl
@[simp] theorem modPort_power (p : Nat) (f : Port → Port) : (modPort p f s).power = s.power := rfl
@[simp] theorem modPort_tb (p : Nat) (f : Port → Port) : (modPort p f s).tb = s.tb := rfl
@[simp] theorem modPort_control (p : Nat) (f : Port → Port) : (modPort p f s).control = s.control := rfl
@[simp] theorem modPort_boxes (p : Nat) (f : Port → Port) : (modPort p f s).boxes = s.boxes := rfl
@[simp] theorem modPort_ctxs (p : Nat) (f : Port → Port) : (modPort p f s).ctxs = s.ctxs := rfl
@[simp] theorem modPort_rings (p : Nat) (f : Port → Port) : (modPort p f s).rings = s.rings := rfl
@[simp] theorem modPort_fetchOrder (p : Nat) (f : Port → Port) : (modPort p f s).fetchOrder = s.fetchOrder := rfl
@[simp] theorem modPort_fetchRr (p : Nat) (f : Port → Port) : (modPort p f s).fetchRr = s.fetchRr := rfl
@[simp] theorem modPort_bindings (p : Nat) (f : Port → Port) : (modPort p f s).bindings = s.bindings := rfl
@[simp] theorem modPort_press (p : Nat) (f : Port → Port) : (modPort p f s).press = s.press := rfl
@[simp] theorem modPort_streams (p : Nat) (f : Port → Port) : (modPort p f s).streams = s.streams := rfl
@[simp] theorem modPort_groups (p : Nat) (f : Port → Port) : (modPort p f s).groups = s.groups := rfl
@[simp] theorem modPort_pkt (p : Nat) (f : Port → Port) : (modPort p f s).pkt = s.pkt := rfl
@[simp] theorem modPort_codec (p : Nat) (f : Port → Port) : (modPort p f s).codec = s.codec := rfl
@[simp] theorem modPort_draw (p : Nat) (f : Port → Port) : (modPort p f s).draw = s.draw := rfl
@[simp] theorem modPort_pools (p : Nat) (f : Port → Port) : (modPort p f s).pools = s.pools := rfl
@[simp] theorem modPort_shelf (p : Nat) (f : Port → Port) : (modPort p f s).shelf = s.shelf := rfl
@[simp] theorem modPort_mem (p : Nat) (f : Port → Port) : (modPort p f s).mem = s.mem := rfl
@[simp] theorem modPort_txs (p : Nat) (f : Port → Port) : (modPort p f s).txs = s.txs := rfl
@[simp] theorem modPort_txNext (p : Nat) (f : Port → Port) : (modPort p f s).txNext = s.txNext := rfl
@[simp] theorem modPort_works (p : Nat) (f : Port → Port) : (modPort p f s).works = s.works := rfl
@[simp] theorem modPort_workNext (p : Nat) (f : Port → Port) : (modPort p f s).workNext = s.workNext := rfl
@[simp] theorem modPort_chains (p : Nat) (f : Port → Port) : (modPort p f s).chains = s.chains := rfl
@[simp] theorem modPort_faults (p : Nat) (f : Port → Port) : (modPort p f s).faults = s.faults := rfl
@[simp] theorem modPort_keep (p : Nat) (f : Port → Port) : (modPort p f s).keep = s.keep := rfl
@[simp] theorem modPort_events (p : Nat) (f : Port → Port) : (modPort p f s).events = s.events := rfl
@[simp] theorem modPort_mgmt (p : Nat) (f : Port → Port) : (modPort p f s).mgmt = s.mgmt := rfl

/-! ### modTarget -/

@[simp] theorem modTarget_pending (t : Nat) (f : Target → Target) : (modTarget t f s).pending = s.pending := rfl
@[simp] theorem modTarget_chip (t : Nat) (f : Target → Target) : (modTarget t f s).chip = s.chip := rfl
@[simp] theorem modTarget_power (t : Nat) (f : Target → Target) : (modTarget t f s).power = s.power := rfl
@[simp] theorem modTarget_tb (t : Nat) (f : Target → Target) : (modTarget t f s).tb = s.tb := rfl
@[simp] theorem modTarget_control (t : Nat) (f : Target → Target) : (modTarget t f s).control = s.control := rfl
@[simp] theorem modTarget_boxes (t : Nat) (f : Target → Target) : (modTarget t f s).boxes = s.boxes := rfl
@[simp] theorem modTarget_ctxs (t : Nat) (f : Target → Target) : (modTarget t f s).ctxs = s.ctxs := rfl
@[simp] theorem modTarget_rings (t : Nat) (f : Target → Target) : (modTarget t f s).rings = s.rings := rfl
@[simp] theorem modTarget_fetchOrder (t : Nat) (f : Target → Target) : (modTarget t f s).fetchOrder = s.fetchOrder := rfl
@[simp] theorem modTarget_fetchRr (t : Nat) (f : Target → Target) : (modTarget t f s).fetchRr = s.fetchRr := rfl
@[simp] theorem modTarget_bindings (t : Nat) (f : Target → Target) : (modTarget t f s).bindings = s.bindings := rfl
@[simp] theorem modTarget_press (t : Nat) (f : Target → Target) : (modTarget t f s).press = s.press := rfl
@[simp] theorem modTarget_ports (t : Nat) (f : Target → Target) : (modTarget t f s).ports = s.ports := rfl
@[simp] theorem modTarget_streams (t : Nat) (f : Target → Target) : (modTarget t f s).streams = s.streams := rfl
@[simp] theorem modTarget_groups (t : Nat) (f : Target → Target) : (modTarget t f s).groups = s.groups := rfl
@[simp] theorem modTarget_pkt (t : Nat) (f : Target → Target) : (modTarget t f s).pkt = s.pkt := rfl
@[simp] theorem modTarget_codec (t : Nat) (f : Target → Target) : (modTarget t f s).codec = s.codec := rfl
@[simp] theorem modTarget_draw (t : Nat) (f : Target → Target) : (modTarget t f s).draw = s.draw := rfl
@[simp] theorem modTarget_pools (t : Nat) (f : Target → Target) : (modTarget t f s).pools = s.pools := rfl
@[simp] theorem modTarget_shelf (t : Nat) (f : Target → Target) : (modTarget t f s).shelf = s.shelf := rfl
@[simp] theorem modTarget_mem (t : Nat) (f : Target → Target) : (modTarget t f s).mem = s.mem := rfl
@[simp] theorem modTarget_txs (t : Nat) (f : Target → Target) : (modTarget t f s).txs = s.txs := rfl
@[simp] theorem modTarget_txNext (t : Nat) (f : Target → Target) : (modTarget t f s).txNext = s.txNext := rfl
@[simp] theorem modTarget_works (t : Nat) (f : Target → Target) : (modTarget t f s).works = s.works := rfl
@[simp] theorem modTarget_workNext (t : Nat) (f : Target → Target) : (modTarget t f s).workNext = s.workNext := rfl
@[simp] theorem modTarget_chains (t : Nat) (f : Target → Target) : (modTarget t f s).chains = s.chains := rfl
@[simp] theorem modTarget_faults (t : Nat) (f : Target → Target) : (modTarget t f s).faults = s.faults := rfl
@[simp] theorem modTarget_keep (t : Nat) (f : Target → Target) : (modTarget t f s).keep = s.keep := rfl
@[simp] theorem modTarget_mgmt (t : Nat) (f : Target → Target) : (modTarget t f s).mgmt = s.mgmt := rfl

/-! ### modSem -/

@[simp] theorem modSem_pending (n : Nat) (f : Sem → Sem) : (modSem n f s).pending = s.pending := rfl
@[simp] theorem modSem_chip (n : Nat) (f : Sem → Sem) : (modSem n f s).chip = s.chip := rfl
@[simp] theorem modSem_power (n : Nat) (f : Sem → Sem) : (modSem n f s).power = s.power := rfl
@[simp] theorem modSem_tb (n : Nat) (f : Sem → Sem) : (modSem n f s).tb = s.tb := rfl
@[simp] theorem modSem_boxes (n : Nat) (f : Sem → Sem) : (modSem n f s).boxes = s.boxes := rfl
@[simp] theorem modSem_ctxs (n : Nat) (f : Sem → Sem) : (modSem n f s).ctxs = s.ctxs := rfl
@[simp] theorem modSem_rings (n : Nat) (f : Sem → Sem) : (modSem n f s).rings = s.rings := rfl
@[simp] theorem modSem_fetchOrder (n : Nat) (f : Sem → Sem) : (modSem n f s).fetchOrder = s.fetchOrder := rfl
@[simp] theorem modSem_fetchRr (n : Nat) (f : Sem → Sem) : (modSem n f s).fetchRr = s.fetchRr := rfl
@[simp] theorem modSem_bindings (n : Nat) (f : Sem → Sem) : (modSem n f s).bindings = s.bindings := rfl
@[simp] theorem modSem_press (n : Nat) (f : Sem → Sem) : (modSem n f s).press = s.press := rfl
@[simp] theorem modSem_ports (n : Nat) (f : Sem → Sem) : (modSem n f s).ports = s.ports := rfl
@[simp] theorem modSem_streams (n : Nat) (f : Sem → Sem) : (modSem n f s).streams = s.streams := rfl
@[simp] theorem modSem_groups (n : Nat) (f : Sem → Sem) : (modSem n f s).groups = s.groups := rfl
@[simp] theorem modSem_pkt (n : Nat) (f : Sem → Sem) : (modSem n f s).pkt = s.pkt := rfl
@[simp] theorem modSem_codec (n : Nat) (f : Sem → Sem) : (modSem n f s).codec = s.codec := rfl
@[simp] theorem modSem_draw (n : Nat) (f : Sem → Sem) : (modSem n f s).draw = s.draw := rfl
@[simp] theorem modSem_pools (n : Nat) (f : Sem → Sem) : (modSem n f s).pools = s.pools := rfl
@[simp] theorem modSem_shelf (n : Nat) (f : Sem → Sem) : (modSem n f s).shelf = s.shelf := rfl
@[simp] theorem modSem_mem (n : Nat) (f : Sem → Sem) : (modSem n f s).mem = s.mem := rfl
@[simp] theorem modSem_txs (n : Nat) (f : Sem → Sem) : (modSem n f s).txs = s.txs := rfl
@[simp] theorem modSem_txNext (n : Nat) (f : Sem → Sem) : (modSem n f s).txNext = s.txNext := rfl
@[simp] theorem modSem_works (n : Nat) (f : Sem → Sem) : (modSem n f s).works = s.works := rfl
@[simp] theorem modSem_workNext (n : Nat) (f : Sem → Sem) : (modSem n f s).workNext = s.workNext := rfl
@[simp] theorem modSem_chains (n : Nat) (f : Sem → Sem) : (modSem n f s).chains = s.chains := rfl
@[simp] theorem modSem_faults (n : Nat) (f : Sem → Sem) : (modSem n f s).faults = s.faults := rfl
@[simp] theorem modSem_keep (n : Nat) (f : Sem → Sem) : (modSem n f s).keep = s.keep := rfl
@[simp] theorem modSem_events (n : Nat) (f : Sem → Sem) : (modSem n f s).events = s.events := rfl
@[simp] theorem modSem_mgmt (n : Nat) (f : Sem → Sem) : (modSem n f s).mgmt = s.mgmt := rfl

/-! ### modStream -/

@[simp] theorem modStream_pending (i : Nat) (f : Stream → Stream) : (modStream i f s).pending = s.pending := rfl
@[simp] theorem modStream_chip (i : Nat) (f : Stream → Stream) : (modStream i f s).chip = s.chip := rfl
@[simp] theorem modStream_power (i : Nat) (f : Stream → Stream) : (modStream i f s).power = s.power := rfl
@[simp] theorem modStream_tb (i : Nat) (f : Stream → Stream) : (modStream i f s).tb = s.tb := rfl
@[simp] theorem modStream_control (i : Nat) (f : Stream → Stream) : (modStream i f s).control = s.control := rfl
@[simp] theorem modStream_boxes (i : Nat) (f : Stream → Stream) : (modStream i f s).boxes = s.boxes := rfl
@[simp] theorem modStream_ctxs (i : Nat) (f : Stream → Stream) : (modStream i f s).ctxs = s.ctxs := rfl
@[simp] theorem modStream_rings (i : Nat) (f : Stream → Stream) : (modStream i f s).rings = s.rings := rfl
@[simp] theorem modStream_fetchOrder (i : Nat) (f : Stream → Stream) : (modStream i f s).fetchOrder = s.fetchOrder := rfl
@[simp] theorem modStream_fetchRr (i : Nat) (f : Stream → Stream) : (modStream i f s).fetchRr = s.fetchRr := rfl
@[simp] theorem modStream_bindings (i : Nat) (f : Stream → Stream) : (modStream i f s).bindings = s.bindings := rfl
@[simp] theorem modStream_press (i : Nat) (f : Stream → Stream) : (modStream i f s).press = s.press := rfl
@[simp] theorem modStream_ports (i : Nat) (f : Stream → Stream) : (modStream i f s).ports = s.ports := rfl
@[simp] theorem modStream_groups (i : Nat) (f : Stream → Stream) : (modStream i f s).groups = s.groups := rfl
@[simp] theorem modStream_pkt (i : Nat) (f : Stream → Stream) : (modStream i f s).pkt = s.pkt := rfl
@[simp] theorem modStream_codec (i : Nat) (f : Stream → Stream) : (modStream i f s).codec = s.codec := rfl
@[simp] theorem modStream_draw (i : Nat) (f : Stream → Stream) : (modStream i f s).draw = s.draw := rfl
@[simp] theorem modStream_pools (i : Nat) (f : Stream → Stream) : (modStream i f s).pools = s.pools := rfl
@[simp] theorem modStream_shelf (i : Nat) (f : Stream → Stream) : (modStream i f s).shelf = s.shelf := rfl
@[simp] theorem modStream_mem (i : Nat) (f : Stream → Stream) : (modStream i f s).mem = s.mem := rfl
@[simp] theorem modStream_txs (i : Nat) (f : Stream → Stream) : (modStream i f s).txs = s.txs := rfl
@[simp] theorem modStream_txNext (i : Nat) (f : Stream → Stream) : (modStream i f s).txNext = s.txNext := rfl
@[simp] theorem modStream_works (i : Nat) (f : Stream → Stream) : (modStream i f s).works = s.works := rfl
@[simp] theorem modStream_workNext (i : Nat) (f : Stream → Stream) : (modStream i f s).workNext = s.workNext := rfl
@[simp] theorem modStream_chains (i : Nat) (f : Stream → Stream) : (modStream i f s).chains = s.chains := rfl
@[simp] theorem modStream_faults (i : Nat) (f : Stream → Stream) : (modStream i f s).faults = s.faults := rfl
@[simp] theorem modStream_keep (i : Nat) (f : Stream → Stream) : (modStream i f s).keep = s.keep := rfl
@[simp] theorem modStream_events (i : Nat) (f : Stream → Stream) : (modStream i f s).events = s.events := rfl
@[simp] theorem modStream_mgmt (i : Nat) (f : Stream → Stream) : (modStream i f s).mgmt = s.mgmt := rfl

/-! ### modGroup -/

@[simp] theorem modGroup_pending (g : Nat) (f : Group → Group) : (modGroup g f s).pending = s.pending := rfl
@[simp] theorem modGroup_chip (g : Nat) (f : Group → Group) : (modGroup g f s).chip = s.chip := rfl
@[simp] theorem modGroup_power (g : Nat) (f : Group → Group) : (modGroup g f s).power = s.power := rfl
@[simp] theorem modGroup_tb (g : Nat) (f : Group → Group) : (modGroup g f s).tb = s.tb := rfl
@[simp] theorem modGroup_control (g : Nat) (f : Group → Group) : (modGroup g f s).control = s.control := rfl
@[simp] theorem modGroup_boxes (g : Nat) (f : Group → Group) : (modGroup g f s).boxes = s.boxes := rfl
@[simp] theorem modGroup_ctxs (g : Nat) (f : Group → Group) : (modGroup g f s).ctxs = s.ctxs := rfl
@[simp] theorem modGroup_rings (g : Nat) (f : Group → Group) : (modGroup g f s).rings = s.rings := rfl
@[simp] theorem modGroup_fetchOrder (g : Nat) (f : Group → Group) : (modGroup g f s).fetchOrder = s.fetchOrder := rfl
@[simp] theorem modGroup_fetchRr (g : Nat) (f : Group → Group) : (modGroup g f s).fetchRr = s.fetchRr := rfl
@[simp] theorem modGroup_bindings (g : Nat) (f : Group → Group) : (modGroup g f s).bindings = s.bindings := rfl
@[simp] theorem modGroup_press (g : Nat) (f : Group → Group) : (modGroup g f s).press = s.press := rfl
@[simp] theorem modGroup_ports (g : Nat) (f : Group → Group) : (modGroup g f s).ports = s.ports := rfl
@[simp] theorem modGroup_streams (g : Nat) (f : Group → Group) : (modGroup g f s).streams = s.streams := rfl
@[simp] theorem modGroup_pkt (g : Nat) (f : Group → Group) : (modGroup g f s).pkt = s.pkt := rfl
@[simp] theorem modGroup_codec (g : Nat) (f : Group → Group) : (modGroup g f s).codec = s.codec := rfl
@[simp] theorem modGroup_draw (g : Nat) (f : Group → Group) : (modGroup g f s).draw = s.draw := rfl
@[simp] theorem modGroup_pools (g : Nat) (f : Group → Group) : (modGroup g f s).pools = s.pools := rfl
@[simp] theorem modGroup_shelf (g : Nat) (f : Group → Group) : (modGroup g f s).shelf = s.shelf := rfl
@[simp] theorem modGroup_mem (g : Nat) (f : Group → Group) : (modGroup g f s).mem = s.mem := rfl
@[simp] theorem modGroup_txs (g : Nat) (f : Group → Group) : (modGroup g f s).txs = s.txs := rfl
@[simp] theorem modGroup_txNext (g : Nat) (f : Group → Group) : (modGroup g f s).txNext = s.txNext := rfl
@[simp] theorem modGroup_works (g : Nat) (f : Group → Group) : (modGroup g f s).works = s.works := rfl
@[simp] theorem modGroup_workNext (g : Nat) (f : Group → Group) : (modGroup g f s).workNext = s.workNext := rfl
@[simp] theorem modGroup_chains (g : Nat) (f : Group → Group) : (modGroup g f s).chains = s.chains := rfl
@[simp] theorem modGroup_faults (g : Nat) (f : Group → Group) : (modGroup g f s).faults = s.faults := rfl
@[simp] theorem modGroup_keep (g : Nat) (f : Group → Group) : (modGroup g f s).keep = s.keep := rfl
@[simp] theorem modGroup_events (g : Nat) (f : Group → Group) : (modGroup g f s).events = s.events := rfl
@[simp] theorem modGroup_mgmt (g : Nat) (f : Group → Group) : (modGroup g f s).mgmt = s.mgmt := rfl

/-! ### modBinding -/

@[simp] theorem modBinding_pending (h : Nat) (f : Binding → Binding) : (modBinding h f s).pending = s.pending := rfl
@[simp] theorem modBinding_chip (h : Nat) (f : Binding → Binding) : (modBinding h f s).chip = s.chip := rfl
@[simp] theorem modBinding_power (h : Nat) (f : Binding → Binding) : (modBinding h f s).power = s.power := rfl
@[simp] theorem modBinding_tb (h : Nat) (f : Binding → Binding) : (modBinding h f s).tb = s.tb := rfl
@[simp] theorem modBinding_control (h : Nat) (f : Binding → Binding) : (modBinding h f s).control = s.control := rfl
@[simp] theorem modBinding_boxes (h : Nat) (f : Binding → Binding) : (modBinding h f s).boxes = s.boxes := rfl
@[simp] theorem modBinding_ctxs (h : Nat) (f : Binding → Binding) : (modBinding h f s).ctxs = s.ctxs := rfl
@[simp] theorem modBinding_rings (h : Nat) (f : Binding → Binding) : (modBinding h f s).rings = s.rings := rfl
@[simp] theorem modBinding_fetchOrder (h : Nat) (f : Binding → Binding) : (modBinding h f s).fetchOrder = s.fetchOrder := rfl
@[simp] theorem modBinding_fetchRr (h : Nat) (f : Binding → Binding) : (modBinding h f s).fetchRr = s.fetchRr := rfl
@[simp] theorem modBinding_press (h : Nat) (f : Binding → Binding) : (modBinding h f s).press = s.press := rfl
@[simp] theorem modBinding_ports (h : Nat) (f : Binding → Binding) : (modBinding h f s).ports = s.ports := rfl
@[simp] theorem modBinding_streams (h : Nat) (f : Binding → Binding) : (modBinding h f s).streams = s.streams := rfl
@[simp] theorem modBinding_groups (h : Nat) (f : Binding → Binding) : (modBinding h f s).groups = s.groups := rfl
@[simp] theorem modBinding_pkt (h : Nat) (f : Binding → Binding) : (modBinding h f s).pkt = s.pkt := rfl
@[simp] theorem modBinding_codec (h : Nat) (f : Binding → Binding) : (modBinding h f s).codec = s.codec := rfl
@[simp] theorem modBinding_draw (h : Nat) (f : Binding → Binding) : (modBinding h f s).draw = s.draw := rfl
@[simp] theorem modBinding_pools (h : Nat) (f : Binding → Binding) : (modBinding h f s).pools = s.pools := rfl
@[simp] theorem modBinding_shelf (h : Nat) (f : Binding → Binding) : (modBinding h f s).shelf = s.shelf := rfl
@[simp] theorem modBinding_mem (h : Nat) (f : Binding → Binding) : (modBinding h f s).mem = s.mem := rfl
@[simp] theorem modBinding_txs (h : Nat) (f : Binding → Binding) : (modBinding h f s).txs = s.txs := rfl
@[simp] theorem modBinding_txNext (h : Nat) (f : Binding → Binding) : (modBinding h f s).txNext = s.txNext := rfl
@[simp] theorem modBinding_works (h : Nat) (f : Binding → Binding) : (modBinding h f s).works = s.works := rfl
@[simp] theorem modBinding_workNext (h : Nat) (f : Binding → Binding) : (modBinding h f s).workNext = s.workNext := rfl
@[simp] theorem modBinding_chains (h : Nat) (f : Binding → Binding) : (modBinding h f s).chains = s.chains := rfl
@[simp] theorem modBinding_faults (h : Nat) (f : Binding → Binding) : (modBinding h f s).faults = s.faults := rfl
@[simp] theorem modBinding_keep (h : Nat) (f : Binding → Binding) : (modBinding h f s).keep = s.keep := rfl
@[simp] theorem modBinding_events (h : Nat) (f : Binding → Binding) : (modBinding h f s).events = s.events := rfl
@[simp] theorem modBinding_mgmt (h : Nat) (f : Binding → Binding) : (modBinding h f s).mgmt = s.mgmt := rfl

/-! ### modWork -/

@[simp] theorem modWork_pending (w : Nat) (f : Work → Work) : (modWork w f s).pending = s.pending := rfl
@[simp] theorem modWork_chip (w : Nat) (f : Work → Work) : (modWork w f s).chip = s.chip := rfl
@[simp] theorem modWork_power (w : Nat) (f : Work → Work) : (modWork w f s).power = s.power := rfl
@[simp] theorem modWork_tb (w : Nat) (f : Work → Work) : (modWork w f s).tb = s.tb := rfl
@[simp] theorem modWork_control (w : Nat) (f : Work → Work) : (modWork w f s).control = s.control := rfl
@[simp] theorem modWork_boxes (w : Nat) (f : Work → Work) : (modWork w f s).boxes = s.boxes := rfl
@[simp] theorem modWork_ctxs (w : Nat) (f : Work → Work) : (modWork w f s).ctxs = s.ctxs := rfl
@[simp] theorem modWork_rings (w : Nat) (f : Work → Work) : (modWork w f s).rings = s.rings := rfl
@[simp] theorem modWork_fetchOrder (w : Nat) (f : Work → Work) : (modWork w f s).fetchOrder = s.fetchOrder := rfl
@[simp] theorem modWork_fetchRr (w : Nat) (f : Work → Work) : (modWork w f s).fetchRr = s.fetchRr := rfl
@[simp] theorem modWork_bindings (w : Nat) (f : Work → Work) : (modWork w f s).bindings = s.bindings := rfl
@[simp] theorem modWork_press (w : Nat) (f : Work → Work) : (modWork w f s).press = s.press := rfl
@[simp] theorem modWork_ports (w : Nat) (f : Work → Work) : (modWork w f s).ports = s.ports := rfl
@[simp] theorem modWork_streams (w : Nat) (f : Work → Work) : (modWork w f s).streams = s.streams := rfl
@[simp] theorem modWork_groups (w : Nat) (f : Work → Work) : (modWork w f s).groups = s.groups := rfl
@[simp] theorem modWork_pkt (w : Nat) (f : Work → Work) : (modWork w f s).pkt = s.pkt := rfl
@[simp] theorem modWork_codec (w : Nat) (f : Work → Work) : (modWork w f s).codec = s.codec := rfl
@[simp] theorem modWork_draw (w : Nat) (f : Work → Work) : (modWork w f s).draw = s.draw := rfl
@[simp] theorem modWork_pools (w : Nat) (f : Work → Work) : (modWork w f s).pools = s.pools := rfl
@[simp] theorem modWork_shelf (w : Nat) (f : Work → Work) : (modWork w f s).shelf = s.shelf := rfl
@[simp] theorem modWork_mem (w : Nat) (f : Work → Work) : (modWork w f s).mem = s.mem := rfl
@[simp] theorem modWork_txs (w : Nat) (f : Work → Work) : (modWork w f s).txs = s.txs := rfl
@[simp] theorem modWork_txNext (w : Nat) (f : Work → Work) : (modWork w f s).txNext = s.txNext := rfl
@[simp] theorem modWork_workNext (w : Nat) (f : Work → Work) : (modWork w f s).workNext = s.workNext := rfl
@[simp] theorem modWork_chains (w : Nat) (f : Work → Work) : (modWork w f s).chains = s.chains := rfl
@[simp] theorem modWork_faults (w : Nat) (f : Work → Work) : (modWork w f s).faults = s.faults := rfl
@[simp] theorem modWork_keep (w : Nat) (f : Work → Work) : (modWork w f s).keep = s.keep := rfl
@[simp] theorem modWork_events (w : Nat) (f : Work → Work) : (modWork w f s).events = s.events := rfl
@[simp] theorem modWork_mgmt (w : Nat) (f : Work → Work) : (modWork w f s).mgmt = s.mgmt := rfl

/-! ### modPool -/

@[simp] theorem modPool_pending (k : Nat) (f : Pool → Pool) : (modPool k f s).pending = s.pending := rfl
@[simp] theorem modPool_chip (k : Nat) (f : Pool → Pool) : (modPool k f s).chip = s.chip := rfl
@[simp] theorem modPool_power (k : Nat) (f : Pool → Pool) : (modPool k f s).power = s.power := rfl
@[simp] theorem modPool_tb (k : Nat) (f : Pool → Pool) : (modPool k f s).tb = s.tb := rfl
@[simp] theorem modPool_control (k : Nat) (f : Pool → Pool) : (modPool k f s).control = s.control := rfl
@[simp] theorem modPool_boxes (k : Nat) (f : Pool → Pool) : (modPool k f s).boxes = s.boxes := rfl
@[simp] theorem modPool_ctxs (k : Nat) (f : Pool → Pool) : (modPool k f s).ctxs = s.ctxs := rfl
@[simp] theorem modPool_rings (k : Nat) (f : Pool → Pool) : (modPool k f s).rings = s.rings := rfl
@[simp] theorem modPool_fetchOrder (k : Nat) (f : Pool → Pool) : (modPool k f s).fetchOrder = s.fetchOrder := rfl
@[simp] theorem modPool_fetchRr (k : Nat) (f : Pool → Pool) : (modPool k f s).fetchRr = s.fetchRr := rfl
@[simp] theorem modPool_bindings (k : Nat) (f : Pool → Pool) : (modPool k f s).bindings = s.bindings := rfl
@[simp] theorem modPool_press (k : Nat) (f : Pool → Pool) : (modPool k f s).press = s.press := rfl
@[simp] theorem modPool_ports (k : Nat) (f : Pool → Pool) : (modPool k f s).ports = s.ports := rfl
@[simp] theorem modPool_streams (k : Nat) (f : Pool → Pool) : (modPool k f s).streams = s.streams := rfl
@[simp] theorem modPool_groups (k : Nat) (f : Pool → Pool) : (modPool k f s).groups = s.groups := rfl
@[simp] theorem modPool_pkt (k : Nat) (f : Pool → Pool) : (modPool k f s).pkt = s.pkt := rfl
@[simp] theorem modPool_codec (k : Nat) (f : Pool → Pool) : (modPool k f s).codec = s.codec := rfl
@[simp] theorem modPool_draw (k : Nat) (f : Pool → Pool) : (modPool k f s).draw = s.draw := rfl
@[simp] theorem modPool_shelf (k : Nat) (f : Pool → Pool) : (modPool k f s).shelf = s.shelf := rfl
@[simp] theorem modPool_mem (k : Nat) (f : Pool → Pool) : (modPool k f s).mem = s.mem := rfl
@[simp] theorem modPool_txs (k : Nat) (f : Pool → Pool) : (modPool k f s).txs = s.txs := rfl
@[simp] theorem modPool_txNext (k : Nat) (f : Pool → Pool) : (modPool k f s).txNext = s.txNext := rfl
@[simp] theorem modPool_works (k : Nat) (f : Pool → Pool) : (modPool k f s).works = s.works := rfl
@[simp] theorem modPool_workNext (k : Nat) (f : Pool → Pool) : (modPool k f s).workNext = s.workNext := rfl
@[simp] theorem modPool_chains (k : Nat) (f : Pool → Pool) : (modPool k f s).chains = s.chains := rfl
@[simp] theorem modPool_faults (k : Nat) (f : Pool → Pool) : (modPool k f s).faults = s.faults := rfl
@[simp] theorem modPool_keep (k : Nat) (f : Pool → Pool) : (modPool k f s).keep = s.keep := rfl
@[simp] theorem modPool_events (k : Nat) (f : Pool → Pool) : (modPool k f s).events = s.events := rfl
@[simp] theorem modPool_mgmt (k : Nat) (f : Pool → Pool) : (modPool k f s).mgmt = s.mgmt := rfl

/-! ### modQuire -/

@[simp] theorem modQuire_pending (q : Nat) (f : Quire → Quire) : (modQuire q f s).pending = s.pending := rfl
@[simp] theorem modQuire_chip (q : Nat) (f : Quire → Quire) : (modQuire q f s).chip = s.chip := rfl
@[simp] theorem modQuire_power (q : Nat) (f : Quire → Quire) : (modQuire q f s).power = s.power := rfl
@[simp] theorem modQuire_tb (q : Nat) (f : Quire → Quire) : (modQuire q f s).tb = s.tb := rfl
@[simp] theorem modQuire_control (q : Nat) (f : Quire → Quire) : (modQuire q f s).control = s.control := rfl
@[simp] theorem modQuire_boxes (q : Nat) (f : Quire → Quire) : (modQuire q f s).boxes = s.boxes := rfl
@[simp] theorem modQuire_ctxs (q : Nat) (f : Quire → Quire) : (modQuire q f s).ctxs = s.ctxs := rfl
@[simp] theorem modQuire_rings (q : Nat) (f : Quire → Quire) : (modQuire q f s).rings = s.rings := rfl
@[simp] theorem modQuire_fetchOrder (q : Nat) (f : Quire → Quire) : (modQuire q f s).fetchOrder = s.fetchOrder := rfl
@[simp] theorem modQuire_fetchRr (q : Nat) (f : Quire → Quire) : (modQuire q f s).fetchRr = s.fetchRr := rfl
@[simp] theorem modQuire_bindings (q : Nat) (f : Quire → Quire) : (modQuire q f s).bindings = s.bindings := rfl
@[simp] theorem modQuire_ports (q : Nat) (f : Quire → Quire) : (modQuire q f s).ports = s.ports := rfl
@[simp] theorem modQuire_streams (q : Nat) (f : Quire → Quire) : (modQuire q f s).streams = s.streams := rfl
@[simp] theorem modQuire_groups (q : Nat) (f : Quire → Quire) : (modQuire q f s).groups = s.groups := rfl
@[simp] theorem modQuire_pkt (q : Nat) (f : Quire → Quire) : (modQuire q f s).pkt = s.pkt := rfl
@[simp] theorem modQuire_codec (q : Nat) (f : Quire → Quire) : (modQuire q f s).codec = s.codec := rfl
@[simp] theorem modQuire_draw (q : Nat) (f : Quire → Quire) : (modQuire q f s).draw = s.draw := rfl
@[simp] theorem modQuire_pools (q : Nat) (f : Quire → Quire) : (modQuire q f s).pools = s.pools := rfl
@[simp] theorem modQuire_shelf (q : Nat) (f : Quire → Quire) : (modQuire q f s).shelf = s.shelf := rfl
@[simp] theorem modQuire_mem (q : Nat) (f : Quire → Quire) : (modQuire q f s).mem = s.mem := rfl
@[simp] theorem modQuire_txs (q : Nat) (f : Quire → Quire) : (modQuire q f s).txs = s.txs := rfl
@[simp] theorem modQuire_txNext (q : Nat) (f : Quire → Quire) : (modQuire q f s).txNext = s.txNext := rfl
@[simp] theorem modQuire_works (q : Nat) (f : Quire → Quire) : (modQuire q f s).works = s.works := rfl
@[simp] theorem modQuire_workNext (q : Nat) (f : Quire → Quire) : (modQuire q f s).workNext = s.workNext := rfl
@[simp] theorem modQuire_chains (q : Nat) (f : Quire → Quire) : (modQuire q f s).chains = s.chains := rfl
@[simp] theorem modQuire_faults (q : Nat) (f : Quire → Quire) : (modQuire q f s).faults = s.faults := rfl
@[simp] theorem modQuire_keep (q : Nat) (f : Quire → Quire) : (modQuire q f s).keep = s.keep := rfl
@[simp] theorem modQuire_events (q : Nat) (f : Quire → Quire) : (modQuire q f s).events = s.events := rfl
@[simp] theorem modQuire_mgmt (q : Nat) (f : Quire → Quire) : (modQuire q f s).mgmt = s.mgmt := rfl

/-! ### modPring -/

@[simp] theorem modPring_pending (r : Nat) (f : PktRing → PktRing) : (modPring r f s).pending = s.pending := rfl
@[simp] theorem modPring_chip (r : Nat) (f : PktRing → PktRing) : (modPring r f s).chip = s.chip := rfl
@[simp] theorem modPring_power (r : Nat) (f : PktRing → PktRing) : (modPring r f s).power = s.power := rfl
@[simp] theorem modPring_tb (r : Nat) (f : PktRing → PktRing) : (modPring r f s).tb = s.tb := rfl
@[simp] theorem modPring_control (r : Nat) (f : PktRing → PktRing) : (modPring r f s).control = s.control := rfl
@[simp] theorem modPring_boxes (r : Nat) (f : PktRing → PktRing) : (modPring r f s).boxes = s.boxes := rfl
@[simp] theorem modPring_ctxs (r : Nat) (f : PktRing → PktRing) : (modPring r f s).ctxs = s.ctxs := rfl
@[simp] theorem modPring_rings (r : Nat) (f : PktRing → PktRing) : (modPring r f s).rings = s.rings := rfl
@[simp] theorem modPring_fetchOrder (r : Nat) (f : PktRing → PktRing) : (modPring r f s).fetchOrder = s.fetchOrder := rfl
@[simp] theorem modPring_fetchRr (r : Nat) (f : PktRing → PktRing) : (modPring r f s).fetchRr = s.fetchRr := rfl
@[simp] theorem modPring_bindings (r : Nat) (f : PktRing → PktRing) : (modPring r f s).bindings = s.bindings := rfl
@[simp] theorem modPring_press (r : Nat) (f : PktRing → PktRing) : (modPring r f s).press = s.press := rfl
@[simp] theorem modPring_ports (r : Nat) (f : PktRing → PktRing) : (modPring r f s).ports = s.ports := rfl
@[simp] theorem modPring_streams (r : Nat) (f : PktRing → PktRing) : (modPring r f s).streams = s.streams := rfl
@[simp] theorem modPring_groups (r : Nat) (f : PktRing → PktRing) : (modPring r f s).groups = s.groups := rfl
@[simp] theorem modPring_codec (r : Nat) (f : PktRing → PktRing) : (modPring r f s).codec = s.codec := rfl
@[simp] theorem modPring_draw (r : Nat) (f : PktRing → PktRing) : (modPring r f s).draw = s.draw := rfl
@[simp] theorem modPring_pools (r : Nat) (f : PktRing → PktRing) : (modPring r f s).pools = s.pools := rfl
@[simp] theorem modPring_shelf (r : Nat) (f : PktRing → PktRing) : (modPring r f s).shelf = s.shelf := rfl
@[simp] theorem modPring_mem (r : Nat) (f : PktRing → PktRing) : (modPring r f s).mem = s.mem := rfl
@[simp] theorem modPring_txs (r : Nat) (f : PktRing → PktRing) : (modPring r f s).txs = s.txs := rfl
@[simp] theorem modPring_txNext (r : Nat) (f : PktRing → PktRing) : (modPring r f s).txNext = s.txNext := rfl
@[simp] theorem modPring_works (r : Nat) (f : PktRing → PktRing) : (modPring r f s).works = s.works := rfl
@[simp] theorem modPring_workNext (r : Nat) (f : PktRing → PktRing) : (modPring r f s).workNext = s.workNext := rfl
@[simp] theorem modPring_chains (r : Nat) (f : PktRing → PktRing) : (modPring r f s).chains = s.chains := rfl
@[simp] theorem modPring_faults (r : Nat) (f : PktRing → PktRing) : (modPring r f s).faults = s.faults := rfl
@[simp] theorem modPring_keep (r : Nat) (f : PktRing → PktRing) : (modPring r f s).keep = s.keep := rfl
@[simp] theorem modPring_events (r : Nat) (f : PktRing → PktRing) : (modPring r f s).events = s.events := rfl
@[simp] theorem modPring_mgmt (r : Nat) (f : PktRing → PktRing) : (modPring r f s).mgmt = s.mgmt := rfl

/-! ### modChan -/

@[simp] theorem modChan_pending (k : Nat) (f : Channel → Channel) : (modChan k f s).pending = s.pending := rfl
@[simp] theorem modChan_chip (k : Nat) (f : Channel → Channel) : (modChan k f s).chip = s.chip := rfl
@[simp] theorem modChan_power (k : Nat) (f : Channel → Channel) : (modChan k f s).power = s.power := rfl
@[simp] theorem modChan_tb (k : Nat) (f : Channel → Channel) : (modChan k f s).tb = s.tb := rfl
@[simp] theorem modChan_control (k : Nat) (f : Channel → Channel) : (modChan k f s).control = s.control := rfl
@[simp] theorem modChan_boxes (k : Nat) (f : Channel → Channel) : (modChan k f s).boxes = s.boxes := rfl
@[simp] theorem modChan_ctxs (k : Nat) (f : Channel → Channel) : (modChan k f s).ctxs = s.ctxs := rfl
@[simp] theorem modChan_rings (k : Nat) (f : Channel → Channel) : (modChan k f s).rings = s.rings := rfl
@[simp] theorem modChan_fetchOrder (k : Nat) (f : Channel → Channel) : (modChan k f s).fetchOrder = s.fetchOrder := rfl
@[simp] theorem modChan_fetchRr (k : Nat) (f : Channel → Channel) : (modChan k f s).fetchRr = s.fetchRr := rfl
@[simp] theorem modChan_bindings (k : Nat) (f : Channel → Channel) : (modChan k f s).bindings = s.bindings := rfl
@[simp] theorem modChan_press (k : Nat) (f : Channel → Channel) : (modChan k f s).press = s.press := rfl
@[simp] theorem modChan_ports (k : Nat) (f : Channel → Channel) : (modChan k f s).ports = s.ports := rfl
@[simp] theorem modChan_streams (k : Nat) (f : Channel → Channel) : (modChan k f s).streams = s.streams := rfl
@[simp] theorem modChan_groups (k : Nat) (f : Channel → Channel) : (modChan k f s).groups = s.groups := rfl
@[simp] theorem modChan_pkt (k : Nat) (f : Channel → Channel) : (modChan k f s).pkt = s.pkt := rfl
@[simp] theorem modChan_draw (k : Nat) (f : Channel → Channel) : (modChan k f s).draw = s.draw := rfl
@[simp] theorem modChan_pools (k : Nat) (f : Channel → Channel) : (modChan k f s).pools = s.pools := rfl
@[simp] theorem modChan_shelf (k : Nat) (f : Channel → Channel) : (modChan k f s).shelf = s.shelf := rfl
@[simp] theorem modChan_mem (k : Nat) (f : Channel → Channel) : (modChan k f s).mem = s.mem := rfl
@[simp] theorem modChan_txs (k : Nat) (f : Channel → Channel) : (modChan k f s).txs = s.txs := rfl
@[simp] theorem modChan_txNext (k : Nat) (f : Channel → Channel) : (modChan k f s).txNext = s.txNext := rfl
@[simp] theorem modChan_works (k : Nat) (f : Channel → Channel) : (modChan k f s).works = s.works := rfl
@[simp] theorem modChan_workNext (k : Nat) (f : Channel → Channel) : (modChan k f s).workNext = s.workNext := rfl
@[simp] theorem modChan_chains (k : Nat) (f : Channel → Channel) : (modChan k f s).chains = s.chains := rfl
@[simp] theorem modChan_faults (k : Nat) (f : Channel → Channel) : (modChan k f s).faults = s.faults := rfl
@[simp] theorem modChan_keep (k : Nat) (f : Channel → Channel) : (modChan k f s).keep = s.keep := rfl
@[simp] theorem modChan_events (k : Nat) (f : Channel → Channel) : (modChan k f s).events = s.events := rfl
@[simp] theorem modChan_mgmt (k : Nat) (f : Channel → Channel) : (modChan k f s).mgmt = s.mgmt := rfl

/-! ### modClk -/

@[simp] theorem modClk_pending (c : Clk) (f : ClkState → ClkState) : (modClk c f s).pending = s.pending := by cases c <;> rfl
@[simp] theorem modClk_chip (c : Clk) (f : ClkState → ClkState) : (modClk c f s).chip = s.chip := by cases c <;> rfl
@[simp] theorem modClk_tb (c : Clk) (f : ClkState → ClkState) : (modClk c f s).tb = s.tb := by cases c <;> rfl
@[simp] theorem modClk_control (c : Clk) (f : ClkState → ClkState) : (modClk c f s).control = s.control := by cases c <;> rfl
@[simp] theorem modClk_boxes (c : Clk) (f : ClkState → ClkState) : (modClk c f s).boxes = s.boxes := by cases c <;> rfl
@[simp] theorem modClk_ctxs (c : Clk) (f : ClkState → ClkState) : (modClk c f s).ctxs = s.ctxs := by cases c <;> rfl
@[simp] theorem modClk_rings (c : Clk) (f : ClkState → ClkState) : (modClk c f s).rings = s.rings := by cases c <;> rfl
@[simp] theorem modClk_fetchOrder (c : Clk) (f : ClkState → ClkState) : (modClk c f s).fetchOrder = s.fetchOrder := by cases c <;> rfl
@[simp] theorem modClk_fetchRr (c : Clk) (f : ClkState → ClkState) : (modClk c f s).fetchRr = s.fetchRr := by cases c <;> rfl
@[simp] theorem modClk_bindings (c : Clk) (f : ClkState → ClkState) : (modClk c f s).bindings = s.bindings := by cases c <;> rfl
@[simp] theorem modClk_press (c : Clk) (f : ClkState → ClkState) : (modClk c f s).press = s.press := by cases c <;> rfl
@[simp] theorem modClk_ports (c : Clk) (f : ClkState → ClkState) : (modClk c f s).ports = s.ports := by cases c <;> rfl
@[simp] theorem modClk_streams (c : Clk) (f : ClkState → ClkState) : (modClk c f s).streams = s.streams := by cases c <;> rfl
@[simp] theorem modClk_groups (c : Clk) (f : ClkState → ClkState) : (modClk c f s).groups = s.groups := by cases c <;> rfl
@[simp] theorem modClk_pkt (c : Clk) (f : ClkState → ClkState) : (modClk c f s).pkt = s.pkt := by cases c <;> rfl
@[simp] theorem modClk_codec (c : Clk) (f : ClkState → ClkState) : (modClk c f s).codec = s.codec := by cases c <;> rfl
@[simp] theorem modClk_draw (c : Clk) (f : ClkState → ClkState) : (modClk c f s).draw = s.draw := by cases c <;> rfl
@[simp] theorem modClk_pools (c : Clk) (f : ClkState → ClkState) : (modClk c f s).pools = s.pools := by cases c <;> rfl
@[simp] theorem modClk_shelf (c : Clk) (f : ClkState → ClkState) : (modClk c f s).shelf = s.shelf := by cases c <;> rfl
@[simp] theorem modClk_mem (c : Clk) (f : ClkState → ClkState) : (modClk c f s).mem = s.mem := by cases c <;> rfl
@[simp] theorem modClk_txs (c : Clk) (f : ClkState → ClkState) : (modClk c f s).txs = s.txs := by cases c <;> rfl
@[simp] theorem modClk_txNext (c : Clk) (f : ClkState → ClkState) : (modClk c f s).txNext = s.txNext := by cases c <;> rfl
@[simp] theorem modClk_works (c : Clk) (f : ClkState → ClkState) : (modClk c f s).works = s.works := by cases c <;> rfl
@[simp] theorem modClk_workNext (c : Clk) (f : ClkState → ClkState) : (modClk c f s).workNext = s.workNext := by cases c <;> rfl
@[simp] theorem modClk_chains (c : Clk) (f : ClkState → ClkState) : (modClk c f s).chains = s.chains := by cases c <;> rfl
@[simp] theorem modClk_faults (c : Clk) (f : ClkState → ClkState) : (modClk c f s).faults = s.faults := by cases c <;> rfl
@[simp] theorem modClk_keep (c : Clk) (f : ClkState → ClkState) : (modClk c f s).keep = s.keep := by cases c <;> rfl
@[simp] theorem modClk_events (c : Clk) (f : ClkState → ClkState) : (modClk c f s).events = s.events := by cases c <;> rfl
@[simp] theorem modClk_mgmt (c : Clk) (f : ClkState → ClkState) : (modClk c f s).mgmt = s.mgmt := by cases c <;> rfl

/-! ### modRail -/

@[simp] theorem modRail_pending (r : Rail) (f : RailState → RailState) : (modRail r f s).pending = s.pending := by cases r <;> rfl
@[simp] theorem modRail_chip (r : Rail) (f : RailState → RailState) : (modRail r f s).chip = s.chip := by cases r <;> rfl
@[simp] theorem modRail_tb (r : Rail) (f : RailState → RailState) : (modRail r f s).tb = s.tb := by cases r <;> rfl
@[simp] theorem modRail_control (r : Rail) (f : RailState → RailState) : (modRail r f s).control = s.control := by cases r <;> rfl
@[simp] theorem modRail_boxes (r : Rail) (f : RailState → RailState) : (modRail r f s).boxes = s.boxes := by cases r <;> rfl
@[simp] theorem modRail_ctxs (r : Rail) (f : RailState → RailState) : (modRail r f s).ctxs = s.ctxs := by cases r <;> rfl
@[simp] theorem modRail_rings (r : Rail) (f : RailState → RailState) : (modRail r f s).rings = s.rings := by cases r <;> rfl
@[simp] theorem modRail_fetchOrder (r : Rail) (f : RailState → RailState) : (modRail r f s).fetchOrder = s.fetchOrder := by cases r <;> rfl
@[simp] theorem modRail_fetchRr (r : Rail) (f : RailState → RailState) : (modRail r f s).fetchRr = s.fetchRr := by cases r <;> rfl
@[simp] theorem modRail_bindings (r : Rail) (f : RailState → RailState) : (modRail r f s).bindings = s.bindings := by cases r <;> rfl
@[simp] theorem modRail_press (r : Rail) (f : RailState → RailState) : (modRail r f s).press = s.press := by cases r <;> rfl
@[simp] theorem modRail_ports (r : Rail) (f : RailState → RailState) : (modRail r f s).ports = s.ports := by cases r <;> rfl
@[simp] theorem modRail_streams (r : Rail) (f : RailState → RailState) : (modRail r f s).streams = s.streams := by cases r <;> rfl
@[simp] theorem modRail_groups (r : Rail) (f : RailState → RailState) : (modRail r f s).groups = s.groups := by cases r <;> rfl
@[simp] theorem modRail_pkt (r : Rail) (f : RailState → RailState) : (modRail r f s).pkt = s.pkt := by cases r <;> rfl
@[simp] theorem modRail_codec (r : Rail) (f : RailState → RailState) : (modRail r f s).codec = s.codec := by cases r <;> rfl
@[simp] theorem modRail_draw (r : Rail) (f : RailState → RailState) : (modRail r f s).draw = s.draw := by cases r <;> rfl
@[simp] theorem modRail_pools (r : Rail) (f : RailState → RailState) : (modRail r f s).pools = s.pools := by cases r <;> rfl
@[simp] theorem modRail_shelf (r : Rail) (f : RailState → RailState) : (modRail r f s).shelf = s.shelf := by cases r <;> rfl
@[simp] theorem modRail_mem (r : Rail) (f : RailState → RailState) : (modRail r f s).mem = s.mem := by cases r <;> rfl
@[simp] theorem modRail_txs (r : Rail) (f : RailState → RailState) : (modRail r f s).txs = s.txs := by cases r <;> rfl
@[simp] theorem modRail_txNext (r : Rail) (f : RailState → RailState) : (modRail r f s).txNext = s.txNext := by cases r <;> rfl
@[simp] theorem modRail_works (r : Rail) (f : RailState → RailState) : (modRail r f s).works = s.works := by cases r <;> rfl
@[simp] theorem modRail_workNext (r : Rail) (f : RailState → RailState) : (modRail r f s).workNext = s.workNext := by cases r <;> rfl
@[simp] theorem modRail_chains (r : Rail) (f : RailState → RailState) : (modRail r f s).chains = s.chains := by cases r <;> rfl
@[simp] theorem modRail_faults (r : Rail) (f : RailState → RailState) : (modRail r f s).faults = s.faults := by cases r <;> rfl
@[simp] theorem modRail_keep (r : Rail) (f : RailState → RailState) : (modRail r f s).keep = s.keep := by cases r <;> rfl
@[simp] theorem modRail_events (r : Rail) (f : RailState → RailState) : (modRail r f s).events = s.events := by cases r <;> rfl
@[simp] theorem modRail_mgmt (r : Rail) (f : RailState → RailState) : (modRail r f s).mgmt = s.mgmt := by cases r <;> rfl

/-! ### addWork -/

@[simp] theorem addWork_pending (w : Work) : (addWork w s).pending = s.pending := rfl
@[simp] theorem addWork_chip (w : Work) : (addWork w s).chip = s.chip := rfl
@[simp] theorem addWork_power (w : Work) : (addWork w s).power = s.power := rfl
@[simp] theorem addWork_tb (w : Work) : (addWork w s).tb = s.tb := rfl
@[simp] theorem addWork_control (w : Work) : (addWork w s).control = s.control := rfl
@[simp] theorem addWork_boxes (w : Work) : (addWork w s).boxes = s.boxes := rfl
@[simp] theorem addWork_ctxs (w : Work) : (addWork w s).ctxs = s.ctxs := rfl
@[simp] theorem addWork_rings (w : Work) : (addWork w s).rings = s.rings := rfl
@[simp] theorem addWork_fetchOrder (w : Work) : (addWork w s).fetchOrder = s.fetchOrder := rfl
@[simp] theorem addWork_fetchRr (w : Work) : (addWork w s).fetchRr = s.fetchRr := rfl
@[simp] theorem addWork_bindings (w : Work) : (addWork w s).bindings = s.bindings := rfl
@[simp] theorem addWork_press (w : Work) : (addWork w s).press = s.press := rfl
@[simp] theorem addWork_ports (w : Work) : (addWork w s).ports = s.ports := rfl
@[simp] theorem addWork_streams (w : Work) : (addWork w s).streams = s.streams := rfl
@[simp] theorem addWork_groups (w : Work) : (addWork w s).groups = s.groups := rfl
@[simp] theorem addWork_pkt (w : Work) : (addWork w s).pkt = s.pkt := rfl
@[simp] theorem addWork_codec (w : Work) : (addWork w s).codec = s.codec := rfl
@[simp] theorem addWork_draw (w : Work) : (addWork w s).draw = s.draw := rfl
@[simp] theorem addWork_pools (w : Work) : (addWork w s).pools = s.pools := rfl
@[simp] theorem addWork_shelf (w : Work) : (addWork w s).shelf = s.shelf := rfl
@[simp] theorem addWork_mem (w : Work) : (addWork w s).mem = s.mem := rfl
@[simp] theorem addWork_txs (w : Work) : (addWork w s).txs = s.txs := rfl
@[simp] theorem addWork_txNext (w : Work) : (addWork w s).txNext = s.txNext := rfl
@[simp] theorem addWork_chains (w : Work) : (addWork w s).chains = s.chains := rfl
@[simp] theorem addWork_faults (w : Work) : (addWork w s).faults = s.faults := rfl
@[simp] theorem addWork_keep (w : Work) : (addWork w s).keep = s.keep := rfl
@[simp] theorem addWork_events (w : Work) : (addWork w s).events = s.events := rfl
@[simp] theorem addWork_mgmt (w : Work) : (addWork w s).mgmt = s.mgmt := rfl

/-! ### settleTargets -/

@[simp] theorem settleTargets_pending : (settleTargets s).pending = s.pending := rfl
@[simp] theorem settleTargets_chip : (settleTargets s).chip = s.chip := rfl
@[simp] theorem settleTargets_power : (settleTargets s).power = s.power := rfl
@[simp] theorem settleTargets_tb : (settleTargets s).tb = s.tb := rfl
@[simp] theorem settleTargets_control : (settleTargets s).control = s.control := rfl
@[simp] theorem settleTargets_boxes : (settleTargets s).boxes = s.boxes := rfl
@[simp] theorem settleTargets_ctxs : (settleTargets s).ctxs = s.ctxs := rfl
@[simp] theorem settleTargets_rings : (settleTargets s).rings = s.rings := rfl
@[simp] theorem settleTargets_fetchOrder : (settleTargets s).fetchOrder = s.fetchOrder := rfl
@[simp] theorem settleTargets_fetchRr : (settleTargets s).fetchRr = s.fetchRr := rfl
@[simp] theorem settleTargets_bindings : (settleTargets s).bindings = s.bindings := rfl
@[simp] theorem settleTargets_press : (settleTargets s).press = s.press := rfl
@[simp] theorem settleTargets_ports : (settleTargets s).ports = s.ports := rfl
@[simp] theorem settleTargets_streams : (settleTargets s).streams = s.streams := rfl
@[simp] theorem settleTargets_groups : (settleTargets s).groups = s.groups := rfl
@[simp] theorem settleTargets_pkt : (settleTargets s).pkt = s.pkt := rfl
@[simp] theorem settleTargets_codec : (settleTargets s).codec = s.codec := rfl
@[simp] theorem settleTargets_draw : (settleTargets s).draw = s.draw := rfl
@[simp] theorem settleTargets_pools : (settleTargets s).pools = s.pools := rfl
@[simp] theorem settleTargets_shelf : (settleTargets s).shelf = s.shelf := rfl
@[simp] theorem settleTargets_mem : (settleTargets s).mem = s.mem := rfl
@[simp] theorem settleTargets_txs : (settleTargets s).txs = s.txs := rfl
@[simp] theorem settleTargets_txNext : (settleTargets s).txNext = s.txNext := rfl
@[simp] theorem settleTargets_works : (settleTargets s).works = s.works := rfl
@[simp] theorem settleTargets_workNext : (settleTargets s).workNext = s.workNext := rfl
@[simp] theorem settleTargets_chains : (settleTargets s).chains = s.chains := rfl
@[simp] theorem settleTargets_faults : (settleTargets s).faults = s.faults := rfl
@[simp] theorem settleTargets_keep : (settleTargets s).keep = s.keep := rfl
@[simp] theorem settleTargets_mgmt : (settleTargets s).mgmt = s.mgmt := rfl

/-! ### What the updates write -/

@[simp] theorem switch_now (t : TimeBase) : t.switch.now = t.now := by
  unfold TimeBase.switch
  repeat' split
  all_goals rfl
@[simp] theorem advance_now (dt : Nat) (h : s.chip.porstN = true) : (advance dt s).now = (s.now + dt) % 2 ^ 64 := by
  simp [advance, State.now, h]
@[simp] theorem respond_rspCode (code data : Nat) : (respond code data s).chip.rspCode = code := rfl
@[simp] theorem respond_rspData (code data : Nat) : (respond code data s).chip.rspData = data := rfl
@[simp] theorem respond_porstN (code data : Nat) : (respond code data s).chip.porstN = s.chip.porstN := rfl
@[simp] theorem respond_rstN (code data : Nat) : (respond code data s).chip.rstN = s.chip.rstN := rfl
@[simp] theorem respond_keeperInit (code data : Nat) : (respond code data s).chip.keeperInit = s.chip.keeperInit := rfl
@[simp] theorem respond_freeCtr (code data : Nat) : (respond code data s).chip.freeCtr = s.chip.freeCtr := rfl
@[simp] theorem useFree_freeCtr (n : Nat) : (useFree n s).chip.freeCtr = s.chip.freeCtr + n := rfl
@[simp] theorem modBox_boxes (b : Nat) (f : Mbox → Mbox) : (modBox b f s).boxes = Tbl.set s.boxes b (f (s.box b)) := rfl
@[simp] theorem modCtx_ctxs (c : Nat) (f : Ctx → Ctx) : (modCtx c f s).ctxs = Tbl.set s.ctxs c (f (s.ctx c)) := rfl
@[simp] theorem modRing_rings (c n : Nat) (f : Ring → Ring) :
    (modRing c n f s).rings = Tbl.set s.rings (ringKey c n) (f (s.ring c n)) := rfl
@[simp] theorem modPort_ports (p : Nat) (f : Port → Port) : (modPort p f s).ports = Tbl.set s.ports p (f (s.port p)) := rfl
@[simp] theorem addWork_workNext (w : Work) : (addWork w s).workNext = s.workNext + 1 := rfl

/-! ### Time passes: the parts and the conditions that do not read the time base -/

@[simp] theorem advance_box (dt b : Nat) : (advance dt s).box b = s.box b := by simp [State.box]
@[simp] theorem advance_ctx (dt c : Nat) : (advance dt s).ctx c = s.ctx c := by simp [State.ctx]
@[simp] theorem advance_ring (dt c n : Nat) : (advance dt s).ring c n = s.ring c n := by simp [State.ring]
@[simp] theorem advance_port (dt p : Nat) : (advance dt s).port p = s.port p := by simp [State.port]
@[simp] theorem advance_target (dt t : Nat) : (advance dt s).target t = s.target t := by simp [State.target]
@[simp] theorem advance_sem (dt n : Nat) : (advance dt s).sem n = s.sem n := by simp [State.sem]
@[simp] theorem advance_quire (dt q : Nat) : (advance dt s).quire q = s.quire q := by simp [State.quire]
@[simp] theorem advance_pring (dt r : Nat) : (advance dt s).pring r = s.pring r := by simp [State.pring]
@[simp] theorem advance_chan (dt k : Nat) : (advance dt s).chan k = s.chan k := by simp [State.chan]
@[simp] theorem advance_clk (dt : Nat) (c : Clk) : (advance dt s).clk c = s.clk c := by cases c <;> simp [State.clk]
@[simp] theorem advance_rail (dt : Nat) (r : Rail) : (advance dt s).rail r = s.rail r := by cases r <;> simp [State.rail]
@[simp] theorem advance_mainUp (dt : Nat) : (advance dt s).mainUp = s.mainUp := by simp [State.mainUp]
@[simp] theorem advance_keeperUp (dt : Nat) : (advance dt s).keeperUp = s.keeperUp := by simp [State.keeperUp]
@[simp] theorem advance_fwRuns (dt : Nat) : (advance dt s).fwRuns = s.fwRuns := by simp [State.fwRuns]
@[simp] theorem advance_liveAdmitted (dt : Nat) : (advance dt s).liveAdmitted = s.liveAdmitted := by simp [State.liveAdmitted]
@[simp] theorem advance_streamsSafe (dt : Nat) : (advance dt s).streamsSafe = s.streamsSafe := by simp [State.streamsSafe]
@[simp] theorem advance_freeNo (dt : Nat) : (advance dt s).freeNo = s.freeNo := by simp [State.freeNo]

end Sys2Proof.Machine
end

