-- ==== Sys2Proof/Laws/Settle.lean ====
section
/-! SUPPORT. What follows a command (Flags.settle) leaves and what it changes: the one lemma set that a proof about any command cites. -/

namespace Sys2Proof.Machine

/-- A repeated function that keeps a part keeps it throughout. -/
theorem forEach_keeps {α β : Type} (g : State → β) (f : α → State → State) (h : ∀ x s, g (f x s) = g s) (l : List α) (s : State) :
    g (forEach l f s) = g s := by
  induction l generalizing s with
  | nil => rfl
  | cons x t ih => exact (ih _).trans (h x s)

variable (s old : State)

@[simp] theorem finishSafe_pending : (finishSafe s).pending = s.pending := by unfold finishSafe; split <;> rfl
@[simp] theorem finishSafe_chip : (finishSafe s).chip = s.chip := by unfold finishSafe; split <;> rfl
@[simp] theorem finishSafe_tb : (finishSafe s).tb = s.tb := by unfold finishSafe; split <;> rfl
@[simp] theorem finishSafe_control : (finishSafe s).control = s.control := by unfold finishSafe; split <;> rfl
@[simp] theorem finishSafe_boxes : (finishSafe s).boxes = s.boxes := by unfold finishSafe; split <;> rfl
@[simp] theorem finishSafe_ctxs : (finishSafe s).ctxs = s.ctxs := by unfold finishSafe; split <;> rfl
@[simp] theorem finishSafe_rings : (finishSafe s).rings = s.rings := by unfold finishSafe; split <;> rfl
@[simp] theorem finishSafe_fetchOrder : (finishSafe s).fetchOrder = s.fetchOrder := by unfold finishSafe; split <;> rfl
@[simp] theorem finishSafe_fetchRr : (finishSafe s).fetchRr = s.fetchRr := by unfold finishSafe; split <;> rfl
@[simp] theorem finishSafe_bindings : (finishSafe s).bindings = s.bindings := by unfold finishSafe; split <;> rfl
@[simp] theorem finishSafe_ports : (finishSafe s).ports = s.ports := by unfold finishSafe; split <;> rfl
@[simp] theorem finishSafe_streams : (finishSafe s).streams = s.streams := by unfold finishSafe; split <;> rfl
@[simp] theorem finishSafe_groups : (finishSafe s).groups = s.groups := by unfold finishSafe; split <;> rfl
@[simp] theorem finishSafe_pkt : (finishSafe s).pkt = s.pkt := by unfold finishSafe; split <;> rfl
@[simp] theorem finishSafe_draw : (finishSafe s).draw = s.draw := by unfold finishSafe; split <;> rfl
@[simp] theorem finishSafe_pools : (finishSafe s).pools = s.pools := by unfold finishSafe; split <;> rfl
@[simp] theorem finishSafe_shelf : (finishSafe s).shelf = s.shelf := by unfold finishSafe; split <;> rfl
@[simp] theorem finishSafe_mem : (finishSafe s).mem = s.mem := by unfold finishSafe; split <;> rfl
@[simp] theorem finishSafe_txs : (finishSafe s).txs = s.txs := by unfold finishSafe; split <;> rfl
@[simp] theorem finishSafe_txNext : (finishSafe s).txNext = s.txNext := by unfold finishSafe; split <;> rfl
@[simp] theorem finishSafe_works : (finishSafe s).works = s.works := by unfold finishSafe; split <;> rfl
@[simp] theorem finishSafe_workNext : (finishSafe s).workNext = s.workNext := by unfold finishSafe; split <;> rfl
@[simp] theorem finishSafe_chains : (finishSafe s).chains = s.chains := by unfold finishSafe; split <;> rfl
@[simp] theorem finishSafe_keep : (finishSafe s).keep = s.keep := by unfold finishSafe; split <;> rfl
@[simp] theorem finishSafe_events : (finishSafe s).events = s.events := by unfold finishSafe; split <;> rfl
@[simp] theorem finishSafe_mgmt : (finishSafe s).mgmt = s.mgmt := by unfold finishSafe; split <;> rfl

theorem when_keeps {β : Type} (g : State → β) (b : Bool) (f : State → State) (h : g (f s) = g s) : g (when b f s) = g s := by
  unfold when; split
  · exact h
  · rfl

theorem dropStream_pending (i : Nat) : (dropStream i s).pending = s.pending := by
  unfold dropStream; split
  · rfl
  · simp only [notify, notifyWhere]; rw [when_keeps _ (·.pending)] <;> [rw [when_keeps _ (·.pending)] <;> rfl; rfl]
theorem dropStream_chip (i : Nat) : (dropStream i s).chip = s.chip := by
  unfold dropStream; split
  · rfl
  · simp only [notify, notifyWhere]; rw [when_keeps _ (·.chip)] <;> [rw [when_keeps _ (·.chip)] <;> rfl; rfl]
theorem dropStream_power (i : Nat) : (dropStream i s).power = s.power := by
  unfold dropStream; split
  · rfl
  · simp only [notify, notifyWhere]; rw [when_keeps _ (·.power)] <;> [rw [when_keeps _ (·.power)] <;> rfl; rfl]
theorem dropStream_tb (i : Nat) : (dropStream i s).tb = s.tb := by
  unfold dropStream; split
  · rfl
  · simp only [notify, notifyWhere]; rw [when_keeps _ (·.tb)] <;> [rw [when_keeps _ (·.tb)] <;> rfl; rfl]
theorem dropStream_control (i : Nat) : (dropStream i s).control = s.control := by
  unfold dropStream; split
  · rfl
  · simp only [notify, notifyWhere]; rw [when_keeps _ (·.control)] <;> [rw [when_keeps _ (·.control)] <;> rfl; rfl]
theorem dropStream_ctxs (i : Nat) : (dropStream i s).ctxs = s.ctxs := by
  unfold dropStream; split
  · rfl
  · simp only [notify, notifyWhere]; rw [when_keeps _ (·.ctxs)] <;> [rw [when_keeps _ (·.ctxs)] <;> rfl; rfl]
theorem dropStream_fetchOrder (i : Nat) : (dropStream i s).fetchOrder = s.fetchOrder := by
  unfold dropStream; split
  · rfl
  · simp only [notify, notifyWhere]; rw [when_keeps _ (·.fetchOrder)] <;> [rw [when_keeps _ (·.fetchOrder)] <;> rfl; rfl]
theorem dropStream_fetchRr (i : Nat) : (dropStream i s).fetchRr = s.fetchRr := by
  unfold dropStream; split
  · rfl
  · simp only [notify, notifyWhere]; rw [when_keeps _ (·.fetchRr)] <;> [rw [when_keeps _ (·.fetchRr)] <;> rfl; rfl]
theorem dropStream_bindings (i : Nat) : (dropStream i s).bindings = s.bindings := by
  unfold dropStream; split
  · rfl
  · simp only [notify, notifyWhere]; rw [when_keeps _ (·.bindings)] <;> [rw [when_keeps _ (·.bindings)] <;> rfl; rfl]
theorem dropStream_press (i : Nat) : (dropStream i s).press = s.press := by
  unfold dropStream; split
  · rfl
  · simp only [notify, notifyWhere]; rw [when_keeps _ (·.press)] <;> [rw [when_keeps _ (·.press)] <;> rfl; rfl]
theorem dropStream_pkt (i : Nat) : (dropStream i s).pkt = s.pkt := by
  unfold dropStream; split
  · rfl
  · simp only [notify, notifyWhere]; rw [when_keeps _ (·.pkt)] <;> [rw [when_keeps _ (·.pkt)] <;> rfl; rfl]
theorem dropStream_draw (i : Nat) : (dropStream i s).draw = s.draw := by
  unfold dropStream; split
  · rfl
  · simp only [notify, notifyWhere]; rw [when_keeps _ (·.draw)] <;> [rw [when_keeps _ (·.draw)] <;> rfl; rfl]
theorem dropStream_pools (i : Nat) : (dropStream i s).pools = s.pools := by
  unfold dropStream; split
  · rfl
  · simp only [notify, notifyWhere]; rw [when_keeps _ (·.pools)] <;> [rw [when_keeps _ (·.pools)] <;> rfl; rfl]
theorem dropStream_shelf (i : Nat) : (dropStream i s).shelf = s.shelf := by
  unfold dropStream; split
  · rfl
  · simp only [notify, notifyWhere]; rw [when_keeps _ (·.shelf)] <;> [rw [when_keeps _ (·.shelf)] <;> rfl; rfl]
theorem dropStream_mem (i : Nat) : (dropStream i s).mem = s.mem := by
  unfold dropStream; split
  · rfl
  · simp only [notify, notifyWhere]; rw [when_keeps _ (·.mem)] <;> [rw [when_keeps _ (·.mem)] <;> rfl; rfl]
theorem dropStream_txs (i : Nat) : (dropStream i s).txs = s.txs := by
  unfold dropStream; split
  · rfl
  · simp only [notify, notifyWhere]; rw [when_keeps _ (·.txs)] <;> [rw [when_keeps _ (·.txs)] <;> rfl; rfl]
theorem dropStream_txNext (i : Nat) : (dropStream i s).txNext = s.txNext := by
  unfold dropStream; split
  · rfl
  · simp only [notify, notifyWhere]; rw [when_keeps _ (·.txNext)] <;> [rw [when_keeps _ (·.txNext)] <;> rfl; rfl]
theorem dropStream_works (i : Nat) : (dropStream i s).works = s.works := by
  unfold dropStream; split
  · rfl
  · simp only [notify, notifyWhere]; rw [when_keeps _ (·.works)] <;> [rw [when_keeps _ (·.works)] <;> rfl; rfl]
theorem dropStream_workNext (i : Nat) : (dropStream i s).workNext = s.workNext := by
  unfold dropStream; split
  · rfl
  · simp only [notify, notifyWhere]; rw [when_keeps _ (·.workNext)] <;> [rw [when_keeps _ (·.workNext)] <;> rfl; rfl]
theorem dropStream_chains (i : Nat) : (dropStream i s).chains = s.chains := by
  unfold dropStream; split
  · rfl
  · simp only [notify, notifyWhere]; rw [when_keeps _ (·.chains)] <;> [rw [when_keeps _ (·.chains)] <;> rfl; rfl]
theorem dropStream_faults (i : Nat) : (dropStream i s).faults = s.faults := by
  unfold dropStream; split
  · rfl
  · simp only [notify, notifyWhere]; rw [when_keeps _ (·.faults)] <;> [rw [when_keeps _ (·.faults)] <;> rfl; rfl]
theorem dropStream_keep (i : Nat) : (dropStream i s).keep = s.keep := by
  unfold dropStream; split
  · rfl
  · simp only [notify, notifyWhere]; rw [when_keeps _ (·.keep)] <;> [rw [when_keeps _ (·.keep)] <;> rfl; rfl]
theorem dropStream_events (i : Nat) : (dropStream i s).events = s.events := by
  unfold dropStream; split
  · rfl
  · simp only [notify, notifyWhere]; rw [when_keeps _ (·.events)] <;> [rw [when_keeps _ (·.events)] <;> rfl; rfl]
theorem dropStream_mgmt (i : Nat) : (dropStream i s).mgmt = s.mgmt := by
  unfold dropStream; split
  · rfl
  · simp only [notify, notifyWhere]; rw [when_keeps _ (·.mgmt)] <;> [rw [when_keeps _ (·.mgmt)] <;> rfl; rfl]

@[simp] theorem finishDetaches_pending : (finishDetaches s).pending = s.pending := forEach_keeps (·.pending) _ (fun x s => dropStream_pending s x) _ _
@[simp] theorem finishDetaches_chip : (finishDetaches s).chip = s.chip := forEach_keeps (·.chip) _ (fun x s => dropStream_chip s x) _ _
@[simp] theorem finishDetaches_power : (finishDetaches s).power = s.power := forEach_keeps (·.power) _ (fun x s => dropStream_power s x) _ _
@[simp] theorem finishDetaches_tb : (finishDetaches s).tb = s.tb := forEach_keeps (·.tb) _ (fun x s => dropStream_tb s x) _ _
@[simp] theorem finishDetaches_control : (finishDetaches s).control = s.control := forEach_keeps (·.control) _ (fun x s => dropStream_control s x) _ _
@[simp] theorem finishDetaches_ctxs : (finishDetaches s).ctxs = s.ctxs := forEach_keeps (·.ctxs) _ (fun x s => dropStream_ctxs s x) _ _
@[simp] theorem finishDetaches_fetchOrder : (finishDetaches s).fetchOrder = s.fetchOrder := forEach_keeps (·.fetchOrder) _ (fun x s => dropStream_fetchOrder s x) _ _
@[simp] theorem finishDetaches_fetchRr : (finishDetaches s).fetchRr = s.fetchRr := forEach_keeps (·.fetchRr) _ (fun x s => dropStream_fetchRr s x) _ _
@[simp] theorem finishDetaches_bindings : (finishDetaches s).bindings = s.bindings := forEach_keeps (·.bindings) _ (fun x s => dropStream_bindings s x) _ _
@[simp] theorem finishDetaches_press : (finishDetaches s).press = s.press := forEach_keeps (·.press) _ (fun x s => dropStream_press s x) _ _
@[simp] theorem finishDetaches_pkt : (finishDetaches s).pkt = s.pkt := forEach_keeps (·.pkt) _ (fun x s => dropStream_pkt s x) _ _
@[simp] theorem finishDetaches_draw : (finishDetaches s).draw = s.draw := forEach_keeps (·.draw) _ (fun x s => dropStream_draw s x) _ _
@[simp] theorem finishDetaches_pools : (finishDetaches s).pools = s.pools := forEach_keeps (·.pools) _ (fun x s => dropStream_pools s x) _ _
@[simp] theorem finishDetaches_shelf : (finishDetaches s).shelf = s.shelf := forEach_keeps (·.shelf) _ (fun x s => dropStream_shelf s x) _ _
@[simp] theorem finishDetaches_mem : (finishDetaches s).mem = s.mem := forEach_keeps (·.mem) _ (fun x s => dropStream_mem s x) _ _
@[simp] theorem finishDetaches_txs : (finishDetaches s).txs = s.txs := forEach_keeps (·.txs) _ (fun x s => dropStream_txs s x) _ _
@[simp] theorem finishDetaches_txNext : (finishDetaches s).txNext = s.txNext := forEach_keeps (·.txNext) _ (fun x s => dropStream_txNext s x) _ _
@[simp] theorem finishDetaches_works : (finishDetaches s).works = s.works := forEach_keeps (·.works) _ (fun x s => dropStream_works s x) _ _
@[simp] theorem finishDetaches_workNext : (finishDetaches s).workNext = s.workNext := forEach_keeps (·.workNext) _ (fun x s => dropStream_workNext s x) _ _
@[simp] theorem finishDetaches_chains : (finishDetaches s).chains = s.chains := forEach_keeps (·.chains) _ (fun x s => dropStream_chains s x) _ _
@[simp] theorem finishDetaches_faults : (finishDetaches s).faults = s.faults := forEach_keeps (·.faults) _ (fun x s => dropStream_faults s x) _ _
@[simp] theorem finishDetaches_keep : (finishDetaches s).keep = s.keep := forEach_keeps (·.keep) _ (fun x s => dropStream_keep s x) _ _
@[simp] theorem finishDetaches_events : (finishDetaches s).events = s.events := forEach_keeps (·.events) _ (fun x s => dropStream_events s x) _ _
@[simp] theorem finishDetaches_mgmt : (finishDetaches s).mgmt = s.mgmt := forEach_keeps (·.mgmt) _ (fun x s => dropStream_mgmt s x) _ _

@[simp] theorem finishPktStops_pending : (finishPktStops s).pending = s.pending := forEach_keeps (·.pending) _ (fun x s => by split <;> rfl) _ _
@[simp] theorem finishPktStops_chip : (finishPktStops s).chip = s.chip := forEach_keeps (·.chip) _ (fun x s => by split <;> rfl) _ _
@[simp] theorem finishPktStops_power : (finishPktStops s).power = s.power := forEach_keeps (·.power) _ (fun x s => by split <;> rfl) _ _
@[simp] theorem finishPktStops_tb : (finishPktStops s).tb = s.tb := forEach_keeps (·.tb) _ (fun x s => by split <;> rfl) _ _
@[simp] theorem finishPktStops_control : (finishPktStops s).control = s.control := forEach_keeps (·.control) _ (fun x s => by split <;> rfl) _ _
@[simp] theorem finishPktStops_boxes : (finishPktStops s).boxes = s.boxes := forEach_keeps (·.boxes) _ (fun x s => by split <;> rfl) _ _
@[simp] theorem finishPktStops_ctxs : (finishPktStops s).ctxs = s.ctxs := forEach_keeps (·.ctxs) _ (fun x s => by split <;> rfl) _ _
@[simp] theorem finishPktStops_rings : (finishPktStops s).rings = s.rings := forEach_keeps (·.rings) _ (fun x s => by split <;> rfl) _ _
@[simp] theorem finishPktStops_fetchOrder : (finishPktStops s).fetchOrder = s.fetchOrder := forEach_keeps (·.fetchOrder) _ (fun x s => by split <;> rfl) _ _
@[simp] theorem finishPktStops_fetchRr : (finishPktStops s).fetchRr = s.fetchRr := forEach_keeps (·.fetchRr) _ (fun x s => by split <;> rfl) _ _
@[simp] theorem finishPktStops_bindings : (finishPktStops s).bindings = s.bindings := forEach_keeps (·.bindings) _ (fun x s => by split <;> rfl) _ _
@[simp] theorem finishPktStops_press : (finishPktStops s).press = s.press := forEach_keeps (·.press) _ (fun x s => by split <;> rfl) _ _
@[simp] theorem finishPktStops_ports : (finishPktStops s).ports = s.ports := forEach_keeps (·.ports) _ (fun x s => by split <;> rfl) _ _
@[simp] theorem finishPktStops_streams : (finishPktStops s).streams = s.streams := forEach_keeps (·.streams) _ (fun x s => by split <;> rfl) _ _
@[simp] theorem finishPktStops_groups : (finishPktStops s).groups = s.groups := forEach_keeps (·.groups) _ (fun x s => by split <;> rfl) _ _
@[simp] theorem finishPktStops_codec : (finishPktStops s).codec = s.codec := forEach_keeps (·.codec) _ (fun x s => by split <;> rfl) _ _
@[simp] theorem finishPktStops_draw : (finishPktStops s).draw = s.draw := forEach_keeps (·.draw) _ (fun x s => by split <;> rfl) _ _
@[simp] theorem finishPktStops_pools : (finishPktStops s).pools = s.pools := forEach_keeps (·.pools) _ (fun x s => by split <;> rfl) _ _
@[simp] theorem finishPktStops_shelf : (finishPktStops s).shelf = s.shelf := forEach_keeps (·.shelf) _ (fun x s => by split <;> rfl) _ _
@[simp] theorem finishPktStops_mem : (finishPktStops s).mem = s.mem := forEach_keeps (·.mem) _ (fun x s => by split <;> rfl) _ _
@[simp] theorem finishPktStops_txs : (finishPktStops s).txs = s.txs := forEach_keeps (·.txs) _ (fun x s => by split <;> rfl) _ _
@[simp] theorem finishPktStops_txNext : (finishPktStops s).txNext = s.txNext := forEach_keeps (·.txNext) _ (fun x s => by split <;> rfl) _ _
@[simp] theorem finishPktStops_works : (finishPktStops s).works = s.works := forEach_keeps (·.works) _ (fun x s => by split <;> rfl) _ _
@[simp] theorem finishPktStops_workNext : (finishPktStops s).workNext = s.workNext := forEach_keeps (·.workNext) _ (fun x s => by split <;> rfl) _ _
@[simp] theorem finishPktStops_chains : (finishPktStops s).chains = s.chains := forEach_keeps (·.chains) _ (fun x s => by split <;> rfl) _ _
@[simp] theorem finishPktStops_faults : (finishPktStops s).faults = s.faults := forEach_keeps (·.faults) _ (fun x s => by split <;> rfl) _ _
@[simp] theorem finishPktStops_keep : (finishPktStops s).keep = s.keep := forEach_keeps (·.keep) _ (fun x s => by split <;> rfl) _ _
@[simp] theorem finishPktStops_events : (finishPktStops s).events = s.events := forEach_keeps (·.events) _ (fun x s => by split <;> rfl) _ _
@[simp] theorem finishPktStops_mgmt : (finishPktStops s).mgmt = s.mgmt := forEach_keeps (·.mgmt) _ (fun x s => by split <;> rfl) _ _

@[simp] theorem noteSafeChange_pending : (noteSafeChange old s).pending = s.pending := by unfold noteSafeChange; split <;> rfl
@[simp] theorem noteSafeChange_chip : (noteSafeChange old s).chip = s.chip := by unfold noteSafeChange; split <;> rfl
@[simp] theorem noteSafeChange_power : (noteSafeChange old s).power = s.power := by unfold noteSafeChange; split <;> rfl
@[simp] theorem noteSafeChange_tb : (noteSafeChange old s).tb = s.tb := by unfold noteSafeChange; split <;> rfl
@[simp] theorem noteSafeChange_control : (noteSafeChange old s).control = s.control := by unfold noteSafeChange; split <;> rfl
@[simp] theorem noteSafeChange_boxes : (noteSafeChange old s).boxes = s.boxes := by unfold noteSafeChange; split <;> rfl
@[simp] theorem noteSafeChange_ctxs : (noteSafeChange old s).ctxs = s.ctxs := by unfold noteSafeChange; split <;> rfl
@[simp] theorem noteSafeChange_rings : (noteSafeChange old s).rings = s.rings := by unfold noteSafeChange; split <;> rfl
@[simp] theorem noteSafeChange_fetchOrder : (noteSafeChange old s).fetchOrder = s.fetchOrder := by unfold noteSafeChange; split <;> rfl
@[simp] theorem noteSafeChange_fetchRr : (noteSafeChange old s).fetchRr = s.fetchRr := by unfold noteSafeChange; split <;> rfl
@[simp] theorem noteSafeChange_bindings : (noteSafeChange old s).bindings = s.bindings := by unfold noteSafeChange; split <;> rfl
@[simp] theorem noteSafeChange_press : (noteSafeChange old s).press = s.press := by unfold noteSafeChange; split <;> rfl
@[simp] theorem noteSafeChange_ports : (noteSafeChange old s).ports = s.ports := by unfold noteSafeChange; split <;> rfl
@[simp] theorem noteSafeChange_streams : (noteSafeChange old s).streams = s.streams := by unfold noteSafeChange; split <;> rfl
@[simp] theorem noteSafeChange_groups : (noteSafeChange old s).groups = s.groups := by unfold noteSafeChange; split <;> rfl
@[simp] theorem noteSafeChange_pkt : (noteSafeChange old s).pkt = s.pkt := by unfold noteSafeChange; split <;> rfl
@[simp] theorem noteSafeChange_codec : (noteSafeChange old s).codec = s.codec := by unfold noteSafeChange; split <;> rfl
@[simp] theorem noteSafeChange_draw : (noteSafeChange old s).draw = s.draw := by unfold noteSafeChange; split <;> rfl
@[simp] theorem noteSafeChange_pools : (noteSafeChange old s).pools = s.pools := by unfold noteSafeChange; split <;> rfl
@[simp] theorem noteSafeChange_shelf : (noteSafeChange old s).shelf = s.shelf := by unfold noteSafeChange; split <;> rfl
@[simp] theorem noteSafeChange_mem : (noteSafeChange old s).mem = s.mem := by unfold noteSafeChange; split <;> rfl
@[simp] theorem noteSafeChange_txs : (noteSafeChange old s).txs = s.txs := by unfold noteSafeChange; split <;> rfl
@[simp] theorem noteSafeChange_txNext : (noteSafeChange old s).txNext = s.txNext := by unfold noteSafeChange; split <;> rfl
@[simp] theorem noteSafeChange_works : (noteSafeChange old s).works = s.works := by unfold noteSafeChange; split <;> rfl
@[simp] theorem noteSafeChange_workNext : (noteSafeChange old s).workNext = s.workNext := by unfold noteSafeChange; split <;> rfl
@[simp] theorem noteSafeChange_chains : (noteSafeChange old s).chains = s.chains := by unfold noteSafeChange; split <;> rfl
@[simp] theorem noteSafeChange_faults : (noteSafeChange old s).faults = s.faults := by unfold noteSafeChange; split <;> rfl
@[simp] theorem noteSafeChange_keep : (noteSafeChange old s).keep = s.keep := by unfold noteSafeChange; split <;> rfl
@[simp] theorem noteSafeChange_events : (noteSafeChange old s).events = s.events := by unfold noteSafeChange; split <;> rfl

/-! ### The whole of it -/

@[simp] theorem settle_pending : (settle old s).pending = old.pending := rfl
@[simp] theorem settle_chip : (settle old s).chip = s.chip := by simp [settle]
@[simp] theorem settle_tb : (settle old s).tb = s.tb := by simp [settle]
@[simp] theorem settle_control : (settle old s).control = s.control := by simp [settle]
@[simp] theorem settle_ctxs : (settle old s).ctxs = s.ctxs := by simp [settle]
@[simp] theorem settle_fetchOrder : (settle old s).fetchOrder = s.fetchOrder := by simp [settle]
@[simp] theorem settle_fetchRr : (settle old s).fetchRr = s.fetchRr := by simp [settle]
@[simp] theorem settle_bindings : (settle old s).bindings = s.bindings := by simp [settle]
@[simp] theorem settle_draw : (settle old s).draw = s.draw := by simp [settle]
@[simp] theorem settle_pools : (settle old s).pools = s.pools := by simp [settle]
@[simp] theorem settle_shelf : (settle old s).shelf = s.shelf := by simp [settle]
@[simp] theorem settle_mem : (settle old s).mem = s.mem := by simp [settle]
@[simp] theorem settle_txs : (settle old s).txs = s.txs := by simp [settle]
@[simp] theorem settle_txNext : (settle old s).txNext = s.txNext := by simp [settle]
@[simp] theorem settle_works : (settle old s).works = s.works := by simp [settle]
@[simp] theorem settle_workNext : (settle old s).workNext = s.workNext := by simp [settle]
@[simp] theorem settle_chains : (settle old s).chains = s.chains := by simp [settle]
@[simp] theorem settle_keep : (settle old s).keep = s.keep := by simp [settle]
theorem stopPkt_keeps {β : Type} (g : PktIntake → β) (hg : ∀ p l, g { p with rings := l } = g p) (r : Nat) (s : State) :
    g (if (s.pring r).stopping && !pktBusy s r then modPring r (fun p => { p with run := false, stopping := false }) s else s).pkt =
      g s.pkt := by
  split
  · exact hg _ _
  · rfl

/-! ### Parts of faults that it leaves -/

@[simp] theorem finishSafe_faults_records : (finishSafe s).faults.records = s.faults.records := by unfold finishSafe; split <;> rfl
@[simp] theorem settle_faults_records : (settle old s).faults.records = s.faults.records := by simp [settle]
@[simp] theorem finishSafe_faults_log : (finishSafe s).faults.log = s.faults.log := by unfold finishSafe; split <;> rfl
@[simp] theorem settle_faults_log : (settle old s).faults.log = s.faults.log := by simp [settle]
@[simp] theorem finishSafe_faults_logOvr : (finishSafe s).faults.logOvr = s.faults.logOvr := by unfold finishSafe; split <;> rfl
@[simp] theorem settle_faults_logOvr : (settle old s).faults.logOvr = s.faults.logOvr := by simp [settle]
@[simp] theorem finishSafe_faults_logHi : (finishSafe s).faults.logHi = s.faults.logHi := by unfold finishSafe; split <;> rfl
@[simp] theorem settle_faults_logHi : (settle old s).faults.logHi = s.faults.logHi := by simp [settle]
@[simp] theorem finishSafe_faults_logTime : (finishSafe s).faults.logTime = s.faults.logTime := by unfold finishSafe; split <;> rfl
@[simp] theorem settle_faults_logTime : (settle old s).faults.logTime = s.faults.logTime := by simp [settle]
@[simp] theorem finishSafe_faults_first : (finishSafe s).faults.first = s.faults.first := by unfold finishSafe; split <;> rfl
@[simp] theorem settle_faults_first : (settle old s).faults.first = s.faults.first := by simp [settle]
@[simp] theorem finishSafe_faults_evtEn : (finishSafe s).faults.evtEn = s.faults.evtEn := by unfold finishSafe; split <;> rfl
@[simp] theorem settle_faults_evtEn : (settle old s).faults.evtEn = s.faults.evtEn := by simp [settle]
@[simp] theorem finishSafe_faults_pinLow : (finishSafe s).faults.pinLow = s.faults.pinLow := by unfold finishSafe; split <;> rfl
@[simp] theorem settle_faults_pinLow : (settle old s).faults.pinLow = s.faults.pinLow := by simp [settle]
@[simp] theorem finishSafe_faults_pinClass : (finishSafe s).faults.pinClass = s.faults.pinClass := by unfold finishSafe; split <;> rfl
@[simp] theorem settle_faults_pinClass : (settle old s).faults.pinClass = s.faults.pinClass := by simp [settle]
@[simp] theorem finishSafe_faults_pulse : (finishSafe s).faults.pulse = s.faults.pulse := by unfold finishSafe; split <;> rfl
@[simp] theorem settle_faults_pulse : (settle old s).faults.pulse = s.faults.pulse := by simp [settle]
@[simp] theorem finishSafe_faults_highHold : (finishSafe s).faults.highHold = s.faults.highHold := by unfold finishSafe; split <;> rfl
@[simp] theorem settle_faults_highHold : (settle old s).faults.highHold = s.faults.highHold := by simp [settle]
@[simp] theorem finishSafe_faults_pulseWaits : (finishSafe s).faults.pulseWaits = s.faults.pulseWaits := by unfold finishSafe; split <;> rfl
@[simp] theorem settle_faults_pulseWaits : (settle old s).faults.pulseWaits = s.faults.pulseWaits := by simp [settle]
@[simp] theorem finishSafe_faults_padSlow : (finishSafe s).faults.padSlow = s.faults.padSlow := by unfold finishSafe; split <;> rfl
@[simp] theorem settle_faults_padSlow : (settle old s).faults.padSlow = s.faults.padSlow := by simp [settle]
@[simp] theorem finishSafe_faults_holdMin : (finishSafe s).faults.holdMin = s.faults.holdMin := by unfold finishSafe; split <;> rfl
@[simp] theorem settle_faults_holdMin : (settle old s).faults.holdMin = s.faults.holdMin := by simp [settle]
@[simp] theorem finishSafe_faults_pulseMin : (finishSafe s).faults.pulseMin = s.faults.pulseMin := by unfold finishSafe; split <;> rfl
@[simp] theorem settle_faults_pulseMin : (settle old s).faults.pulseMin = s.faults.pulseMin := by simp [settle]
@[simp] theorem finishSafe_faults_safeCause : (finishSafe s).faults.safeCause = s.faults.safeCause := by unfold finishSafe; split <;> rfl
@[simp] theorem settle_faults_safeCause : (settle old s).faults.safeCause = s.faults.safeCause := by simp [settle]
@[simp] theorem finishSafe_faults_retired : (finishSafe s).faults.retired = s.faults.retired := by unfold finishSafe; split <;> rfl
@[simp] theorem settle_faults_retired : (settle old s).faults.retired = s.faults.retired := by simp [settle]
@[simp] theorem finishSafe_faults_unitsRetired : (finishSafe s).faults.unitsRetired = s.faults.unitsRetired := by unfold finishSafe; split <;> rfl
@[simp] theorem settle_faults_unitsRetired : (settle old s).faults.unitsRetired = s.faults.unitsRetired := by simp [settle]
@[simp] theorem finishSafe_faults_mismatchWindow : (finishSafe s).faults.mismatchWindow = s.faults.mismatchWindow := by unfold finishSafe; split <;> rfl
@[simp] theorem settle_faults_mismatchWindow : (settle old s).faults.mismatchWindow = s.faults.mismatchWindow := by simp [settle]
@[simp] theorem finishSafe_faults_mismatchLimit : (finishSafe s).faults.mismatchLimit = s.faults.mismatchLimit := by unfold finishSafe; split <;> rfl
@[simp] theorem settle_faults_mismatchLimit : (settle old s).faults.mismatchLimit = s.faults.mismatchLimit := by simp [settle]
@[simp] theorem finishSafe_faults_mismatches : (finishSafe s).faults.mismatches = s.faults.mismatches := by unfold finishSafe; split <;> rfl
@[simp] theorem settle_faults_mismatches : (settle old s).faults.mismatches = s.faults.mismatches := by simp [settle]
@[simp] theorem finishSafe_faults_testEnable : (finishSafe s).faults.testEnable = s.faults.testEnable := by unfold finishSafe; split <;> rfl
@[simp] theorem settle_faults_testEnable : (settle old s).faults.testEnable = s.faults.testEnable := by simp [settle]
@[simp] theorem finishSafe_faults_testQuire : (finishSafe s).faults.testQuire = s.faults.testQuire := by unfold finishSafe; split <;> rfl
@[simp] theorem settle_faults_testQuire : (settle old s).faults.testQuire = s.faults.testQuire := by simp [settle]
@[simp] theorem finishSafe_faults_testState : (finishSafe s).faults.testState = s.faults.testState := by unfold finishSafe; split <;> rfl
@[simp] theorem settle_faults_testState : (settle old s).faults.testState = s.faults.testState := by simp [settle]
@[simp] theorem finishSafe_faults_testFails : (finishSafe s).faults.testFails = s.faults.testFails := by unfold finishSafe; split <;> rfl
@[simp] theorem settle_faults_testFails : (settle old s).faults.testFails = s.faults.testFails := by simp [settle]
@[simp] theorem finishSafe_faults_testWorst : (finishSafe s).faults.testWorst = s.faults.testWorst := by unfold finishSafe; split <;> rfl
@[simp] theorem settle_faults_testWorst : (settle old s).faults.testWorst = s.faults.testWorst := by simp [settle]
@[simp] theorem finishSafe_faults_testLast : (finishSafe s).faults.testLast = s.faults.testLast := by unfold finishSafe; split <;> rfl
@[simp] theorem settle_faults_testLast : (settle old s).faults.testLast = s.faults.testLast := by simp [settle]
@[simp] theorem finishSafe_faults_testBegan : (finishSafe s).faults.testBegan = s.faults.testBegan := by unfold finishSafe; split <;> rfl
@[simp] theorem settle_faults_testBegan : (settle old s).faults.testBegan = s.faults.testBegan := by simp [settle]
@[simp] theorem finishSafe_faults_testNextLo : (finishSafe s).faults.testNextLo = s.faults.testNextLo := by unfold finishSafe; split <;> rfl
@[simp] theorem settle_faults_testNextLo : (settle old s).faults.testNextLo = s.faults.testNextLo := by simp [settle]
@[simp] theorem finishSafe_faults_testNextHi : (finishSafe s).faults.testNextHi = s.faults.testNextHi := by unfold finishSafe; split <;> rfl
@[simp] theorem settle_faults_testNextHi : (settle old s).faults.testNextHi = s.faults.testNextHi := by simp [settle]
@[simp] theorem finishSafe_faults_testUpper : (finishSafe s).faults.testUpper = s.faults.testUpper := by unfold finishSafe; split <;> rfl
@[simp] theorem settle_faults_testUpper : (settle old s).faults.testUpper = s.faults.testUpper := by simp [settle]
@[simp] theorem finishSafe_faults_migrations : (finishSafe s).faults.migrations = s.faults.migrations := by unfold finishSafe; split <;> rfl
@[simp] theorem settle_faults_migrations : (settle old s).faults.migrations = s.faults.migrations := by simp [settle]
@[simp] theorem finishSafe_faults_fi : (finishSafe s).faults.fi = s.faults.fi := by unfold finishSafe; split <;> rfl
@[simp] theorem settle_faults_fi : (settle old s).faults.fi = s.faults.fi := by simp [settle]
@[simp] theorem finishSafe_faults_nReplays : (finishSafe s).faults.nReplays = s.faults.nReplays := by unfold finishSafe; split <;> rfl
@[simp] theorem settle_faults_nReplays : (settle old s).faults.nReplays = s.faults.nReplays := by simp [settle]
@[simp] theorem finishSafe_faults_nContained : (finishSafe s).faults.nContained = s.faults.nContained := by unfold finishSafe; split <;> rfl
@[simp] theorem settle_faults_nContained : (settle old s).faults.nContained = s.faults.nContained := by simp [settle]
@[simp] theorem finishSafe_faults_nRetired : (finishSafe s).faults.nRetired = s.faults.nRetired := by unfold finishSafe; split <;> rfl
@[simp] theorem settle_faults_nRetired : (settle old s).faults.nRetired = s.faults.nRetired := by simp [settle]
@[simp] theorem finishSafe_faults_nShed : (finishSafe s).faults.nShed = s.faults.nShed := by unfold finishSafe; split <;> rfl
@[simp] theorem settle_faults_nShed : (settle old s).faults.nShed = s.faults.nShed := by simp [settle]
@[simp] theorem finishSafe_faults_nBubble : (finishSafe s).faults.nBubble = s.faults.nBubble := by unfold finishSafe; split <;> rfl
@[simp] theorem settle_faults_nBubble : (settle old s).faults.nBubble = s.faults.nBubble := by simp [settle]
@[simp] theorem finishSafe_faults_nRestarts : (finishSafe s).faults.nRestarts = s.faults.nRestarts := by unfold finishSafe; split <;> rfl
@[simp] theorem settle_faults_nRestarts : (settle old s).faults.nRestarts = s.faults.nRestarts := by simp [settle]

/-! ### Parts of power that it leaves -/

@[simp] theorem finishSafe_power_state : (finishSafe s).power.state = s.power.state := by unfold finishSafe; split <;> rfl
@[simp] theorem settle_power_state : (settle old s).power.state = s.power.state := by simp [settle]
@[simp] theorem finishSafe_power_blocked : (finishSafe s).power.blocked = s.power.blocked := by unfold finishSafe; split <;> rfl
@[simp] theorem settle_power_blocked : (settle old s).power.blocked = s.power.blocked := by simp [settle]
@[simp] theorem finishSafe_power_target : (finishSafe s).power.target = s.power.target := by unfold finishSafe; split <;> rfl
@[simp] theorem settle_power_target : (settle old s).power.target = s.power.target := by simp [settle]
@[simp] theorem finishSafe_power_targetStored : (finishSafe s).power.targetStored = s.power.targetStored := by unfold finishSafe; split <;> rfl
@[simp] theorem settle_power_targetStored : (settle old s).power.targetStored = s.power.targetStored := by simp [settle]
@[simp] theorem finishSafe_power_slowest : (finishSafe s).power.slowest = s.power.slowest := by unfold finishSafe; split <;> rfl
@[simp] theorem settle_power_slowest : (settle old s).power.slowest = s.power.slowest := by simp [settle]
@[simp] theorem finishSafe_power_fastest : (finishSafe s).power.fastest = s.power.fastest := by unfold finishSafe; split <;> rfl
@[simp] theorem settle_power_fastest : (settle old s).power.fastest = s.power.fastest := by simp [settle]
@[simp] theorem finishSafe_power_oppCurrent : (finishSafe s).power.oppCurrent = s.power.oppCurrent := by unfold finishSafe; split <;> rfl
@[simp] theorem settle_power_oppCurrent : (settle old s).power.oppCurrent = s.power.oppCurrent := by simp [settle]
@[simp] theorem finishSafe_power_oppBookAt : (finishSafe s).power.oppBookAt = s.power.oppBookAt := by unfold finishSafe; split <;> rfl
@[simp] theorem settle_power_oppBookAt : (settle old s).power.oppBookAt = s.power.oppBookAt := by simp [settle]
@[simp] theorem finishSafe_power_aclk : (finishSafe s).power.aclk = s.power.aclk := by unfold finishSafe; split <;> rfl
@[simp] theorem settle_power_aclk : (settle old s).power.aclk = s.power.aclk := by simp [settle]
@[simp] theorem finishSafe_power_mclk : (finishSafe s).power.mclk = s.power.mclk := by unfold finishSafe; split <;> rfl
@[simp] theorem settle_power_mclk : (settle old s).power.mclk = s.power.mclk := by simp [settle]
@[simp] theorem finishSafe_power_cclk : (finishSafe s).power.cclk = s.power.cclk := by unfold finishSafe; split <;> rfl
@[simp] theorem settle_power_cclk : (settle old s).power.cclk = s.power.cclk := by simp [settle]
@[simp] theorem finishSafe_power_array : (finishSafe s).power.array = s.power.array := by unfold finishSafe; split <;> rfl
@[simp] theorem settle_power_array : (settle old s).power.array = s.power.array := by simp [settle]
@[simp] theorem finishSafe_power_ctrl : (finishSafe s).power.ctrl = s.power.ctrl := by unfold finishSafe; split <;> rfl
@[simp] theorem settle_power_ctrl : (settle old s).power.ctrl = s.power.ctrl := by simp [settle]
@[simp] theorem finishSafe_power_mram : (finishSafe s).power.mram = s.power.mram := by unfold finishSafe; split <;> rfl
@[simp] theorem settle_power_mram : (settle old s).power.mram = s.power.mram := by simp [settle]
@[simp] theorem finishSafe_power_keep : (finishSafe s).power.keep = s.power.keep := by unfold finishSafe; split <;> rfl
@[simp] theorem settle_power_keep : (settle old s).power.keep = s.power.keep := by simp [settle]
@[simp] theorem finishSafe_power_droopSkips : (finishSafe s).power.droopSkips = s.power.droopSkips := by unfold finishSafe; split <;> rfl
@[simp] theorem settle_power_droopSkips : (settle old s).power.droopSkips = s.power.droopSkips := by simp [settle]
@[simp] theorem finishSafe_power_droopMark : (finishSafe s).power.droopMark = s.power.droopMark := by unfold finishSafe; split <;> rfl
@[simp] theorem settle_power_droopMark : (settle old s).power.droopMark = s.power.droopMark := by simp [settle]
@[simp] theorem finishSafe_power_slotDroopNs : (finishSafe s).power.slotDroopNs = s.power.slotDroopNs := by unfold finishSafe; split <;> rfl
@[simp] theorem settle_power_slotDroopNs : (settle old s).power.slotDroopNs = s.power.slotDroopNs := by simp [settle]
@[simp] theorem finishSafe_power_slotDroopRaised : (finishSafe s).power.slotDroopRaised = s.power.slotDroopRaised := by unfold finishSafe; split <;> rfl
@[simp] theorem settle_power_slotDroopRaised : (settle old s).power.slotDroopRaised = s.power.slotDroopRaised := by simp [settle]
@[simp] theorem finishSafe_power_stage : (finishSafe s).power.stage = s.power.stage := by unfold finishSafe; split <;> rfl
@[simp] theorem settle_power_stage : (settle old s).power.stage = s.power.stage := by simp [settle]
@[simp] theorem finishSafe_power_tjMax : (finishSafe s).power.tjMax = s.power.tjMax := by unfold finishSafe; split <;> rfl
@[simp] theorem settle_power_tjMax : (settle old s).power.tjMax = s.power.tjMax := by simp [settle]
@[simp] theorem finishSafe_power_thermKept : (finishSafe s).power.thermKept = s.power.thermKept := by unfold finishSafe; split <;> rfl
@[simp] theorem settle_power_thermKept : (settle old s).power.thermKept = s.power.thermKept := by simp [settle]
@[simp] theorem finishSafe_power_ovrStamp : (finishSafe s).power.ovrStamp = s.power.ovrStamp := by unfold finishSafe; split <;> rfl
@[simp] theorem settle_power_ovrStamp : (settle old s).power.ovrStamp = s.power.ovrStamp := by simp [settle]
@[simp] theorem finishSafe_power_ovrRx : (finishSafe s).power.ovrRx = s.power.ovrRx := by unfold finishSafe; split <;> rfl
@[simp] theorem settle_power_ovrRx : (settle old s).power.ovrRx = s.power.ovrRx := by simp [settle]
@[simp] theorem finishSafe_power_ovrTx : (finishSafe s).power.ovrTx = s.power.ovrTx := by unfold finishSafe; split <;> rfl
@[simp] theorem settle_power_ovrTx : (settle old s).power.ovrTx = s.power.ovrTx := by simp [settle]
@[simp] theorem finishSafe_power_wakeTimer : (finishSafe s).power.wakeTimer = s.power.wakeTimer := by unfold finishSafe; split <;> rfl
@[simp] theorem settle_power_wakeTimer : (settle old s).power.wakeTimer = s.power.wakeTimer := by simp [settle]
@[simp] theorem finishSafe_power_wakeCause : (finishSafe s).power.wakeCause = s.power.wakeCause := by unfold finishSafe; split <;> rfl
@[simp] theorem settle_power_wakeCause : (settle old s).power.wakeCause = s.power.wakeCause := by simp [settle]
@[simp] theorem finishSafe_power_wakePending : (finishSafe s).power.wakePending = s.power.wakePending := by unfold finishSafe; split <;> rfl
@[simp] theorem settle_power_wakePending : (settle old s).power.wakePending = s.power.wakePending := by simp [settle]
@[simp] theorem finishSafe_power_wake : (finishSafe s).power.wake = s.power.wake := by unfold finishSafe; split <;> rfl
@[simp] theorem settle_power_wake : (settle old s).power.wake = s.power.wake := by simp [settle]

/-! ### Parts of codec that it leaves -/

@[simp] theorem finishSafe_codec_evt : (finishSafe s).codec.evt = s.codec.evt := by unfold finishSafe; split <;> rfl
@[simp] theorem finishDetaches_codec_evt : (finishDetaches s).codec.evt = s.codec.evt :=
  forEach_keeps (·.codec.evt) _ (fun i s => by
    unfold dropStream; split
    · rfl
    · simp only [notify, notifyWhere]; rw [when_keeps _ (·.codec.evt)] <;> [rw [when_keeps _ (·.codec.evt)] <;> rfl; rfl]) _ _
@[simp] theorem settle_codec_evt : (settle old s).codec.evt = s.codec.evt := by simp [settle]
@[simp] theorem finishSafe_codec_evtEn : (finishSafe s).codec.evtEn = s.codec.evtEn := by unfold finishSafe; split <;> rfl
@[simp] theorem finishDetaches_codec_evtEn : (finishDetaches s).codec.evtEn = s.codec.evtEn :=
  forEach_keeps (·.codec.evtEn) _ (fun i s => by
    unfold dropStream; split
    · rfl
    · simp only [notify, notifyWhere]; rw [when_keeps _ (·.codec.evtEn)] <;> [rw [when_keeps _ (·.codec.evtEn)] <;> rfl; rfl]) _ _
@[simp] theorem settle_codec_evtEn : (settle old s).codec.evtEn = s.codec.evtEn := by simp [settle]
@[simp] theorem finishSafe_codec_decErr : (finishSafe s).codec.decErr = s.codec.decErr := by unfold finishSafe; split <;> rfl
@[simp] theorem finishDetaches_codec_decErr : (finishDetaches s).codec.decErr = s.codec.decErr :=
  forEach_keeps (·.codec.decErr) _ (fun i s => by
    unfold dropStream; split
    · rfl
    · simp only [notify, notifyWhere]; rw [when_keeps _ (·.codec.decErr)] <;> [rw [when_keeps _ (·.codec.decErr)] <;> rfl; rfl]) _ _
@[simp] theorem settle_codec_decErr : (settle old s).codec.decErr = s.codec.decErr := by simp [settle]
@[simp] theorem finishSafe_codec_conceal : (finishSafe s).codec.conceal = s.codec.conceal := by unfold finishSafe; split <;> rfl
@[simp] theorem finishDetaches_codec_conceal : (finishDetaches s).codec.conceal = s.codec.conceal :=
  forEach_keeps (·.codec.conceal) _ (fun i s => by
    unfold dropStream; split
    · rfl
    · simp only [notify, notifyWhere]; rw [when_keeps _ (·.codec.conceal)] <;> [rw [when_keeps _ (·.codec.conceal)] <;> rfl; rfl]) _ _
@[simp] theorem settle_codec_conceal : (settle old s).codec.conceal = s.codec.conceal := by simp [settle]
@[simp] theorem finishSafe_codec_fallback : (finishSafe s).codec.fallback = s.codec.fallback := by unfold finishSafe; split <;> rfl
@[simp] theorem finishDetaches_codec_fallback : (finishDetaches s).codec.fallback = s.codec.fallback :=
  forEach_keeps (·.codec.fallback) _ (fun i s => by
    unfold dropStream; split
    · rfl
    · simp only [notify, notifyWhere]; rw [when_keeps _ (·.codec.fallback)] <;> [rw [when_keeps _ (·.codec.fallback)] <;> rfl; rfl]) _ _
@[simp] theorem settle_codec_fallback : (settle old s).codec.fallback = s.codec.fallback := by simp [settle]
@[simp] theorem finishSafe_codec_suspends : (finishSafe s).codec.suspends = s.codec.suspends := by unfold finishSafe; split <;> rfl
@[simp] theorem finishDetaches_codec_suspends : (finishDetaches s).codec.suspends = s.codec.suspends :=
  forEach_keeps (·.codec.suspends) _ (fun i s => by
    unfold dropStream; split
    · rfl
    · simp only [notify, notifyWhere]; rw [when_keeps _ (·.codec.suspends)] <;> [rw [when_keeps _ (·.codec.suspends)] <;> rfl; rfl]) _ _
@[simp] theorem settle_codec_suspends : (settle old s).codec.suspends = s.codec.suspends := by simp [settle]

/-! ### Parts of press that it leaves -/

@[simp] theorem finishSafe_press_spares : (finishSafe s).press.spares = s.press.spares := by unfold finishSafe; split <;> rfl
@[simp] theorem settle_press_spares : (settle old s).press.spares = s.press.spares := by simp [settle]
@[simp] theorem finishSafe_press_spareSet : (finishSafe s).press.spareSet = s.press.spareSet := by unfold finishSafe; split <;> rfl
@[simp] theorem settle_press_spareSet : (settle old s).press.spareSet = s.press.spareSet := by simp [settle]
@[simp] theorem finishSafe_press_fwMissed : (finishSafe s).press.fwMissed = s.press.fwMissed := by unfold finishSafe; split <;> rfl
@[simp] theorem settle_press_fwMissed : (settle old s).press.fwMissed = s.press.fwMissed := by simp [settle]
@[simp] theorem finishSafe_press_sync : (finishSafe s).press.sync = s.press.sync := by unfold finishSafe; split <;> rfl
@[simp] theorem settle_press_sync : (settle old s).press.sync = s.press.sync := by simp [settle]
@[simp] theorem finishSafe_press_period : (finishSafe s).press.period = s.press.period := by unfold finishSafe; split <;> rfl
@[simp] theorem settle_press_period : (settle old s).press.period = s.press.period := by simp [settle]
@[simp] theorem finishSafe_press_periodCnt : (finishSafe s).press.periodCnt = s.press.periodCnt := by unfold finishSafe; split <;> rfl
@[simp] theorem settle_press_periodCnt : (settle old s).press.periodCnt = s.press.periodCnt := by simp [settle]
@[simp] theorem finishSafe_press_level : (finishSafe s).press.level = s.press.level := by unfold finishSafe; split <;> rfl
@[simp] theorem settle_press_level : (settle old s).press.level = s.press.level := by simp [settle]
@[simp] theorem finishSafe_press_shedViews : (finishSafe s).press.shedViews = s.press.shedViews := by unfold finishSafe; split <;> rfl
@[simp] theorem settle_press_shedViews : (settle old s).press.shedViews = s.press.shedViews := by simp [settle]
@[simp] theorem finishSafe_press_trigBandwidth : (finishSafe s).press.trigBandwidth = s.press.trigBandwidth := by unfold finishSafe; split <;> rfl
@[simp] theorem settle_press_trigBandwidth : (settle old s).press.trigBandwidth = s.press.trigBandwidth := by simp [settle]
@[simp] theorem finishSafe_press_trigCapacity : (finishSafe s).press.trigCapacity = s.press.trigCapacity := by unfold finishSafe; split <;> rfl
@[simp] theorem settle_press_trigCapacity : (settle old s).press.trigCapacity = s.press.trigCapacity := by simp [settle]
@[simp] theorem finishSafe_press_trigThermal : (finishSafe s).press.trigThermal = s.press.trigThermal := by unfold finishSafe; split <;> rfl
@[simp] theorem settle_press_trigThermal : (settle old s).press.trigThermal = s.press.trigThermal := by simp [settle]
@[simp] theorem finishSafe_press_thermalSteps : (finishSafe s).press.thermalSteps = s.press.thermalSteps := by unfold finishSafe; split <;> rfl
@[simp] theorem settle_press_thermalSteps : (settle old s).press.thermalSteps = s.press.thermalSteps := by simp [settle]
@[simp] theorem finishSafe_press_capacitySteps : (finishSafe s).press.capacitySteps = s.press.capacitySteps := by unfold finishSafe; split <;> rfl
@[simp] theorem settle_press_capacitySteps : (settle old s).press.capacitySteps = s.press.capacitySteps := by simp [settle]
@[simp] theorem finishSafe_press_bandwidthSteps : (finishSafe s).press.bandwidthSteps = s.press.bandwidthSteps := by unfold finishSafe; split <;> rfl
@[simp] theorem settle_press_bandwidthSteps : (settle old s).press.bandwidthSteps = s.press.bandwidthSteps := by simp [settle]
@[simp] theorem finishSafe_press_lateWrite : (finishSafe s).press.lateWrite = s.press.lateWrite := by unfold finishSafe; split <;> rfl
@[simp] theorem settle_press_lateWrite : (settle old s).press.lateWrite = s.press.lateWrite := by simp [settle]
@[simp] theorem finishSafe_press_quietPeriods : (finishSafe s).press.quietPeriods = s.press.quietPeriods := by unfold finishSafe; split <;> rfl
@[simp] theorem settle_press_quietPeriods : (settle old s).press.quietPeriods = s.press.quietPeriods := by simp [settle]
@[simp] theorem finishSafe_press_evt : (finishSafe s).press.evt = s.press.evt := by unfold finishSafe; split <;> rfl
@[simp] theorem settle_press_evt : (settle old s).press.evt = s.press.evt := by simp [settle]
@[simp] theorem finishSafe_press_evtEn : (finishSafe s).press.evtEn = s.press.evtEn := by unfold finishSafe; split <;> rfl
@[simp] theorem settle_press_evtEn : (settle old s).press.evtEn = s.press.evtEn := by simp [settle]
@[simp] theorem finishSafe_press_limUj : (finishSafe s).press.limUj = s.press.limUj := by unfold finishSafe; split <;> rfl
@[simp] theorem settle_press_limUj : (settle old s).press.limUj = s.press.limUj := by simp [settle]
@[simp] theorem finishSafe_press_limNext : (finishSafe s).press.limNext = s.press.limNext := by unfold finishSafe; split <;> rfl
@[simp] theorem settle_press_limNext : (settle old s).press.limNext = s.press.limNext := by simp [settle]
@[simp] theorem finishSafe_press_charges : (finishSafe s).press.charges = s.press.charges := by unfold finishSafe; split <;> rfl
@[simp] theorem settle_press_charges : (settle old s).press.charges = s.press.charges := by simp [settle]
@[simp] theorem finishSafe_press_rr : (finishSafe s).press.rr = s.press.rr := by unfold finishSafe; split <;> rfl
@[simp] theorem settle_press_rr : (settle old s).press.rr = s.press.rr := by simp [settle]
@[simp] theorem finishSafe_press_beReady : (finishSafe s).press.beReady = s.press.beReady := by unfold finishSafe; split <;> rfl
@[simp] theorem settle_press_beReady : (settle old s).press.beReady = s.press.beReady := by simp [settle]
@[simp] theorem finishSafe_press_lateCnt : (finishSafe s).press.lateCnt = s.press.lateCnt := by unfold finishSafe; split <;> rfl
@[simp] theorem settle_press_lateCnt : (settle old s).press.lateCnt = s.press.lateCnt := by simp [settle]
@[simp] theorem finishSafe_press_missCnt : (finishSafe s).press.missCnt = s.press.missCnt := by unfold finishSafe; split <;> rfl
@[simp] theorem settle_press_missCnt : (settle old s).press.missCnt = s.press.missCnt := by simp [settle]
@[simp] theorem finishSafe_press_stripLateCnt : (finishSafe s).press.stripLateCnt = s.press.stripLateCnt := by unfold finishSafe; split <;> rfl
@[simp] theorem settle_press_stripLateCnt : (settle old s).press.stripLateCnt = s.press.stripLateCnt := by simp [settle]
@[simp] theorem finishSafe_press_syncOffset : (finishSafe s).press.syncOffset = s.press.syncOffset := by unfold finishSafe; split <;> rfl
@[simp] theorem settle_press_syncOffset : (settle old s).press.syncOffset = s.press.syncOffset := by simp [settle]
@[simp] theorem finishSafe_press_loadErrCtx : (finishSafe s).press.loadErrCtx = s.press.loadErrCtx := by unfold finishSafe; split <;> rfl
@[simp] theorem settle_press_loadErrCtx : (settle old s).press.loadErrCtx = s.press.loadErrCtx := by simp [settle]
@[simp] theorem finishSafe_press_loadErrCheck : (finishSafe s).press.loadErrCheck = s.press.loadErrCheck := by unfold finishSafe; split <;> rfl
@[simp] theorem settle_press_loadErrCheck : (settle old s).press.loadErrCheck = s.press.loadErrCheck := by simp [settle]
@[simp] theorem finishSafe_press_phase : (finishSafe s).press.phase = s.press.phase := by unfold finishSafe; split <;> rfl
@[simp] theorem settle_press_phase : (settle old s).press.phase = s.press.phase := by simp [settle]
@[simp] theorem finishSafe_press_phaseNext : (finishSafe s).press.phaseNext = s.press.phaseNext := by unfold finishSafe; split <;> rfl
@[simp] theorem settle_press_phaseNext : (settle old s).press.phaseNext = s.press.phaseNext := by simp [settle]
@[simp] theorem finishSafe_press_syncGood : (finishSafe s).press.syncGood = s.press.syncGood := by unfold finishSafe; split <;> rfl
@[simp] theorem settle_press_syncGood : (settle old s).press.syncGood = s.press.syncGood := by simp [settle]
@[simp] theorem finishSafe_press_syncBad : (finishSafe s).press.syncBad = s.press.syncBad := by unfold finishSafe; split <;> rfl
@[simp] theorem settle_press_syncBad : (settle old s).press.syncBad = s.press.syncBad := by simp [settle]
@[simp] theorem finishSafe_press_lastEdge : (finishSafe s).press.lastEdge = s.press.lastEdge := by unfold finishSafe; split <;> rfl
@[simp] theorem settle_press_lastEdge : (settle old s).press.lastEdge = s.press.lastEdge := by simp [settle]
@[simp] theorem finishSafe_press_slotAt : (finishSafe s).press.slotAt = s.press.slotAt := by unfold finishSafe; split <;> rfl
@[simp] theorem settle_press_slotAt : (settle old s).press.slotAt = s.press.slotAt := by simp [settle]
@[simp] theorem finishSafe_press_periodStart : (finishSafe s).press.periodStart = s.press.periodStart := by unfold finishSafe; split <;> rfl
@[simp] theorem settle_press_periodStart : (settle old s).press.periodStart = s.press.periodStart := by simp [settle]

/-! ### Parts of events that it leaves -/

@[simp] theorem settle_events_route : (settle old s).events.route = s.events.route := by simp [settle, settleTargets]
@[simp] theorem settle_events_enabled : (settle old s).events.enabled = s.events.enabled := by simp [settle, settleTargets]
@[simp] theorem settle_events_parity : (settle old s).events.parity = s.events.parity := by simp [settle, settleTargets]
@[simp] theorem settle_events_enableLost : (settle old s).events.enableLost = s.events.enableLost := by simp [settle, settleTargets]
@[simp] theorem settle_events_completeErr : (settle old s).events.completeErr = s.events.completeErr := by simp [settle, settleTargets]
@[simp] theorem settle_events_msgErr : (settle old s).events.msgErr = s.events.msgErr := by simp [settle, settleTargets]
@[simp] theorem settle_events_sw : (settle old s).events.sw = s.events.sw := by simp [settle, settleTargets]

/-! ### Parts of mgmt that it leaves -/

@[simp] theorem noteSafeChange_mgmt_dynAddr : (noteSafeChange old s).mgmt.dynAddr = s.mgmt.dynAddr := by unfold noteSafeChange; split <;> rfl
@[simp] theorem settle_mgmt_dynAddr : (settle old s).mgmt.dynAddr = s.mgmt.dynAddr := by simp [settle]
@[simp] theorem noteSafeChange_mgmt_enint : (noteSafeChange old s).mgmt.enint = s.mgmt.enint := by unfold noteSafeChange; split <;> rfl
@[simp] theorem settle_mgmt_enint : (settle old s).mgmt.enint = s.mgmt.enint := by simp [settle]
@[simp] theorem noteSafeChange_mgmt_ptr : (noteSafeChange old s).mgmt.ptr = s.mgmt.ptr := by unfold noteSafeChange; split <;> rfl
@[simp] theorem settle_mgmt_ptr : (settle old s).mgmt.ptr = s.mgmt.ptr := by simp [settle]
@[simp] theorem noteSafeChange_mgmt_protErr : (noteSafeChange old s).mgmt.protErr = s.mgmt.protErr := by unfold noteSafeChange; split <;> rfl
@[simp] theorem settle_mgmt_protErr : (settle old s).mgmt.protErr = s.mgmt.protErr := by simp [settle]
@[simp] theorem noteSafeChange_mgmt_cmd : (noteSafeChange old s).mgmt.cmd = s.mgmt.cmd := by unfold noteSafeChange; split <;> rfl
@[simp] theorem settle_mgmt_cmd : (settle old s).mgmt.cmd = s.mgmt.cmd := by simp [settle]
@[simp] theorem noteSafeChange_mgmt_region : (noteSafeChange old s).mgmt.region = s.mgmt.region := by unfold noteSafeChange; split <;> rfl
@[simp] theorem settle_mgmt_region : (settle old s).mgmt.region = s.mgmt.region := by simp [settle]
@[simp] theorem noteSafeChange_mgmt_record : (noteSafeChange old s).mgmt.record = s.mgmt.record := by unfold noteSafeChange; split <;> rfl
@[simp] theorem settle_mgmt_record : (settle old s).mgmt.record = s.mgmt.record := by simp [settle]
@[simp] theorem noteSafeChange_mgmt_status : (noteSafeChange old s).mgmt.status = s.mgmt.status := by unfold noteSafeChange; split <;> rfl
@[simp] theorem settle_mgmt_status : (settle old s).mgmt.status = s.mgmt.status := by simp [settle]
@[simp] theorem noteSafeChange_mgmt_busy : (noteSafeChange old s).mgmt.busy = s.mgmt.busy := by unfold noteSafeChange; split <;> rfl
@[simp] theorem settle_mgmt_busy : (settle old s).mgmt.busy = s.mgmt.busy := by simp [settle]
@[simp] theorem noteSafeChange_mgmt_lost : (noteSafeChange old s).mgmt.lost = s.mgmt.lost := by unfold noteSafeChange; split <;> rfl
@[simp] theorem settle_mgmt_lost : (settle old s).mgmt.lost = s.mgmt.lost := by simp [settle]
@[simp] theorem noteSafeChange_mgmt_lastCmd : (noteSafeChange old s).mgmt.lastCmd = s.mgmt.lastCmd := by unfold noteSafeChange; split <;> rfl
@[simp] theorem settle_mgmt_lastCmd : (settle old s).mgmt.lastCmd = s.mgmt.lastCmd := by simp [settle]
@[simp] theorem noteSafeChange_mgmt_kdata : (noteSafeChange old s).mgmt.kdata = s.mgmt.kdata := by unfold noteSafeChange; split <;> rfl
@[simp] theorem settle_mgmt_kdata : (settle old s).mgmt.kdata = s.mgmt.kdata := by simp [settle]
@[simp] theorem noteSafeChange_mgmt_timeLatch : (noteSafeChange old s).mgmt.timeLatch = s.mgmt.timeLatch := by unfold noteSafeChange; split <;> rfl
@[simp] theorem settle_mgmt_timeLatch : (settle old s).mgmt.timeLatch = s.mgmt.timeLatch := by simp [settle]
@[simp] theorem noteSafeChange_mgmt_ibiFault : (noteSafeChange old s).mgmt.ibiFault = s.mgmt.ibiFault := by unfold noteSafeChange; split <;> rfl
@[simp] theorem settle_mgmt_ibiFault : (settle old s).mgmt.ibiFault = s.mgmt.ibiFault := by simp [settle]
@[simp] theorem noteSafeChange_mgmt_ibiCmd : (noteSafeChange old s).mgmt.ibiCmd = s.mgmt.ibiCmd := by unfold noteSafeChange; split <;> rfl
@[simp] theorem settle_mgmt_ibiCmd : (settle old s).mgmt.ibiCmd = s.mgmt.ibiCmd := by simp [settle]
@[simp] theorem noteSafeChange_mgmt_ibiSent : (noteSafeChange old s).mgmt.ibiSent = s.mgmt.ibiSent := by unfold noteSafeChange; split <;> rfl
@[simp] theorem settle_mgmt_ibiSent : (settle old s).mgmt.ibiSent = s.mgmt.ibiSent := by simp [settle]
@[simp] theorem noteSafeChange_mgmt_rdata : (noteSafeChange old s).mgmt.rdata = s.mgmt.rdata := by unfold noteSafeChange; split <;> rfl
@[simp] theorem settle_mgmt_rdata : (settle old s).mgmt.rdata = s.mgmt.rdata := by simp [settle]
@[simp] theorem noteSafeChange_mgmt_nack : (noteSafeChange old s).mgmt.nack = s.mgmt.nack := by unfold noteSafeChange; split <;> rfl
@[simp] theorem settle_mgmt_nack : (settle old s).mgmt.nack = s.mgmt.nack := by simp [settle]
@[simp] theorem noteSafeChange_mgmt_lock : (noteSafeChange old s).mgmt.lock = s.mgmt.lock := by unfold noteSafeChange; split <;> rfl
@[simp] theorem settle_mgmt_lock : (settle old s).mgmt.lock = s.mgmt.lock := by simp [settle]
@[simp] theorem noteSafeChange_mgmt_ibiClass : (noteSafeChange old s).mgmt.ibiClass = s.mgmt.ibiClass := by unfold noteSafeChange; split <;> rfl
@[simp] theorem settle_mgmt_ibiClass : (settle old s).mgmt.ibiClass = s.mgmt.ibiClass := by simp [settle]
@[simp] theorem noteSafeChange_mgmt_ibiOnCmd : (noteSafeChange old s).mgmt.ibiOnCmd = s.mgmt.ibiOnCmd := by unfold noteSafeChange; split <;> rfl
@[simp] theorem settle_mgmt_ibiOnCmd : (settle old s).mgmt.ibiOnCmd = s.mgmt.ibiOnCmd := by simp [settle]
@[simp] theorem noteSafeChange_mgmt_permitKwrite : (noteSafeChange old s).mgmt.permitKwrite = s.mgmt.permitKwrite := by unfold noteSafeChange; split <;> rfl
@[simp] theorem settle_mgmt_permitKwrite : (settle old s).mgmt.permitKwrite = s.mgmt.permitKwrite := by simp [settle]
@[simp] theorem noteSafeChange_mgmt_permitRestart : (noteSafeChange old s).mgmt.permitRestart = s.mgmt.permitRestart := by unfold noteSafeChange; split <;> rfl
@[simp] theorem settle_mgmt_permitRestart : (settle old s).mgmt.permitRestart = s.mgmt.permitRestart := by simp [settle]
@[simp] theorem noteSafeChange_mgmt_permitWake : (noteSafeChange old s).mgmt.permitWake = s.mgmt.permitWake := by unfold noteSafeChange; split <;> rfl
@[simp] theorem settle_mgmt_permitWake : (settle old s).mgmt.permitWake = s.mgmt.permitWake := by simp [settle]
@[simp] theorem noteSafeChange_mgmt_evt : (noteSafeChange old s).mgmt.evt = s.mgmt.evt := by unfold noteSafeChange; split <;> rfl
@[simp] theorem settle_mgmt_evt : (settle old s).mgmt.evt = s.mgmt.evt := by simp [settle]
@[simp] theorem noteSafeChange_mgmt_evtEn : (noteSafeChange old s).mgmt.evtEn = s.mgmt.evtEn := by unfold noteSafeChange; split <;> rfl
@[simp] theorem settle_mgmt_evtEn : (settle old s).mgmt.evtEn = s.mgmt.evtEn := by simp [settle]
@[simp] theorem noteSafeChange_mgmt_mramUse : (noteSafeChange old s).mgmt.mramUse = s.mgmt.mramUse := by unfold noteSafeChange; split <;> rfl
@[simp] theorem settle_mgmt_mramUse : (settle old s).mgmt.mramUse = s.mgmt.mramUse := by simp [settle]
@[simp] theorem noteSafeChange_mgmt_tapOut : (noteSafeChange old s).mgmt.tapOut = s.mgmt.tapOut := by unfold noteSafeChange; split <;> rfl
@[simp] theorem settle_mgmt_tapOut : (settle old s).mgmt.tapOut = s.mgmt.tapOut := by simp [settle]

/-! ### Parts of pkt that it leaves -/

@[simp] theorem finishPktStops_pkt_table : (finishPktStops s).pkt.table = s.pkt.table := by
  unfold finishPktStops; exact forEach_keeps (fun s => s.pkt.table) _ (fun r s => stopPkt_keeps (·.table) (fun _ _ => rfl) r s) _ _
@[simp] theorem settle_pkt_table : (settle old s).pkt.table = s.pkt.table := by simp [settle]
@[simp] theorem finishPktStops_pkt_evt : (finishPktStops s).pkt.evt = s.pkt.evt := by
  unfold finishPktStops; exact forEach_keeps (fun s => s.pkt.evt) _ (fun r s => stopPkt_keeps (·.evt) (fun _ _ => rfl) r s) _ _
@[simp] theorem settle_pkt_evt : (settle old s).pkt.evt = s.pkt.evt := by simp [settle]
@[simp] theorem finishPktStops_pkt_evtEn : (finishPktStops s).pkt.evtEn = s.pkt.evtEn := by
  unfold finishPktStops; exact forEach_keeps (fun s => s.pkt.evtEn) _ (fun r s => stopPkt_keeps (·.evtEn) (fun _ _ => rfl) r s) _ _
@[simp] theorem settle_pkt_evtEn : (settle old s).pkt.evtEn = s.pkt.evtEn := by simp [settle]
@[simp] theorem finishPktStops_pkt_points : (finishPktStops s).pkt.points = s.pkt.points := by
  unfold finishPktStops; exact forEach_keeps (fun s => s.pkt.points) _ (fun r s => stopPkt_keeps (·.points) (fun _ _ => rfl) r s) _ _
@[simp] theorem settle_pkt_points : (settle old s).pkt.points = s.pkt.points := by simp [settle]
@[simp] theorem finishPktStops_pkt_drops : (finishPktStops s).pkt.drops = s.pkt.drops := by
  unfold finishPktStops; exact forEach_keeps (fun s => s.pkt.drops) _ (fun r s => stopPkt_keeps (·.drops) (fun _ _ => rfl) r s) _ _
@[simp] theorem settle_pkt_drops : (settle old s).pkt.drops = s.pkt.drops := by simp [settle]
@[simp] theorem finishPktStops_pkt_blocks : (finishPktStops s).pkt.blocks = s.pkt.blocks := by
  unfold finishPktStops; exact forEach_keeps (fun s => s.pkt.blocks) _ (fun r s => stopPkt_keeps (·.blocks) (fun _ _ => rfl) r s) _ _
@[simp] theorem settle_pkt_blocks : (settle old s).pkt.blocks = s.pkt.blocks := by simp [settle]
@[simp] theorem finishPktStops_pkt_errCode : (finishPktStops s).pkt.errCode = s.pkt.errCode := by
  unfold finishPktStops; exact forEach_keeps (fun s => s.pkt.errCode) _ (fun r s => stopPkt_keeps (·.errCode) (fun _ _ => rfl) r s) _ _
@[simp] theorem settle_pkt_errCode : (settle old s).pkt.errCode = s.pkt.errCode := by simp [settle]
@[simp] theorem finishPktStops_pkt_errRing : (finishPktStops s).pkt.errRing = s.pkt.errRing := by
  unfold finishPktStops; exact forEach_keeps (fun s => s.pkt.errRing) _ (fun r s => stopPkt_keeps (·.errRing) (fun _ _ => rfl) r s) _ _
@[simp] theorem settle_pkt_errRing : (settle old s).pkt.errRing = s.pkt.errRing := by simp [settle]
@[simp] theorem finishPktStops_pkt_rr : (finishPktStops s).pkt.rr = s.pkt.rr := by
  unfold finishPktStops; exact forEach_keeps (fun s => s.pkt.rr) _ (fun r s => stopPkt_keeps (·.rr) (fun _ _ => rfl) r s) _ _
@[simp] theorem settle_pkt_rr : (settle old s).pkt.rr = s.pkt.rr := by simp [settle]

theorem finishSafe_quiet (h : Safety.quiet s) : finishSafe s = s := by
  unfold finishSafe; rw [if_neg]; simp [h.1]

theorem finishDetaches_quiet (h : Safety.quiet s) : finishDetaches s = s := by
  have e : s.streams.filterMap (fun p => if detachReady s p.1 p.2 then some p.1 else none) = [] := by
    rw [List.filterMap_eq_nil_iff]
    intro p hp
    rw [if_neg]; simp [detachReady, h.2.1 p hp]
  unfold finishDetaches; rw [e]; rfl

theorem forEach_same {α : Type} (f : α → State → State) (l : List α) (h : ∀ x ∈ l, f x s = s) : forEach l f s = s := by
  induction l with
  | nil => rfl
  | cons x t ih => rw [forEach, h x (by simp)]; exact ih (fun y hy => h y (by simp [hy]))

theorem finishPktStops_quiet (h : Safety.quiet s) : finishPktStops s = s := by
  unfold finishPktStops
  apply forEach_same
  intro r hr
  have : r < 8 := by revert hr; simp [upto]; omega
  simp [h.2.2 r this]

/-- After a command that leaves a quiet state, only the targets and the pending IBI of a change of the safe state follow. -/
theorem settle_quiet (h : Safety.quiet s) :
    settle old s = { settleTargets (noteSafeChange old s) with pending := old.pending } := by
  unfold settle; rw [finishSafe_quiet s h, finishDetaches_quiet s h, finishPktStops_quiet s h]

end Sys2Proof.Machine
end

