-- ==== Sys2Proof/Laws/Table.lean ====
section
/-! SUPPORT. Sparse tables and byte memories: reading after writing, and the canonical form. -/

namespace Sys2Proof.Machine

variable {α : Type}

/-- Every key of a table is above `b`. -/
def Tbl.above (b : Nat) (t : Tbl α) : Bool := t.all (fun p => b < p.1)

theorem Tbl.wf_cons (k : Nat) (v : α) (t : Tbl α) : Tbl.wf ((k, v) :: t) = (Tbl.above k t && Tbl.wf t) := by
  induction t generalizing k v with
  | nil => rfl
  | cons p t ih =>
    obtain ⟨k', v'⟩ := p
    rw [Tbl.wf, ih k' v']
    by_cases h : k < k'
    · have : Tbl.above k' t = true → Tbl.above k t = true := by
        simp only [Tbl.above, List.all_eq_true, decide_eq_true_eq]
        intro h1 x hx; exact Nat.lt_trans h (h1 x hx)
      have e : Tbl.above k ((k', v') :: t) = Tbl.above k t := by simp [Tbl.above, h]
      rw [e, decide_eq_true h, Bool.true_and]
      cases h1 : Tbl.above k' t with
      | true => rw [this h1, Bool.true_and, Bool.true_and]
      | false => simp
    · simp [Tbl.above, h]

theorem Tbl.above_set (b k : Nat) (v : α) (t : Tbl α) : Tbl.above b (Tbl.set t k v) = true ↔ b < k ∧ (Tbl.above b t = true ∨ Tbl.above b (Tbl.erase t k) = true) := by
  induction t with
  | nil => simp [Tbl.set, Tbl.above, Tbl.erase]
  | cons p t ih =>
    obtain ⟨k', v'⟩ := p
    simp only [Tbl.set, Tbl.erase]
    split
    · subst_vars; simp [Tbl.above]
    · split
      · simp [Tbl.above]
      · simp only [Tbl.above, List.all_cons, Bool.and_eq_true, decide_eq_true_eq] at *
        rw [ih]; tauto

theorem Tbl.above_erase (b k : Nat) (t : Tbl α) (h : Tbl.above b t = true) : Tbl.above b (Tbl.erase t k) = true := by
  induction t with
  | nil => rfl
  | cons p t ih =>
    obtain ⟨k', v'⟩ := p
    simp only [Tbl.erase]
    simp only [Tbl.above, List.all_cons, Bool.and_eq_true] at h ih
    split
    · exact h.2
    · split
      · simp [Tbl.above, h]
      · simp only [Tbl.above, List.all_cons, Bool.and_eq_true]; exact ⟨h.1, ih h.2⟩

/-- Writing keeps the canonical form. -/
theorem Tbl.wf_set (t : Tbl α) (k : Nat) (v : α) (h : Tbl.wf t = true) : Tbl.wf (Tbl.set t k v) = true := by
  induction t with
  | nil => rfl
  | cons p t ih =>
    obtain ⟨k', v'⟩ := p
    rw [Tbl.wf_cons, Bool.and_eq_true] at h
    simp only [Tbl.set]
    split
    · subst_vars; rw [Tbl.wf_cons, Bool.and_eq_true]; exact h
    · split
      · rename_i h1 h2
        rw [Tbl.wf_cons, Tbl.wf_cons, Bool.and_eq_true, Bool.and_eq_true]
        refine ⟨?_, h⟩
        simp only [Tbl.above, List.all_cons, Bool.and_eq_true, decide_eq_true_eq, List.all_eq_true] at h ⊢
        exact ⟨h2, fun x hx => Nat.lt_trans h2 (h.1 x hx)⟩
      · rw [Tbl.wf_cons, Bool.and_eq_true]
        exact ⟨(Tbl.above_set _ _ _ _).2 ⟨by omega, Or.inl h.1⟩, ih h.2⟩

/-- Removing keeps the canonical form. -/
theorem Tbl.wf_erase (t : Tbl α) (k : Nat) (h : Tbl.wf t = true) : Tbl.wf (Tbl.erase t k) = true := by
  induction t with
  | nil => rfl
  | cons p t ih =>
    obtain ⟨k', v'⟩ := p
    rw [Tbl.wf_cons, Bool.and_eq_true] at h
    simp only [Tbl.erase]
    split
    · exact h.2
    · split
      · rw [Tbl.wf_cons, Bool.and_eq_true]; exact h
      · rw [Tbl.wf_cons, Bool.and_eq_true]; exact ⟨Tbl.above_erase _ _ _ h.1, ih h.2⟩

/-- Changing a present value keeps the canonical form. -/
theorem Tbl.wf_adjust (t : Tbl α) (k : Nat) (f : α → α) (h : Tbl.wf t = true) : Tbl.wf (Tbl.adjust t k f) = true := by
  unfold Tbl.adjust; split
  · exact Tbl.wf_set _ _ _ h
  · exact h

theorem Tbl.get?_above (t : Tbl α) (b k : Nat) (h : Tbl.above b t = true) (hk : k ≤ b) : Tbl.get? t k = none := by
  cases t with
  | nil => rfl
  | cons p t =>
    obtain ⟨k', v'⟩ := p
    simp only [Tbl.above, List.all_cons, Bool.and_eq_true, decide_eq_true_eq] at h
    simp only [Tbl.get?]
    rw [if_neg (by omega), if_pos (by omega)]

/-- What was written is read. -/
@[simp] theorem Tbl.get?_set_self (t : Tbl α) (k : Nat) (v : α) : Tbl.get? (Tbl.set t k v) k = some v := by
  induction t with
  | nil => simp [Tbl.set, Tbl.get?]
  | cons p t ih =>
    obtain ⟨k', v'⟩ := p
    simp only [Tbl.set]
    split
    · simp [Tbl.get?]
    · split
      · simp [Tbl.get?]
      · rename_i h1 h2
        simp only [Tbl.get?]
        rw [if_neg h1, if_neg h2]; exact ih

/-- A write leaves the other keys. -/
theorem Tbl.get?_set_ne (t : Tbl α) (k j : Nat) (v : α) (hj : j ≠ k) : Tbl.get? (Tbl.set t k v) j = Tbl.get? t j := by
  induction t with
  | nil => simp only [Tbl.set, Tbl.get?]; split <;> simp_all
  | cons p t ih =>
    obtain ⟨k', v'⟩ := p
    simp only [Tbl.set]
    split
    · subst_vars; simp only [Tbl.get?]; rw [if_neg hj, if_neg hj]
    · split
      · rename_i h1 h2
        simp only [Tbl.get?]
        rw [if_neg hj]
        by_cases h3 : j < k
        · rw [if_pos h3, if_neg (by omega), if_pos (by omega)]
        · rw [if_neg h3]
      · simp only [Tbl.get?, ih]

/-- A removed key is absent. -/
theorem Tbl.get?_erase_self (t : Tbl α) (k : Nat) (h : Tbl.wf t = true) : Tbl.get? (Tbl.erase t k) k = none := by
  induction t with
  | nil => rfl
  | cons p t ih =>
    obtain ⟨k', v'⟩ := p
    rw [Tbl.wf_cons, Bool.and_eq_true] at h
    simp only [Tbl.erase]
    split
    · subst_vars; exact Tbl.get?_above _ _ _ h.1 (Nat.le_refl _)
    · split
      · simp only [Tbl.get?]; rw [if_neg ‹_›, if_pos ‹_›]
      · simp only [Tbl.get?]; rw [if_neg ‹_›, if_neg ‹_›]; exact ih h.2

/-- A removal leaves the other keys. -/
theorem Tbl.get?_erase_ne (t : Tbl α) (k j : Nat) (h : Tbl.wf t = true) (hj : j ≠ k) : Tbl.get? (Tbl.erase t k) j = Tbl.get? t j := by
  induction t with
  | nil => rfl
  | cons p t ih =>
    obtain ⟨k', v'⟩ := p
    rw [Tbl.wf_cons, Bool.and_eq_true] at h
    simp only [Tbl.erase]
    split
    · subst_vars
      simp only [Tbl.get?]
      rw [if_neg hj]
      split
      · exact Tbl.get?_above _ _ _ h.1 (by omega)
      · rfl
    · split
      · rfl
      · simp only [Tbl.get?, ih h.2]

@[simp] theorem Tbl.getD_set_self (t : Tbl α) (k : Nat) (v d : α) : Tbl.getD (Tbl.set t k v) k d = v := by simp [Tbl.getD]

theorem Tbl.getD_set_ne (t : Tbl α) (k j : Nat) (v d : α) (hj : j ≠ k) : Tbl.getD (Tbl.set t k v) j d = Tbl.getD t j d := by
  simp [Tbl.getD, Tbl.get?_set_ne t k j v hj]

/-! ### Byte memories -/

theorem Mem.all_set (m : Mem) (a : Nat) (b : Byte) (hb : b ≠ 0) (h : m.all (fun c => c.2 != 0) = true) :
    List.all (Tbl.set m a b) (fun c => c.2 != 0) = true := by
  induction m with
  | nil => simpa [Tbl.set] using hb
  | cons p t ih =>
    obtain ⟨k', v'⟩ := p
    simp only [List.all_cons, Bool.and_eq_true] at h
    simp only [Tbl.set]
    split
    · rw [List.all_cons, h.2, Bool.and_true]; exact bne_iff_ne.2 hb
    · split
      · rw [List.all_cons, List.all_cons, h.1, h.2, Bool.and_true, Bool.and_true]; exact bne_iff_ne.2 hb
      · rw [List.all_cons, Bool.and_eq_true]; exact ⟨h.1, ih h.2⟩

theorem Mem.all_erase (m : Mem) (a : Nat) (h : m.all (fun c => c.2 != 0) = true) :
    List.all (Tbl.erase m a) (fun c => c.2 != 0) = true := by
  induction m with
  | nil => rfl
  | cons p t ih =>
    obtain ⟨k', v'⟩ := p
    simp only [List.all_cons, Bool.and_eq_true] at h
    simp only [Tbl.erase]
    split
    · exact h.2
    · split
      · rw [List.all_cons, h.1, h.2]; rfl
      · rw [List.all_cons, Bool.and_eq_true]; exact ⟨h.1, ih h.2⟩

/-- Writing a byte keeps the canonical form. -/
theorem Mem.wf_write (m : Mem) (a : Nat) (b : Byte) (h : Mem.wf m = true) : Mem.wf (Mem.write m a b) = true := by
  simp only [Mem.wf, Bool.and_eq_true] at h ⊢
  unfold Mem.write
  split
  · exact ⟨Tbl.wf_erase _ _ h.1, Mem.all_erase _ _ h.2⟩
  · exact ⟨Tbl.wf_set _ _ _ h.1, Mem.all_set _ _ _ ‹_› h.2⟩

/-- Writing bytes keeps the canonical form. -/
theorem Mem.wf_writeBytes (bs : List Byte) (m : Mem) (a : Nat) (h : Mem.wf m = true) : Mem.wf (Mem.writeBytes m a bs) = true := by
  induction bs generalizing m a with
  | nil => exact h
  | cons b bs ih => exact ih _ _ (Mem.wf_write m a b h)

/-- A byte written is read. -/
theorem Mem.read_write_self (m : Mem) (a : Nat) (b : Byte) (h : Mem.wf m = true) : Mem.read (Mem.write m a b) a = b := by
  simp only [Mem.wf, Bool.and_eq_true] at h
  unfold Mem.write Mem.read
  split
  · subst_vars; simp [Tbl.getD, Tbl.get?_erase_self _ _ h.1]
  · simp

/-- A write leaves every other byte. -/
theorem Mem.read_write_ne (m : Mem) (a c : Nat) (b : Byte) (h : Mem.wf m = true) (hc : c ≠ a) :
    Mem.read (Mem.write m a b) c = Mem.read m c := by
  simp only [Mem.wf, Bool.and_eq_true] at h
  unfold Mem.write Mem.read Tbl.getD
  split
  · rw [Tbl.get?_erase_ne _ _ _ h.1 hc]
  · rw [Tbl.get?_set_ne _ _ _ _ hc]

end Sys2Proof.Machine
end

