-- ==== Sys2Proof/Laws/Boxes.lean ====
section
/-! SUPPORT. Mailboxes: what follows a command adds notices only, and one command's write of a mailbox. -/

namespace Sys2Proof.Machine

/-- A reading of a mailbox that notices do not touch. -/
def NoNotice {β : Type} (g : Mbox → β) : Prop := ∀ m owed notices ev, g { m with owed := owed, notices := notices, evtNotice := ev } = g m

theorem NoNotice.notify {β : Type} {g : Mbox → β} (h : NoNotice g) (m : Mbox) (o : Owed) (st : Nat) : g (m.notify o st) = g m := h m _ _ _

theorem NoNotice.note {β : Type} {g : Mbox → β} (h : NoNotice g) (m : Mbox) (p : Owed → Bool) (st : Nat) : g (m.note p st) = g m :=
  h m _ m.notices m.evtNotice

theorem NoNotice.fold {β : Type} {g : Mbox → β} (h : NoNotice g) (st : Nat) (l : List Owed) (m : Mbox) :
    g (l.foldl (fun m o => m.notify o st) m) = g m := by
  induction l generalizing m with
  | nil => rfl
  | cons o t ih => exact (ih _).trans (h.notify m o st)

theorem Tbl.get?_map {α β : Type} (f : α → β) (t : Tbl α) (k : Nat) : Tbl.get? (t.map (fun p => (p.1, f p.2))) k = (Tbl.get? t k).map f := by
  induction t with
  | nil => rfl
  | cons p t ih =>
    simp only [List.map_cons, Tbl.get?]
    split
    · rfl
    · split
      · rfl
      · exact ih

theorem NoNotice.notifyWhere {β : Type} {g : Mbox → β} (h : NoNotice g) (p : Owed → Bool) (st b : Nat) (s : State) :
    g ((notifyWhere p st s).box b) = g (s.box b) := by
  unfold State.box Tbl.getD
  have e : Tbl.get? (Machine.notifyWhere p st s).boxes b = (Tbl.get? s.boxes b).map (fun m =>
      if s.fwRuns then (m.owed.filter (fun o => p o && o.ended.isNone)).foldl (fun m o => m.notify o st) m else m.note p st) :=
    (Tbl.get?_map (fun m : Mbox => if s.fwRuns then (m.owed.filter (fun o => p o && o.ended.isNone)).foldl (fun m o => m.notify o st) m else m.note p st) s.boxes b :)
  rw [e]
  cases Tbl.get? s.boxes b with
  | none => rfl
  | some m =>
    simp only [Option.map_some, Option.getD_some]
    split
    · exact h.fold st _ m
    · exact h.note m p st

theorem NoNotice.settle {β : Type} {g : Mbox → β} (h : NoNotice g) (o s : State) (b : Nat) : g ((settle o s).box b) = g (s.box b) := by
  have e : ∀ u v : State, u.boxes = v.boxes → u.box b = v.box b := fun u v hu => by unfold State.box; rw [hu]
  have z : (Machine.settle o s).boxes = (settleTargets (noteSafeChange o (finishPktStops (finishDetaches (finishSafe s))))).boxes := rfl
  rw [e _ _ z, e _ _ (settleTargets_boxes _), e _ _ (noteSafeChange_boxes _ _), e _ _ (finishPktStops_boxes _)]
  refine Eq.trans ?_ (congrArg g (e _ _ (finishSafe_boxes s)))
  unfold finishDetaches
  refine forEach_keeps (fun s => g (s.box b)) _ (fun x s => ?_) _ _
  unfold dropStream
  cases Tbl.get? s.streams x with
  | none => rfl
  | some t =>
    refine (h.notifyWhere _ _ _ _).trans ((h.notifyWhere _ _ _ _).trans (congrArg g (e _ _ ?_)))
    exact (when_keeps _ (·.boxes) _ _ rfl).trans ((when_keeps _ (·.boxes) _ _ rfl).trans rfl)

@[simp] theorem settle_box_req (o s : State) (b : Nat) : ((settle o s).box b).req = (s.box b).req := NoNotice.settle (g := Mbox.req) (fun _ _ _ _ => rfl) o s b
@[simp] theorem settle_box_rsp (o s : State) (b : Nat) : ((settle o s).box b).rsp = (s.box b).rsp := NoNotice.settle (g := Mbox.rsp) (fun _ _ _ _ => rfl) o s b
@[simp] theorem settle_box_busy (o s : State) (b : Nat) : ((settle o s).box b).busy = (s.box b).busy := NoNotice.settle (g := Mbox.busy) (fun _ _ _ _ => rfl) o s b
@[simp] theorem settle_box_accepted (o s : State) (b : Nat) : ((settle o s).box b).accepted = (s.box b).accepted := NoNotice.settle (g := Mbox.accepted) (fun _ _ _ _ => rfl) o s b
@[simp] theorem settle_box_respValid (o s : State) (b : Nat) : ((settle o s).box b).respValid = (s.box b).respValid := NoNotice.settle (g := Mbox.respValid) (fun _ _ _ _ => rfl) o s b
@[simp] theorem settle_box_buf (o s : State) (b : Nat) : ((settle o s).box b).buf = (s.box b).buf := NoNotice.settle (g := Mbox.buf) (fun _ _ _ _ => rfl) o s b
@[simp] theorem settle_box_evtOverrun (o s : State) (b : Nat) : ((settle o s).box b).evtOverrun = (s.box b).evtOverrun := NoNotice.settle (g := Mbox.evtOverrun) (fun _ _ _ _ => rfl) o s b

@[simp] theorem modBox_box_self (b : Nat) (f : Mbox → Mbox) (s : State) : (modBox b f s).box b = f (s.box b) := by simp [State.box, modBox]
theorem modBox_box_ne (b k : Nat) (f : Mbox → Mbox) (s : State) (h : k ≠ b) : (modBox b f s).box k = s.box k := by
  simp [State.box, modBox, Tbl.getD_set_ne _ _ _ _ _ h]

end Sys2Proof.Machine
end

