-- ==== Sys2Proof/Laws/Commands.lean ====
section
/-! SUPPORT. What later proofs cite of the operations that many commands share: the passage of time, what follows a command that moves
nothing else, a mailbox's due request and its answer. -/

namespace Sys2Proof.Machine

variable {s u : State}

/-- The numbers of a range. -/
theorem mem_upto (x lo n : Nat) : x ∈ upto lo n ↔ lo ≤ x ∧ x < lo + n := by
  induction n generalizing lo with
  | zero => simp [upto]
  | succ n ih => simp [upto, ih]; omega

/-- Time moves nothing but the time base. -/
theorem advance_eq (dt : Nat) (s : State) : advance dt s = { s with tb := (advance dt s).tb } := by unfold advance; split <;> rfl

/-- A command that leaves safe state, streams, packet intake and queue of a quiet state is followed by the targets alone. -/
theorem settle_unmoved (hq : Safety.quiet s) (hf : u.faults.safe = s.faults.safe) (hs : u.streams = s.streams) (hk : u.pkt = s.pkt)
    (hp : u.pending = s.pending) : settle s u = settleTargets u := by
  have q : Safety.quiet u := by simpa [Safety.quiet, State.pring, hf, hs, hk] using hq
  have n : noteSafeChange s u = u := by unfold noteSafeChange; simp [hf, State.streamsSafe, hs]
  have p : s.pending = (settleTargets u).pending := hp.symm
  rw [settle_quiet (h := q), n, p]

/-- After every command, what is pending at a target is judged as before the targets follow. -/
theorem pendingAt_settleTargets (s : State) (t : Nat) : pendingAt (settleTargets s) t = pendingAt s t := by
  have hs : ∀ n, inService (settleTargets s) n = inService s n := by
    intro n; simp only [inService, settleTargets, List.any_map]; congr 1; funext p
    simp only [Function.comp, settleTarget]; split <;> split <;> rfl
  have hp : ∀ n, sourcePending (settleTargets s) n = sourcePending s n := by
    intro n; unfold sourcePending; rw [hs]; rfl
  unfold pendingAt; simp only [hp]; rfl

@[simp] theorem advance_i3cUp (dt : Nat) : i3cUp (advance dt s) = i3cUp s := by simp [i3cUp]
@[simp] theorem advance_serves (dt box : Nat) : serves (advance dt s) box = serves s box := by simp [serves]
@[simp] theorem advance_drainMet (dt : Nat) (m : Mbox) : drainMet (advance dt s) m = drainMet s m := by simp [drainMet]
@[simp] theorem advance_commonFail (dt box : Nat) (sp : CmdSpec) (b : List Byte) :
    commonFail (advance dt s) box sp b = commonFail s box sp b := by simp [commonFail]

@[simp] theorem advance_comesFirst (dt b a : Nat) : comesFirst (advance dt s) b a = comesFirst s b a := by simp [comesFirst]
@[simp] theorem advance_boxOpen (dt b : Nat) : boxOpen (advance dt s) b = boxOpen s b := by simp [boxOpen]
@[simp] theorem advance_closeWaits (dt b : Nat) : closeWaits (advance dt s) b = closeWaits s b := by simp [closeWaits]
@[simp] theorem advance_answerWaits (dt b : Nat) : answerWaits (advance dt s) b = answerWaits s b := by simp [answerWaits]
@[simp] theorem advance_inTurn (dt b : Nat) : inTurn (advance dt s) b = inTurn s b := by simp [inTurn]

/-- A due request is carried out: the command's own operation runs on its bytes. -/
theorem command_due {box code : Nat} (h : Safety.due s box code) (own : List Byte → Bool) (ho : own (reqBytes (s.box box)) = true)
    (run : List Byte → State → State) (dt : Nat) :
    command box code own run (advance dt s) = run (reqBytes (s.box box)) (advance dt s) := by
  obtain ⟨a, b, c, d, e, f, k, w, sp, g, i⟩ := h
  unfold command
  simp [a, b, c, d, e, f, k, w, ho, g, i]

/-- An answer stands as the response, whatever follows the command. -/
theorem answered_answer (old s u : State) (box status detail : Nat) (payload : List Byte) (h : (u.box box).seq = (s.box box).seq) :
    Safety.answered s (settle old (answer box status detail payload u)) box status detail payload := by
  have e : ({ u with control := { u.control with lastServed := if box < 256 then box else u.control.lastServed } } : State).box box = u.box box := rfl
  simp [Safety.answered, answer, answerAs, e, h]

end Sys2Proof.Machine
end

