-- ==== Sys2Proof/Laws/Exec.lean ====
section
/-! SUPPORT. One lemma per command: given operands of the hardware, exec answers the next state, with the operation that the
command's meaning names; and what it answers otherwise. -/

namespace Sys2Proof.Machine

/-- A command that can be given completes. -/
theorem event_given {ok : Bool} {dt : Nat} {s : State} {f : State → State} (h : ok = true) :
    event ok dt s f = .next (settle s (f (advance dt s))) := if_pos h

/-- A command that cannot be given stops. -/
theorem event_not_given {ok : Bool} {dt : Nat} {s : State} {f : State → State} (h : ok = false) :
    event ok dt s f = .fault .badOperand := by rw [h]; rfl

theorem exec_gxPorstNAssert (dt : Nat) (s : State) (h : (Instr.gxPorstNAssert dt).wf = true) :
    exec (.gxPorstNAssert dt) s = .next (settle s (onGxPorstNAssert (advance dt s))) := event_given (dt := dt) (s := s)
    (f := onGxPorstNAssert) h
theorem exec_gxPorstNDeassert (dt inst group saddr mfr : Nat) (s : State) (h : (Instr.gxPorstNDeassert dt inst group saddr mfr).wf = true) :
    exec (.gxPorstNDeassert dt inst group saddr mfr) s = .next (settle s ((onGxPorstNDeassert inst group saddr mfr) (advance dt s))) := event_given (dt := dt) (s := s)
    (f := (onGxPorstNDeassert inst group saddr mfr)) h
theorem exec_gxRstNAssert (dt : Nat) (s : State) (h : (Instr.gxRstNAssert dt).wf = true) :
    exec (.gxRstNAssert dt) s = .next (settle s (rstAssert (advance dt s))) := event_given (dt := dt) (s := s)
    (f := rstAssert) h
theorem exec_gxRstNDeassert (dt keyHash : Nat) (keyValid : Bool) (s : State) (h : (Instr.gxRstNDeassert dt keyHash keyValid).wf = true) :
    exec (.gxRstNDeassert dt keyHash keyValid) s = .next (settle s ((rstDeassert keyHash keyValid) (advance dt s))) := event_given (dt := dt) (s := s)
    (f := (rstDeassert keyHash keyValid)) h
theorem exec_wakeTimerExpiry (dt : Nat) (s : State) (h : (Instr.wakeTimerExpiry dt).wf = true) :
    exec (.wakeTimerExpiry dt) s = .next (settle s (wakeTimerExpiry (advance dt s))) := event_given (dt := dt) (s := s)
    (f := wakeTimerExpiry) h
theorem exec_pgInputChange (dt : Nat) (rail : Rail) (level : Bool) (s : State) (h : (Instr.pgInputChange dt rail level).wf = true) :
    exec (.pgInputChange dt rail level) s = .next (settle s ((pgChange rail level) (advance dt s))) := event_given (dt := dt) (s := s)
    (f := (pgChange rail level)) h
theorem exec_clkAckChange (dt : Nat) (clk : Clk) (level : Bool) (s : State) (h : (Instr.clkAckChange dt clk level).wf = true) :
    exec (.clkAckChange dt clk level) s = .next (settle s ((clkAck clk level) (advance dt s))) := event_given (dt := dt) (s := s)
    (f := (clkAck clk level)) h
theorem exec_pwrTargetKeep (dt : Nat) (priv : Bool) (s : State) (h : (Instr.pwrTargetKeep dt priv).wf = true) :
    exec (.pwrTargetKeep dt priv) s = .next (settle s ((keeperWrite priv (writeTarget 1)) (advance dt s))) := event_given (dt := dt) (s := s)
    (f := (keeperWrite priv (writeTarget 1))) h
theorem exec_keepEntry (dt : Nat) (s : State) (h : (Instr.keepEntry dt).wf = true) :
    exec (.keepEntry dt) s = .next (settle s (keepEntry (advance dt s))) := event_given (dt := dt) (s := s)
    (f := keepEntry) h
theorem exec_pwrTargetStandby (dt : Nat) (priv : Bool) (s : State) (h : (Instr.pwrTargetStandby dt priv).wf = true) :
    exec (.pwrTargetStandby dt priv) s = .next (settle s ((keeperWrite priv (writeTarget 2)) (advance dt s))) := event_given (dt := dt) (s := s)
    (f := (keeperWrite priv (writeTarget 2))) h
theorem exec_pwrTargetActive (dt : Nat) (priv : Bool) (s : State) (h : (Instr.pwrTargetActive dt priv).wf = true) :
    exec (.pwrTargetActive dt priv) s = .next (settle s ((keeperWrite priv (writeTarget 3)) (advance dt s))) := event_given (dt := dt) (s := s)
    (f := (keeperWrite priv (writeTarget 3))) h
theorem exec_oppAckSeen (dt : Nat) (s : State) (h : (Instr.oppAckSeen dt).wf = true) :
    exec (.oppAckSeen dt) s = .next (settle s (oppAck (advance dt s))) := event_given (dt := dt) (s := s)
    (f := oppAck) h
theorem exec_oppAckTimeout (dt : Nat) (s : State) (h : (Instr.oppAckTimeout dt).wf = true) :
    exec (.oppAckTimeout dt) s = .next (settle s (oppTimeout (advance dt s))) := event_given (dt := dt) (s := s)
    (f := oppTimeout) h
theorem exec_clockMonitorWindow (dt : Nat) (clk : Clk) (stopped : Bool) (edges : Nat) (s : State) (h : (Instr.clockMonitorWindow dt clk stopped edges).wf = true) :
    exec (.clockMonitorWindow dt clk stopped edges) s = .next (settle s ((clockWindow clk stopped edges) (advance dt s))) := event_given (dt := dt) (s := s)
    (f := (clockWindow clk stopped edges)) h
theorem exec_supplyMonitorChange (dt : Nat) (rail : Rail) (warn fail : Bool) (s : State) (h : (Instr.supplyMonitorChange dt rail warn fail).wf = true) :
    exec (.supplyMonitorChange dt rail warn fail) s = .next (settle s ((supplyChange rail warn fail) (advance dt s))) := event_given (dt := dt) (s := s)
    (f := (supplyChange rail warn fail)) h
theorem exec_thermalSample (dt : Nat) (readings : List Int) (s : State) (h : (Instr.thermalSample dt readings).wf = true) :
    exec (.thermalSample dt readings) s = .next (settle s ((thermalSample readings) (advance dt s))) := event_given (dt := dt) (s := s)
    (f := (thermalSample readings)) h
theorem exec_timeStrobeEdge (dt timeIn : Nat) (valid : Bool) (j : Int) (s : State) (h : (Instr.timeStrobeEdge dt timeIn valid j).wf = true) :
    exec (.timeStrobeEdge dt timeIn valid j) s = .next (settle s ((strobe timeIn valid j) (advance dt s))) := event_given (dt := dt) (s := s)
    (f := (strobe timeIn valid j)) h
theorem exec_tbCompareWindowEnd (dt edge : Nat) (s : State) (h : (Instr.tbCompareWindowEnd dt edge).wf = true) :
    exec (.tbCompareWindowEnd dt edge) s = .next (settle s ((windowEnd edge) (advance dt s))) := event_given (dt := dt) (s := s)
    (f := (windowEnd edge)) h
theorem exec_timeInLossTimeout (dt : Nat) (validFell : Bool) (s : State) (h : (Instr.timeInLossTimeout dt validFell).wf = true) :
    exec (.timeInLossTimeout dt validFell) s = .next (settle s ((timeInLoss validFell) (advance dt s))) := event_given (dt := dt) (s := s)
    (f := (timeInLoss validFell)) h
theorem exec_kclkLoss (dt : Nat) (s : State) (h : (Instr.kclkLoss dt).wf = true) :
    exec (.kclkLoss dt) s = .next (settle s (onKclkLoss (advance dt s))) := event_given (dt := dt) (s := s)
    (f := onKclkLoss) h
theorem exec_tbRelock (dt : Nat) (priv : Bool) (s : State) (h : (Instr.tbRelock dt priv).wf = true) :
    exec (.tbRelock dt priv) s = .next (settle s ((keeperWrite priv relockWrite) (advance dt s))) := event_given (dt := dt) (s := s)
    (f := (keeperWrite priv relockWrite)) h
theorem exec_tbRefSelWrite (dt : Nat) (priv kclk : Bool) (s : State) (h : (Instr.tbRefSelWrite dt priv kclk).wf = true) :
    exec (.tbRefSelWrite dt priv kclk) s = .next (settle s ((keeperWrite priv (refSelWrite kclk)) (advance dt s))) := event_given (dt := dt) (s := s)
    (f := (keeperWrite priv (refSelWrite kclk))) h
theorem exec_tbNowLoRead (dt : Nat) (priv debug : Bool) (s : State) (h : (Instr.tbNowLoRead dt priv debug).wf = true) :
    exec (.tbNowLoRead dt priv debug) s = .next (settle s ((keeperRead priv debug (fun s => s.now % 2 ^ 32)
    (fun s => { s with tb := { s.tb with hiLatch := s.now / 2 ^ 32 } })) (advance dt s))) := event_given (dt := dt) (s := s)
    (f := (keeperRead priv debug (fun s => s.now % 2 ^ 32)
    (fun s => { s with tb := { s.tb with hiLatch := s.now / 2 ^ 32 } }))) h
theorem exec_gxSafeReqEdge (dt : Nat) (level : Bool) (s : State) (h : (Instr.gxSafeReqEdge dt level).wf = true) :
    exec (.gxSafeReqEdge dt level) s = .next (settle s ((onGxSafeReqEdge level) (advance dt s))) := event_given (dt := dt) (s := s)
    (f := (onGxSafeReqEdge level)) h
theorem exec_safeCtlEnter (dt : Nat) (priv : Bool) (s : State) (h : (Instr.safeCtlEnter dt priv).wf = true) :
    exec (.safeCtlEnter dt priv) s = .next (settle s ((mainWrite true priv safeCtl) (advance dt s))) := event_given (dt := dt) (s := s)
    (f := (mainWrite true priv safeCtl)) h
theorem exec_planSyncEdge (dt : Nat) (j : Int) (s : State) (h : (Instr.planSyncEdge dt j).wf = true) :
    exec (.planSyncEdge dt j) s = .next (settle s ((syncEdge j) (advance dt s))) := event_given (dt := dt) (s := s)
    (f := (syncEdge j)) h
theorem exec_planSyncTimeout (dt : Nat) (s : State) (h : (Instr.planSyncTimeout dt).wf = true) :
    exec (.planSyncTimeout dt) s = .next (settle s (syncTimeout (advance dt s))) := event_given (dt := dt) (s := s)
    (f := syncTimeout) h
theorem exec_hostIdleEdge (dt t : Nat) (level : Bool) (s : State) (h : (Instr.hostIdleEdge dt t level).wf = true) :
    exec (.hostIdleEdge dt t level) s = .next (settle s ((onHostIdleEdge t level) (advance dt s))) := event_given (dt := dt) (s := s)
    (f := (onHostIdleEdge t level)) h
theorem exec_registerWrite (dt : Nat) (agent : Agent) (addr data be : Nat) (priv : Bool) (mem : ExtMem) (s : State) (h : (Instr.registerWrite dt agent addr data be priv mem).wf = true) :
    exec (.registerWrite dt agent addr data be priv mem) s = .next (settle s ((registerWrite agent addr data be priv mem) (advance dt s))) := event_given (dt := dt) (s := s)
    (f := (registerWrite agent addr data be priv mem)) h
theorem exec_rcRegisterRead (dt : Nat) (agent : Agent) (addr : Nat) (req : ReadReq) (debug : Bool) (s : State) (h : (Instr.rcRegisterRead dt agent addr req debug).wf = true) :
    exec (.rcRegisterRead dt agent addr req debug) s = .next (settle s ((registerRead agent addr req.be req.priv debug) (advance dt s))) := event_given (dt := dt) (s := s)
    (f := (registerRead agent addr req.be req.priv debug)) h
theorem exec_snsFsLoRead (dt port : Nat) (priv debug : Bool) (s : State) (h : (Instr.snsFsLoRead dt port priv debug).wf = true) :
    exec (.snsFsLoRead dt port priv debug) s = .next (settle s ((mainRead true priv debug (fun s => snsRead s port 0x30) (snsClear port 0x30)) (advance dt s))) := event_given (dt := dt) (s := s)
    (f := (mainRead true priv debug (fun s => snsRead s port 0x30) (snsClear port 0x30))) h
theorem exec_mboxGo (dt box : Nat) (ack priv : Bool) (s : State) (h : (Instr.mboxGo dt box ack priv).wf = true) :
    exec (.mboxGo dt box ack priv) s = .next (settle s ((mainWrite (box = 256) priv (goWrite box true ack)) (advance dt s))) := event_given (dt := dt) (s := s)
    (f := (mainWrite (box = 256) priv (goWrite box true ack))) h
theorem exec_mboxAck (dt box : Nat) (priv : Bool) (s : State) (h : (Instr.mboxAck dt box priv).wf = true) :
    exec (.mboxAck dt box priv) s = .next (settle s ((mainWrite (box = 256) priv (goWrite box false true)) (advance dt s))) := event_given (dt := dt) (s := s)
    (f := (mainWrite (box = 256) priv (goWrite box false true))) h
theorem exec_mboxNoticeRead (dt box : Nat) (priv debug : Bool) (s : State) (h : (Instr.mboxNoticeRead dt box priv debug).wf = true) :
    exec (.mboxNoticeRead dt box priv debug) s = .next (settle s ((noticeRead box priv debug) (advance dt s))) := event_given (dt := dt) (s := s)
    (f := (noticeRead box priv debug)) h
theorem exec_ringDoorbell (dt ctx ring v : Nat) (s : State) (h : (Instr.ringDoorbell dt ctx ring v).wf = true) :
    exec (.ringDoorbell dt ctx ring v) s = .next (settle s ((mainWrite false true (doorbell ctx ring (bits v 0 17))) (advance dt s))) := event_given (dt := dt) (s := s)
    (f := (mainWrite false true (doorbell ctx ring (bits v 0 17)))) h
theorem exec_ringPause (dt ctx ring : Nat) (s : State) (h : (Instr.ringPause dt ctx ring).wf = true) :
    exec (.ringPause dt ctx ring) s = .next (settle s ((mainWrite false true (ringCtl ctx ring 0)) (advance dt s))) := event_given (dt := dt) (s := s)
    (f := (mainWrite false true (ringCtl ctx ring 0))) h
theorem exec_ringResume (dt ctx ring : Nat) (s : State) (h : (Instr.ringResume dt ctx ring).wf = true) :
    exec (.ringResume dt ctx ring) s = .next (settle s ((mainWrite false true (ringCtl ctx ring 1)) (advance dt s))) := event_given (dt := dt) (s := s)
    (f := (mainWrite false true (ringCtl ctx ring 1))) h
theorem exec_ringAbort (dt ctx ring : Nat) (s : State) (h : (Instr.ringAbort dt ctx ring).wf = true) :
    exec (.ringAbort dt ctx ring) s = .next (settle s ((mainWrite false true (ringCtl ctx ring 2)) (advance dt s))) := event_given (dt := dt) (s := s)
    (f := (mainWrite false true (ringCtl ctx ring 2))) h
theorem exec_ringCtlReset (dt ctx ring : Nat) (s : State) (h : (Instr.ringCtlReset dt ctx ring).wf = true) :
    exec (.ringCtlReset dt ctx ring) s = .next (settle s ((mainWrite false true (ringCtl ctx ring 4)) (advance dt s))) := event_given (dt := dt) (s := s)
    (f := (mainWrite false true (ringCtl ctx ring 4))) h
theorem exec_pktDoorbell (dt ring prod : Nat) (priv : Bool) (s : State) (h : (Instr.pktDoorbell dt ring prod priv).wf = true) :
    exec (.pktDoorbell dt ring prod priv) s = .next (settle s ((mainWrite true priv (pktDoorbell ring prod)) (advance dt s))) := event_given (dt := dt) (s := s)
    (f := (mainWrite true priv (pktDoorbell ring prod))) h
theorem exec_pktRingEnable (dt ring : Nat) (priv : Bool) (mem : ExtMem) (s : State) (h : (Instr.pktRingEnable dt ring priv mem).wf = true) :
    exec (.pktRingEnable dt ring priv mem) s = .next (settle s ((mainWrite true priv (writeEnable ring true mem)) (advance dt s))) := event_given (dt := dt) (s := s)
    (f := (mainWrite true priv (writeEnable ring true mem))) h
theorem exec_pktRingDisable (dt ring : Nat) (priv : Bool) (mem : ExtMem) (s : State) (h : (Instr.pktRingDisable dt ring priv mem).wf = true) :
    exec (.pktRingDisable dt ring priv mem) s = .next (settle s ((mainWrite true priv (writeEnable ring false mem)) (advance dt s))) := event_given (dt := dt) (s := s)
    (f := (mainWrite true priv (writeEnable ring false mem))) h
theorem exec_ccRestartWrite (dt : Nat) (priv : Bool) (s : State) (h : (Instr.ccRestartWrite dt priv).wf = true) :
    exec (.ccRestartWrite dt priv) s = .next (settle s ((mainWrite true priv (controlRestart 0x40 false)) (advance dt s))) := event_given (dt := dt) (s := s)
    (f := (mainWrite true priv (controlRestart 0x40 false))) h
theorem exec_semReadAcquire (dt : Nat) (agent : SemAgent) (n : Nat) (debug : Bool) (s : State) (h : (Instr.semReadAcquire dt agent n debug).wf = true) :
    exec (.semReadAcquire dt agent n debug) s = .next (settle s ((onSemReadAcquire agent n debug) (advance dt s))) := event_given (dt := dt) (s := s)
    (f := (onSemReadAcquire agent n debug)) h
theorem exec_semAcquire (dt : Nat) (agent : SemAgent) (n : Nat) (s : State) (h : (Instr.semAcquire dt agent n).wf = true) :
    exec (.semAcquire dt agent n) s = .next (settle s ((semAccess agent n (semTake agent n)) (advance dt s))) := event_given (dt := dt) (s := s)
    (f := (semAccess agent n (semTake agent n))) h
theorem exec_semRenew (dt : Nat) (agent : SemAgent) (n lease : Nat) (s : State) (h : (Instr.semRenew dt agent n lease).wf = true) :
    exec (.semRenew dt agent n lease) s = .next (settle s ((semAccess agent n (semRenew agent n lease)) (advance dt s))) := event_given (dt := dt) (s := s)
    (f := (semAccess agent n (semRenew agent n lease))) h
theorem exec_semRelease (dt : Nat) (agent : SemAgent) (n : Nat) (s : State) (h : (Instr.semRelease dt agent n).wf = true) :
    exec (.semRelease dt agent n) s = .next (settle s ((semAccess agent n (semRelease agent n)) (advance dt s))) := event_given (dt := dt) (s := s)
    (f := (semAccess agent n (semRelease agent n))) h
theorem exec_leaseExpiry (dt n : Nat) (s : State) (h : (Instr.leaseExpiry dt n).wf = true) :
    exec (.leaseExpiry dt n) s = .next (settle s ((leaseExpiry n) (advance dt s))) := event_given (dt := dt) (s := s)
    (f := (leaseExpiry n)) h
theorem exec_debugHalt (dt : Nat) (priv : Bool) (pair : Nat) (halt : Bool) (s : State) (h : (Instr.debugHalt dt priv pair halt).wf = true) :
    exec (.debugHalt dt priv pair halt) s = .next (settle s ((mainWrite true priv (debugWrite (setHalt pair halt))) (advance dt s))) := event_given (dt := dt) (s := s)
    (f := (mainWrite true priv (debugWrite (setHalt pair halt)))) h
theorem exec_debugStep (dt : Nat) (priv : Bool) (pair : Nat) (s : State) (h : (Instr.debugStep dt priv pair).wf = true) :
    exec (.debugStep dt priv pair) s = .next (settle s ((mainWrite true priv (debugWrite (stepPair pair))) (advance dt s))) := event_given (dt := dt) (s := s)
    (f := (mainWrite true priv (debugWrite (stepPair pair)))) h
theorem exec_freezeLeaseWrite (dt : Nat) (priv v : Bool) (s : State) (h : (Instr.freezeLeaseWrite dt priv v).wf = true) :
    exec (.freezeLeaseWrite dt priv v) s = .next (settle s ((mainWrite true priv (debugWrite (setFreeze v))) (advance dt s))) := event_given (dt := dt) (s := s)
    (f := (mainWrite true priv (debugWrite (setFreeze v)))) h
theorem exec_debugChallenge (dt : Nat) (ask : DebugAsk) (out : KOut) (s : State) (h : (Instr.debugChallenge dt ask out).wf = true) :
    exec (.debugChallenge dt ask out) s = .next (settle s ((debugChallenge ask.level out ask.testMode) (advance dt s))) := event_given (dt := dt) (s := s)
    (f := (debugChallenge ask.level out ask.testMode)) h
theorem exec_debugUnlockResponse (dt : Nat) (key sig : List Byte) (testMode : Bool) (s : State) (h : (Instr.debugUnlockResponse dt key sig testMode).wf = true) :
    exec (.debugUnlockResponse dt key sig testMode) s = .next (settle s ((unlockResponse key sig testMode) (advance dt s))) := event_given (dt := dt) (s := s)
    (f := (unlockResponse key sig testMode)) h
theorem exec_debugChallengeTimeout (dt : Nat) (s : State) (h : (Instr.debugChallengeTimeout dt).wf = true) :
    exec (.debugChallengeTimeout dt) s = .next (settle s (challengeTimeout (advance dt s))) := event_given (dt := dt) (s := s)
    (f := challengeTimeout) h
theorem exec_tgtClaim (dt t : Nat) (priv debug : Bool) (s : State) (h : (Instr.tgtClaim dt t priv debug).wf = true) :
    exec (.tgtClaim dt t priv debug) s = .next (settle s ((mainRead true priv debug (claimValue · t) (claim t)) (advance dt s))) := event_given (dt := dt) (s := s)
    (f := (mainRead true priv debug (claimValue · t) (claim t))) h
theorem exec_tgtComplete (dt t src : Nat) (priv : Bool) (s : State) (h : (Instr.tgtComplete dt t src priv).wf = true) :
    exec (.tgtComplete dt t src priv) s = .next (settle s ((mainWrite true priv (complete t src)) (advance dt s))) := event_given (dt := dt) (s := s)
    (f := (mainWrite true priv (complete t src))) h
theorem exec_faultAcknowledge (dt src : Nat) (priv : Bool) (s : State) (h : (Instr.faultAcknowledge dt src priv).wf = true) :
    exec (.faultAcknowledge dt src priv) s = .next (settle s ((keeperWrite priv (acknowledge src)) (advance dt s))) := event_given (dt := dt) (s := s)
    (f := (keeperWrite priv (acknowledge src))) h
theorem exec_faultFirstClr (dt : Nat) (priv : Bool) (s : State) (h : (Instr.faultFirstClr dt priv).wf = true) :
    exec (.faultFirstClr dt priv) s = .next (settle s ((mainWrite true priv (fun s => { s with faults := { s.faults with first := none } })) (advance dt s))) := event_given (dt := dt) (s := s)
    (f := (mainWrite true priv (fun s => { s with faults := { s.faults with first := none } }))) h
theorem exec_faultLogRead (dt : Nat) (priv debug : Bool) (s : State) (h : (Instr.faultLogRead dt priv debug).wf = true) :
    exec (.faultLogRead dt priv debug) s = .next (settle s ((keeperRead priv debug logWord takeLog) (advance dt s))) := event_given (dt := dt) (s := s)
    (f := (keeperRead priv debug logWord takeLog)) h
theorem exec_fiArm (dt : Nat) (priv : Bool) (mode src cause cls : Nat) (s : State) (h : (Instr.fiArm dt priv mode src cause cls).wf = true) :
    exec (.fiArm dt priv mode src cause cls) s = .next (settle s ((mainWrite true priv (writeFi true mode src cause cls)) (advance dt s))) := event_given (dt := dt) (s := s)
    (f := (mainWrite true priv (writeFi true mode src cause cls))) h
theorem exec_drawKatStart (dt : Nat) (priv : Bool) (lane : Nat) (s : State) (h : (Instr.drawKatStart dt priv lane).wf = true) :
    exec (.drawKatStart dt priv lane) s = .next (settle s ((mainWrite true priv (katBegin lane)) (advance dt s))) := event_given (dt := dt) (s := s)
    (f := (mainWrite true priv (katBegin lane))) h
theorem exec_pressHb (dt : Nat) (s : State) (h : (Instr.pressHb dt).wf = true) :
    exec (.pressHb dt) s = .next (settle s (pressBeat (advance dt s))) := event_given (dt := dt) (s := s)
    (f := pressBeat) h
theorem exec_pressSparesWrite (dt : Nat) (priv : Bool) (k : Nat) (s : State) (h : (Instr.pressSparesWrite dt priv k).wf = true) :
    exec (.pressSparesWrite dt priv k) s = .next (settle s ((mainWrite true priv (writeSpares k)) (advance dt s))) := event_given (dt := dt) (s := s)
    (f := (mainWrite true priv (writeSpares k))) h
theorem exec_mgmtLock (dt : Nat) (priv : Bool) (s : State) (h : (Instr.mgmtLock dt priv).wf = true) :
    exec (.mgmtLock dt priv) s = .next (settle s ((keeperWrite priv (fun s => { s with mgmt := { s.mgmt with lock := true } })) (advance dt s))) := event_given (dt := dt) (s := s)
    (f := (keeperWrite priv (fun s => { s with mgmt := { s.mgmt with lock := true } }))) h
theorem exec_mailboxOpen (dt : Nat) (mem : ExtMem) (outs : List KOut) (s : State) (h : (Instr.mailboxOpen dt mem outs).wf = true) :
    exec (.mailboxOpen dt mem outs) s = .next (settle s ((mailboxOpen mem outs) (advance dt s))) := event_given (dt := dt) (s := s)
    (f := (mailboxOpen mem outs)) h
theorem exec_fwConfirm (dt : Nat) (outs : List KOut) (s : State) (h : (Instr.fwConfirm dt outs).wf = true) :
    exec (.fwConfirm dt outs) s = .next (settle s ((confirmRun outs) (advance dt s))) := event_given (dt := dt) (s := s)
    (f := (confirmRun outs)) h
theorem exec_fwConfirmRetry (dt : Nat) (outs : List KOut) (s : State) (h : (Instr.fwConfirmRetry dt outs).wf = true) :
    exec (.fwConfirmRetry dt outs) s = .next (settle s ((confirmRun outs) (advance dt s))) := event_given (dt := dt) (s := s)
    (f := (confirmRun outs)) h
theorem exec_watchdogExpiry (dt pair : Nat) (s : State) (h : (Instr.watchdogExpiry dt pair).wf = true) :
    exec (.watchdogExpiry dt pair) s = .next (settle s ((onWatchdogExpiry pair) (advance dt s))) := event_given (dt := dt) (s := s)
    (f := (onWatchdogExpiry pair)) h
theorem exec_lockstepMismatch (dt pair : Nat) (s : State) (h : (Instr.lockstepMismatch dt pair).wf = true) :
    exec (.lockstepMismatch dt pair) s = .next (settle s ((onLockstepMismatch pair) (advance dt s))) := event_given (dt := dt) (s := s)
    (f := (onLockstepMismatch pair)) h
theorem exec_controlSramError (dt word : Nat) (finding : SramFinding) (s : State) (h : (Instr.controlSramError dt word finding).wf = true) :
    exec (.controlSramError dt word finding) s = .next (settle s ((onControlSramError word finding) (advance dt s))) := event_given (dt := dt) (s := s)
    (f := (onControlSramError word finding)) h
theorem exec_coreException (dt core cause faultAddr : Nat) (s : State) (h : (Instr.coreException dt core cause faultAddr).wf = true) :
    exec (.coreException dt core cause faultAddr) s = .next (settle s ((coreException core cause faultAddr) (advance dt s))) := event_given (dt := dt) (s := s)
    (f := (coreException core cause faultAddr)) h
theorem exec_mmuRefusal (dt : Nat) (s : State) (h : (Instr.mmuRefusal dt).wf = true) :
    exec (.mmuRefusal dt) s = .next (settle s (onMmuRefusal (advance dt s))) := event_given (dt := dt) (s := s)
    (f := onMmuRefusal) h
theorem exec_getVersion (dt box : Nat) (s : State) (h : (Instr.getVersion dt box).wf = true) :
    exec (.getVersion dt box) s = .next (settle s ((command box 0x01 anyReq (fun _ s => answer box 0 0 (versionPayload s box) s)) (advance dt s))) := event_given (dt := dt) (s := s)
    (f := (command box 0x01 anyReq (fun _ s => answer box 0 0 (versionPayload s box) s))) h
theorem exec_openContext (dt box : Nat) (s : State) (h : (Instr.openContext dt box).wf = true) :
    exec (.openContext dt box) s = .next (settle s ((command box 0x02 anyReq (openContext box)) (advance dt s))) := event_given (dt := dt) (s := s)
    (f := (command box 0x02 anyReq (openContext box))) h
theorem exec_closeContext (dt box : Nat) (mem : ExtMem) (s : State) (h : (Instr.closeContext dt box mem).wf = true) :
    exec (.closeContext dt box mem) s = .next (settle s ((command box 0x03 anyReq (closeContext (stopCtxRings mem) box)) (advance dt s))) := event_given (dt := dt) (s := s)
    (f := (command box 0x03 anyReq (closeContext (stopCtxRings mem) box))) h
theorem exec_contextClosed (dt ctx : Nat) (s : State) (h : (Instr.contextClosed dt ctx).wf = true) :
    exec (.contextClosed dt ctx) s = .next (settle s ((contextClosed ctx) (advance dt s))) := event_given (dt := dt) (s := s)
    (f := (contextClosed ctx)) h
theorem exec_loadBinding (dt box : Nat) (mem : ExtMem) (alloc : Nat) (s : State) (h : (Instr.loadBinding dt box mem alloc).wf = true) :
    exec (.loadBinding dt box mem alloc) s = .next (settle s ((command box 0x10 (fun b => field b 0x0C 4 = 0) (loadNew box mem alloc)) (advance dt s))) := event_given (dt := dt) (s := s)
    (f := (command box 0x10 (fun b => field b 0x0C 4 = 0) (loadNew box mem alloc))) h
theorem exec_loadBindingReplace (dt box : Nat) (mem : ExtMem) (s : State) (h : (Instr.loadBindingReplace dt box mem).wf = true) :
    exec (.loadBindingReplace dt box mem) s = .next (settle s ((command box 0x10 (fun b => !(field b 0x0C 4 = 0)) (loadReplace box mem)) (advance dt s))) := event_given (dt := dt) (s := s)
    (f := (command box 0x10 (fun b => !(field b 0x0C 4 = 0)) (loadReplace box mem))) h
theorem exec_admitBinding (dt box : Nat) (s : State) (h : (Instr.admitBinding dt box).wf = true) :
    exec (.admitBinding dt box) s = .next (settle s ((command box 0x11 anyReq (admitBinding box)) (advance dt s))) := event_given (dt := dt) (s := s)
    (f := (command box 0x11 anyReq (admitBinding box))) h
theorem exec_admissionTakesEffect (dt handle : Nat) (s : State) (h : (Instr.admissionTakesEffect dt handle).wf = true) :
    exec (.admissionTakesEffect dt handle) s = .next (settle s ((takeEffect handle) (advance dt s))) := event_given (dt := dt) (s := s)
    (f := (takeEffect handle)) h
theorem exec_retireBinding (dt box : Nat) (s : State) (h : (Instr.retireBinding dt box).wf = true) :
    exec (.retireBinding dt box) s = .next (settle s ((command box 0x12 anyReq (retireBinding box)) (advance dt s))) := event_given (dt := dt) (s := s)
    (f := (command box 0x12 anyReq (retireBinding box))) h
theorem exec_bindingLeavesPlan (dt handle : Nat) (s : State) (h : (Instr.bindingLeavesPlan dt handle).wf = true) :
    exec (.bindingLeavesPlan dt handle) s = .next (settle s ((leavePlan handle) (advance dt s))) := event_given (dt := dt) (s := s)
    (f := (leavePlan handle)) h
theorem exec_attachStream (dt box : Nat) (s : State) (h : (Instr.attachStream dt box).wf = true) :
    exec (.attachStream dt box) s = .next (settle s ((command box 0x20 anyReq (attachStream box)) (advance dt s))) := event_given (dt := dt) (s := s)
    (f := (command box 0x20 anyReq (attachStream box))) h
theorem exec_streamAttached (dt stream : Nat) (s : State) (h : (Instr.streamAttached dt stream).wf = true) :
    exec (.streamAttached dt stream) s = .next (settle s ((streamAttached stream) (advance dt s))) := event_given (dt := dt) (s := s)
    (f := (streamAttached stream)) h
theorem exec_detachAfterFrame (dt box : Nat) (s : State) (h : (Instr.detachAfterFrame dt box).wf = true) :
    exec (.detachAfterFrame dt box) s = .next (settle s ((command box 0x21 (fun b => !(byteAt b 9 = 1)) (detachStream box)) (advance dt s))) := event_given (dt := dt) (s := s)
    (f := (command box 0x21 (fun b => !(byteAt b 9 = 1)) (detachStream box))) h
theorem exec_detachAtOnce (dt box : Nat) (s : State) (h : (Instr.detachAtOnce dt box).wf = true) :
    exec (.detachAtOnce dt box) s = .next (settle s ((command box 0x21 (fun b => byteAt b 9 = 1) (detachStream box)) (advance dt s))) := event_given (dt := dt) (s := s)
    (f := (command box 0x21 (fun b => byteAt b 9 = 1) (detachStream box))) h
theorem exec_defineSyncGroup (dt box : Nat) (s : State) (h : (Instr.defineSyncGroup dt box).wf = true) :
    exec (.defineSyncGroup dt box) s = .next (settle s ((command box 0x22 anyReq (defineGroup box)) (advance dt s))) := event_given (dt := dt) (s := s)
    (f := (command box 0x22 anyReq (defineGroup box))) h
theorem exec_syncGroupEffect (dt group : Nat) (s : State) (h : (Instr.syncGroupEffect dt group).wf = true) :
    exec (.syncGroupEffect dt group) s = .next (settle s ((groupEffect group) (advance dt s))) := event_given (dt := dt) (s := s)
    (f := (groupEffect group)) h
theorem exec_createPool (dt box : Nat) (s : State) (h : (Instr.createPool dt box).wf = true) :
    exec (.createPool dt box) s = .next (settle s ((command box 0x30 anyReq (createPool box)) (advance dt s))) := event_given (dt := dt) (s := s)
    (f := (command box 0x30 anyReq (createPool box))) h
theorem exec_destroyPool (dt box : Nat) (s : State) (h : (Instr.destroyPool dt box).wf = true) :
    exec (.destroyPool dt box) s = .next (settle s ((command box 0x31 anyReq (destroyPool box)) (advance dt s))) := event_given (dt := dt) (s := s)
    (f := (command box 0x31 anyReq (destroyPool box))) h
theorem exec_poolDrained (dt handle cls : Nat) (s : State) (h : (Instr.poolDrained dt handle cls).wf = true) :
    exec (.poolDrained dt handle cls) s = .next (settle s (dropDrained (advance dt s))) := event_given (dt := dt) (s := s)
    (f := dropDrained) h
theorem exec_setGuard (dt box : Nat) (s : State) (h : (Instr.setGuard dt box).wf = true) :
    exec (.setGuard dt box) s = .next (settle s ((command box 0x38 anyReq (setGuard box)) (advance dt s))) := event_given (dt := dt) (s := s)
    (f := (command box 0x38 anyReq (setGuard box))) h
theorem exec_setDrawKey (dt box : Nat) (s : State) (h : (Instr.setDrawKey dt box).wf = true) :
    exec (.setDrawKey dt box) s = .next (settle s ((command box 0x40 anyReq (setDrawKey box)) (advance dt s))) := event_given (dt := dt) (s := s)
    (f := (command box 0x40 anyReq (setDrawKey box))) h
theorem exec_loadCoeff (dt box : Nat) (mem : ExtMem) (s : State) (h : (Instr.loadCoeff dt box mem).wf = true) :
    exec (.loadCoeff dt box mem) s = .next (settle s ((command box 0x48 anyReq (loadCoeff box mem)) (advance dt s))) := event_given (dt := dt) (s := s)
    (f := (command box 0x48 anyReq (loadCoeff box mem))) h
theorem exec_updateFinalState (dt : Nat) (obj : UpdObj) (s : State) (h : (Instr.updateFinalState dt obj).wf = true) :
    exec (.updateFinalState dt obj) s = .next (settle s ((onUpdateFinalState obj) (advance dt s))) := event_given (dt := dt) (s := s)
    (f := (onUpdateFinalState obj)) h
theorem exec_setEnergyBudget (dt box : Nat) (s : State) (h : (Instr.setEnergyBudget dt box).wf = true) :
    exec (.setEnergyBudget dt box) s = .next (settle s ((command box 0x50 anyReq (setBudget box)) (advance dt s))) := event_given (dt := dt) (s := s)
    (f := (command box 0x50 anyReq (setBudget box))) h
theorem exec_shelfRegion (dt box : Nat) (s : State) (h : (Instr.shelfRegion dt box).wf = true) :
    exec (.shelfRegion dt box) s = .next (settle s ((command box 0x58 (fun b => byteAt b 9 = 0 || 3 ≤ byteAt b 9) (shelfRegion box)) (advance dt s))) := event_given (dt := dt) (s := s)
    (f := (command box 0x58 (fun b => byteAt b 9 = 0 || 3 ≤ byteAt b 9) (shelfRegion box))) h
theorem exec_shelfQuota (dt box : Nat) (s : State) (h : (Instr.shelfQuota dt box).wf = true) :
    exec (.shelfQuota dt box) s = .next (settle s ((command box 0x58 (fun b => byteAt b 9 = 1) (shelfQuota box)) (advance dt s))) := event_given (dt := dt) (s := s)
    (f := (command box 0x58 (fun b => byteAt b 9 = 1) (shelfQuota box))) h
theorem exec_shelfFlush (dt box : Nat) (s : State) (h : (Instr.shelfFlush dt box).wf = true) :
    exec (.shelfFlush dt box) s = .next (settle s ((command box 0x58 (fun b => byteAt b 9 = 2) (shelfFlush box)) (advance dt s))) := event_given (dt := dt) (s := s)
    (f := (command box 0x58 (fun b => byteAt b 9 = 2) (shelfFlush box))) h
theorem exec_ringCreate (dt box : Nat) (s : State) (h : (Instr.ringCreate dt box).wf = true) :
    exec (.ringCreate dt box) s = .next (settle s ((command box 0x60 anyReq (ringCreate box)) (advance dt s))) := event_given (dt := dt) (s := s)
    (f := (command box 0x60 anyReq (ringCreate box))) h
theorem exec_ringResetDrain (dt box : Nat) (s : State) (h : (Instr.ringResetDrain dt box).wf = true) :
    exec (.ringResetDrain dt box) s = .next (settle s ((command box 0x61 (fun b => byteAt b 0x0A = 0 || 3 ≤ byteAt b 0x0A) (ringReset box)) (advance dt s))) := event_given (dt := dt) (s := s)
    (f := (command box 0x61 (fun b => byteAt b 0x0A = 0 || 3 ≤ byteAt b 0x0A) (ringReset box))) h
theorem exec_ringResetAbort (dt box : Nat) (s : State) (h : (Instr.ringResetAbort dt box).wf = true) :
    exec (.ringResetAbort dt box) s = .next (settle s ((command box 0x61 (fun b => byteAt b 0x0A = 1) (ringReset box)) (advance dt s))) := event_given (dt := dt) (s := s)
    (f := (command box 0x61 (fun b => byteAt b 0x0A = 1) (ringReset box))) h
theorem exec_ringResetDestroy (dt box : Nat) (s : State) (h : (Instr.ringResetDestroy dt box).wf = true) :
    exec (.ringResetDestroy dt box) s = .next (settle s ((command box 0x61 (fun b => byteAt b 0x0A = 2) (ringReset box)) (advance dt s))) := event_given (dt := dt) (s := s)
    (f := (command box 0x61 (fun b => byteAt b 0x0A = 2) (ringReset box))) h
theorem exec_ringResetDone (dt ctx ring : Nat) (s : State) (h : (Instr.ringResetDone dt ctx ring).wf = true) :
    exec (.ringResetDone dt ctx ring) s = .next (settle s ((resetDone ctx ring) (advance dt s))) := event_given (dt := dt) (s := s)
    (f := (resetDone ctx ring)) h
theorem exec_queryStats (dt box : Nat) (s : State) (h : (Instr.queryStats dt box).wf = true) :
    exec (.queryStats dt box) s = .next (settle s ((command box 0x70 anyReq (queryStats box)) (advance dt s))) := event_given (dt := dt) (s := s)
    (f := (command box 0x70 anyReq (queryStats box))) h
theorem exec_keepRead (dt box : Nat) (s : State) (h : (Instr.keepRead dt box).wf = true) :
    exec (.keepRead dt box) s = .next (settle s ((command box 0x78 anyReq (keepRead box)) (advance dt s))) := event_given (dt := dt) (s := s)
    (f := (command box 0x78 anyReq (keepRead box))) h
theorem exec_keepWrite (dt box : Nat) (out : KOut) (s : State) (h : (Instr.keepWrite dt box out).wf = true) :
    exec (.keepWrite dt box out) s = .next (settle s ((command box 0x79 anyReq (keepWrite box out)) (advance dt s))) := event_given (dt := dt) (s := s)
    (f := (command box 0x79 anyReq (keepWrite box out))) h
theorem exec_fwStage (dt box : Nat) (mem : ExtMem) (s : State) (h : (Instr.fwStage dt box mem).wf = true) :
    exec (.fwStage dt box mem) s = .next (settle s ((command box 0x7E anyReq (fwStage box mem)) (advance dt s))) := event_given (dt := dt) (s := s)
    (f := (command box 0x7E anyReq (fwStage box mem))) h
theorem exec_fwActivate (dt box : Nat) (out : KOut) (s : State) (h : (Instr.fwActivate dt box out).wf = true) :
    exec (.fwActivate dt box out) s = .next (settle s ((command box 0x7F anyReq (fwActivate box out)) (advance dt s))) := event_given (dt := dt) (s := s)
    (f := (command box 0x7F anyReq (fwActivate box out))) h
theorem exec_ringFetchIssue (dt : Nat) (s : State) (h : (Instr.ringFetchIssue dt).wf = true) :
    exec (.ringFetchIssue dt) s = .next (settle s (fetchTurn (advance dt s))) := event_given (dt := dt) (s := s)
    (f := fetchTurn) h
theorem exec_entryFetched (dt ctx ring : Nat) (s : State) (h : (Instr.entryFetched dt ctx ring).wf = true) :
    exec (.entryFetched dt ctx ring) s = .next (settle s ((entryFetched ctx ring) (advance dt s))) := event_given (dt := dt) (s := s)
    (f := (entryFetched ctx ring)) h
theorem exec_submit (dt ctx ring count : Nat) (mem : ExtMem) (s : State) (h : (Instr.submit dt ctx ring count mem).wf = true) :
    exec (.submit dt ctx ring count mem) s = .next (settle s ((submitRun ctx ring count mem) (advance dt s))) := event_given (dt := dt) (s := s)
    (f := (submitRun ctx ring count mem)) h
theorem exec_freeBuffer (dt ctx ring count : Nat) (s : State) (h : (Instr.freeBuffer dt ctx ring count).wf = true) :
    exec (.freeBuffer dt ctx ring count) s = .next (settle s ((freeBuffer ctx ring count) (advance dt s))) := event_given (dt := dt) (s := s)
    (f := (freeBuffer ctx ring count)) h
theorem exec_shelfEvict (dt ctx ring count : Nat) (s : State) (h : (Instr.shelfEvict dt ctx ring count).wf = true) :
    exec (.shelfEvict dt ctx ring count) s = .next (settle s ((shelfEvict ctx ring count) (advance dt s))) := event_given (dt := dt) (s := s)
    (f := (shelfEvict ctx ring count)) h
theorem exec_fence (dt ctx ring count : Nat) (s : State) (h : (Instr.fence dt ctx ring count).wf = true) :
    exec (.fence dt ctx ring count) s = .next (settle s ((fenceEntry ctx ring count) (advance dt s))) := event_given (dt := dt) (s := s)
    (f := (fenceEntry ctx ring count)) h
theorem exec_nop (dt ctx ring count : Nat) (s : State) (h : (Instr.nop dt ctx ring count).wf = true) :
    exec (.nop dt ctx ring count) s = .next (settle s ((nopEntry ctx ring count) (advance dt s))) := event_given (dt := dt) (s := s)
    (f := (nopEntry ctx ring count)) h
theorem exec_draw (dt ctx ring count : Nat) (s : State) (h : (Instr.draw dt ctx ring count).wf = true) :
    exec (.draw dt ctx ring count) s = .next (settle s ((drawRun ctx ring count) (advance dt s))) := event_given (dt := dt) (s := s)
    (f := (drawRun ctx ring count)) h
theorem exec_entryDeadline (dt ctx ring count : Nat) (s : State) (h : (Instr.entryDeadline dt ctx ring count).wf = true) :
    exec (.entryDeadline dt ctx ring count) s = .next (settle s ((entryDeadline ctx ring count) (advance dt s))) := event_given (dt := dt) (s := s)
    (f := (entryDeadline ctx ring count)) h
theorem exec_slotBoundary (dt : Nat) (mem : ExtMem) (katFail : Bool) (s : State) (h : (Instr.slotBoundary dt mem katFail).wf = true) :
    exec (.slotBoundary dt mem katFail) s = .next (settle s ((slotBoundary mem katFail) (advance dt s))) := event_given (dt := dt) (s := s)
    (f := (slotBoundary mem katFail)) h
theorem exec_pressPeriodStart (dt : Nat) (flagged : Bool) (s : State) (h : (Instr.pressPeriodStart dt flagged).wf = true) :
    exec (.pressPeriodStart dt flagged) s = .next (settle s ((periodStart flagged) (advance dt s))) := event_given (dt := dt) (s := s)
    (f := (periodStart flagged)) h
theorem exec_stageBarrier (dt work strip : Nat) (s : State) (h : (Instr.stageBarrier dt work strip).wf = true) :
    exec (.stageBarrier dt work strip) s = .next (settle s ((stageBarrier work strip) (advance dt s))) := event_given (dt := dt) (s := s)
    (f := (stageBarrier work strip)) h
theorem exec_folioCompare (dt work index : Nat) (a b : Copy) (rel : CopyFrom) (s : State) (h : (Instr.folioCompare dt work index a b rel).wf = true) :
    exec (.folioCompare dt work index a b rel) s = .next (settle s ((folioCompare work index a b rel.rel rel.mem) (advance dt s))) := event_given (dt := dt) (s := s)
    (f := (folioCompare work index a b rel.rel rel.mem)) h
theorem exec_folioCompareTimeout (dt work index : Nat) (s : State) (h : (Instr.folioCompareTimeout dt work index).wf = true) :
    exec (.folioCompareTimeout dt work index) s = .next (settle s ((folioTimeout work index) (advance dt s))) := event_given (dt := dt) (s := s)
    (f := (folioTimeout work index)) h
theorem exec_replayDone (dt work index : Nat) (copy : Copy) (quireFault : Bool) (s : State) (h : (Instr.replayDone dt work index copy quireFault).wf = true) :
    exec (.replayDone dt work index copy quireFault) s = .next (settle s ((replayDone work index copy quireFault) (advance dt s))) := event_given (dt := dt) (s := s)
    (f := (replayDone work index copy quireFault)) h
theorem exec_memReadBeat (dt port tag : Nat) (data : List Byte) (beat : Nat) (last : Bool) (poison resp : Nat) (s : State) (h : (Instr.memReadBeat dt port tag data beat last poison resp).wf = true) :
    exec (.memReadBeat dt port tag data beat last poison resp) s = .next (settle s ((fun s => when s.mainUp (readBeat port tag data beat last poison resp) s) (advance dt s))) := event_given (dt := dt) (s := s)
    (f := (fun s => when s.mainUp (readBeat port tag data beat last poison resp) s)) h
theorem exec_memWriteResponse (dt port tag resp : Nat) (s : State) (h : (Instr.memWriteResponse dt port tag resp).wf = true) :
    exec (.memWriteResponse dt port tag resp) s = .next (settle s ((onMemWriteResponse port tag resp) (advance dt s))) := event_given (dt := dt) (s := s)
    (f := (onMemWriteResponse port tag resp)) h
theorem exec_memTimeout (dt port tag : Nat) (s : State) (h : (Instr.memTimeout dt port tag).wf = true) :
    exec (.memTimeout dt port tag) s = .next (settle s ((onMemTimeout port tag) (advance dt s))) := event_given (dt := dt) (s := s)
    (f := (onMemTimeout port tag)) h
theorem exec_viewAbandon (dt work : Nat) (s : State) (h : (Instr.viewAbandon dt work).wf = true) :
    exec (.viewAbandon dt work) s = .next (settle s ((viewAbandon work) (advance dt s))) := event_given (dt := dt) (s := s)
    (f := (viewAbandon work)) h
theorem exec_csi2LongPacket (dt port vc dtype : Nat) (ecc : Ecc) (payload : List Byte) (crcOk fifoLost storeErr : Bool) (s : State) (h : (Instr.csi2LongPacket dt port vc dtype ecc payload crcOk fifoLost storeErr).wf = true) :
    exec (.csi2LongPacket dt port vc dtype ecc payload crcOk fifoLost storeErr) s = .next (settle s ((withHeader port ecc (longPacket port vc dtype { payload, crcOk, fifoLost, storeErr })) (advance dt s))) := event_given (dt := dt) (s := s)
    (f := (withHeader port ecc (longPacket port vc dtype { payload, crcOk, fifoLost, storeErr }))) h
theorem exec_frameStart (dt port vc fn : Nat) (ecc : Ecc) (j : Int) (stampLost : Bool) (s : State) (h : (Instr.frameStart dt port vc fn ecc j stampLost).wf = true) :
    exec (.frameStart dt port vc fn ecc j stampLost) s = .next (settle s ((withHeader port ecc (frameStart port vc fn j stampLost)) (advance dt s))) := event_given (dt := dt) (s := s)
    (f := (withHeader port ecc (frameStart port vc fn j stampLost))) h
theorem exec_frameEnd (dt port vc fn : Nat) (ecc : Ecc) (j : Int) (stampLost : Bool) (s : State) (h : (Instr.frameEnd dt port vc fn ecc j stampLost).wf = true) :
    exec (.frameEnd dt port vc fn ecc j stampLost) s = .next (settle s ((withHeader port ecc (frameEnd port vc fn j stampLost)) (advance dt s))) := event_given (dt := dt) (s := s)
    (f := (withHeader port ecc (frameEnd port vc fn j stampLost))) h
theorem exec_lineStart (dt port vc : Nat) (ecc : Ecc) (s : State) (h : (Instr.lineStart dt port vc ecc).wf = true) :
    exec (.lineStart dt port vc ecc) s = .next (settle s ((withHeader port ecc (lineStart port vc)) (advance dt s))) := event_given (dt := dt) (s := s)
    (f := (withHeader port ecc (lineStart port vc))) h
theorem exec_lineEnd (dt port vc : Nat) (ecc : Ecc) (s : State) (h : (Instr.lineEnd dt port vc ecc).wf = true) :
    exec (.lineEnd dt port vc ecc) s = .next (settle s ((withHeader port ecc (lineEnd port vc)) (advance dt s))) := event_given (dt := dt) (s := s)
    (f := (withHeader port ecc (lineEnd port vc))) h
theorem exec_lineTimeout (dt stream : Nat) (s : State) (h : (Instr.lineTimeout dt stream).wf = true) :
    exec (.lineTimeout dt stream) s = .next (settle s ((lineTimeout stream) (advance dt s))) := event_given (dt := dt) (s := s)
    (f := (lineTimeout stream)) h
theorem exec_pclkWindow (dt port edges : Nat) (s : State) (h : (Instr.pclkWindow dt port edges).wf = true) :
    exec (.pclkWindow dt port edges) s = .next (settle s ((pclkWindow port edges) (advance dt s))) := event_given (dt := dt) (s := s)
    (f := (pclkWindow port edges)) h
theorem exec_stripReady (dt work strip : Nat) (s : State) (h : (Instr.stripReady dt work strip).wf = true) :
    exec (.stripReady dt work strip) s = .next (settle s ((stripReady work strip) (advance dt s))) := event_given (dt := dt) (s := s)
    (f := (stripReady work strip)) h
theorem exec_stripBufferRelease (dt work strip : Nat) (s : State) (h : (Instr.stripBufferRelease dt work strip).wf = true) :
    exec (.stripBufferRelease dt work strip) s = .next (settle s ((stripRelease work strip) (advance dt s))) := event_given (dt := dt) (s := s)
    (f := (stripRelease work strip)) h
theorem exec_syncWindowExpiry (dt group : Nat) (s : State) (h : (Instr.syncWindowExpiry dt group).wf = true) :
    exec (.syncWindowExpiry dt group) s = .next (settle s ((onSyncWindowExpiry group) (advance dt s))) := event_given (dt := dt) (s := s)
    (f := (onSyncWindowExpiry group)) h
theorem exec_pktParse (dt ring : Nat) (mem : ExtMem) (s : State) (h : (Instr.pktParse dt ring mem).wf = true) :
    exec (.pktParse dt ring mem) s = .next (settle s ((pktParse ring mem) (advance dt s))) := event_given (dt := dt) (s := s)
    (f := (pktParse ring mem)) h
theorem exec_pktGapTimeout (dt ring : Nat) (mem : ExtMem) (s : State) (h : (Instr.pktGapTimeout dt ring mem).wf = true) :
    exec (.pktGapTimeout dt ring mem) s = .next (settle s ((pktGap ring mem) (advance dt s))) := event_given (dt := dt) (s := s)
    (f := (pktGap ring mem)) h
theorem exec_motionRecordRetry (dt ring : Nat) (mem : ExtMem) (s : State) (h : (Instr.motionRecordRetry dt ring mem).wf = true) :
    exec (.motionRecordRetry dt ring mem) s = .next (settle s ((readMotionFor ring mem) (advance dt s))) := event_given (dt := dt) (s := s)
    (f := (readMotionFor ring mem)) h
theorem exec_regulatorRefill (dt : Nat) (s : State) (h : (Instr.regulatorRefill dt).wf = true) :
    exec (.regulatorRefill dt) s = .next (settle s (onRegulatorRefill (advance dt s))) := event_given (dt := dt) (s := s)
    (f := onRegulatorRefill) h
theorem exec_scrubPass (dt quire : Nat) (findings : List ScrubFinding) (s : State) (h : (Instr.scrubPass dt quire findings).wf = true) :
    exec (.scrubPass dt quire findings) s = .next (settle s ((scrubPass quire findings) (advance dt s))) := event_given (dt := dt) (s := s)
    (f := (scrubPass quire findings)) h
theorem exec_scrubRetry (dt quire : Nat) (findings : List ScrubFinding) (s : State) (h : (Instr.scrubRetry dt quire findings).wf = true) :
    exec (.scrubRetry dt quire findings) s = .next (settle s ((scrubRetry quire findings) (advance dt s))) := event_given (dt := dt) (s := s)
    (f := (scrubRetry quire findings)) h
theorem exec_selftestStep (dt : Nat) (s : State) (h : (Instr.selftestStep dt).wf = true) :
    exec (.selftestStep dt) s = .next (settle s (selfTestStep (advance dt s))) := event_given (dt := dt) (s := s)
    (f := selfTestStep) h
theorem exec_selftestStepEnd (dt : Nat) (pass : Bool) (s : State) (h : (Instr.selftestStepEnd dt pass).wf = true) :
    exec (.selftestStepEnd dt pass) s = .next (settle s ((selfTestEnd pass) (advance dt s))) := event_given (dt := dt) (s := s)
    (f := (selfTestEnd pass)) h
theorem exec_migrationStart (dt quire : Nat) (s : State) (h : (Instr.migrationStart dt quire).wf = true) :
    exec (.migrationStart dt quire) s = .next (settle s ((migrationStart quire) (advance dt s))) := event_given (dt := dt) (s := s)
    (f := (migrationStart quire)) h
theorem exec_migrationHandover (dt quire handle : Nat) (s : State) (h : (Instr.migrationHandover dt quire handle).wf = true) :
    exec (.migrationHandover dt quire handle) s = .next (settle s ((handover quire handle) (advance dt s))) := event_given (dt := dt) (s := s)
    (f := (handover quire handle)) h
theorem exec_migrationAbandonTimeout (dt quire : Nat) (s : State) (h : (Instr.migrationAbandonTimeout dt quire).wf = true) :
    exec (.migrationAbandonTimeout dt quire) s = .next (settle s ((abandonStages quire) (advance dt s))) := event_given (dt := dt) (s := s)
    (f := (abandonStages quire)) h
theorem exec_coeffReloadDone (dt handle gen set seg : Nat) (mem : ExtMem) (s : State) (h : (Instr.coeffReloadDone dt handle gen set seg mem).wf = true) :
    exec (.coeffReloadDone dt handle gen set seg mem) s = .next (settle s ((reloadDone handle gen set seg mem) (advance dt s))) := event_given (dt := dt) (s := s)
    (f := (reloadDone handle gen set seg mem)) h
theorem exec_faultReport (dt : Nat) (faults : List FaultIn) (s : State) (h : (Instr.faultReport dt faults).wf = true) :
    exec (.faultReport dt faults) s = .next (settle s ((onFaultReport faults) (advance dt s))) := event_given (dt := dt) (s := s)
    (f := (onFaultReport faults)) h
theorem exec_faultPulseEnd (dt : Nat) (s : State) (h : (Instr.faultPulseEnd dt).wf = true) :
    exec (.faultPulseEnd dt) s = .next (settle s (pulseEnd (advance dt s))) := event_given (dt := dt) (s := s)
    (f := pulseEnd) h
theorem exec_keepScan (dt : Nat) (corrected bad : List Nat) (s : State) (h : (Instr.keepScan dt corrected bad).wf = true) :
    exec (.keepScan dt corrected bad) s = .next (settle s ((keepScan corrected bad) (advance dt s))) := event_given (dt := dt) (s := s)
    (f := (keepScan corrected bad)) h
theorem exec_keepRecordWrite (dt : Nat) (out : KOut) (s : State) (h : (Instr.keepRecordWrite dt out).wf = true) :
    exec (.keepRecordWrite dt out) s = .next (settle s ((keepTurn out) (advance dt s))) := event_given (dt := dt) (s := s)
    (f := (keepTurn out)) h
theorem exec_keepWarnTimeout (dt : Nat) (s : State) (h : (Instr.keepWarnTimeout dt).wf = true) :
    exec (.keepWarnTimeout dt) s = .next (settle s (keepTimeout (advance dt s))) := event_given (dt := dt) (s := s)
    (f := keepTimeout) h
theorem exec_journalAppend (dt : Nat) (outs : List KOut) (s : State) (h : (Instr.journalAppend dt outs).wf = true) :
    exec (.journalAppend dt outs) s = .next (settle s ((journalAppend outs) (advance dt s))) := event_given (dt := dt) (s := s)
    (f := (journalAppend outs)) h
theorem exec_journalRetry (dt : Nat) (outs : List KOut) (s : State) (h : (Instr.journalRetry dt outs).wf = true) :
    exec (.journalRetry dt outs) s = .next (settle s ((journalRetry outs) (advance dt s))) := event_given (dt := dt) (s := s)
    (f := (journalRetry outs)) h
theorem exec_journalCompaction (dt : Nat) (outs : List KOut) (s : State) (h : (Instr.journalCompaction dt outs).wf = true) :
    exec (.journalCompaction dt outs) s = .next (settle s ((compactStep outs) (advance dt s))) := event_given (dt := dt) (s := s)
    (f := (compactStep outs)) h
theorem exec_mramRailRelease (dt : Nat) (s : State) (h : (Instr.mramRailRelease dt).wf = true) :
    exec (.mramRailRelease dt) s = .next (settle s (mramRelease (advance dt s))) := event_given (dt := dt) (s := s)
    (f := mramRelease) h
theorem exec_evtSignal (dt t : Nat) (s : State) (h : (Instr.evtSignal dt t).wf = true) :
    exec (.evtSignal dt t) s = .next (settle s ((signal t) (advance dt s))) := event_given (dt := dt) (s := s)
    (f := (signal t)) h
theorem exec_evtMessage (dt t : Nat) (s : State) (h : (Instr.evtMessage dt t).wf = true) :
    exec (.evtMessage dt t) s = .next (settle s ((message t) (advance dt s))) := event_given (dt := dt) (s := s)
    (f := (message t)) h
theorem exec_moderationExpiry (dt t : Nat) (s : State) (h : (Instr.moderationExpiry dt t).wf = true) :
    exec (.moderationExpiry dt t) s = .next (settle s ((moderationEnd t) (advance dt s))) := event_given (dt := dt) (s := s)
    (f := (moderationEnd t)) h
theorem exec_evtStateParity (dt : Nat) (kind : EvtParity) (s : State) (h : (Instr.evtStateParity dt kind).wf = true) :
    exec (.evtStateParity dt kind) s = .next (settle s ((onEvtStateParity kind) (advance dt s))) := event_given (dt := dt) (s := s)
    (f := (onEvtStateParity kind)) h
theorem exec_entdaa (dt addr : Nat) (s : State) (h : (Instr.entdaa dt addr).wf = true) :
    exec (.entdaa dt addr) s = .next (settle s ((i3cAssign true addr) (advance dt s))) := event_given (dt := dt) (s := s)
    (f := (i3cAssign true addr)) h
theorem exec_setdasa (dt saddr addr : Nat) (s : State) (h : (Instr.setdasa dt saddr addr).wf = true) :
    exec (.setdasa dt saddr addr) s = .next (settle s ((onSetdasa saddr addr) (advance dt s))) := event_given (dt := dt) (s := s)
    (f := (onSetdasa saddr addr)) h
theorem exec_setnewda (dt addr : Nat) (s : State) (h : (Instr.setnewda dt addr).wf = true) :
    exec (.setnewda dt addr) s = .next (settle s ((i3cDirect (giveAddr addr)) (advance dt s))) := event_given (dt := dt) (s := s)
    (f := (i3cDirect (giveAddr addr))) h
theorem exec_rstdaa (dt : Nat) (s : State) (h : (Instr.rstdaa dt).wf = true) :
    exec (.rstdaa dt) s = .next (settle s (onRstdaa (advance dt s))) := event_given (dt := dt) (s := s)
    (f := onRstdaa) h
theorem exec_enec (dt : Nat) (enint : Bool) (s : State) (h : (Instr.enec dt enint).wf = true) :
    exec (.enec dt enint) s = .next (settle s ((i3cBroadcast (fun s => i3cReply [] { s with mgmt := { s.mgmt with enint := s.mgmt.enint || enint } })) (advance dt s))) := event_given (dt := dt) (s := s)
    (f := (i3cBroadcast (fun s => i3cReply [] { s with mgmt := { s.mgmt with enint := s.mgmt.enint || enint } }))) h
theorem exec_disec (dt : Nat) (enint : Bool) (s : State) (h : (Instr.disec dt enint).wf = true) :
    exec (.disec dt enint) s = .next (settle s ((i3cBroadcast (fun s => i3cReply [] { s with mgmt := { s.mgmt with enint := s.mgmt.enint && !enint } })) (advance dt s))) := event_given (dt := dt) (s := s)
    (f := (i3cBroadcast (fun s => i3cReply [] { s with mgmt := { s.mgmt with enint := s.mgmt.enint && !enint } }))) h
theorem exec_getpid (dt : Nat) (s : State) (h : (Instr.getpid dt).wf = true) :
    exec (.getpid dt) s = .next (settle s ((i3cDirect (fun s => i3cReply (beBytes (provisionalId s) 6) s)) (advance dt s))) := event_given (dt := dt) (s := s)
    (f := (i3cDirect (fun s => i3cReply (beBytes (provisionalId s) 6) s))) h
theorem exec_getbcr (dt : Nat) (s : State) (h : (Instr.getbcr dt).wf = true) :
    exec (.getbcr dt) s = .next (settle s ((i3cDirect (i3cReply [0x06])) (advance dt s))) := event_given (dt := dt) (s := s)
    (f := (i3cDirect (i3cReply [0x06]))) h
theorem exec_getdcr (dt : Nat) (s : State) (h : (Instr.getdcr dt).wf = true) :
    exec (.getdcr dt) s = .next (settle s ((i3cDirect (i3cReply [0x00])) (advance dt s))) := event_given (dt := dt) (s := s)
    (f := (i3cDirect (i3cReply [0x00]))) h
theorem exec_getmwl (dt : Nat) (s : State) (h : (Instr.getmwl dt).wf = true) :
    exec (.getmwl dt) s = .next (settle s ((i3cDirect (i3cReply (beBytes 8 2))) (advance dt s))) := event_given (dt := dt) (s := s)
    (f := (i3cDirect (i3cReply (beBytes 8 2)))) h
theorem exec_getmrl (dt : Nat) (s : State) (h : (Instr.getmrl dt).wf = true) :
    exec (.getmrl dt) s = .next (settle s ((i3cDirect (i3cReply (beBytes 8 2 ++ [5]))) (advance dt s))) := event_given (dt := dt) (s := s)
    (f := (i3cDirect (i3cReply (beBytes 8 2 ++ [5])))) h
theorem exec_getstatus (dt : Nat) (s : State) (h : (Instr.getstatus dt).wf = true) :
    exec (.getstatus dt) s = .next (settle s ((i3cDirect getStatus) (advance dt s))) := event_given (dt := dt) (s := s)
    (f := (i3cDirect getStatus)) h
theorem exec_i3cPrivateWrite (dt : Nat) (bytes : List Byte) (parityErr overrun : Bool) (s : State) (h : (Instr.i3cPrivateWrite dt bytes parityErr overrun).wf = true) :
    exec (.i3cPrivateWrite dt bytes parityErr overrun) s = .next (settle s ((i3cDirect (privateWrite bytes parityErr overrun)) (advance dt s))) := event_given (dt := dt) (s := s)
    (f := (i3cDirect (privateWrite bytes parityErr overrun))) h
theorem exec_i3cPrivateRead (dt n : Nat) (underrun : Bool) (s : State) (h : (Instr.i3cPrivateRead dt n underrun).wf = true) :
    exec (.i3cPrivateRead dt n underrun) s = .next (settle s ((i3cDirect (privateRead n underrun)) (advance dt s))) := event_given (dt := dt) (s := s)
    (f := (i3cDirect (privateRead n underrun))) h
theorem exec_kread (dt : Nat) (s : State) (h : (Instr.kread dt).wf = true) :
    exec (.kread dt) s = .next (settle s ((mgCommand 0x01 mgRead) (advance dt s))) := event_given (dt := dt) (s := s)
    (f := (mgCommand 0x01 mgRead)) h
theorem exec_kwrite (dt : Nat) (out : KOut) (s : State) (h : (Instr.kwrite dt out).wf = true) :
    exec (.kwrite dt out) s = .next (settle s ((mgCommand 0x02 (mgWrite out)) (advance dt s))) := event_given (dt := dt) (s := s)
    (f := (mgCommand 0x02 (mgWrite out))) h
theorem exec_wake (dt : Nat) (s : State) (h : (Instr.wake dt).wf = true) :
    exec (.wake dt) s = .next (settle s ((mgCommand 0x10 mgWake) (advance dt s))) := event_given (dt := dt) (s := s)
    (f := (mgCommand 0x10 mgWake)) h
theorem exec_restart (dt : Nat) (s : State) (h : (Instr.restart dt).wf = true) :
    exec (.restart dt) s = .next (settle s ((mgCommand 0x11 mgRestart) (advance dt s))) := event_given (dt := dt) (s := s)
    (f := (mgCommand 0x11 mgRestart)) h
theorem exec_ibiSend (dt : Nat) (nacked : Bool) (s : State) (h : (Instr.ibiSend dt nacked).wf = true) :
    exec (.ibiSend dt nacked) s = .next (settle s ((ibiTurn nacked) (advance dt s))) := event_given (dt := dt) (s := s)
    (f := (ibiTurn nacked)) h
theorem exec_keeperInitDone (dt : Nat) (s : State) (h : (Instr.keeperInitDone dt).wf = true) :
    exec (.keeperInitDone dt) s = .next (settle s (keeperReady (advance dt s))) := event_given (dt := dt) (s := s)
    (f := keeperReady) h
theorem exec_genericShortPacket (dt port : Nat) (ecc : Ecc) (s : State) (h : (Instr.genericShortPacket dt port ecc).wf = true) :
    exec (.genericShortPacket dt port ecc) s = .next (settle s ((withHeader port ecc (dropPacket port)) (advance dt s))) := event_given (dt := dt) (s := s)
    (f := (withHeader port ecc (dropPacket port))) h
theorem exec_closeResponseHoldExpiry (dt ctx : Nat) (s : State) (h : (Instr.closeResponseHoldExpiry dt ctx).wf = true) :
    exec (.closeResponseHoldExpiry dt ctx) s = .next (settle s ((onCloseResponseHoldExpiry ctx) (advance dt s))) := event_given (dt := dt) (s := s)
    (f := (onCloseResponseHoldExpiry ctx)) h
theorem exec_stockSweep (dt pool buf resp : Nat) (poisoned : Bool) (s : State) (h : (Instr.stockSweep dt pool buf resp poisoned).wf = true) :
    exec (.stockSweep dt pool buf resp poisoned) s = .next (settle s ((stockSweep pool buf resp poisoned) (advance dt s))) := event_given (dt := dt) (s := s)
    (f := (stockSweep pool buf resp poisoned)) h
theorem exec_minimumHighTimeEnd (dt : Nat) (s : State) (h : (Instr.minimumHighTimeEnd dt).wf = true) :
    exec (.minimumHighTimeEnd dt) s = .next (settle s (highTimeEnd (advance dt s))) := event_given (dt := dt) (s := s)
    (f := highTimeEnd) h
theorem exec_idleRecordAck (dt src : Nat) (s : State) (h : (Instr.idleRecordAck dt src).wf = true) :
    exec (.idleRecordAck dt src) s = .next (settle s ((onIdleRecordAck src) (advance dt s))) := event_given (dt := dt) (s := s)
    (f := (onIdleRecordAck src)) h

/-- Every command is an event of its own operation. -/
theorem exec_form (c : Instr) (s : State) : ∃ dt f, exec c s = event c.wf dt s f := by
  cases c
  all_goals exact ⟨_, _, rfl⟩


end Sys2Proof.Machine
end

