-- ==== Sys2Proof/Laws/Faults.lean ====
section
/-! SUPPORT. What recording a fault leaves and what it writes (14 R465-R470), and a fault that no record of its source precedes. -/

namespace Sys2Proof.Machine

/-- Two states differ in the collector, the management registers and the press alone. -/
def Recorded (s t : State) : Prop := ∃ fa mg pr, t = { s with faults := fa, mgmt := mg, press := pr }

theorem Recorded.refl (s : State) : Recorded s s := ⟨_, _, _, rfl⟩

theorem Recorded.trans {s t u : State} (h : Recorded s t) (k : Recorded t u) : Recorded s u := by
  obtain ⟨_, _, _, rfl⟩ := h
  obtain ⟨fa, mg, pr, rfl⟩ := k
  exact ⟨fa, mg, pr, rfl⟩

theorem recorded_pushLog (e : LogEntry) (s : State) : Recorded s (pushLog e s) := by unfold pushLog; split <;> exact ⟨_, _, _, rfl⟩
theorem recorded_pulseNow (s : State) : Recorded s (pulseNow s) := ⟨_, _, _, rfl⟩
theorem recorded_startPulse (s : State) : Recorded s (startPulse s) := by
  unfold startPulse; split
  · exact ⟨_, _, _, rfl⟩
  · exact recorded_pulseNow s
theorem recorded_refreshPin (s : State) : Recorded s (refreshPin s) := by unfold refreshPin; split <;> exact ⟨_, _, _, rfl⟩
theorem recorded_noteIbi (e : LogEntry) (s : State) : Recorded s (noteIbi e s) := by
  unfold noteIbi; repeat' split
  all_goals exact ⟨_, _, _, rfl⟩
theorem recorded_markQuire (f : FaultIn) (s : State) : Recorded s (markQuire f s) := by unfold markQuire; split <;> exact ⟨_, _, _, rfl⟩
theorem recorded_when (b : Bool) (f : State → State) (s : State) (h : Recorded s (f s)) : Recorded s (when b f s) := by
  unfold when; split
  · exact h
  · exact .refl s

theorem recorded_collect1 (f : FaultIn) (s : State) : Recorded s (collect1 f s) := by
  exact ((Recorded.trans (.trans ⟨_, _, _, rfl⟩ (recorded_markQuire f _)) (recorded_pushLog _ _)).trans
    (recorded_when _ _ _ (recorded_noteIbi _ _))).trans (.trans (recorded_when _ _ _ (recorded_startPulse _)) (recorded_refreshPin _))

theorem recorded_forEach {α : Type} (f : α → State → State) (h : ∀ x s, Recorded s (f x s)) (l : List α) (s : State) :
    Recorded s (forEach l f s) := by
  induction l generalizing s with
  | nil => exact .refl s
  | cons x t ih => exact (h x s).trans (ih _)

/-- Recording faults writes the collector, the pending fault IBI and the marks of the quires, and nothing else. -/
theorem recorded_collect (fs : List FaultIn) (s : State) : Recorded s (collect fs s) := by
  unfold collect captureFirst; extract_lets
  have h := recorded_forEach collect1 recorded_collect1 (periodFaults fs) s
  split
  · exact h.trans ⟨_, _, _, rfl⟩
  · exact h

variable (s : State)

@[simp] theorem collect_pending (fs : List FaultIn) : (collect fs s).pending = s.pending := by obtain ⟨_, _, _, h⟩ := recorded_collect fs s; rw [h]
@[simp] theorem collect_chip (fs : List FaultIn) : (collect fs s).chip = s.chip := by obtain ⟨_, _, _, h⟩ := recorded_collect fs s; rw [h]
@[simp] theorem collect_power (fs : List FaultIn) : (collect fs s).power = s.power := by obtain ⟨_, _, _, h⟩ := recorded_collect fs s; rw [h]
@[simp] theorem collect_tb (fs : List FaultIn) : (collect fs s).tb = s.tb := by obtain ⟨_, _, _, h⟩ := recorded_collect fs s; rw [h]
@[simp] theorem collect_control (fs : List FaultIn) : (collect fs s).control = s.control := by obtain ⟨_, _, _, h⟩ := recorded_collect fs s; rw [h]
@[simp] theorem collect_boxes (fs : List FaultIn) : (collect fs s).boxes = s.boxes := by obtain ⟨_, _, _, h⟩ := recorded_collect fs s; rw [h]
@[simp] theorem collect_ctxs (fs : List FaultIn) : (collect fs s).ctxs = s.ctxs := by obtain ⟨_, _, _, h⟩ := recorded_collect fs s; rw [h]
@[simp] theorem collect_rings (fs : List FaultIn) : (collect fs s).rings = s.rings := by obtain ⟨_, _, _, h⟩ := recorded_collect fs s; rw [h]
@[simp] theorem collect_fetchOrder (fs : List FaultIn) : (collect fs s).fetchOrder = s.fetchOrder := by obtain ⟨_, _, _, h⟩ := recorded_collect fs s; rw [h]
@[simp] theorem collect_fetchRr (fs : List FaultIn) : (collect fs s).fetchRr = s.fetchRr := by obtain ⟨_, _, _, h⟩ := recorded_collect fs s; rw [h]
@[simp] theorem collect_bindings (fs : List FaultIn) : (collect fs s).bindings = s.bindings := by obtain ⟨_, _, _, h⟩ := recorded_collect fs s; rw [h]
@[simp] theorem collect_ports (fs : List FaultIn) : (collect fs s).ports = s.ports := by obtain ⟨_, _, _, h⟩ := recorded_collect fs s; rw [h]
@[simp] theorem collect_streams (fs : List FaultIn) : (collect fs s).streams = s.streams := by obtain ⟨_, _, _, h⟩ := recorded_collect fs s; rw [h]
@[simp] theorem collect_groups (fs : List FaultIn) : (collect fs s).groups = s.groups := by obtain ⟨_, _, _, h⟩ := recorded_collect fs s; rw [h]
@[simp] theorem collect_pkt (fs : List FaultIn) : (collect fs s).pkt = s.pkt := by obtain ⟨_, _, _, h⟩ := recorded_collect fs s; rw [h]
@[simp] theorem collect_codec (fs : List FaultIn) : (collect fs s).codec = s.codec := by obtain ⟨_, _, _, h⟩ := recorded_collect fs s; rw [h]
@[simp] theorem collect_draw (fs : List FaultIn) : (collect fs s).draw = s.draw := by obtain ⟨_, _, _, h⟩ := recorded_collect fs s; rw [h]
@[simp] theorem collect_pools (fs : List FaultIn) : (collect fs s).pools = s.pools := by obtain ⟨_, _, _, h⟩ := recorded_collect fs s; rw [h]
@[simp] theorem collect_shelf (fs : List FaultIn) : (collect fs s).shelf = s.shelf := by obtain ⟨_, _, _, h⟩ := recorded_collect fs s; rw [h]
@[simp] theorem collect_mem (fs : List FaultIn) : (collect fs s).mem = s.mem := by obtain ⟨_, _, _, h⟩ := recorded_collect fs s; rw [h]
@[simp] theorem collect_txs (fs : List FaultIn) : (collect fs s).txs = s.txs := by obtain ⟨_, _, _, h⟩ := recorded_collect fs s; rw [h]
@[simp] theorem collect_txNext (fs : List FaultIn) : (collect fs s).txNext = s.txNext := by obtain ⟨_, _, _, h⟩ := recorded_collect fs s; rw [h]
@[simp] theorem collect_works (fs : List FaultIn) : (collect fs s).works = s.works := by obtain ⟨_, _, _, h⟩ := recorded_collect fs s; rw [h]
@[simp] theorem collect_workNext (fs : List FaultIn) : (collect fs s).workNext = s.workNext := by obtain ⟨_, _, _, h⟩ := recorded_collect fs s; rw [h]
@[simp] theorem collect_chains (fs : List FaultIn) : (collect fs s).chains = s.chains := by obtain ⟨_, _, _, h⟩ := recorded_collect fs s; rw [h]
@[simp] theorem collect_keep (fs : List FaultIn) : (collect fs s).keep = s.keep := by obtain ⟨_, _, _, h⟩ := recorded_collect fs s; rw [h]
@[simp] theorem collect_events (fs : List FaultIn) : (collect fs s).events = s.events := by obtain ⟨_, _, _, h⟩ := recorded_collect fs s; rw [h]

/-! ### One fault whose source has no record -/

/-- The record that a first fault of a source makes. -/
def firstRecord (f : FaultIn) (now : Nat) : Record :=
  { cls := f.cls, pin := pinClassOf f.cls (scopeOf f) f.bestEffort, counting := counts f, escalated := false, scope := scopeOf f,
    cause := f.cause, detail := f.detail, time := now }

theorem records_pushLog (e : LogEntry) : (pushLog e s).faults.records = s.faults.records := by unfold pushLog; split <;> rfl
theorem records_markQuire (f : FaultIn) : (markQuire f s).faults.records = s.faults.records := by unfold markQuire; split <;> rfl
theorem records_noteIbi (e : LogEntry) : (noteIbi e s).faults.records = s.faults.records := by
  unfold noteIbi; repeat' split
  all_goals rfl
theorem records_startPulse : (startPulse s).faults.records = s.faults.records := by unfold startPulse; split <;> rfl
theorem records_refreshPin : (refreshPin s).faults.records = s.faults.records := by unfold refreshPin; split <;> rfl

/-- A fault writes the record of its source. -/
theorem collect1_records (f : FaultIn) :
    (collect1 f s).faults.records = Tbl.set s.faults.records f.src (recordFor (Tbl.get? s.faults.records f.src) f s.now).1 := by
  refine (records_refreshPin _).trans ((when_keeps _ (·.faults.records) _ _ (records_startPulse _)).trans ?_)
  refine (when_keeps _ (·.faults.records) _ _ (records_noteIbi _ _)).trans ?_
  exact (records_pushLog _ _).trans (records_markQuire _ _)

theorem periodFaults_one (f : FaultIn) : periodFaults [f] = [f] := rfl

theorem collect_one_records (f : FaultIn) :
    (collect [f] s).faults.records = Tbl.set s.faults.records f.src (recordFor (Tbl.get? s.faults.records f.src) f s.now).1 := by
  unfold collect captureFirst; extract_lets
  split
  · exact collect1_records s f
  · exact collect1_records s f

/-- After one fault of a source without a record, the source has that first record. -/
theorem collect_one_first (f : FaultIn) (h : Tbl.get? s.faults.records f.src = none) :
    Tbl.get? (collect [f] s).faults.records f.src = some (firstRecord f s.now) := by
  rw [collect_one_records, h, Tbl.get?_set_self]; rfl

/-- A fault below FATAL whose source has no record has no reaction of a class. -/
theorem report_one (f : FaultIn) (h : Tbl.get? s.faults.records f.src = none) (hc : f.cls ≠ 3) :
    report [f] s = faultEffect f (collect [f] s) := by
  have e : reactionsOf [f] s = [] := by
    simp [reactionsOf, periodFaults_one, h, recordFor, reactionOf, hc]
  unfold report
  rw [e, periodFaults_one]; rfl

/-- A CORRECTED fault whose source has no record does no more than its record, but for a memory-system cause and a migration's
target. -/
theorem report_corrected (f : FaultIn) (h : Tbl.get? s.faults.records f.src = none) (hc : f.cls = 1) (hs : f.src < 16 ∨ 80 ≤ f.src)
    (hm : memFaultCode f = 0) : report [f] s = collect [f] s := by
  rw [report_one s f h (by omega)]
  have : ¬ (16 ≤ f.src ∧ f.src < 80) := by omega
  simp [faultEffect, hm, noteMemFault, this, hc]

theorem safe_pushLog (e : LogEntry) : (pushLog e s).faults.safe = s.faults.safe := by unfold pushLog; split <;> rfl
theorem safe_markQuire (f : FaultIn) : (markQuire f s).faults.safe = s.faults.safe := by unfold markQuire; split <;> rfl
theorem safe_noteIbi (e : LogEntry) : (noteIbi e s).faults.safe = s.faults.safe := by
  unfold noteIbi; repeat' split
  all_goals rfl
theorem safe_startPulse : (startPulse s).faults.safe = s.faults.safe := by unfold startPulse; split <;> rfl
theorem safe_refreshPin : (refreshPin s).faults.safe = s.faults.safe := by unfold refreshPin; split <;> rfl
theorem collect1_safe (f : FaultIn) : (collect1 f s).faults.safe = s.faults.safe := by
  refine (safe_refreshPin _).trans ((when_keeps _ (·.faults.safe) _ _ (safe_startPulse _)).trans ?_)
  refine (when_keeps _ (·.faults.safe) _ _ (safe_noteIbi _ _)).trans ?_
  exact (safe_pushLog _ _).trans (safe_markQuire _ _)
/-- A fault's record does not change device safe state. -/
@[simp] theorem collect_safe (fs : List FaultIn) : (collect fs s).faults.safe = s.faults.safe := by
  unfold collect captureFirst; extract_lets
  have h := forEach_keeps (·.faults.safe) collect1 (fun f s => collect1_safe s f)
  split <;> exact h _ _

/-- A FATAL fault of the control complex whose source has no record: device safe state takes no further reaction, and otherwise a
restart for its source. -/
theorem report_control (f : FaultIn) (h : Tbl.get? s.faults.records f.src = none) (hc : f.cls = 3) (hs : f.src < 16) (hb : f.bestEffort = false) :
    report [f] s = if s.faults.safe != .normal then collect [f] s else controlRestart f.src true (collect [f] s) := by
  have e : reactionsOf [f] s = [f] := by
    simp [reactionsOf, periodFaults_one, h, recordFor, reactionOf, hc]
  have sc : scopeOf f = .control := by simp [scopeOf, hb, hs]
  have m : memFaultCode f = 0 := by unfold memFaultCode; (rw [if_neg (by simp; omega), if_neg (by simp; omega)])
  have fe : ∀ u, faultEffect f u = u := fun u => by
    have : ¬ (16 ≤ f.src ∧ f.src < 80) := by omega
    have t : ¬ (16 ≤ f.src ∧ f.src < 104) := by omega
    have a : f.src ≠ 127 ∧ f.src ≠ 107 ∧ f.src ≠ 110 ∧ f.src ≠ 118 ∧ f.src ≠ 125 ∧ ¬ (112 ≤ f.src) := by omega
    simp [faultEffect, m, noteMemFault, this, hc, a, t]
  unfold report
  rw [e, periodFaults_one]
  have r : ∀ u, react f u = if u.faults.safe != .normal then u else controlRestart f.src true u := fun u => by
    have : restartCauseOf f = f.src := by unfold restartCauseOf; rw [if_neg (by omega), if_neg (by omega)]
    simp [react, sc, this]
  simp [forEach, fe, sc, r, collect_safe]

theorem controlRestart_records (c : Nat) (b : Bool) : (controlRestart c b s).faults.records = s.faults.records := by
  unfold controlRestart; dsimp only; repeat' split
  all_goals rfl

end Sys2Proof.Machine
end

