-- ==== Sys2Proof/Tests/Slice0.lean ====
section
/-! SUPPORT. Small tests: refused operands, the spec's worked examples, and for every statement operands and a state that meet the hypotheses
of each of its clauses. -/

namespace Sys2Proof.Tests

open Sys2Proof Sys2Proof.Machine

set_option Elab.async false

/-! ### Small states -/

/-- The block awake: keeper initialised, the wake over, firmware running. -/
def up : State := { State.reset with
  chip := { State.reset.chip with keeperInit := true }
  power := { State.reset.power with wake := .idle, wakePending := false, mram := { req := true, pg := true } }
  control := { State.reset.control with pair0 := .run, pair1 := .run, fwUp := true } }

/-- Context 255 is open. -/
def upCtx : State := { up with ctxs := [(255, { st := .opened })] }

/-- Fields (offset, width in bytes, value) put into a request. -/
def put (b : List Byte) (f : Nat × Nat × Nat) : List Byte := b.take f.1 ++ leBytes f.2.2 f.2.1 ++ b.drop (f.1 + f.2.1)

/-- Firmware has accepted a request at a mailbox. -/
def asked (box cmd : Nat) (fs : List (Nat × Nat × Nat)) (s : State) : State := { s with
  boxes := Tbl.set s.boxes box { busy := true, accepted := true, buf := fs.foldl put (leBytes cmd 2 ++ leBytes 7 2 ++ leBytes 56 2 ++ List.replicate 58 0) } }

/-- A test for `Safety.quiet`. -/
def quietB (s : State) : Bool :=
  s.faults.safe != .entering && s.streams.all (fun p => p.2.st != .detaching) && (List.range 8).all (fun r => !(s.pring r).stopping)

theorem quiet_of {s : State} (h : quietB s = true) : Safety.quiet s := by
  simp only [quietB, Bool.and_eq_true, bne_iff_ne, ne_eq, List.all_eq_true, List.mem_range, Bool.not_eq_true'] at h
  exact ⟨h.1.1, h.1.2, h.2⟩

/-- A test for `Safety.due`. -/
def dueB (s : State) (box code : Nat) : Bool :=
  serves s box && (s.box box).busy && (s.box box).accepted && (s.box box).cmd == code && s.faults.safe == .normal &&
    drainMet s (s.box box) && inTurn s box && !closeWaits s box && (match cmdSpec code (reqBytes (s.box box)) with
      | some sp => commonFail s box sp (reqBytes (s.box box)) == none
      | none => false)

theorem due_of {s : State} {box code : Nat} (h : dueB s box code = true) : Safety.due s box code := by
  unfold dueB at h
  simp only [Bool.and_eq_true, beq_iff_eq, Bool.not_eq_true'] at h
  obtain ⟨⟨⟨⟨⟨⟨⟨⟨h1, h2⟩, h3⟩, h4⟩, h5⟩, h6⟩, h8⟩, h9⟩, h7⟩ := h
  refine ⟨h1, h2, h3, h4, h5, h6, h8, h9, ?_⟩
  revert h7
  cases h : cmdSpec code (reqBytes (s.box box)) with
  | none => simp
  | some sp => exact fun h7 => ⟨sp, rfl, by simpa using h7⟩

/-- A source of the event controller that is at 1 while EVT_SW is set. -/
def swSource : Nat := 14

/-- One slot of period 0 on the first quire. -/
def slot0 : SlotRec := { first := 0, run := 1, stage := 0, relQuire := 0, replay := false, leafMask := 1, cycles := 1, energyNj := 0 }

/-- An entry point of one view. -/
def entry0 : EntryPt := {
  num := 0, beClass := 2, stream := true, draws := false, shelf := false, firstStage := 0, stageRun := 1, kind0 := 0, kind1 := 0
  alignLog2 := 0, views := 1, paramKind := 0, extKind := 0, outBytes := 4096, paramMask := 0, extMask := 0, energyNj := [0, 0, 0] }

/-- A stage that transposes the tensor which INPUT0 names. -/
def stage0 : StageRec := { opb := 0, unit := 0, barrier := false, leaves := 1, units := 1, codeStart := 0, codeLen := 0, coeffFirst := 0, coeffRun := 0 }
def block242 : Opb := { op := 0x0242, drawBase := 0, bytes := put (List.replicate 32 0) (0x10, 1, 1) }

/-- A small image. -/
def image0 : Image := {
  classes := 7, bindingId := 1, periodSlots := 500, quires := 1, replayLeaves := 0, qstoreKib := 64, coeffKib := 0
  rdBytes := 0, wrBytes := 0, abandonUs := 0, codeHash := 0, entries := [entry0], stages := [stage0], opbs := [block242], coeffs := []
  slots := [[slot0], [slot0], [slot0]] }

/-- A binding that is admitted as LIVE and in the plan. -/
def liveBinding : Binding := {
  gens := [(1, image0)], gen := 1, lastGen := 1, pending := none, tableGen := 1, st := .planned, cls := some 0
  precedence := 0, opp := 0, quiresA := [0], quiresB := [32], spare := some 31 }

/-- The block when its firmware can be loaded. -/
def bootable : State := { up with
  power := { up.power with wake := .booting, ctrl := { req := true, pg := true }, cclk := { req := true, ack := true } }
  control := { up.control with pair0 := .boot, fwUp := false }
  keep := { up.keep with scanDone := true } }

/-- Handle of `liveBinding`: the last context. -/
def liveHandle : Nat := 0xFF000001

/-- Context 255 is open with every address in its first window, its ring 3 exists, and pool set 15 has one buffer of class 7. -/
def upOpen : State := { up with
  ctxs := [(255, { st := .opened, guards := { rd := true, wr := true, limit := 2 ^ 48 - 1 } :: List.replicate 15 {} })]
  rings := [(1023, { st := .run, enable := true, log2 := 4, base := 0x1000 })]
  pools := [(poolKey 255 15 0, { base := 0x10000, count := 1 })]
  ports := Tbl.set up.ports 15 { laneMbps := 1000, st := .up } }

/-- A stream of context 255 with a live binding. -/
def stream0 : Stream := { ctx := 255, ring := 3, port := 15, vc := 15, dtype := 0x2A, lanes := 4, width := 64, height := 64, binding := liveHandle,
                          entry := 0, keySlot := 0, outPool := 0xFF0F0000, drawPos := 0, mirrorPool := 0, st := .attached }

/-- That stream attached, with its binding. -/
def upLive : State := { upOpen with bindings := [(liveHandle, liveBinding)], streams := [(0x7FEF, stream0)] }

/-- The binding of `liveBinding` before it is admitted. -/
def beBinding : Binding := { liveBinding with st := .loaded, cls := none, quiresA := [], quiresB := [], spare := none }

/-- An empty table of tables. -/
def coeff0 : CoeffRec := { index := 0, kind := 0, resident := false, size := 0, addr := 0, crc := 0, data := none }

/-- A frame of that stream, just opened. -/
def frame0 : Frame := { fn := 1, counter := 1, fsStamp := 0, lines := [], got := 0, lastPkt := 0, marked := false, lineOpen := false, corrupt := false,
                        overlong := false, truncated := false, badStrips := [], badFrom := none, stripTimes := [], held := [], ready := [],
                        padMode := false, padY := 0, padC := 0, expo := 0, timeoutUs := 100, closed := none, settled := false, qualify := false }

/-- Its gathering. -/
def work0 : Work := { kind := .live 0x7FEF, ctx := 255, streamId := 0x7FEF, binding := liveHandle, gen := 1, buffer := some (0, 0, 0), views := 1, total := 1,
                      phase := .working, members := [{ bytes := 4096, folios := 1, statuses := [], defect := 0, invalid := [], energyNj := 0, viewStart := [0] }],
                      frame := some frame0 }

/-- The stream with a frame open. -/
def upFrame (w : Work) : State := { upLive with streams := [(0x7FEF, { stream0 with cur := some 0 })], works := [(0, w)], workNext := 1 }

/-- Every line of the frame has arrived, and its one strip is through every stage. -/
def workDone : Work := { work0 with strips := [(0, 2)], frame := some { frame0 with lines := List.replicate 64 [], got := 64, ready := [(0, 0)] } }

/-- An entry of ring 3 of context 255 that may start. -/
def entryOf (bytes : List Byte) : Entry := { count := 0, bytes := slice bytes 0 64, phase := .ready }

/-- The ring with that entry. -/
def upEntry (e : Entry) : State := { upOpen with rings := [(1023, { st := .run, enable := true, log2 := 4, base := 0x1000, tail := 1, head := 1, issued := 1, entries := [e] })] }

/-- A fetch read of ring 3 of context 255, issued at port 3 with the last tag. -/
def tx0 : Tx := { id := 0, port := 3, tag := some 1023, rd := true, addr := 0x1000, lines := 1, ctx := 255, sys := false, cls := 1, prio := 1, data := [],
                  mirror := false, meter := none, purpose := .fetch 255 3 0 1, issued := 0 }

/-- Memory with a record of packet ring 7, a parser descriptor, a motion record being written, an empty packet and one of the greatest length. -/
def pktMem : ExtMem := { segs := [
  (0x1C0, [(0, 1, 255), (2, 1, 4), (3, 1, 7), (4, 4, 64), (8, 8, 0x100000), (0x10, 8, 0x2000), (0x18, 8, 0x3000), (0x20, 8, 0x200000),
    (0x28, 4, 0xFF0F0000), (0x2C, 1, 4), (0x34, 4, 100), (0x38, 8, 0x4000)].foldl put (List.replicate 64 0)),
  (0x2000, [(0, 4, 0x31444B50), (4, 2, 1), (6, 2, 112), (0xA, 2, 1), (0xE, 1, 3), (0x65, 1, 8), (0x66, 1, 1), (0x68, 4, 1), (0x75, 1, 8), (0x76, 1, 2),
    (0x78, 4, 1), (0x85, 1, 8), (0x86, 1, 3), (0x88, 4, 1)].foldl put (List.replicate 144 0)),
  (0x3000, [1]), (0x100080, [112])] }

/-- The record and the descriptor. -/
def pktRec0 : PktRec := readPktRec (extRead pktMem 0x1C0 64)
def pktDesc0 : PktDesc := readPktDesc (extRead pktMem 0x2000 144)

/-- Packet ring 7 as given. -/
def upPkt (r : PktRing) : State := { upOpen with pkt := { upOpen.pkt with rr := 6, rings := List.replicate 7 {} ++ [r] } }

/-- Packet ring 7 running with that record. -/
def ring7 : PktRing := { enable := true, run := true, setup := some (pktRec0, pktDesc0) }

/-- An empty block. -/
def block0 : Block := { buffer := (0, 0, 0), points := [], packets := 0, flags := 0, dropped := 0 }

/-- Memory with a 2 x 1 tensor of bytes described at 0x5000. -/
def tensorMem : ExtMem := { segs := [(0x5000, [(0, 4, 0x31524E54), (4, 1, 1), (5, 1, 2), (8, 4, 2), (0xC, 4, 1), (0x18, 4, 1), (0x28, 8, 0x6000),
  (0x38, 4, 0x3F800000)].foldl put (List.replicate 64 0)), (0x6000, [7, 9])] }

/-- A SUBMIT entry that names it, with the windows in force and a gathering. -/
def submit0 : Entry := { entryOf ([(0, 1, 1), (0x10, 8, 0x5000)].foldl put (List.replicate 64 0)) with
  guards := [{ rd := true, wr := true, limit := 2 ^ 48 - 1 }], work := some 0 }

/-- The frame of `workDone`. -/
def doneFrame : Frame := { frame0 with lines := List.replicate 64 [], got := 64, ready := [(0, 0)] }

/-- An image of two stages with a barrier between them, its entry point, and a chain in its first stage. -/
def entry2 : EntryPt := { entry0 with stageRun := 2 }
def image2 : Image := { image0 with entries := [entry2], stages := [{ stage0 with barrier := true }, stage0] }
def chainWork : Work := { work0 with kind := .chain 255 3 0 1, frame := none, started := true, ran := true, place := some (0, 1) }

/-- Comparisons of folio 0: one copy waits; a replay is under way and copy A is as it should be, all zeros; neither copy is. -/
def half : FolioCmp := { index := 0, copyA := some [], copyB := none, quireA := 0, quireB := 32, replay := false, late := false }
def asGood : FolioCmp := { half with copyA := some (List.replicate 4096 0), copyB := some [1], replay := true, replaying := true }
def twoBad : FolioCmp := { half with copyA := some [1], copyB := some [2], replay := true, replaying := true }

/-- A migration of quire 63. -/
def mig63 : Migration := { src := 63, dst := 62, began := 0, retired := false }

/-- A table of 4,096 zeros with one resident segment, whose CRC-32C is right or wrong. -/
def segZero : Segment := { binding := liveHandle, gen := 1, set := 0, seg := 0, quire := 0, crc := 0x98F94189 }
def segOther : Segment := { segZero with crc := 0 }
def segState (g : Segment) : State := { up with
  bindings := [(liveHandle, { liveBinding with gens := [(1, { image0 with
    coeffs := [{ coeff0 with resident := true, size := 4096 }], guards := [{ rd := true, wr := true, limit := 2 ^ 48 - 1 }] })] })]
  mem := { up.mem with segments := [g] } }

/-- A binding with a replay record, and the stream with a frame open under it. -/
def replayBinding : Binding := { liveBinding with
  gens := [(1, image0), (2, { image0 with slots := List.replicate 3 [slot0, { slot0 with replay := true }] })], tableGen := 2 }
def upReplay (w : Work) : State := { upFrame w with bindings := [(liveHandle, replayBinding)] }

/-- The time base with its window from edge 0 to edge 500,000 due, across which TIME_IN advanced by `d`. -/
def tbJudged (d : Nat) : State := { up with
  power := { up.power with state := .ready }
  tb := { up.tb with loaded := true, quality := 0, edgeTimeIn := some 0, lastStamp := 500000, strobeLog := [(0, 0), (500000, d)] } }

/-- All quires are on. -/
def upOn : State := { up with press := { up.press with quires := List.replicate 64 { st := .on } } }

/-- `crc32cRun` with each remainder looked at before the next byte, so that the kernel works it out as it goes. -/
def crcStep (c : Nat) : List Byte → Nat
  | [] => c
  | b :: bs => if 0 < crc32cByte c b then crcStep (crc32cByte c b) bs else crcStep (crc32cByte c b) bs

theorem crcStep_eq (bs : List Byte) : ∀ c, crcStep c bs = crc32cRun c bs := by
  induction bs with
  | nil => intro c; rfl
  | cons b bs ih =>
    intro c
    show (if 0 < crc32cByte c b then crcStep (crc32cByte c b) bs else crcStep (crc32cByte c b) bs) = crc32cRun (crc32cByte c b) bs
    rw [ih]; exact ite_self _

theorem crc32c_step (bs : List Byte) : crc32c bs = Nat.xor (crcStep 0xFFFFFFFF bs) 0xFFFFFFFF := by rw [crcStep_eq]; rfl

theorem slice_whole (l : List Byte) : slice l 0 l.length = l := by simp [slice]

theorem length_extRead (m : ExtMem) (n : Nat) : ∀ a, (extRead m a n).length = n := by
  induction n with
  | zero => intro a; rfl
  | succ n ih => intro a; simp [extRead, ih]

theorem slice_extRead (m : ExtMem) (a n : Nat) : slice (extRead m a n) 0 n = extRead m a n := by
  have h := slice_whole (extRead m a n)
  rwa [length_extRead] at h

/-- What the operators of `image0` work on. -/
def env0 : RunEnv := liveEnv (upFrame workDone) workDone { stream0 with cur := some 0 } doneFrame image0 entry0

/-- `image0` finds no tensor in a frame, so its output is zeros. -/
theorem good_of_env {s : State} {w : Work} (he : liveEnv s w { stream0 with cur := some 0 } doneFrame image0 entry0 = env0) :
    goodFolio s w { stream0 with cur := some 0 } doneFrame image0 entry0 0 = List.replicate 4096 0 := by
  have hv : viewPayload env0 (runEntry env0) false 0 = List.replicate 4096 0 := by
    have h1 : (if env0.ep.encodeView env0.image = some 0 then (runEntry env0).enc else none) = none := by
      rw [if_neg (by decide +kernel)]
    have h2 : (Tbl.getD (runEntry env0).outs env0.ep.lastStage []).getD 0 .nothing = .nothing := by decide +kernel
    have h3 : env0.ep.viewBytes = 4096 := by decide +kernel
    unfold viewPayload
    simp only [h1, h2, h3]
  have hs : slice (List.replicate 4096 (0 : Byte)) 0 4096 = List.replicate 4096 0 := by
    have h := slice_whole (List.replicate 4096 0)
    rwa [List.length_replicate] at h
  have hp : payloadOf env0 (runEntry env0) false = List.replicate 4096 0 := by
    have h4 : env0.views = [0] := by decide +kernel
    have h5 : env0.ep.outBytes = 4096 := by decide +kernel
    unfold payloadOf
    rw [h4, h5, List.flatMap_cons, hv, List.flatMap_nil, List.append_nil, hs]
  unfold goodFolio
  rw [he]
  show slice (payloadOf env0 (runEntry env0) false) 0 4096 = _
  rw [hp, hs]

theorem good_zeros (cs : List FolioCmp) :
    goodFolio (advance 0 (upFrame { workDone with compares := cs })) { workDone with compares := cs } { stream0 with cur := some 0 } doneFrame
      image0 entry0 0 = List.replicate 4096 0 := good_of_env rfl

/-- The CRC-32C of 4,096 zero bytes differs from that of a folio that begins with another byte. -/
theorem crc_zeros : crc32c (List.replicate 4096 0) = 0x98F94189 := by rw [crc32c_step]; decide +kernel
theorem extRead_zeros (n : Nat) : ∀ a, extRead {} a n = List.replicate n 0 := by
  induction n with
  | zero => intro a; rfl
  | succ n ih => intro a; rw [extRead, ih, List.replicate_succ]; rfl

theorem crc_extRead : crc32c (slice (extRead {} 0 4096) 0 4096) = 0x98F94189 := by rw [slice_extRead, extRead_zeros, crc_zeros]
theorem crc_one : crc32c [1] ≠ 0x98F94189 ∧ crc32c [2] ≠ 0x98F94189 := by decide +kernel
theorem crc_bad : crc32c (1 :: List.replicate 4095 0) ≠ 0x98F94189 := by rw [crc32c_step]; decide +kernel

theorem slice_bad : slice [1] 0 4096 = 1 :: List.replicate 4095 0 := rfl

theorem good_crc (cs : List FolioCmp) :
    crc32c (goodFolio (advance 0 (upFrame { workDone with compares := cs })) { workDone with compares := cs } { stream0 with cur := some 0 } doneFrame
      image0 entry0 0) = 0x98F94189 := by rw [good_zeros, crc_zeros]

theorem replay_crc : crc32c (goodFolio (advance 0 (upReplay workDone)) workDone { stream0 with cur := some 0 } doneFrame image0 entry0 0) =
    0x98F94189 := by
  have h := good_of_env (s := advance 0 (upReplay workDone)) (w := workDone) rfl
  rw [h, crc_zeros]

/-! ### Operands that name nothing of the hardware are refused -/

theorem test_wf_refuses_1 : ([
    .gxPorstNDeassert 0 4 0 0 0, .gxPorstNDeassert 0 0 4 0 0, .gxPorstNDeassert 0 0 0 128 0, .gxPorstNDeassert 0 0 0 0 2048,
    .gxRstNDeassert 0 (2 ^ 384) false, .pgInputChange 0 .keep false, .thermalSample 0 (List.replicate 15 0),
    .thermalSample 0 (List.replicate 15 0 ++ [32768]), .thermalSample 0 (List.replicate 15 0 ++ [-32769]), .timeStrobeEdge 0 (2 ^ 64) false 0,
    .hostIdleEdge 0 64 false, .registerWrite 0 .host (2 ^ 21) 0 0 false {}, .registerWrite 0 .host 2 0 0 false {},
    .registerWrite 0 .host 0 (2 ^ 32) 0 false {}, .registerWrite 0 .host 0 0 16 false {}, .rcRegisterRead 0 .host (2 ^ 21) ⟨false, 15⟩ false,
    .rcRegisterRead 0 .host 1 ⟨false, 15⟩ false, .rcRegisterRead 0 .host 0 ⟨false, 16⟩ false, .snsFsLoRead 0 16 false false, .mboxGo 0 257 false false, .mboxAck 0 257 false,
    .mboxNoticeRead 0 257 false false, .ringDoorbell 0 256 0 0, .ringDoorbell 0 0 4 0, .ringDoorbell 0 0 0 (2 ^ 32), .ringPause 0 256 0,
    .ringPause 0 0 4 ] : List Instr).all (fun c => !c.wf) = true := by decide +kernel

theorem test_wf_refuses_2 : ([
    .ringResume 0 256 0, .ringResume 0 0 4, .ringAbort 0 256 0, .ringAbort 0 0 4, .ringCtlReset 0 256 0, .ringCtlReset 0 0 4,
    .pktDoorbell 0 8 0 false, .pktDoorbell 0 0 (2 ^ 17) false, .pktRingEnable 0 8 false {}, .pktRingDisable 0 8 false {},
    .semReadAcquire 0 .pair0 64 false, .semAcquire 0 .pair0 64, .semRenew 0 .pair0 64 0, .semRenew 0 .pair0 0 1024, .semRelease 0 .pair0 64,
    .leaseExpiry 0 64, .debugHalt 0 false 2 false, .debugStep 0 false 2, .debugChallenge 0 ⟨0, false⟩ .ok, .debugChallenge 0 ⟨3, false⟩ .ok, .tgtClaim 0 64 false false,
    .tgtComplete 0 64 0 false, .tgtComplete 0 0 1024 false, .faultAcknowledge 0 128 false, .fiArm 0 false 16 0 0 0, .fiArm 0 false 0 128 0 0 ] : List Instr).all (fun c => !c.wf) = true := by decide +kernel

theorem test_wf_refuses_3 : ([
    .fiArm 0 false 0 0 256 0, .fiArm 0 false 0 0 0 4, .drawKatStart 0 false 4, .pressSparesWrite 0 false 16, .watchdogExpiry 0 2,
    .lockstepMismatch 0 2, .controlSramError 0 262144 .corrected, .coreException 0 4 0 0, .coreException 0 0 (2 ^ 32) 0,
    .coreException 0 0 0 (2 ^ 64), .getVersion 0 257, .openContext 0 257, .closeContext 0 257 {}, .contextClosed 0 256, .loadBinding 0 257 {} 0,
    .loadBinding 0 0 {} (2 ^ 24), .loadBindingReplace 0 257 {}, .admitBinding 0 257, .retireBinding 0 257, .attachStream 0 257,
    .streamAttached 0 65536, .detachAfterFrame 0 257, .detachAtOnce 0 257, .defineSyncGroup 0 257, .syncGroupEffect 0 16, .createPool 0 257 ] : List Instr).all (fun c => !c.wf) = true := by decide +kernel

theorem test_wf_refuses_4 : ([
    .destroyPool 0 257, .setGuard 0 257, .setDrawKey 0 257, .loadCoeff 0 257 {}, .updateFinalState 0 (.guard 256 0),
    .updateFinalState 0 (.guard 0 16), .setEnergyBudget 0 257, .shelfRegion 0 257, .shelfQuota 0 257, .shelfFlush 0 257, .ringCreate 0 257,
    .ringResetDrain 0 257, .ringResetAbort 0 257, .ringResetDestroy 0 257, .ringResetDone 0 256 0, .ringResetDone 0 0 4, .queryStats 0 257,
    .keepRead 0 257, .keepWrite 0 257 .ok, .fwStage 0 257 {}, .fwActivate 0 257 .ok, .entryFetched 0 256 0, .entryFetched 0 0 4, .submit 0 256 0 0 {},
    .submit 0 0 4 0 {}, .freeBuffer 0 256 0 0 ] : List Instr).all (fun c => !c.wf) = true := by decide +kernel

theorem test_wf_refuses_5 : ([
    .freeBuffer 0 0 4 0, .shelfEvict 0 256 0 0, .shelfEvict 0 0 4 0, .fence 0 256 0 0, .fence 0 0 4 0, .nop 0 256 0 0, .nop 0 0 4 0, .draw 0 256 0 0,
    .draw 0 0 4 0, .entryDeadline 0 256 0 0, .entryDeadline 0 0 4 0, .memReadBeat 0 4 0 (List.replicate 64 0) 0 false 0 0,
    .memReadBeat 0 0 1024 (List.replicate 64 0) 0 false 0 0, .memReadBeat 0 0 0 (List.replicate 63 0) 0 false 0 0,
    .memReadBeat 0 0 0 (List.replicate 64 0) 4 false 0 0, .memReadBeat 0 0 0 (List.replicate 64 0) 0 false 256 0,
    .memReadBeat 0 0 0 (List.replicate 64 0) 0 false 0 4, .memWriteResponse 0 4 0 0, .memWriteResponse 0 0 1024 0, .memWriteResponse 0 0 0 4,
    .memTimeout 0 4 0, .memTimeout 0 0 1024, .csi2LongPacket 0 16 0 0 .ok [] false false false, .csi2LongPacket 0 0 16 0 .ok [] false false false,
    .csi2LongPacket 0 0 0 64 .ok [] false false false, .frameStart 0 16 0 0 .ok 0 false ] : List Instr).all (fun c => !c.wf) = true := by decide +kernel

theorem test_wf_refuses_6 : ([
    .frameStart 0 0 16 0 .ok 0 false, .frameStart 0 0 0 65536 .ok 0 false, .frameEnd 0 16 0 0 .ok 0 false, .frameEnd 0 0 16 0 .ok 0 false,
    .frameEnd 0 0 0 65536 .ok 0 false, .lineStart 0 16 0 .ok, .lineStart 0 0 16 .ok, .lineEnd 0 16 0 .ok, .lineEnd 0 0 16 .ok, .lineTimeout 0 65536,
    .pclkWindow 0 16 0, .pclkWindow 0 0 (2 ^ 32), .syncWindowExpiry 0 16, .pktParse 0 8 {}, .pktGapTimeout 0 8 {}, .motionRecordRetry 0 8 {},
    .scrubPass 0 64 [], .scrubPass 0 0 [.free 512], .scrubRetry 0 64 [], .scrubRetry 0 0 [.free 512], .migrationStart 0 64, .migrationHandover 0 64 0,
    .migrationAbandonTimeout 0 64, .faultReport 0 [{ src := 128, cls := 1, cause := 1, detail := 0 }],
    .faultReport 0 [{ src := 0, cls := 0, cause := 1, detail := 0 }], .faultReport 0 [{ src := 0, cls := 4, cause := 1, detail := 0 }] ] : List Instr).all (fun c => !c.wf) = true := by decide +kernel

theorem test_wf_refuses_7 : ([
    .faultReport 0 [{ src := 0, cls := 1, cause := 0x27, detail := 0 }], .faultReport 0 [{ src := 0, cls := 1, cause := 1, detail := 65536 }],
    .keepScan 0 [4096] [], .keepScan 0 [] [4096], .evtSignal 0 64, .evtMessage 0 64, .moderationExpiry 0 64, .evtStateParity 0 (.enableWord 18),
    .evtStateParity 0 (.routeWord 144), .evtStateParity 0 (.service 64), .entdaa 0 128, .setdasa 0 128 0, .setdasa 0 0 128, .setnewda 0 128,
    .i3cPrivateWrite 0 [] false false, .i3cPrivateWrite 0 (List.replicate 9 0) false false, .i3cPrivateRead 0 9 false, .genericShortPacket 0 16 .ok,
    .closeResponseHoldExpiry 0 256, .stockSweep 0 0 0 4 false, .idleRecordAck 0 128 ] : List Instr).all (fun c => !c.wf) = true := by decide +kernel


/-! ### The spec's worked examples -/

/-- A command's next state, or the state it began in. -/
def after (c : Instr) (s : State) : State := match exec c s with | .next t => t | _ => s

/-- 00 Example 0.1. -/
theorem test_helpers : rneDiv 37 4 = 9 ∧ rneDiv 19 2 = 10 ∧ rneDiv (-21) 2 = -10 ∧ asr (-10) 2 = -3 ∧ fdiv (-7) 2 = -4 ∧ satS 200 8 = 127 ∧
    rstoDiv 37 4 49151 16 = 9 ∧ rstoDiv 37 4 49152 16 = 10 := by decide +kernel

/-- A read of the control port: response code and data. -/
def readOf (a : Nat) (priv debug : Bool) (s : State) : Nat × Nat :=
  let t := after (.rcRegisterRead 0 .host a ⟨priv, 15⟩ debug) s
  (t.chip.rspCode, t.chip.rspData)

/-- 02 Example 2.2: reads; responses OK 0, PERMISSION 1, UNMAPPED 2. -/
theorem test_register_reads : readOf 0 false false up = (0, 0x00020100) ∧ readOf 0x20 false false up = (0, 0) ∧ (readOf 0x800 false false up).1 = 1 ∧
    (readOf 0x7900 true false up).1 = 2 ∧ (readOf 0x9100 true false up).1 = 2 := by decide +kernel

/-- 02 Example 2.2: a write of a read-only register is accepted and ignored. -/
theorem test_register_write_ignored : (after (.registerWrite 0 .host 4 1 15 true {}) up).chip.rspCode = 0 ∧
    readOf 4 false false (after (.registerWrite 0 .host 4 1 15 true {}) up) = readOf 4 false false up := by decide +kernel

/-- Sources 4 and 70 go to target 2, as in 16 Example 16.1; source 70 is at 1. -/
def ex16 : State := { up with
  ctxs := [(3, { st := .opened, evtCpl := 1, enCpl := 1 })]
  events := { up.events with route := [(4, 2), (70, 2)], enabled := [4, 70], targets := [(2, { enable := true, idleBypass := true, modUs := 100 })] } }

/-- 16 Example 16.1, steps 2 and 3: the output rises and the timer runs 100 us; a claim obtains 70 and the output falls. -/
theorem test_claim : ((after (.evtSignal 10 2) ex16).target 2).out = true ∧ ((after (.evtSignal 10 2) ex16).target 2).modEnd = some 100010 ∧
    (after (.tgtClaim 0 2 true false) (after (.evtSignal 10 2) ex16)).chip.rspData = 70 ∧
    ((after (.tgtClaim 0 2 true false) (after (.evtSignal 10 2) ex16)).target 2).out = false := by decide +kernel

/-- 16 Example 16.1, step 10: of two pending sources the lower number is claimed, and the next claim answers 0x3FF. -/
theorem test_claim_order : (after (.tgtClaim 0 2 true false) { ex16 with press := { up.press with evt := 1, evtEn := 1 } }).chip.rspData = 4 ∧
    (after (.tgtClaim 0 2 true false) (after (.tgtClaim 0 2 true false) { ex16 with press := { up.press with evt := 1, evtEn := 1 } })).chip.rspData =
      0x3FF := by decide +kernel

/-- The records of 15 Example 15.1 at its beginning. -/
def ex15 : Keep := { up.keep with seq := 411, mem := [recordWords 0 410 (bootData false true true 2), recordWords 1 409 (bootData false true true 1),
  recordWords 64 300 (leBytes 7 8), recordWords 65 120 (leBytes 6 8)].foldl putWords [] }

/-- 15 Example 15.1: the current copies. -/
theorem test_current_copies : ex15.boot = (false, true, true, 2) ∧ ex15.counter 0 = 7 ∧ ex15.other 0 = 1 ∧ ex15.other 64 = 65 := by decide +kernel

/-- 12 Example 12.1: the mixer's state after its first two rounds. -/
theorem test_mix_rounds :
    mixRounds { a := 1, b := 2, c := 3, d := 4 } 0 1 { a := 0, b := 0, c := 0, d := 1 } = { a := 0x00400000, b := 0x00002003, c := 0x00002000, d := 0x5D47A3C2 } ∧
    mixRounds { a := 1, b := 2, c := 3, d := 4 } 0 2 { a := 0, b := 0, c := 0, d := 1 } =
      { a := 0xF0D747E0, b := 0xF0784BA4, c := 0xF0782BA0, d := 0xBACF6787 } := by decide +kernel

/-- 12 Example 12.2: the shortest prefix and the choice. -/
theorem test_categorical : catWeight (2 ^ 21) = 0 ∧
    topPrefix 52429 (7 * 2 ^ 28) 0 [(0, 2 ^ 30), (1, 2 ^ 29), (2, 2 ^ 28)] = [(0, 2 ^ 30), (1, 2 ^ 29)] ∧
    pickWeighted 1107296256 0 [(0, 2 ^ 30), (1, 2 ^ 29)] = 1 := by decide +kernel

/-- 12 Example 12.2: the distances of the candidates. -/
theorem test_candidates : catCandidates 0x3F000000 [.fin (Frac.ofInt 8), .fin { num := 216718, den := 32768 }, .fin { num := 2740662, den := 524288 },
    .fin (Frac.ofInt (-200))] = [(0, 0), (1, 65536), (2, 131072), (3, 2 ^ 21)] := by decide +kernel

/-- 11 Example 11.1: conversions to E4M3, s8 and a block of E4M3. -/
theorem test_conversions : fconv 6 true none (w24Num 311296) = 0x2A ∧ fconv 6 true (some 32767) (w24Num 311296) = 0x29 ∧
    fconv 6 true (some 32768) (w24Num 311296) = 0x2A ∧ fconv 6 true none (.fin (Frac.pow2 3 (-10))) = 0x02 ∧
    fconv 6 true none (.fin (Frac.ofInt 500)) = 0x7E ∧ fconv 6 false none (.fin (Frac.ofInt 500)) = 0x7F ∧
    iconv 2 0 none (.fin { num := -296875 * 50, den := 1000000 }) = 0xF1 := by decide +kernel

/-- 11 Example 11.1: a block of E4M3 with its scale. -/
theorem test_block : b32Block { fmt := 8, stochastic := false, sat := true, scale := 0x3F800000, zero := 0 } [0, 0]
    [.fin (Frac.ofInt 900), w24Num 311296] = ([0x7E, 0x22], 0x80) := by decide +kernel

/-- 10 Example 10.1: PWL decompanding of four codes. -/
theorem test_pwl :
    let b := [(0x10, 1, 12), (0x11, 1, 20), (0x12, 1, 4), (0x18, 4, 0), (0x1C, 4, 0), (0x20, 4, 1), (0x24, 4, 2048), (0x28, 4, 2048), (0x2C, 4, 16),
      (0x30, 4, 3072), (0x34, 4, 18432), (0x38, 4, 128), (0x3C, 4, 3584), (0x40, 4, 83968), (0x44, 4, 1888)].foldl put (List.replicate 72 0)
    [2047, 2048, 3300, 4095].map (pwl b) = [2047, 2048, 47616, 1048575] := by decide +kernel

/-- 09 Example 9.1: the estimates and the QP they lead to. -/
theorem test_rate_control : rateEst 180000 30 30 = 180000 ∧ rateEst 180000 30 31 = 160361 ∧ rateEst 180000 30 35 = 101021 ∧
    rateEst 180000 30 36 = 90000 ∧ rateSearch 180000 30 100000 30 10 = 36 := by decide +kernel

/-- 08 Example 8.1: range and azimuth of the first record, and its point. -/
theorem test_spherical_point : asr (10000 * 2147484) 20 = 20480 ∧ asr (4500 * 1908875) 20 = 8192 ∧ spherical 20480 8192 0 = (14481, 14481, 0) ∧
    cos14 8192 = 11585 := by decide +kernel

/-! ### Single commands -/

/-- A fault is recorded, and its source reads sticky (14 R465). -/
theorem test_fault_recorded : (after (.faultReport 5 [{ src := 127, cls := 2, cause := 0x19, detail := 3 }]) up).faults.log.length = 1 ∧
    (Tbl.get? (after (.faultReport 5 [{ src := 127, cls := 2, cause := 0x19, detail := 3 }]) up).faults.records 127).map (·.cls) = some 2 := by
  decide +kernel

/-- A doorbell of 06 Example 6.1: with the counts at 14 and 16 slots, 18 is accepted and 31 is not. -/
theorem test_doorbell :
    let s : State := { up with ctxs := [(9, { st := .opened })], rings := [(37, { st := .run, log2 := 4, tail := 14, head := 14, done := 14 })] }
    ((after (.ringDoorbell 0 9 1 18) s).ring 9 1).tail = 18 ∧ ((after (.ringDoorbell 0 9 1 31) s).ring 9 1).dbErr = true ∧
      ((after (.ringDoorbell 0 9 1 31) s).ring 9 1).tail = 14 := by decide +kernel

/-- Locked management bits stay (16 R531). -/
theorem test_lock : (after (.registerWrite 0 .host 0x8600 0 15 true {}) (after (.mgmtLock 0 true) up)).mgmt.permitWake = true := by decide +kernel

/-- The release of GX_RST_N ends in a request for the rails, and their supply-good inputs lead on (03 R75). -/
theorem test_wake : (after (.gxRstNDeassert 0 7 true) { State.reset with chip := { State.reset.chip with rstN := false, keeperInit := true } }).power.ctrl.req =
    true := by decide +kernel

/-- The safe-state request is entered and, with no stream attached, reached at once (14 R485). -/
theorem test_safe : (after (.safeCtlEnter 0 true) up).faults.safe = .deviceSafe := by decide +kernel

/-- An ill-formed payload of a CSI-2 packet. -/
theorem test_wf_payload : (Instr.csi2LongPacket 0 0 0 0 .ok (List.replicate 65536 0) true false false).wf = false := by
  show (true && true && true && decide ((List.replicate 65536 (0 : Byte)).length < 65536)) = false
  rw [List.length_replicate]; rfl

/-- No command of this block is spelt by a word (log 1). -/
theorem test_no_words : decodeTableWord 16 0 = none ∧ (State.reset.withFetchWord 16 0) = State.reset := by decide +kernel

/-! ### Operands and states that meet the hypotheses of each statement -/

theorem test_witness_StepRunsTheFrontCommand :
    (∃ (c : Instr) (rest : List Instr) (s : State), s.pending = c :: rest) ∧
    (∃ (s : State), s.pending = []) :=
  ⟨⟨.gxRstNAssert 0, [], { State.reset with pending := [.gxRstNAssert 0] }, (by decide +kernel)⟩,
   ⟨State.reset, (by decide +kernel)⟩⟩

theorem test_witness_CommandsCompleteAndLeaveTheQueue :
    (∃ (c : Instr), c.wf = true) ∧
    (∃ (c : Instr), c.wf = false) ∧
    (∃ (c : Instr) (s : State) (t : State), exec c s = .next t) :=
  ⟨⟨.mboxGo 0 256 true true, (by decide +kernel)⟩,
   ⟨.mboxGo 0 257 true true, (by decide +kernel)⟩,
   ⟨.gxRstNAssert 0, State.reset, _, rfl⟩⟩

theorem test_witness_WaitingCommandsStayGiven :
    ∃ (s : State), Safety.queueOk s :=
  ⟨{ State.reset with pending := [.mboxGo 0 256 true true, .gxRstNAssert 0] }, (by unfold Safety.queueOk; decide +kernel)⟩

theorem test_witness_ResetsTakeEffect :
    (∃ (inst : Nat) (group : Nat) (saddr : Nat) (mfr : Nat) (s : State), inst < 4 ∧ group < 4 ∧ saddr < 128 ∧ mfr < 2048 ∧ s.chip.porstN = false) ∧
    (∃ (s : State), s.chip.porstN = true ∧ s.chip.keeperInit = false ∧ s.faults.pulseWaits = false) ∧
    (∃ (key : Nat) (s : State), key < 2 ^ 384 ∧ s.chip.rstN = false ∧ s.chip.porstN = true ∧ s.chip.keeperInit = true) :=
  ⟨⟨3, 3, 127, 2047, { up with chip := { up.chip with porstN := false } }, (by decide +kernel)⟩,
   ⟨State.reset, (by decide +kernel)⟩,
   ⟨2 ^ 384 - 1, { up with chip := { up.chip with rstN := false } }, (by decide +kernel)⟩⟩

theorem test_witness_PowerTargets :
    (∃ (s : State), s.keeperUp = true ∧ s.mainUp = true ∧ s.power.wake = .idle ∧ s.power.state ≠ .enteringKeep ∧ s.liveAdmitted = false) ∧
    (∃ (s : State), s.keeperUp = true ∧ s.mainUp = true ∧ s.power.wake = .idle ∧ s.power.state ≠ .enteringKeep ∧ s.liveAdmitted = true) ∧
    (∃ (s : State), s.power.state = .enteringKeep ∧ s.power.wake = .idle ∧ s.memIdle = true ∧ (∀ p ∈ s.rings, p.2.entries = [] ∧ p.2.issued = p.2.head)) ∧
    (∃ (s : State), s.keeperUp = true ∧ s.mainUp = true ∧ s.power.wake = .idle ∧ s.power.state ≠ .enteringKeep ∧ standbyOk s = true ∧ s.press.running = false ∧ s.oppBusy = false ∧ s.power.oppPending ≠ 2 ∧ s.faults.safe = .normal) ∧
    (∃ (s : State), s.keeperUp = true ∧ s.mainUp = true ∧ s.power.wake = .idle ∧ s.power.state = .standby ∧ s.power.target = 2 ∧ s.power.blocked = false ∧ s.press.running = false ∧ s.oppBusy = false ∧ s.power.oppPending ≠ s.power.fastest ∧ s.faults.safe = .normal) :=
  ⟨⟨up, (by decide +kernel)⟩,
   ⟨{ up with bindings := [(0xFF000001, liveBinding)] }, (by decide +kernel)⟩,
   ⟨{ up with power := { up.power with state := .enteringKeep } }, (by decide +kernel)⟩,
   ⟨up, (by decide +kernel)⟩,
   ⟨{ up with power := { up.power with state := .standby, target := 2, oppPending := 2, oppCurrent := 2 } }, (by decide +kernel)⟩⟩

theorem test_witness_WakesFromKeep :
    (∃ (dt : Nat) (s : State), s.chip.porstN = true ∧ s.chip.rstN = true ∧ s.chip.keeperInit = true ∧ s.power.state = .keep ∧ s.power.wake = .idle ∧ s.power.wakeTimer ≠ 0 ∧ s.power.keepSince + 1000000 * s.power.wakeTimer ≤ (advance dt s).now) ∧
    (∃ (dt : Nat) (s : State), s.chip.porstN = true ∧ s.chip.rstN = false ∧ s.power.state = .keep ∧ s.power.wakeTimer ≠ 0 ∧ s.power.keepSince + 1000000 * s.power.wakeTimer ≤ (advance dt s).now) :=
  ⟨⟨1000000, { up with power := { up.power with state := .keep, wakeTimer := 1 } }, (by decide +kernel)⟩,
   ⟨1000000, { up with chip := { up.chip with rstN := false }, power := { up.power with state := .keep, wakeTimer := 1 } }, (by decide +kernel)⟩⟩

theorem test_witness_ClocksAndPoints :
    (∃ (r : Rail), r ≠ .keep) ∧
    (∃ (r : Rail) (s : State), r ≠ .keep ∧ (s.rail r).up = false ∧ s.power.array.warns = false) ∧
    (∃ (s : State), s.oppBusy = true ∧ s.press.running = true ∧ s.faults.safe = .normal) ∧
    (∃ (s : State), s.power.oppWait = true ∧ s.power.oppReturn = false ∧ Tbl.get? s.faults.records 121 = none ∧ s.faults.safe = .normal) ∧
    (∃ (edges : Nat) (c : Clk) (s : State), s.chip.porstN = true ∧ (s.clk c).req = true ∧ (s.clk c).ack = true ∧ rateOk s c edges = true) :=
  ⟨⟨.array, (by decide +kernel)⟩,
   ⟨.mram, { up with power := { up.power with mram := { pg := true } } }, (by decide +kernel)⟩,
   ⟨{ up with power := { up.power with oppWait := true }, press := { up.press with running := true } }, (by decide +kernel)⟩,
   ⟨{ up with power := { up.power with oppWait := true, oppPending := 2 } }, (by decide +kernel)⟩,
   ⟨10920, .aclk, { up with power := { up.power with aclk := { req := true, ack := true, bad := true } } }, (by decide +kernel)⟩⟩

theorem test_witness_SuppliesAndHeat :
    (∃ (r : Rail) (s : State), (s.rail r).up = false ∧ s.power.array.warns = false) ∧
    (∃ (r : Rail) (s : State), s.chip.porstN = true ∧ (s.rail r).up = true ∧ (s.rail r).warn = false ∧ s.power.array.warns = false ∧ Tbl.get? s.faults.records (if r = .array then 121 else 122) = none) ∧
    (∃ (readings : List Int) (s : State), readings.length = 16 ∧ (∀ x ∈ readings, -32768 ≤ x ∧ x < 32768) ∧ s.mainUp = true ∧ (∀ x ∈ readings, x < 600) ∧ s.power.stage ≠ 3) :=
  ⟨⟨.mram, { up with power := { up.power with mram := { req := true } } }, (by decide +kernel)⟩,
   ⟨.array, { up with power := { up.power with array := { req := true, pg := true, up := true } } }, (by decide +kernel)⟩,
   ⟨List.replicate 15 599 ++ [-32768], up, (by decide +kernel)⟩⟩

theorem test_witness_TimeBaseFollowsItsReference :
    (∃ (timeIn : Nat) (s : State), timeIn < 2 ^ 64 ∧ s.chip.porstN = true ∧ s.chip.keeperInit = true ∧ s.tb.loaded = false ∧ s.tb.selKclk = false ∧ s.tb.selNext = none) ∧
    (∃ (dt : Nat) (timeIn : Nat) (j : Int) (s : State), timeIn < 2 ^ 64 ∧ s.chip.porstN = true ∧ s.chip.keeperInit = true ∧ s.tb.loaded = true ∧ s.tb.selKclk = false ∧ s.tb.selNext = none ∧ s.tb.quality = 0 ∧ ((timeIn : Int) - stampAt (advance dt s) j).natAbs ≤ 1000000) ∧
    (∃ (edge : Nat) (u : Int) (v : Int) (s : State), edge < 2 ^ 64 ∧ s.tb.selNext = none ∧ edgeDue s edge = true ∧ s.tb.quality ≠ 1 ∧ s.tb.edgeTimeIn = some u ∧ interpolate edge s.tb.strobeLog = some v ∧ (windowDiff (v - u)).natAbs ≤ 100000) ∧
    (∃ (edge : Nat) (u : Int) (v : Int) (s : State), edge < 2 ^ 64 ∧ s.tb.selNext = none ∧ edgeDue s edge = true ∧ s.tb.quality ≠ 1 ∧ s.tb.edgeTimeIn = some u ∧ interpolate edge s.tb.strobeLog = some v ∧ 100000 < (windowDiff (v - u)).natAbs ∧ s.tb.count < 7) ∧
    (∃ (s : State), s.keeperUp = true) :=
  ⟨⟨2 ^ 64 - 1, up, (by decide +kernel)⟩,
   ⟨0, 1000000, 0, { up with tb := { up.tb with loaded := true, quality := 0 } }, (by decide +kernel)⟩,
   ⟨500000, 0, 125012500, tbJudged 125012500, (by decide +kernel)⟩,
   ⟨500000, 0, 125012501, { tbJudged 125012501 with tb := { (tbJudged 125012501).tb with count := 6 } }, (by decide +kernel)⟩,
   ⟨up, (by decide +kernel)⟩⟩

theorem test_witness_HoldoverAndRelock :
    (∃ (s : State), s.chip.porstN = true ∧ s.tb.selKclk = false ∧ s.tb.selNext = none ∧ s.tb.quality ≠ 1 ∧ Tbl.get? s.faults.records 123 = none) ∧
    (∃ (s : State), s.chip.porstN = true ∧ s.tb.selKclk = true ∧ s.tb.selNext = none ∧ s.tb.quality ≠ 1 ∧ Tbl.get? s.faults.records 123 = none) ∧
    (∃ (s : State), s.keeperUp = true ∧ s.tb.quality = 1) ∧
    (∃ (s : State), s.keeperUp = true ∧ s.tb.selNext = none ∧ s.tb.quality ≠ 1) ∧
    (∃ (s : State), s.keeperUp = true) ∧
    (∃ (dt : Nat) (at_ : Nat) (kclk : Bool) (r : Int) (s : State), s.chip.porstN = true ∧ s.tb.selNext = some (kclk, at_, r) ∧ at_ ≤ (s.tb.now + dt) % 2 ^ 64 ∧ s.tb.kclkLost = false ∧ (kclk = true ∨ s.tb.timeLost = false)) :=
  ⟨⟨up, (by decide +kernel)⟩,
   ⟨{ up with tb := { up.tb with quality := 0, selKclk := true } }, (by decide +kernel)⟩,
   ⟨{ up with tb := { up.tb with quality := 1 } }, (by decide +kernel)⟩,
   ⟨{ up with tb := { up.tb with quality := 2 } }, (by decide +kernel)⟩,
   ⟨up, (by decide +kernel)⟩,
   ⟨0, 0, true, 0, { up with tb := { up.tb with selNext := some (true, 0, 0), timeLost := true } }, (by decide +kernel)⟩⟩

theorem test_witness_ClaimAndComplete :
    (∃ (k : Nat) (n : Nat) (s : State), k < 64 ∧ s.mainUp = true ∧ (s.target k).service = none ∧ pendingAt s k = some n) ∧
    (∃ (k : Nat) (s : State), k < 64 ∧ s.mainUp = true ∧ (s.target k).service = none ∧ pendingAt s k = none) ∧
    (∃ (k : Nat) (n : Nat) (s : State), k < 64 ∧ s.mainUp = true ∧ (s.target k).service = some n) ∧
    (∃ (k : Nat) (s : State), k < 64 ∧ s.mainUp = true) ∧
    (∃ (k : Nat) (n : Nat) (s : State), k < 64 ∧ n < 1024 ∧ s.mainUp = true ∧ (s.target k).service = some n) ∧
    (∃ (k : Nat) (n : Nat) (s : State), k < 64 ∧ n < 1024 ∧ s.mainUp = true ∧ (s.target k).service ≠ some n) :=
  ⟨⟨63, swSource, { up with events := { up.events with route := [(swSource, 63)], enabled := [swSource], sw := true, targets := [(63, {})] } }, (by decide +kernel)⟩,
   ⟨0, up, (by decide +kernel)⟩,
   ⟨63, 1023, { up with events := { up.events with route := [(swSource, 63)], enabled := [swSource], sw := true, targets := [(63, { service := some 1023 })] } }, (by decide +kernel)⟩,
   ⟨63, up, (by decide +kernel)⟩,
   ⟨63, 1023, { up with events := { up.events with route := [(swSource, 63)], enabled := [swSource], sw := true, targets := [(63, { service := some 1023 })] } }, (by decide +kernel)⟩,
   ⟨63, 1023, up, (by decide +kernel)⟩⟩

theorem test_witness_TargetsSignal :
    (∃ (dt : Nat) (k : Nat) (s : State), k < 64 ∧ Safety.quiet s ∧ readyToSignal (advance dt s) k = true ∧ (s.target k).modeNow = false ∧ (s.target k).out = false) ∧
    (∃ (dt : Nat) (k : Nat) (s : State), k < 64 ∧ Safety.quiet s ∧ readyToSignal (advance dt s) k = true ∧ (s.target k).modeNow = true ∧ (s.target k).msgPend = false ∧ (s.target k).msgSent = false) ∧
    (∃ (dt : Nat) (k : Nat) (s : State), k < 64 ∧ (s.target k).moderated (advance dt s).now = false) ∧
    (∃ (k : Nat) (s : State), k < 64 ∧ s.mainUp = true) ∧
    (∃ (s : State), eventsRun s = true ∧ Tbl.get? s.faults.records 126 = none) ∧
    (∃ (k : Nat) (s : State), k < 18 ∧ eventsRun s = true ∧ Tbl.get? s.faults.records 126 = none) ∧
    (∃ (k : Nat) (s : State), k < 144 ∧ eventsRun s = true ∧ Tbl.get? s.faults.records 126 = none) ∧
    (∃ (k : Nat) (s : State), k < 64 ∧ eventsRun s = true ∧ Tbl.get? s.faults.records 126 = none) :=
  ⟨⟨0, 63, { up with events := { up.events with route := [(swSource, 63)], enabled := [swSource], sw := true, targets := [(63, { enable := true })] } }, (by decide +kernel), quiet_of (by decide +kernel), (by decide +kernel)⟩,
   ⟨0, 63, { up with events := { up.events with route := [(swSource, 63)], enabled := [swSource], sw := true, targets := [(63, { enable := true, message := true, modeNow := true })] } }, (by decide +kernel), quiet_of (by decide +kernel), (by decide +kernel)⟩,
   ⟨0, 63, { up with events := { up.events with route := [(swSource, 63)], enabled := [swSource], sw := true, targets := [(63, { modEnd := some 0 })] } }, (by decide +kernel)⟩,
   ⟨63, up, (by decide +kernel)⟩,
   ⟨up, (by decide +kernel)⟩,
   ⟨17, up, (by decide +kernel)⟩,
   ⟨143, up, (by decide +kernel)⟩,
   ⟨63, { up with events := { up.events with targets := [(63, { service := some 1023 })] } }, (by decide +kernel)⟩⟩

theorem test_witness_FaultsAreRecorded :
    (∃ (dt : Nat) (f : FaultIn) (s : State), (Instr.faultReport dt [f]).wf = true ∧ s.chip.porstN = true ∧ Tbl.get? s.faults.records f.src = none ∧ f.cls ≠ 3) ∧
    (∃ (dt : Nat) (f : FaultIn) (r : Record) (s : State), (Instr.faultReport dt [f]).wf = true ∧ s.chip.porstN = true ∧ Tbl.get? s.faults.records f.src = some r ∧ f.cls = 1 ∧ r.cls = 1 ∧ r.counting = true ∧ counts f = true) :=
  ⟨⟨0, { src := 127, cls := 2, cause := 0x26, detail := 65535 }, up, (by decide +kernel)⟩,
   ⟨0, { src := 0, cls := 1, cause := 0x26, detail := 65535 }, { cls := 1, pin := 1, counting := true, escalated := false, scope := .loc, cause := 0x12, detail := 0, time := 0 }, { up with faults := { up.faults with records := [(0, { cls := 1, pin := 1, counting := true, escalated := false, scope := .loc, cause := 0x12, detail := 0, time := 0 })] } }, (by decide +kernel)⟩⟩

theorem test_witness_FaultPin :
    (∃ (s : State), s.chip.keeperInit = true ∧ s.faults.pinLow = true ∧ s.faults.pulse = true ∧ (∀ p ∈ s.faults.records, p.2.pin < s.faults.holdMin)) ∧
    (∃ (p : Nat × Record) (s : State), s.faults.pulse = true ∧ p ∈ s.faults.records ∧ s.faults.holdMin ≤ p.2.pin) ∧
    (∃ (s : State), s.faults.highHold = true ∧ s.faults.pulseWaits = true) :=
  ⟨⟨{ up with faults := { up.faults with pulse := true, records := [(127, { cls := 2, pin := 2, counting := true, escalated := false, scope := .loc, cause := 0x12, detail := 0, time := 0 })] } }, (by decide +kernel)⟩,
   ⟨(127, { cls := 3, pin := 3, counting := true, escalated := false, scope := .loc, cause := 0x12, detail := 0, time := 0 }), { up with faults := { up.faults with pulse := true, records := [(127, { cls := 3, pin := 3, counting := true, escalated := false, scope := .loc, cause := 0x12, detail := 0, time := 0 })] } }, (by decide +kernel)⟩,
   ⟨{ up with faults := { up.faults with highHold := true, pulseWaits := true } }, (by decide +kernel)⟩⟩

theorem test_witness_RecordsAreAcknowledged :
    (∃ (src : Nat) (r : Record) (s : State), src < 128 ∧ s.keeperUp = true ∧ Tbl.wf s.faults.records = true ∧ Tbl.get? s.faults.records src = some r ∧ r.cls ≠ 3) ∧
    (∃ (src : Nat) (r : Record) (s : State), src < 128 ∧ s.keeperUp = true ∧ Tbl.get? s.faults.records src = some r ∧ r.cls = 3 ∧ r.scope = .device ∧ r.sinceRst = false) ∧
    (∃ (src : Nat) (r : Record) (s : State), src < 128 ∧ s.keeperUp = true ∧ Tbl.wf s.faults.records = true ∧ Tbl.get? s.faults.records src = some r ∧ r.cls = 3 ∧ r.scope = .device ∧ r.sinceRst = true) ∧
    (∃ (dt : Nat) (src : Nat) (r : Record) (s : State), src < 128 ∧ s.fwRuns = true ∧ s.control.halt1 = false ∧ s.press.running = false ∧ Tbl.wf s.faults.records = true ∧ Tbl.get? s.faults.records src = some r ∧ r.cls ≠ 3 ∧ journaled s src = true ∧ r.time + 1000000 ≤ (s.tb.now + dt) % 2 ^ 64) :=
  ⟨⟨127, { cls := 2, pin := 2, counting := true, escalated := false, scope := .loc, cause := 0x12, detail := 0, time := 0 }, { up with faults := { up.faults with records := [(127, { cls := 2, pin := 2, counting := true, escalated := false, scope := .loc, cause := 0x12, detail := 0, time := 0 })] } }, (by decide +kernel)⟩,
   ⟨0, { cls := 3, pin := 3, counting := true, escalated := false, scope := .device, cause := 0x12, detail := 0, time := 0 }, { up with faults := { up.faults with records := [(0, { cls := 3, pin := 3, counting := true, escalated := false, scope := .device, cause := 0x12, detail := 0, time := 0 })] } }, (by decide +kernel)⟩,
   ⟨0, { cls := 3, pin := 3, counting := true, escalated := false, scope := .device, cause := 0x12, detail := 0, time := 0, sinceRst := true }, { up with faults := { up.faults with records := [(0, { cls := 3, pin := 3, counting := true, escalated := false, scope := .device, cause := 0x12, detail := 0, time := 0, sinceRst := true })] } }, (by decide +kernel)⟩,
   ⟨1000000, 127, { cls := 2, pin := 2, counting := true, escalated := false, scope := .loc, cause := 0x12, detail := 0, time := 0 }, { up with faults := { up.faults with records := [(127, { cls := 2, pin := 2, counting := true, escalated := false, scope := .loc, cause := 0x12, detail := 0, time := 0 })] } }, (by decide +kernel)⟩⟩

theorem test_witness_CaptureAndLog :
    (∃ (s : State), s.mainUp = true) ∧
    (∃ (e : LogEntry) (l : List LogEntry) (s : State), s.keeperUp = true ∧ s.faults.log = e :: l) :=
  ⟨⟨up, (by decide +kernel)⟩,
   ⟨{ injected := false, escalated := false, scope := .loc, cls := 2, cause := 0x12, source := 122, detail := 0, time := 5 }, [], { up with faults := { up.faults with log := [{ injected := false, escalated := false, scope := .loc, cls := 2, cause := 0x12, source := 122, detail := 0, time := 5 }] } }, (by decide +kernel)⟩⟩

theorem test_witness_SafeStateAndInjection :
    (∃ (s : State), s.mainUp = true ∧ s.chip.safeReq = false ∧ s.faults.safe = .normal) ∧
    (∃ (s : State), s.mainUp = true ∧ s.faults.safe = .normal) ∧
    (∃ (mode : Nat) (src : Nat) (cause : Nat) (cls : Nat) (s : State), mode < 7 ∧ mode ≠ 0 ∧ mode ≠ 5 ∧ src < 128 ∧ cause < 256 ∧ cls < 4 ∧ s.mainUp = true ∧ s.control.dbgLevel = 2) ∧
    (∃ (src : Nat) (cause : Nat) (cls : Nat) (s : State), src < 128 ∧ cause < 256 ∧ (cls = 1 ∨ cls = 2) ∧ s.mainUp = true ∧ s.control.dbgLevel = 2 ∧ Tbl.get? s.faults.records src = none) ∧
    (∃ (src : Nat) (cause : Nat) (cls : Nat) (s : State), src < 128 ∧ cause < 256 ∧ cls < 4 ∧ s.mainUp = true ∧ s.control.dbgLevel = 2 ∧ Tbl.get? s.faults.records 124 = none) ∧
    (∃ (mode : Nat) (src : Nat) (cause : Nat) (cls : Nat) (s : State), 7 ≤ mode ∧ mode < 16 ∧ src < 128 ∧ cause < 256 ∧ cls < 4 ∧ s.mainUp = true ∧ s.control.dbgLevel = 2 ∧ s.faults.fi.mode ≠ 0 ∧ s.faults.fi.mode ≠ 5) ∧
    (∃ (mode : Nat) (src : Nat) (cause : Nat) (cls : Nat) (s : State), mode < 16 ∧ src < 128 ∧ cause < 256 ∧ cls < 4 ∧ s.mainUp = true ∧ s.control.dbgLevel ≠ 2) :=
  ⟨⟨up, (by decide +kernel)⟩,
   ⟨up, (by decide +kernel)⟩,
   ⟨6, 127, 255, 3, { up with control := { up.control with dbgLevel := 2 } }, (by decide +kernel)⟩,
   ⟨127, 255, 2, { up with control := { up.control with dbgLevel := 2 } }, (by decide +kernel)⟩,
   ⟨127, 255, 3, { up with control := { up.control with dbgLevel := 2 } }, (by decide +kernel)⟩,
   ⟨15, 127, 255, 3, { up with control := { up.control with dbgLevel := 2 }, faults := { up.faults with fi := { up.faults.fi with mode := 1 } } }, (by decide +kernel)⟩,
   ⟨15, 127, 255, 3, up, (by decide +kernel)⟩⟩

theorem test_witness_MailboxExchange :
    (∃ (box : Nat) (s : State), box ≤ 256 ∧ s.mainUp = true ∧ serves s box = true ∧ boxOpen s box = true ∧ (box < 256 → (s.ctx box).closeHold = none) ∧ (s.box box).busy = false ∧ (∀ m : Mbox, m = { s.box box with buf := (s.box box).req } → m.len ≤ 56 ∧ m.flags < 2 ∧ cmdSpec m.cmd (reqBytes m) ≠ none)) ∧
    (∃ (box : Nat) (s : State), box ≤ 256 ∧ s.mainUp = true ∧ boxOpen s box = true ∧ (box < 256 → (s.ctx box).closeHold = none) ∧ (s.box box).busy = true) ∧
    (∃ (box : Nat) (s : State), box ≤ 256 ∧ s.mainUp = true ∧ boxOpen s box = true) ∧
    (∃ (n : Notice) (l : List Notice) (s : State), s.mainUp = true ∧ Safety.quiet s ∧ (s.box 256).notices = n :: l) ∧
    (∃ (c : Nat) (n : Notice) (l : List Notice) (s : State), c < 256 ∧ s.mainUp = true ∧ Safety.quiet s ∧ (s.ctx c).st = .opened ∧ (s.box c).notices = n :: l) :=
  ⟨⟨255, { upCtx with boxes := [(255, { req := leBytes 1 2 ++ List.replicate 62 0 })] }, (by decide +kernel), (by decide +kernel), (by decide +kernel), (by decide +kernel), (by decide +kernel), (by decide +kernel), (by intro m hm; subst hm; decide +kernel)⟩,
   ⟨256, { up with boxes := [(256, { busy := true })] }, (by decide +kernel)⟩,
   ⟨256, up, (by decide +kernel)⟩,
   ⟨{ cmd := 0x31, status := 0, seq := 7, value := 1 }, [], { up with boxes := [(256, { notices := [{ cmd := 0x31, status := 0, seq := 7, value := 1 }] })] }, (by decide +kernel), quiet_of (by decide +kernel), (by decide +kernel)⟩,
   ⟨255, { cmd := 0x31, status := 0, seq := 7, value := 1 }, [], { upCtx with boxes := [(255, { notices := [{ cmd := 0x31, status := 0, seq := 7, value := 1 }] })] }, (by decide +kernel), (by decide +kernel), quiet_of (by decide +kernel), (by decide +kernel)⟩⟩

theorem test_witness_FirmwareOpensTheMailboxes :
    (∃ (dt : Nat) (mem : ExtMem) (outs : List KOut) (s : State), (Instr.mailboxOpen dt mem outs).wf = true ∧ bootReady s = true ∧ rootOk s = true ∧ s.keep.indexBad = false ∧ s.keep.boot.2.1 = false ∧ s.chip.safeReq = false) ∧
    (∃ (dt : Nat) (mem : ExtMem) (outs : List KOut) (s : State), (Instr.mailboxOpen dt mem outs).wf = true ∧ bootReady s = true ∧ rootOk s = false) :=
  ⟨⟨0, {}, [], bootable, (by decide +kernel)⟩,
   ⟨0, {}, [], { bootable with chip := { bootable.chip with rootKeyValid := false } }, (by decide +kernel)⟩⟩

theorem test_witness_ControlRestarts :
    (∃ (s : State), s.mainUp = true ∧ s.control.restarting = false) ∧
    (∃ (dt : Nat) (pair : Nat) (s : State), pair < 2 ∧ pairRuns s pair = true ∧ pairHalted s pair = false ∧ (if pair = 0 then s.control.wd0 else s.control.wd1).left = none ∧ (if pair = 0 then s.control.wd0 else s.control.wd1).due ≤ (advance dt s).now ∧ Tbl.get? s.faults.records (5 + pair) = none ∧ s.faults.safe = .normal ∧ s.control.restarting = false) ∧
    (∃ (pair : Nat) (s : State), pair < 2 ∧ pairRuns s pair = true ∧ pairHalted s pair = true) ∧
    (∃ (pair : Nat) (s : State), pair < 2 ∧ pairRuns s pair = true ∧ Tbl.get? s.faults.records pair = none ∧ s.faults.safe = .normal ∧ s.control.restarting = false) ∧
    (∃ (s : State), pairRuns s 0 = true ∧ Tbl.get? s.faults.records 9 = none ∧ s.faults.safe = .normal ∧ s.control.restarting = false) ∧
    (∃ (pair : Nat) (s : State), pair < 2 ∧ pairRuns s pair = true ∧ Tbl.get? s.faults.records pair = none ∧ s.faults.safe = .normal ∧ s.control.restarting = true) ∧
    (∃ (word : Nat) (s : State), word < 262144 ∧ s.mainUp = true ∧ Tbl.get? s.faults.records 4 = none) ∧
    (∃ (word : Nat) (f : SramFinding) (s : State), word < 262144 ∧ f ≠ .corrected ∧ 8 * word < s.control.textSize ∧ s.mainUp = true ∧ pairRuns s 0 = true ∧ Tbl.get? s.faults.records 3 = none ∧ s.faults.safe = .normal ∧ s.control.restarting = false) ∧
    (∃ (word : Nat) (s : State), word < 262144 ∧ s.control.textSize ≤ 8 * word ∧ s.mainUp = true ∧ Tbl.get? s.faults.records 2 = none) ∧
    (∃ (word : Nat) (s : State), word < 262144 ∧ s.control.textSize ≤ 8 * word ∧ s.mainUp = true ∧ pairRuns s 0 = true ∧ Tbl.get? s.faults.records 2 = none ∧ s.faults.safe = .normal ∧ s.control.restarting = false) :=
  ⟨⟨up, (by decide +kernel)⟩,
   ⟨100, 1, { up with control := { up.control with wd1 := { due := 100 } } }, (by decide +kernel)⟩,
   ⟨1, { up with control := { up.control with halt1 := true } }, (by decide +kernel)⟩,
   ⟨1, up, (by decide +kernel)⟩,
   ⟨up, (by decide +kernel)⟩,
   ⟨0, { up with control := { up.control with restarting := true } }, (by decide +kernel)⟩,
   ⟨262143, up, (by decide +kernel)⟩,
   ⟨262143, .read, { up with control := { up.control with textSize := 2097152 } }, (by decide +kernel)⟩,
   ⟨262143, up, (by decide +kernel)⟩,
   ⟨262143, up, (by decide +kernel)⟩⟩

theorem test_witness_ExceptionsAreSaved :
    (∃ (core : Nat) (cause : Nat) (faultAddr : Nat) (s : State), core < 4 ∧ cause < 2 ^ 32 ∧ faultAddr < 2 ^ 64 ∧ pairRuns s (core / 2) = true ∧ pairHalted s (core / 2) = false ∧ Mem.wf s.control.sram = true ∧ s.control.cores.length = 4 ∧ leNat (s.control.sram.readBytes (saveArea core + 0x128) 4) ≠ 1 ∧ saveArea core + 0x128 ∉ s.control.sramPoison) ∧
    (∃ (core : Nat) (cause : Nat) (faultAddr : Nat) (s : State), core < 4 ∧ cause < 2 ^ 32 ∧ faultAddr < 2 ^ 64 ∧ pairRuns s (core / 2) = true ∧ pairHalted s (core / 2) = false ∧ saveArea core + 0x128 ∉ s.control.sramPoison ∧ leNat (s.control.sram.readBytes (saveArea core + 0x128) 4) = 1 ∧ Tbl.get? s.faults.records (7 + core / 2) = none) ∧
    (∃ (core : Nat) (cause : Nat) (faultAddr : Nat) (s : State), core < 4 ∧ cause < 2 ^ 32 ∧ faultAddr < 2 ^ 64 ∧ pairRuns s (core / 2) = true ∧ pairHalted s (core / 2) = false ∧ saveArea core + 0x128 ∈ s.control.sramPoison ∧ Tbl.get? s.faults.records 2 = none) :=
  ⟨⟨3, 2 ^ 32 - 1, 2 ^ 64 - 1, up, (by decide +kernel)⟩,
   ⟨3, 2 ^ 32 - 1, 2 ^ 64 - 1, { up with control := { up.control with sram := up.control.sram.writeBytes (saveArea 3 + 0x128) [1] } }, (by decide +kernel)⟩,
   ⟨3, 2 ^ 32 - 1, 2 ^ 64 - 1, { up with control := { up.control with sramPoison := [saveArea 3 + 0x128] } }, (by decide +kernel)⟩⟩

theorem test_witness_SemaphoresAreLeased :
    (∃ (n : Nat) (g : SemAgent) (s : State), n < 64 ∧ g ≠ .tap ∧ agentLive s g = true ∧ g ∉ (s.sem n).lost ∧ (s.sem n).owner = none) ∧
    (∃ (n : Nat) (g : SemAgent) (debug : Bool) (s : State), n < 64 ∧ agentLive s g = true ∧ (g = .tap ∨ debug = true)) ∧
    (∃ (n : Nat) (g : SemAgent) (s : State), n < 64 ∧ agentLive s g = true ∧ g ∉ (s.sem n).lost ∧ (s.sem n).owner = none) ∧
    (∃ (dt : Nat) (n : Nat) (lease : Nat) (g : SemAgent) (s : State), n < 64 ∧ lease < 65536 ∧ (Instr.semRenew dt g n lease).wf = true ∧ agentLive s g = true ∧ g ∉ (s.sem n).lost ∧ (s.sem n).owner = some g ∧ lease ≠ 0) ∧
    (∃ (n : Nat) (g : SemAgent) (s : State), n < 64 ∧ agentLive s g = true ∧ g ∉ (s.sem n).lost ∧ (s.sem n).owner = some g) ∧
    (∃ (n : Nat) (g : SemAgent) (s : State), n < 64 ∧ agentLive s g = true ∧ g ∉ (s.sem n).lost ∧ (s.sem n).owner ≠ some g) ∧
    (∃ (dt : Nat) (n : Nat) (lease : Nat) (g : SemAgent) (s : State), n < 64 ∧ (Instr.semRenew dt g n lease).wf = true ∧ agentLive s g = true ∧ g ∉ (s.sem n).lost ∧ (s.sem n).owner ≠ some g) ∧
    (∃ (dt : Nat) (n : Nat) (g : SemAgent) (s : State), n < 64 ∧ (s.sem n).owner = some g ∧ (s.sem n).frozen = none ∧ (s.sem n).leaseEnd ≤ (advance dt s).now ∧ Tbl.get? s.faults.records 11 = none) :=
  ⟨⟨63, .pair1, up, (by decide +kernel)⟩,
   ⟨63, .tap, false, { up with control := { up.control with dbgLevel := 1 } }, (by decide +kernel)⟩,
   ⟨63, .pair0, up, (by decide +kernel)⟩,
   ⟨0, 63, 1023, .pair1, { up with control := { up.control with sems := [(63, { owner := some .pair1 })] } }, (by decide +kernel)⟩,
   ⟨63, .pair1, { up with control := { up.control with sems := [(63, { owner := some .pair1 })] } }, (by decide +kernel)⟩,
   ⟨63, .tap, { up with control := { up.control with dbgLevel := 1 } }, (by decide +kernel)⟩,
   ⟨0, 63, 1023, .pair0, up, (by decide +kernel)⟩,
   ⟨0, 63, .pair0, { up with control := { up.control with sems := [(63, { owner := some .pair0 })] } }, (by decide +kernel)⟩⟩

theorem test_witness_DebugIsUnlocked :
    (∃ (s : State), s.mainUp = true ∧ s.control.dbgFails < 3 ∧ s.liveAdmitted = false ∧ s.keep.unlockRecord = none ∧ s.chip.rootKeyHash = 0) ∧
    (∃ (dt : Nat) (level : Nat) (tm : Bool) (s : State), (Instr.debugChallenge dt ⟨level, tm⟩ .ok).wf = true ∧ s.mainUp = true ∧ s.control.dbgFails < 3 ∧ (level = 2 → s.liveAdmitted = false) ∧ s.keep.unlockRecord ≠ none ∧ s.keep.waiting = [] ∧ s.keep.refuses = false ∧ mramDown s = false ∧ s.power.mram.warn = false) ∧
    (∃ (dt : Nat) (level : Nat) (tm : Bool) (out : KOut) (s : State), (Instr.debugChallenge dt ⟨level, tm⟩ out).wf = true ∧ s.mainUp = true ∧ 3 ≤ s.control.dbgFails) ∧
    (∃ (dt : Nat) (key : List Byte) (sig : List Byte) (c : Challenge) (s : State), (Instr.debugUnlockResponse dt key sig false).wf = true ∧ s.control.challenge = some c) ∧
    (∃ (dt : Nat) (c : Challenge) (s : State), s.control.challenge = some c ∧ c.time + 10000000000 ≤ (advance dt s).now) ∧
    (∃ (pair : Nat) (s : State), pair < 2 ∧ s.mainUp = true ∧ s.control.dbgLevel ≠ 0) ∧
    (∃ (pair : Nat) (s : State), pair < 2 ∧ s.mainUp = true ∧ s.control.dbgLevel ≠ 0 ∧ pairHalted s pair = true ∧ s.control.cores.length = 4) ∧
    (∃ (s : State), s.mainUp = true ∧ s.control.dbgLevel ≠ 0) ∧
    (∃ (pair : Nat) (s : State), pair < 2 ∧ s.mainUp = true ∧ s.control.dbgLevel = 0) :=
  ⟨⟨{ up with chip := { up.chip with rootKeyHash := 0 } }, (by decide +kernel)⟩,
   ⟨0, 2, true, { up with keep := { up.keep with mem := putWords [] (recordWords 3775 1 (List.replicate 48 7 ++ [2, 0, 0, 0])), seq := 2 } }, (by decide +kernel)⟩,
   ⟨0, 2, true, .ok, { up with control := { up.control with dbgFails := 3 } }, (by decide +kernel)⟩,
   ⟨0, [], [], { level := 2, seq := 1, time := 0 }, { up with control := { up.control with challenge := some { level := 2, seq := 1, time := 0 } } }, (by decide +kernel)⟩,
   ⟨10000000000, { level := 2, seq := 1, time := 0 }, { up with control := { up.control with challenge := some { level := 2, seq := 1, time := 0 } } }, (by decide +kernel)⟩,
   ⟨1, { up with control := { up.control with dbgLevel := 1 } }, (by decide +kernel)⟩,
   ⟨1, { up with control := { up.control with dbgLevel := 2, halt1 := true } }, (by decide +kernel)⟩,
   ⟨{ up with control := { up.control with dbgLevel := 1 } }, (by decide +kernel)⟩,
   ⟨1, up, (by decide +kernel)⟩⟩

theorem test_witness_FirmwareIsStagedAndConfirmed :
    (∃ (dt : Nat) (mem : ExtMem) (s : State), (Instr.fwStage dt 256 mem).wf = true ∧ Safety.due s 256 0x7E ∧ field (reqBytes (s.box 256)) 0x10 8 % 4096 = 0 ∧ field (reqBytes (s.box 256)) 0x10 8 < 2 ^ 48 ∧ trialRuns s = false ∧ rootOk s = true) ∧
    (∃ (g : Staged) (s : State), Safety.due s 256 0x7F ∧ s.keep.waiting = [] ∧ s.control.staged = some g ∧ g.version = field (reqBytes (s.box 256)) 8 4 ∧ s.keep.refuses = false ∧ mramDown s = false ∧ s.power.mram.warn = false ∧ s.control.restarting = false) ∧
    (∃ (dt : Nat) (c : Instr) (s : State), (c = .fwConfirm dt [] ∨ c = .fwConfirmRetry dt []) ∧ s.fwRuns = true ∧ s.control.halt0 = false ∧ s.keep.waiting = [] ∧ s.control.confirm = .record ∧ s.keep.refuses = false ∧ mramDown s = false ∧ s.power.mram.warn = false ∧ s.control.fwSvn ≤ (wroteAll (s.keep.other 0) (bootData s.keep.boot.2.2.1 false s.keep.boot.2.2.1 s.keep.boot.2.2.2) s).keep.counter 0) ∧
    (∃ (dt : Nat) (c : Instr) (s : State), (c = .fwConfirm dt [] ∨ c = .fwConfirmRetry dt []) ∧ s.fwRuns = true ∧ s.control.halt0 = false ∧ s.keep.waiting = [] ∧ s.control.confirm = .counter ∧ s.keep.counter 0 < s.control.fwSvn ∧ s.keep.refuses = false ∧ mramDown s = false ∧ s.power.mram.warn = false) ∧
    (∃ (dt : Nat) (outs : List KOut) (c : Instr) (s : State), (c = .fwConfirm dt outs ∨ c = .fwConfirmRetry dt outs) ∧ c.wf = true ∧ s.fwRuns = true ∧ s.control.halt0 = false ∧ s.keep.waiting = [] ∧ s.control.confirm = .counter ∧ s.control.fwSvn ≤ s.keep.counter 0) :=
  ⟨⟨0, {}, asked 256 0x7E [(0x10, 8, 2 ^ 48 - 4096)] up, (by decide +kernel), due_of (by decide +kernel), (by decide +kernel)⟩,
   ⟨{ version := 2 ^ 32 - 1, slotB := true }, asked 256 0x7F [(8, 4, 2 ^ 32 - 1)] { up with control := { up.control with staged := some { version := 2 ^ 32 - 1, slotB := true } } }, due_of (by decide +kernel), (by decide +kernel)⟩,
   ⟨0, .fwConfirmRetry 0 [], { up with control := { up.control with confirm := .record } }, (by decide +kernel)⟩,
   ⟨0, .fwConfirm 0 [], { up with control := { up.control with confirm := .counter, fwSvn := 1 } }, (by decide +kernel)⟩,
   ⟨0, [], .fwConfirmRetry 0 [], { up with control := { up.control with confirm := .counter } }, (by decide +kernel)⟩⟩

theorem test_witness_RecordWritesFillTheirSlot :
    ∃ (q : KReq) (l : List KReq) (s : State), s.keep.waiting = q :: l ∧ q.slot < 4096 ∧ q.data.length = 52 ∧ s.keep.seq < 0xFFFFFFFF ∧ Mem.wf s.keep.mem = true ∧ s.keep.refuses = false ∧ mramDown s = false ∧ s.power.mram.warn = false ∧ q.origin = .confirm ∧ 64 ≤ q.slot :=
  ⟨{ origin := .confirm, slot := 4095, data := List.replicate 52 255, time := 0 }, [], { up with keep := { up.keep with waiting := [{ origin := .confirm, slot := 4095, data := List.replicate 52 255, time := 0 }], seq := 0xFFFFFFFE } }, (by decide +kernel)⟩

theorem test_witness_KeepStoreEvents :
    (∃ (s : State), s.chip.porstN = true ∧ s.chip.keeperInit = true ∧ s.keep.scanDone = false ∧ s.power.mram.pg = true ∧ s.power.mram.req = true) ∧
    (∃ (dt : Nat) (q : KReq) (l : List KReq) (s : State), s.keep.waiting = q :: l ∧ q.origin = .confirm ∧ s.power.mram.warn = true ∧ q.time + 200000 ≤ (advance dt s).now) ∧
    (∃ (e : LogEntry) (s : State), journalOpen s = true ∧ s.keep.jretry = false ∧ s.keep.jbuf = [] ∧ s.faults.log = [e] ∧ s.keep.refuses = false ∧ mramDown s = false ∧ s.power.mram.warn = false ∧ s.keep.waiting = [] ∧ s.keep.journalValid s.keep.head = false) ∧
    (∃ (e : LogEntry) (s : State), journalOpen s = true ∧ s.keep.jretry = true ∧ s.keep.jbuf = [e] ∧ s.keep.refuses = false ∧ mramDown s = false ∧ s.power.mram.warn = false ∧ s.keep.waiting = [] ∧ s.keep.journalValid s.keep.head = false) ∧
    (∃ (dt : Nat) (outs : List KOut) (s : State), (Instr.journalRetry dt outs).wf = true ∧ s.keep.jretry = false) ∧
    (∃ (dt : Nat) (outs : List KOut) (s : State), (Instr.journalCompaction dt outs).wf = true ∧ s.keep.compact = none ∧ 64 ≤ s.keep.journalFree) ∧
    (∃ (n : Nat) (end_ : Nat) (s : State), s.fwRuns = true ∧ s.control.halt1 = false ∧ s.keep.scanDone = true ∧ s.keep.refuses = false ∧ mramDown s = false ∧ s.power.mram.warn = false ∧ s.keep.waiting = [] ∧ s.keep.compact = some ([], n, end_) ∧ s.keep.counter 2 < end_ + 1) ∧
    (∃ (dt : Nat) (at_ : Nat) (s : State), s.mgmt.mramUse = some at_ ∧ s.power.state = .keep ∧ at_ + 1000000 ≤ (advance dt s).now ∧ s.keep.waiting = []) :=
  ⟨⟨up, (by decide +kernel)⟩,
   ⟨200000, { origin := .confirm, slot := 4095, data := List.replicate 52 255, time := 0 }, [], { up with power := { up.power with mram := { req := true, pg := true, warn := true } }, keep := { up.keep with waiting := [{ origin := .confirm, slot := 4095, data := List.replicate 52 255, time := 0 }] } }, (by decide +kernel)⟩,
   ⟨{ injected := false, escalated := false, scope := .loc, cls := 2, cause := 0x12, source := 122, detail := 0, time := 5 }, { up with faults := { up.faults with log := [{ injected := false, escalated := false, scope := .loc, cls := 2, cause := 0x12, source := 122, detail := 0, time := 5 }] }, keep := { up.keep with scanDone := true } }, (by decide +kernel)⟩,
   ⟨{ injected := false, escalated := false, scope := .loc, cls := 2, cause := 0x12, source := 122, detail := 0, time := 5 }, { up with keep := { up.keep with scanDone := true, jretry := true, jbuf := [{ injected := false, escalated := false, scope := .loc, cls := 2, cause := 0x12, source := 122, detail := 0, time := 5 }] } }, (by decide +kernel)⟩,
   ⟨0, [], up, (by decide +kernel)⟩,
   ⟨0, [], up, (by decide +kernel)⟩,
   ⟨1, 0, { up with keep := { up.keep with scanDone := true, compact := some ([], 1, 0) } }, (by decide +kernel)⟩,
   ⟨1000000, 0, { up with power := { up.power with state := .keep }, mgmt := { up.mgmt with mramUse := some 0 } }, (by decide +kernel)⟩⟩

theorem test_witness_QueriesAnswer :
    (∃ (box : Nat) (s : State), box ≤ 256 ∧ Safety.due s box 0x01) ∧
    (∃ (box : Nat) (s : State), box ≤ 256 ∧ Safety.due s box 0x70 ∧ byteAt (reqBytes (s.box box)) 9 = 0) ∧
    (∃ (box : Nat) (x : Stream) (s : State), box ≤ 256 ∧ Safety.due s box 0x70 ∧ byteAt (reqBytes (s.box box)) 9 = 1 ∧ Tbl.get? s.streams (field (reqBytes (s.box box)) 0x0A 2) = some x ∧ x.ctx = byteAt (reqBytes (s.box box)) 8) ∧
    (∃ (box : Nat) (s : State), box ≤ 256 ∧ Safety.due s box 0x70 ∧ byteAt (reqBytes (s.box box)) 9 = 2) ∧
    (∃ (s : State), Safety.due s 256 0x78 ∧ byteAt (reqBytes (s.box 256)) 8 < 5 ∧ recordOk (byteAt (reqBytes (s.box 256)) 8) (field (reqBytes (s.box 256)) 0x0A 2) = true ∧ s.power.mram.pg = true) ∧
    (∃ (s : State), Safety.due s 256 0x79 ∧ byteAt (reqBytes (s.box 256)) 8 = 3 ∧ field (reqBytes (s.box 256)) 0x0A 2 < 2048 ∧ s.keep.waiting = [] ∧ s.keep.refuses = false ∧ mramDown s = false ∧ s.power.mram.warn = false) :=
  ⟨⟨256, asked 256 1 [] up, (by decide +kernel), due_of (by decide +kernel)⟩,
   ⟨255, asked 255 0x70 [(8, 1, 255)] upCtx, (by decide +kernel), due_of (by decide +kernel), (by decide +kernel)⟩,
   ⟨255, stream0, asked 255 0x70 [(8, 1, 255), (9, 1, 1), (0x0A, 2, 0x7FEF)] upLive, (by decide +kernel), due_of (by decide +kernel), (by decide +kernel)⟩,
   ⟨256, asked 256 0x70 [(9, 1, 2)] up, (by decide +kernel), due_of (by decide +kernel), (by decide +kernel)⟩,
   ⟨asked 256 0x78 [(8, 1, 4), (0x0A, 2, 63)] up, due_of (by decide +kernel), (by decide +kernel)⟩,
   ⟨asked 256 0x79 [(8, 1, 3), (0x0A, 2, 2047)] up, due_of (by decide +kernel), (by decide +kernel)⟩⟩

theorem test_witness_ContextsOpenAndClose :
    (∃ (dt : Nat) (c : Nat) (s : State), Safety.due s 256 0x02 ∧ c < 256 ∧ pickCtx s (field (reqBytes (s.box 256)) 8 2) = some c ∧ (s.ctx c).st = .closed ∧ partitionSize (field (reqBytes (s.box 256)) 0x0C 4) = true ∧ partitionFits (advance dt s) (field (reqBytes (s.box 256)) 0x0C 4) = true) ∧
    (∃ (dt : Nat) (box : Nat) (mem : ExtMem) (s : State), (Instr.closeContext dt box mem).wf = true ∧ Safety.due s box 0x03 ∧ closeBusy s (byteAt (reqBytes (s.box box)) 8) = true) ∧
    (∃ (dt : Nat) (box : Nat) (c : Nat) (mem : ExtMem) (s : State), (Instr.closeContext dt box mem).wf = true ∧ Safety.due s box 0x03 ∧ byteAt (reqBytes (s.box box)) 8 = c ∧ closeBusy s c = false) ∧
    (∃ (c : Nat) (box : Nat) (s : State), c < 256 ∧ (s.ctx c).st = .closing ∧ closeDone s c = true ∧ (s.ctx c).closeBox = some box ∧ serves s box = true ∧ (s.box box).busy = true ∧ (s.box box).accepted = true ∧ (s.box box).committed = none) :=
  ⟨⟨0, 255, asked 256 2 [(8, 2, 255), (0x0C, 4, 2048)] up, due_of (by decide +kernel), (by decide +kernel)⟩,
   ⟨0, 255, {}, asked 255 3 [(8, 1, 255)] upLive, (by decide +kernel), due_of (by decide +kernel), (by decide +kernel)⟩,
   ⟨0, 256, 255, {}, asked 256 3 [(8, 1, 255)] upCtx, (by decide +kernel), due_of (by decide +kernel), (by decide +kernel)⟩,
   ⟨255, 256, asked 256 3 [(8, 1, 255)] { up with ctxs := [(255, { st := .closing, closeBox := some 256 })] }, (by decide +kernel)⟩⟩

theorem test_witness_SettingsTakeForce :
    (∃ (box : Nat) (s : State), box ≤ 256 ∧ Safety.due s box 0x40 ∧ byteAt (reqBytes (s.box box)) 9 < 16 ∧ field (reqBytes (s.box box)) 0x10 8 ≠ 0 ∧ (s.ctx (byteAt (reqBytes (s.box box)) 8)).keys.length = 16 ∧ heldKeys s (byteAt (reqBytes (s.box box)) 8) (byteAt (reqBytes (s.box box)) 9) ((s.ctx (byteAt (reqBytes (s.box box)) 8)).keys.getD (byteAt (reqBytes (s.box box)) 9) {}) = []) ∧
    (∃ (s : State), Safety.due s 256 0x50 ∧ field (reqBytes (s.box 256)) 8 2 = 0xFFFF ∧ 1000 ≤ field (reqBytes (s.box 256)) 0x0C 4 ∧ field (reqBytes (s.box 256)) 0x0C 4 ≤ 38000) ∧
    (∃ (s : State), Safety.due s 256 0x50 ∧ field (reqBytes (s.box 256)) 8 2 < 256) ∧
    (∃ (s : State), Safety.due s 256 0x58 ∧ byteAt (reqBytes (s.box 256)) 9 = 0 ∧ field (reqBytes (s.box 256)) 0x10 8 % 65536 = 0 ∧ 65536 ≤ field (reqBytes (s.box 256)) 0x18 8 ∧ field (reqBytes (s.box 256)) 0x18 8 ≤ 2 ^ 32) ∧
    (∃ (s : State), Safety.due s 256 0x58 ∧ byteAt (reqBytes (s.box 256)) 9 = 1) ∧
    (∃ (box : Nat) (s : State), box ≤ 256 ∧ Safety.due s box 0x58 ∧ byteAt (reqBytes (s.box box)) 9 = 2) :=
  ⟨⟨255, asked 255 0x40 [(8, 1, 255), (9, 1, 15), (0x10, 8, 2 ^ 64 - 1)] upCtx, (by decide +kernel), due_of (by decide +kernel), (by decide +kernel)⟩,
   ⟨asked 256 0x50 [(8, 2, 0xFFFF), (0x0C, 4, 38000)] up, due_of (by decide +kernel), (by decide +kernel)⟩,
   ⟨asked 256 0x50 [(8, 2, 255)] up, due_of (by decide +kernel), (by decide +kernel)⟩,
   ⟨asked 256 0x58 [(0x10, 8, 65536), (0x18, 8, 2 ^ 32)] up, due_of (by decide +kernel), (by decide +kernel)⟩,
   ⟨asked 256 0x58 [(8, 1, 255), (9, 1, 1)] upCtx, due_of (by decide +kernel), (by decide +kernel)⟩,
   ⟨255, asked 255 0x58 [(8, 1, 255), (9, 1, 2)] upCtx, (by decide +kernel), due_of (by decide +kernel), (by decide +kernel)⟩⟩

theorem test_witness_PoolsComeAndGo :
    (∃ (box : Nat) (c : Nat) (set : Nat) (k : Nat) (count : Nat) (base : Nat) (s : State), box ≤ 256 ∧ Safety.due s box 0x30 ∧ c = byteAt (reqBytes (s.box box)) 8 ∧ set = byteAt (reqBytes (s.box box)) 9 ∧ k = byteAt (reqBytes (s.box box)) 0x0A ∧ count = field (reqBytes (s.box box)) 0x0C 4 ∧ base = field (reqBytes (s.box box)) 0x10 8 ∧ set < 16 ∧ k < 8 ∧ 1 ≤ count ∧ count ≤ 65536 ∧ base % 4096 = 0 ∧ Tbl.get? s.pools (poolKey c set k) = none ∧ allBuffers s + count ≤ 1048576 ∧ withinWindow (s.ctx c).guards false true base (count * bufSize k) = true) ∧
    (∃ (box : Nat) (c : Nat) (set : Nat) (k : Nat) (s : State), box ≤ 256 ∧ Safety.due s box 0x31 ∧ c = byteAt (reqBytes (s.box box)) 8 ∧ k = byteAt (reqBytes (s.box box)) 9 ∧ (k < 8 ∨ k = 255) ∧ poolSet (field (reqBytes (s.box box)) 0x0C 4) c = some set ∧ namedPools s c set k ≠ [] ∧ (s.box box).room = true ∧ Tbl.wf s.pools = true) ∧
    (∃ (key : Nat) (p : Pool) (s : State), Tbl.wf s.pools = true ∧ Tbl.get? s.pools key = some p) :=
  ⟨⟨255, 255, 14, 7, 65536, 4096, asked 255 0x30 [(8, 1, 255), (9, 1, 14), (0x0A, 1, 7), (0x0C, 4, 65536), (0x10, 8, 4096)] upOpen, (by decide +kernel), due_of (by decide +kernel), (by decide +kernel)⟩,
   ⟨255, 255, 15, 255, asked 255 0x31 [(8, 1, 255), (9, 1, 255), (0x0C, 4, 0xFF0F0000)] upOpen, (by decide +kernel), due_of (by decide +kernel), (by decide +kernel)⟩,
   ⟨poolKey 255 15 0, { base := 0x10000, count := 1 }, upOpen, (by decide +kernel)⟩⟩

theorem test_witness_GenerationsTakeForce :
    (∃ (box : Nat) (c : Nat) (w : Nat) (s : State), box ≤ 256 ∧ Safety.due s box 0x38 ∧ c = byteAt (reqBytes (s.box box)) 8 ∧ w = byteAt (reqBytes (s.box box)) 9 ∧ w < 16 ∧ (s.ctx c).guards.length = 16 ∧ byteAt (reqBytes (s.box box)) 0x0A < 4 ∧ field (reqBytes (s.box box)) 0x10 8 % 64 = 0 ∧ (field (reqBytes (s.box box)) 0x18 8 + 1) % 64 = 0 ∧ field (reqBytes (s.box box)) 0x10 8 ≤ field (reqBytes (s.box box)) 0x18 8 ∧ (s.box box).room = true) ∧
    (∃ (dt : Nat) (h : Nat) (g : Nat) (b : Binding) (s : State), (Instr.updateFinalState dt (.binding h)).wf = true ∧ s.fwRuns = true ∧ Tbl.get? s.bindings h = some b ∧ b.pending = some g ∧ bindingBusy s h = false) ∧
    (∃ (dt : Nat) (c : Nat) (w : Nat) (s : State), (Instr.updateFinalState dt (.guard c w)).wf = true ∧ s.fwRuns = true) :=
  ⟨⟨255, 255, 15, asked 255 0x38 [(8, 1, 255), (9, 1, 15), (0x0A, 1, 3), (0x10, 8, 64), (0x18, 8, 127)] upOpen, (by decide +kernel), due_of (by decide +kernel), (by decide +kernel)⟩,
   ⟨0, liveHandle, 2, { liveBinding with pending := some 2 }, { up with bindings := [(liveHandle, { liveBinding with pending := some 2 })] }, (by decide +kernel)⟩,
   ⟨0, 255, 15, up, (by decide +kernel)⟩⟩

theorem test_witness_RingsAreCreatedAndReset :
    (∃ (box : Nat) (c : Nat) (n : Nat) (l : Nat) (base : Nat) (s : State), box ≤ 256 ∧ Safety.due s box 0x60 ∧ Safety.quiet s ∧ c = byteAt (reqBytes (s.box box)) 8 ∧ n = byteAt (reqBytes (s.box box)) 9 ∧ l = byteAt (reqBytes (s.box box)) 0x0A ∧ base = field (reqBytes (s.box box)) 0x10 8 ∧ n < 4 ∧ 4 ≤ l ∧ l ≤ 16 ∧ base % 4096 = 0 ∧ (s.ring c n).st = .none ∧ withinWindow (s.ctx c).guards true true base (64 * 2 ^ l) = true) ∧
    (∃ (box : Nat) (c : Nat) (n : Nat) (s : State), box ≤ 256 ∧ Safety.due s box 0x61 ∧ Safety.quiet s ∧ c = byteAt (reqBytes (s.box box)) 8 ∧ n = byteAt (reqBytes (s.box box)) 9 ∧ byteAt (reqBytes (s.box box)) 0x0A = 0 ∧ n < 4 ∧ (s.ring c n).st = .run ∧ (s.ring c n).reset = none ∧ (s.ring c n).ctlReset = false ∧ (s.ring c n).done = (s.ring c n).head ∧ (s.ring c n).issued = (s.ring c n).head) ∧
    (∃ (box : Nat) (c : Nat) (n : Nat) (s : State), box ≤ 256 ∧ Safety.due s box 0x61 ∧ Safety.quiet s ∧ c = byteAt (reqBytes (s.box box)) 8 ∧ n = byteAt (reqBytes (s.box box)) 9 ∧ byteAt (reqBytes (s.box box)) 0x0A = 1 ∧ n < 4 ∧ (s.ring c n).st ≠ .none ∧ (s.ring c n).reset = none ∧ (s.box box).room = true) ∧
    (∃ (box : Nat) (c : Nat) (n : Nat) (s : State), box ≤ 256 ∧ Safety.due s box 0x61 ∧ Safety.quiet s ∧ c = byteAt (reqBytes (s.box box)) 8 ∧ n = byteAt (reqBytes (s.box box)) 9 ∧ byteAt (reqBytes (s.box box)) 0x0A = 2 ∧ n < 4 ∧ (s.ring c n).st ≠ .none ∧ (s.ring c n).reset = none ∧ ringStreams s c n = false ∧ (s.box box).room = true) ∧
    (∃ (c : Nat) (n : Nat) (m : Nat) (s : State), c < 256 ∧ n < 4 ∧ Safety.quiet s ∧ (s.ring c n).reset = some m ∧ resetIdle (s.ring c n) = true) :=
  ⟨⟨255, 255, 2, 16, 0x40000, asked 255 0x60 [(8, 1, 255), (9, 1, 2), (0x0A, 1, 16), (0x10, 8, 0x40000)] upOpen, (by decide +kernel), due_of (by decide +kernel), quiet_of (by decide +kernel), (by decide +kernel)⟩,
   ⟨255, 255, 3, asked 255 0x61 [(8, 1, 255), (9, 1, 3)] upOpen, (by decide +kernel), due_of (by decide +kernel), quiet_of (by decide +kernel), (by decide +kernel)⟩,
   ⟨255, 255, 3, asked 255 0x61 [(8, 1, 255), (9, 1, 3), (0x0A, 1, 1)] upOpen, (by decide +kernel), due_of (by decide +kernel), quiet_of (by decide +kernel), (by decide +kernel)⟩,
   ⟨255, 255, 3, asked 255 0x61 [(8, 1, 255), (9, 1, 3), (0x0A, 1, 2)] upOpen, (by decide +kernel), due_of (by decide +kernel), quiet_of (by decide +kernel), (by decide +kernel)⟩,
   ⟨255, 3, 2, { upOpen with rings := [(1023, { st := .run, enable := true, log2 := 4, base := 0x1000, reset := some 2 })] }, (by decide +kernel), (by decide +kernel), quiet_of (by decide +kernel), (by decide +kernel)⟩⟩

theorem test_witness_BindingsAreLoaded :
    (∃ (dt : Nat) (box : Nat) (alloc : Nat) (h : Nat) (mem : ExtMem) (s : State), (Instr.loadBinding dt box mem alloc).wf = true ∧ Safety.due s box 0x10 ∧ field (reqBytes (s.box box)) 0x0C 4 = 0 ∧ h = byteAt (reqBytes (s.box box)) 8 * 2 ^ 24 + alloc ∧ h ≠ 0 ∧ Tbl.get? s.bindings h = none ∧ field (reqBytes (s.box box)) 0x10 8 % 4096 = 0 ∧ field (reqBytes (s.box box)) 0x10 8 < 2 ^ 48 ∧ field (reqBytes (s.box box)) 0x18 4 ≤ 2 ^ 25 ∧ ctxBindings s (byteAt (reqBytes (s.box box)) 8) < 64 ∧ s.bindings.length < 1024) ∧
    (∃ (dt : Nat) (box : Nat) (h : Nat) (mem : ExtMem) (b : Binding) (s : State), (Instr.loadBindingReplace dt box mem).wf = true ∧ Safety.due s box 0x10 ∧ h = field (reqBytes (s.box box)) 0x0C 4 ∧ h ≠ 0 ∧ Tbl.get? s.bindings h = some b ∧ b.admitted = false ∧ b.st ≠ .retiring ∧ b.pending = none ∧ bindingBusy s h = false ∧ field (reqBytes (s.box box)) 0x10 8 % 4096 = 0 ∧ field (reqBytes (s.box box)) 0x10 8 < 2 ^ 48 ∧ field (reqBytes (s.box box)) 0x18 4 ≤ 2 ^ 25) ∧
    (∃ (dt : Nat) (box : Nat) (h : Nat) (mem : ExtMem) (d : List Byte) (r : CoeffRec) (i : Image) (b : Binding) (s : State), (Instr.loadCoeff dt box mem).wf = true ∧ Safety.due s box 0x48 ∧ h = field (reqBytes (s.box box)) 0x0C 4 ∧ Tbl.get? s.bindings h = some b ∧ b.image = some i ∧ b.admitted = false ∧ b.st ≠ .retiring ∧ b.pending = none ∧ bindingBusy s h = false ∧ byteAt (reqBytes (s.box box)) 9 ≤ 2 ∧ coeffRecord s h (byteAt (reqBytes (s.box box)) 9) (field (reqBytes (s.box box)) 0x0A 2) = some r ∧ r.size = field (reqBytes (s.box box)) 0x18 4 ∧ firmwareRead s (byteAt (reqBytes (s.box box)) 8) mem (field (reqBytes (s.box box)) 0x10 8) (field (reqBytes (s.box box)) 0x18 4) = .ok d ∧ crc32c d = field (reqBytes (s.box box)) 0x1C 4) :=
  ⟨⟨0, 255, 2 ^ 24 - 1, 0xFFFFFFFF, {}, asked 255 0x10 [(8, 1, 255), (0x10, 8, 4096), (0x18, 4, 2 ^ 25)] upLive, (by decide +kernel), due_of (by decide +kernel), (by decide +kernel)⟩,
   ⟨0, 255, liveHandle, {}, beBinding, asked 255 0x10 [(8, 1, 255), (0x0C, 4, liveHandle), (0x10, 8, 4096), (0x18, 4, 2 ^ 25)] { upOpen with bindings := [(liveHandle, beBinding)] }, (by decide +kernel), due_of (by decide +kernel), (by decide +kernel)⟩,
   ⟨0, 255, liveHandle, {}, [], coeff0, { image0 with coeffs := [coeff0] }, { beBinding with gens := [(1, { image0 with coeffs := [coeff0] })] }, asked 255 0x48 [(8, 1, 255), (0x0C, 4, liveHandle)] { upOpen with bindings := [(liveHandle, { beBinding with gens := [(1, { image0 with coeffs := [coeff0] })] })] }, (by decide +kernel), due_of (by decide +kernel), (by decide +kernel)⟩⟩

theorem test_witness_BindingsAreAdmittedAndRetired :
    (∃ (dt : Nat) (h : Nat) (cls : Nat) (opp : Nat) (b : Binding) (i : Image) (q : List Nat × List Nat × Option Nat) (s : State), Safety.due s 256 0x11 ∧ h = field (reqBytes (s.box 256)) 0x0C 4 ∧ cls = byteAt (reqBytes (s.box 256)) 9 ∧ opp = byteAt (reqBytes (s.box 256)) 0x0B ∧ Tbl.get? s.bindings h = some b ∧ b.image = some i ∧ cls ≤ 1 ∧ byteAt (reqBytes (s.box 256)) 0x0A ≤ 15 ∧ opp ≤ 2 ∧ b.admitted = false ∧ b.st ≠ .retiring ∧ bit i.classes cls = true ∧ s.power.fastest ≤ opp ∧ opp ≤ s.power.slowest ∧ i.slots.getD opp [] ≠ [] ∧ (anyAdmitted s = true → i.periodSlots = s.press.period) ∧ (cls = 0 → 1 ≤ s.press.spares) ∧ (∀ c ∈ i.coeffs, c.resident = true ∧ c.data ≠ none) ∧ i.coeffKib ≤ 16384 ∧ residentSegs i ≤ unheldPlaces s ∧ admittedSum s Image.rdBytes + i.rdBytes ≤ slotBandwidth opp ∧ admittedSum s Image.wrBytes + i.wrBytes ≤ slotBandwidth opp ∧ placement (advance dt s) i (cls = 0) opp = .ok q) ∧
    (∃ (dt : Nat) (h : Nat) (b : Binding) (s : State), Tbl.get? s.bindings h = some b ∧ b.st = .admitted ∧ atPeriodStart (advance dt s) = true ∧ s.power.oppWait = false ∧ s.bookPoint ≤ b.opp) ∧
    (∃ (box : Nat) (h : Nat) (b : Binding) (s : State), box ≤ 256 ∧ Safety.due s box 0x12 ∧ h = field (reqBytes (s.box box)) 0x0C 4 ∧ Tbl.get? s.bindings h = some b ∧ b.admitted = false ∧ b.st ≠ .retiring ∧ bindingBusy s h = false ∧ hasStreams s h = false ∧ Tbl.wf s.bindings = true) ∧
    (∃ (h : Nat) (b : Binding) (s : State), Safety.due s 256 0x12 ∧ h = field (reqBytes (s.box 256)) 0x0C 4 ∧ Tbl.get? s.bindings h = some b ∧ b.admitted = true ∧ b.cls ≠ none ∧ b.st ≠ .retiring ∧ (s.box 256).room = true) ∧
    (∃ (dt : Nat) (h : Nat) (b : Binding) (s : State), Tbl.get? s.bindings h = some b ∧ b.st = .retiring ∧ b.cls ≠ none ∧ atPeriodStart (advance dt s) = true ∧ bindingBusy s h = false ∧ hasStreams s h = false ∧ Tbl.wf s.bindings = true) :=
  ⟨⟨0, liveHandle, 0, 2, beBinding, image0, ([0], [32], some 30), asked 256 0x11 [(8, 1, 255), (0x0C, 4, liveHandle), (0x0A, 1, 15), (0x0B, 1, 2)] { upOpen with bindings := [(liveHandle, beBinding)] }, due_of (by decide +kernel), (by decide +kernel)⟩,
   ⟨0, liveHandle, { liveBinding with st := .admitted }, { up with bindings := [(liveHandle, { liveBinding with st := .admitted })], press := { up.press with running := true } }, (by decide +kernel)⟩,
   ⟨255, liveHandle, beBinding, asked 255 0x12 [(8, 1, 255), (0x0C, 4, liveHandle)] { upOpen with bindings := [(liveHandle, beBinding)] }, (by decide +kernel), due_of (by decide +kernel), (by decide +kernel)⟩,
   ⟨liveHandle, liveBinding, asked 256 0x12 [(8, 1, 255), (0x0C, 4, liveHandle)] upLive, due_of (by decide +kernel), (by decide +kernel)⟩,
   ⟨0, liveHandle, { liveBinding with st := .retiring }, { up with bindings := [(liveHandle, { liveBinding with st := .retiring })], press := { up.press with running := true } }, (by decide +kernel)⟩⟩

theorem test_witness_StreamsAttachAndDetach :
    (∃ (id : Nat) (s : State), Safety.due s 256 0x20 ∧ Safety.quiet s ∧ id = field (reqBytes (s.box 256)) 0x0A 2 ∧ (∀ x ∈ attachChecks s id (attachFields (reqBytes (s.box 256))), x.1 = true) ∧ (s.box 256).room = true) ∧
    (∃ (id : Nat) (x : Stream) (s : State), id < 65536 ∧ Safety.quiet s ∧ Tbl.get? s.streams id = some x ∧ x.st = .attaching ∧ (s.port x.port).st = .up) ∧
    (∃ (id : Nat) (w : Nat) (x : Stream) (s : State), Safety.due s 256 0x21 ∧ Safety.quiet s ∧ byteAt (reqBytes (s.box 256)) 9 = 0 ∧ id = field (reqBytes (s.box 256)) 0x0A 2 ∧ Tbl.get? s.streams id = some x ∧ x.ctx = byteAt (reqBytes (s.box 256)) 8 ∧ x.st = .attached ∧ x.cur = some w ∧ (s.box 256).room = true) ∧
    (∃ (id : Nat) (x : Stream) (s : State), Safety.due s 256 0x21 ∧ byteAt (reqBytes (s.box 256)) 9 = 1 ∧ id = field (reqBytes (s.box 256)) 0x0A 2 ∧ Tbl.get? s.streams id = some x ∧ x.ctx = byteAt (reqBytes (s.box 256)) 8 ∧ x.st = .attaching ∧ Tbl.wf s.streams = true) ∧
    (∃ (g : Nat) (n : Nat) (w : Nat) (s : State), Safety.due s 256 0x22 ∧ Safety.quiet s ∧ n = byteAt (reqBytes (s.box 256)) 9 ∧ g = field (reqBytes (s.box 256)) 0x0A 2 ∧ w = field (reqBytes (s.box 256)) 0x0C 2 ∧ 1 ≤ n ∧ n ≤ 12 ∧ g ≤ 15 ∧ Tbl.get? s.groups g = none ∧ 1 ≤ w ∧ w ≤ 1000 ∧ groupOk s (byteAt (reqBytes (s.box 256)) 8) (groupList (reqBytes (s.box 256))) = true ∧ (∀ p ∈ s.groups, ∀ i ∈ p.2.members, i ∉ groupList (reqBytes (s.box 256))) ∧ (s.box 256).room = true) ∧
    (∃ (g : Nat) (x : Group) (s : State), Safety.due s 256 0x22 ∧ byteAt (reqBytes (s.box 256)) 9 = 0 ∧ g = field (reqBytes (s.box 256)) 0x0A 2 ∧ g ≤ 15 ∧ Tbl.get? s.groups g = some x ∧ x.ctx = byteAt (reqBytes (s.box 256)) 8 ∧ Tbl.wf s.groups = true) ∧
    (∃ (g : Nat) (x : Group) (s : State), g < 16 ∧ Safety.quiet s ∧ Tbl.get? s.groups g = some x ∧ x.inForce = false ∧ (∀ i ∈ x.members, i ∈ x.seen)) :=
  ⟨⟨0x7FEF, asked 256 0x20 [(8, 1, 255), (9, 1, 3), (0x0A, 2, 0x7FEF), (0x0C, 1, 15), (0x0D, 1, 15), (0x0E, 1, 0x2A), (0x0F, 1, 4), (0x10, 2, 64), (0x12, 2, 64), (0x14, 4, liveHandle), (0x1C, 4, 0xFF0F0000)] { upLive with streams := [] }, due_of (by decide +kernel), quiet_of (by decide +kernel), (by decide +kernel)⟩,
   ⟨0x7FEF, { stream0 with st := .attaching }, { upLive with streams := [(0x7FEF, { stream0 with st := .attaching })] }, (by decide +kernel), quiet_of (by decide +kernel), (by decide +kernel)⟩,
   ⟨0x7FEF, 0, { stream0 with cur := some 0 }, asked 256 0x21 [(8, 1, 255), (0x0A, 2, 0x7FEF)] { upLive with streams := [(0x7FEF, { stream0 with cur := some 0 })] }, due_of (by decide +kernel), quiet_of (by decide +kernel), (by decide +kernel)⟩,
   ⟨0x7FEF, { stream0 with st := .attaching }, asked 256 0x21 [(8, 1, 255), (9, 1, 1), (0x0A, 2, 0x7FEF)] { upLive with streams := [(0x7FEF, { stream0 with st := .attaching })] }, due_of (by decide +kernel), (by decide +kernel)⟩,
   ⟨15, 1, 1000, asked 256 0x22 [(8, 1, 255), (9, 1, 1), (0x0A, 2, 15), (0x0C, 2, 1000), (0x10, 2, 0x7FEF)] upLive, due_of (by decide +kernel), quiet_of (by decide +kernel), (by decide +kernel)⟩,
   ⟨15, { ctx := 255, members := [0x7FEF], windowUs := 1000 }, asked 256 0x22 [(8, 1, 255), (0x0A, 2, 15)] { upLive with groups := [(15, { ctx := 255, members := [0x7FEF], windowUs := 1000 })] }, due_of (by decide +kernel), (by decide +kernel)⟩,
   ⟨15, { ctx := 255, members := [0x7FEF], windowUs := 1000, seen := [0x7FEF] }, { upLive with groups := [(15, { ctx := 255, members := [0x7FEF], windowUs := 1000, seen := [0x7FEF] })] }, (by decide +kernel), quiet_of (by decide +kernel), (by decide +kernel)⟩⟩

theorem test_witness_RingRegisters :
    (∃ (c : Nat) (n : Nat) (u : Nat) (v : Nat) (s : State), u < 2 ^ 32 ∧ v = u % 2 ^ 17 ∧ c < 256 ∧ n < 4 ∧ s.mainUp = true ∧ Safety.quiet s ∧ (s.ctx c).st = .opened ∧ (s.ring c n).st ≠ .none ∧ (s.ring c n).reset = none ∧ v < 2 * (s.ring c n).size ∧ (v + 2 * (s.ring c n).size - (s.ring c n).done % (2 * (s.ring c n).size)) % (2 * (s.ring c n).size) ≤ (s.ring c n).size ∧ (s.ring c n).tail - (s.ring c n).done ≤ (v + 2 * (s.ring c n).size - (s.ring c n).done % (2 * (s.ring c n).size)) % (2 * (s.ring c n).size)) ∧
    (∃ (c : Nat) (n : Nat) (u : Nat) (v : Nat) (s : State), u < 2 ^ 32 ∧ v = u % 2 ^ 17 ∧ c < 256 ∧ n < 4 ∧ s.mainUp = true ∧ Safety.quiet s ∧ (s.ctx c).st = .opened ∧ (s.ring c n).st ≠ .none ∧ (2 * (s.ring c n).size ≤ v ∨ (s.ring c n).size < (v + 2 * (s.ring c n).size - (s.ring c n).done % (2 * (s.ring c n).size)) % (2 * (s.ring c n).size) ∨ (v + 2 * (s.ring c n).size - (s.ring c n).done % (2 * (s.ring c n).size)) % (2 * (s.ring c n).size) < (s.ring c n).tail - (s.ring c n).done)) ∧
    (∃ (c : Nat) (n : Nat) (s : State), c < 256 ∧ n < 4 ∧ s.mainUp = true ∧ Safety.quiet s ∧ (s.ctx c).st = .opened ∧ (s.ring c n).st = .run ∧ (s.ring c n).reset = none ∧ (s.ring c n).enable = true) ∧
    (∃ (c : Nat) (n : Nat) (s : State), c < 256 ∧ n < 4 ∧ s.mainUp = true ∧ Safety.quiet s ∧ (s.ctx c).st = .opened ∧ (s.ring c n).st = .paused ∧ (s.ring c n).reset = none ∧ (s.ring c n).enable = false) ∧
    (∃ (c : Nat) (n : Nat) (s : State), c < 256 ∧ n < 4 ∧ s.mainUp = true ∧ Safety.quiet s ∧ (s.ctx c).st = .opened ∧ (s.ring c n).st = .run ∧ (s.ring c n).reset = none) ∧
    (∃ (c : Nat) (n : Nat) (s : State), c < 256 ∧ n < 4 ∧ s.mainUp = true ∧ Safety.quiet s ∧ (s.ctx c).st = .opened ∧ (s.ring c n).st = .paused ∧ (s.ring c n).reset = none ∧ (s.ring c n).done = (s.ring c n).head ∧ (s.ring c n).issued = (s.ring c n).head) :=
  ⟨⟨255, 3, 2 ^ 32 - 2 ^ 17 + 16, 16, upOpen, (by decide +kernel), (by decide +kernel), (by decide +kernel), (by decide +kernel), (by decide +kernel), quiet_of (by decide +kernel), (by decide +kernel)⟩,
   ⟨255, 3, 17, 17, upOpen, (by decide +kernel), (by decide +kernel), (by decide +kernel), (by decide +kernel), (by decide +kernel), quiet_of (by decide +kernel), (by decide +kernel)⟩,
   ⟨255, 3, upOpen, (by decide +kernel), (by decide +kernel), (by decide +kernel), quiet_of (by decide +kernel), (by decide +kernel)⟩,
   ⟨255, 3, { upOpen with rings := [(1023, { st := .paused, log2 := 4 })] }, (by decide +kernel), (by decide +kernel), (by decide +kernel), quiet_of (by decide +kernel), (by decide +kernel)⟩,
   ⟨255, 3, upOpen, (by decide +kernel), (by decide +kernel), (by decide +kernel), quiet_of (by decide +kernel), (by decide +kernel)⟩,
   ⟨255, 3, { upOpen with rings := [(1023, { st := .paused, log2 := 4 })] }, (by decide +kernel), (by decide +kernel), (by decide +kernel), quiet_of (by decide +kernel), (by decide +kernel)⟩⟩

theorem test_witness_RingsFetch :
    (∃ (k : Nat) (want : Nat) (s : State), Safety.quiet s ∧ nextRing s = some k ∧ want = min ((s.ring (k / 4) (k % 4)).tail - (s.ring (k / 4) (k % 4)).issued) (burstRoom (s.ring (k / 4) (k % 4)) (s.ring (k / 4) (k % 4)).issued) ∧ readableSlots (s.ctx (k / 4)).guards (s.ring (k / 4) (k % 4)) (s.ring (k / 4) (k % 4)).issued want = want ∧ 0 < want) ∧
    (∃ (k : Nat) (s : State), Safety.quiet s ∧ nextRing s = some k ∧ lineOk (s.ctx (k / 4)).guards false ((s.ring (k / 4) (k % 4)).slotAddr (s.ring (k / 4) (k % 4)).issued) = false) ∧
    (∃ (s : State), nextRing s = none) :=
  ⟨⟨1023, 4, { upOpen with rings := [(1023, { st := .run, enable := true, log2 := 4, base := 0x1000, tail := 16 })] }, quiet_of (by decide +kernel), (by decide +kernel)⟩,
   ⟨1023, { upCtx with rings := [(1023, { st := .run, enable := true, log2 := 4, base := 0x1000, tail := 16 })] }, quiet_of (by decide +kernel), (by decide +kernel)⟩,
   ⟨up, (by decide +kernel)⟩⟩

theorem test_witness_FetchedEntriesAreAccepted :
    ∃ (c : Nat) (n : Nat) (tag : Nat) (l : Fetched) (s : State), c < 256 ∧ n < 4 ∧ Safety.quiet s ∧ tag < 2 ^ 32 ∧ (s.ring c n).arrived.find? (·.count = (s.ring c n).head) = some l ∧ l.bad = false ∧ l.bytes = [5, 3, 1, 0] ++ leBytes tag 4 ++ List.replicate 6 0 ++ [0xFF, 0xFF] ++ List.replicate 48 0 ∧ (s.ctx c).st ≠ .closing ∧ ((s.ring c n).stream = false ∨ (s.ring c n).backlog = []) ∧ (s.ring c n).aborting = false ∧ (∀ e ∈ (s.ring c n).entries, e.count < (s.ring c n).head ∧ e.phase ≠ .gathering) :=
  ⟨255, 3, 2 ^ 32 - 1, { count := 0, bytes := [5, 3, 1, 0] ++ leBytes (2 ^ 32 - 1) 4 ++ List.replicate 6 0 ++ [0xFF, 0xFF] ++ List.replicate 48 0, bad := false }, { upOpen with rings := [(1023, { st := .run, enable := true, log2 := 4, base := 0x1000, tail := 1, issued := 1, arrived := [{ count := 0, bytes := [5, 3, 1, 0] ++ leBytes (2 ^ 32 - 1) 4 ++ List.replicate 6 0 ++ [0xFF, 0xFF] ++ List.replicate 48 0, bad := false }] })] }, (by decide +kernel), (by decide +kernel), quiet_of (by decide +kernel), (by decide +kernel)⟩

theorem test_witness_PlainEntriesEnd :
    (∃ (c : Nat) (n : Nat) (k : Nat) (e : Entry) (s : State), c < 256 ∧ n < 4 ∧ (s.ring c n).entry? k = some e ∧ e.op = 4 ∧ e.phase = .ready ∧ (s.ring c n).ctlReset = false ∧ fenceMet s c n e = true ∧ Safety.quiet s) ∧
    (∃ (c : Nat) (n : Nat) (k : Nat) (e : Entry) (s : State), c < 256 ∧ n < 4 ∧ entryReady s c n k = some e ∧ e.op = 5 ∧ (s.ring c n).stream = false ∧ Safety.quiet s) ∧
    (∃ (c : Nat) (n : Nat) (k : Nat) (i : Nat) (set : Nat) (key : Nat) (e : Entry) (s : State), c < 256 ∧ n < 4 ∧ entryReady s c n k = some e ∧ e.op = 2 ∧ olderFree s c e = false ∧ poolSet e.pool c = some set ∧ bufAt s c set e.in0 = some (key, i, some .host) ∧ Safety.quiet s) ∧
    (∃ (c : Nat) (n : Nat) (k : Nat) (e : Entry) (x : ShelfEntry) (s : State), c < 256 ∧ n < 4 ∧ entryReady s c n k = some e ∧ e.op = 3 ∧ x ∈ s.shelf.entries ∧ x.visible = true ∧ x.ctx = c ∧ x.source = e.in0 ∧ x.crop = e.param ∧ Safety.quiet s) ∧
    (∃ (dt : Nat) (c : Nat) (n : Nat) (k : Nat) (e : Entry) (s : State), c < 256 ∧ n < 4 ∧ (s.ring c n).entry? k = some e ∧ e.phase = .ready ∧ e.deadline ≠ 0 ∧ (s.ring c n).ctlReset = false ∧ e.deadline ≤ (advance dt s).now ∧ e.started = false ∧ e.work = none ∧ Safety.quiet s) :=
  ⟨⟨255, 3, 0, entryOf [4], upEntry (entryOf [4]), (by decide +kernel), (by decide +kernel), (by decide +kernel), (by decide +kernel), (by decide +kernel), (by decide +kernel), (by decide +kernel), quiet_of (by decide +kernel)⟩,
   ⟨255, 3, 0, entryOf [5], upEntry (entryOf [5]), (by decide +kernel), (by decide +kernel), (by decide +kernel), (by decide +kernel), (by decide +kernel), quiet_of (by decide +kernel)⟩,
   ⟨255, 3, 0, 0, 15, poolKey 255 15 0, entryOf ([(0, 1, 2), (0x10, 8, 0x10000), (0x30, 4, 0xFF0F0000)].foldl put (List.replicate 64 0)), { upEntry (entryOf ([(0, 1, 2), (0x10, 8, 0x10000), (0x30, 4, 0xFF0F0000)].foldl put (List.replicate 64 0))) with pools := [(poolKey 255 15 0, { base := 0x10000, count := 1, bufs := [(0, .host)] })] }, (by decide +kernel), (by decide +kernel), (by decide +kernel), (by decide +kernel), (by decide +kernel), (by decide +kernel), (by decide +kernel), quiet_of (by decide +kernel)⟩,
   ⟨255, 3, 0, entryOf [3], { ctx := 255, source := 0, crop := 0, bindingId := 1, gen := 1, entry := 0, size := 0, chunks := [], crc := 0, used := 0, visible := true, fill := 0 }, { upEntry (entryOf [3]) with shelf := { up.shelf with entries := [{ ctx := 255, source := 0, crop := 0, bindingId := 1, gen := 1, entry := 0, size := 0, chunks := [], crc := 0, used := 0, visible := true, fill := 0 }] } }, (by decide +kernel), (by decide +kernel), (by decide +kernel), (by decide +kernel), (by decide +kernel), (by decide +kernel), (by decide +kernel), (by decide +kernel), (by decide +kernel), quiet_of (by decide +kernel)⟩,
   ⟨0, 255, 3, 0, { entryOf [1] with deadline := 1 }, { upEntry { entryOf [1] with deadline := 1 } with tb := { up.tb with now := 1 } }, (by decide +kernel), (by decide +kernel), (by decide +kernel), (by decide +kernel), (by decide +kernel), (by decide +kernel), (by decide +kernel), (by decide +kernel), (by decide +kernel), quiet_of (by decide +kernel)⟩⟩

theorem test_witness_ChainsRun :
    (∃ (dt : Nat) (c : Nat) (n : Nat) (k : Nat) (wid : Nat) (len : Nat) (mem : ExtMem) (e : Entry) (w : Work) (i : Image) (p : EntryPt) (b : Batch) (u : State) (s : State), (Instr.submit dt c n k mem).wf = true ∧ (s.ring c n).entry? k = some e ∧ e.work = some wid ∧ Tbl.get? s.works wid = some w ∧ w.kind = .chain c n k len ∧ w.started = true ∧ w.ran = false ∧ workImage s w = some (i, p) ∧ runMembers w mem (chainEntries s c n k len) 0 {} (advance dt s) = (b, u) ∧ b.fail = none) ∧
    (∃ (c : Nat) (n : Nat) (k : Nat) (wid : Nat) (e : Entry) (w : Work) (q : DrawKey) (s : State), c < 256 ∧ n < 4 ∧ (s.ring c n).entry? k = some e ∧ e.work = some wid ∧ Tbl.get? s.works wid = some w ∧ w.kind = .draw c n k ∧ w.started = true ∧ w.ran = false ∧ w.suspended = false ∧ w.key = some q) :=
  ⟨⟨0, 255, 3, 0, 0, 1, tensorMem, submit0, { work0 with kind := .chain 255 3 0 1, started := true, frame := none, entry := 0 }, image0, entry0, _, _, { upEntry submit0 with bindings := [(liveHandle, liveBinding)], works := [(0, { work0 with kind := .chain 255 3 0 1, started := true, frame := none, entry := 0 })] }, (by decide +kernel), (by decide +kernel), (by decide +kernel), (by decide +kernel), (by decide +kernel), (by decide +kernel), (by decide +kernel), (by decide +kernel), rfl, (by decide +kernel)⟩,
   ⟨255, 3, 0, 0, { entryOf [6] with work := some 0 }, { work0 with kind := .draw 255 3 0, started := true, frame := none, key := some { id := 1, key := 2 ^ 128 - 1, serial := 0 } }, { id := 1, key := 2 ^ 128 - 1, serial := 0 }, { upEntry { entryOf [6] with work := some 0 } with works := [(0, { work0 with kind := .draw 255 3 0, started := true, frame := none, key := some { id := 1, key := 2 ^ 128 - 1, serial := 0 } })] }, (by decide +kernel)⟩⟩

theorem test_witness_MemoryPortsAnswer :
    (∃ (dt : Nat) (port : Nat) (tag : Nat) (beat : Nat) (c : Nat) (n : Nat) (count : Nat) (lines : Nat) (data : List Byte) (x : Tx) (s : State), (Instr.memReadBeat dt port tag data beat (decide (beat + 1 = x.lines)) 0 0).wf = true ∧ s.mainUp = true ∧ Safety.quiet s ∧ findTx s port tag = some x ∧ x.rd = true ∧ x.timedOut = false ∧ x.beats = beat ∧ x.purpose = .fetch c n count lines) ∧
    (∃ (port : Nat) (tag : Nat) (resp : Nat) (x : Tx) (s : State), port < 4 ∧ tag < 1024 ∧ resp < 4 ∧ s.mainUp = true ∧ findTx s port tag = some x ∧ x.rd = false ∧ x.timedOut = true) ∧
    (∃ (port : Nat) (tag : Nat) (r : Nat) (x : Tx) (s : State), port < 4 ∧ tag < 1024 ∧ s.mainUp = true ∧ findTx s port tag = some x ∧ x.rd = false ∧ x.timedOut = false ∧ x.purpose = .status r) ∧
    (∃ (port : Nat) (tag : Nat) (s : State), port < 4 ∧ tag < 1024 ∧ s.mainUp = true ∧ findTx s port tag = none ∧ Tbl.get? s.faults.records (112 + port) = none) ∧
    (∃ (dt : Nat) (port : Nat) (tag : Nat) (c : Nat) (x : Tx) (s : State), port < 4 ∧ tag < 1024 ∧ s.mainUp = true ∧ findTx s port tag = some x ∧ x.timedOut = false ∧ x.issued + 100000 ≤ (advance dt s).now ∧ x.purpose = .read c ∧ Tbl.get? s.faults.records (112 + port) = none ∧ x.port = port ∧ x.sys = true ∧ (∀ y ∈ s.txs, y.id = x.id → y = x)) ∧
    (∃ (s : State), s.mainUp = true ∧ s.txs = []) :=
  ⟨⟨0, 3, 1023, 0, 255, 3, 0, 1, List.replicate 64 0, tx0, { upOpen with txs := [tx0] }, (by decide +kernel), (by decide +kernel), quiet_of (by decide +kernel), (by decide +kernel)⟩,
   ⟨3, 1023, 3, { tx0 with rd := false, timedOut := true }, { up with txs := [{ tx0 with rd := false, timedOut := true }] }, (by decide +kernel)⟩,
   ⟨3, 1023, 7, { tx0 with rd := false, purpose := .status 7 }, { up with txs := [{ tx0 with rd := false, purpose := .status 7 }] }, (by decide +kernel)⟩,
   ⟨3, 1023, up, (by decide +kernel)⟩,
   ⟨100000, 3, 1023, 255, { tx0 with sys := true, purpose := .read 255 }, { up with txs := [{ tx0 with sys := true, purpose := .read 255 }] }, (by decide +kernel)⟩,
   ⟨up, (by decide +kernel)⟩⟩

theorem test_witness_PacketRings :
    (∃ (dt : Nat) (r : Nat) (mem : ExtMem) (x : PktRec × PktDesc) (s : State), (Instr.pktRingEnable dt r true mem).wf = true ∧ s.mainUp = true ∧ Safety.quiet s ∧ (s.pring r).enable = false ∧ (s.pring r).run = false ∧ pktBusy s r = false ∧ setupRing s r mem = .ok x) ∧
    (∃ (dt : Nat) (r : Nat) (code : Nat) (mem : ExtMem) (d : Nat × Nat) (s : State), (Instr.pktRingEnable dt r true mem).wf = true ∧ s.mainUp = true ∧ Safety.quiet s ∧ (s.pring r).enable = false ∧ (s.pring r).run = false ∧ pktBusy s r = false ∧ setupRing s r mem = .error (code, d) ∧ code < 6) ∧
    (∃ (dt : Nat) (r : Nat) (mem : ExtMem) (s : State), (Instr.pktRingDisable dt r true mem).wf = true ∧ s.mainUp = true ∧ (s.pring r).enable = true ∧ (s.pring r).run = true ∧ (s.pring r).block = none) ∧
    (∃ (dt : Nat) (r : Nat) (mem : ExtMem) (x : PktRec) (d : PktDesc) (b : Block) (s : State), (Instr.pktRingDisable dt r true mem).wf = true ∧ s.mainUp = true ∧ (s.pring r).enable = true ∧ (s.pring r).run = true ∧ (s.pring r).block = some b ∧ (s.pring r).setup = some (x, d) ∧ x.motionAddr = 0) ∧
    (∃ (r : Nat) (v : Nat) (x : PktRec) (d : PktDesc) (s : State), r < 8 ∧ s.mainUp = true ∧ Safety.quiet s ∧ (s.pring r).run = true ∧ (s.pring r).setup = some (x, d) ∧ v < 2 * 2 ^ x.log2Slots ∧ v < 2 ^ 17 ∧ (v + 2 * 2 ^ x.log2Slots - (s.pring r).cons % (2 * 2 ^ x.log2Slots)) % (2 * 2 ^ x.log2Slots) ≤ 2 ^ x.log2Slots ∧ (s.pring r).prod - (s.pring r).cons ≤ (v + 2 * 2 ^ x.log2Slots - (s.pring r).cons % (2 * 2 ^ x.log2Slots)) % (2 * 2 ^ x.log2Slots)) ∧
    (∃ (dt : Nat) (r : Nat) (mem : ExtMem) (x : PktRec) (d : PktDesc) (h : List Byte) (b : List Byte) (s : State), (Instr.pktParse dt r mem).wf = true ∧ pktNext s = some r ∧ (s.pring r).setup = some (x, d) ∧ Safety.quiet s ∧ s.faults.safe = .normal ∧ pktRead s x.ctx mem (x.ringBase + (s.pring r).cons % 2 ^ x.log2Slots * 2 ^ x.slotLog2) 16 = .ok h ∧ field h 0 2 + 16 ≤ 2 ^ x.slotLog2 ∧ pktRead s x.ctx mem (x.ringBase + (s.pring r).cons % 2 ^ x.log2Slots * 2 ^ x.slotLog2 + 16) (field h 0 2) = .ok b ∧ checkPacket x d b = none ∧ guardCheck (s.ctx x.ctx).guards true x.statusAddr 8 = none) ∧
    (∃ (dt : Nat) (r : Nat) (mem : ExtMem) (x : PktRec) (d : PktDesc) (h : List Byte) (b : List Byte) (p : List Byte) (s : State), (Instr.pktParse dt r mem).wf = true ∧ pktNext s = some r ∧ (s.pring r).setup = some (x, d) ∧ s.faults.safe = .normal ∧ pktRead s x.ctx mem (x.ringBase + (s.pring r).cons % 2 ^ x.log2Slots * 2 ^ x.slotLog2) 16 = .ok h ∧ field h 0 2 + 16 ≤ 2 ^ x.slotLog2 ∧ pktRead s x.ctx mem (x.ringBase + (s.pring r).cons % 2 ^ x.log2Slots * 2 ^ x.slotLog2 + 16) (field h 0 2) = .ok b ∧ checkPacket x d b = some p) ∧
    (∃ (dt : Nat) (r : Nat) (mem : ExtMem) (x : PktRec) (d : PktDesc) (b : Block) (s : State), (Instr.pktGapTimeout dt r mem).wf = true ∧ (s.pring r).setup = some (x, d) ∧ (s.pring r).block = some b ∧ (s.pring r).run = true ∧ (s.pring r).cons = (s.pring r).prod ∧ (s.pring r).lastPkt + x.gapUs * 1000 ≤ (advance dt s).now ∧ x.motionAddr = 0) ∧
    (∃ (dt : Nat) (r : Nat) (mem : ExtMem) (x : PktRec) (d : PktDesc) (b : Block) (l : List Byte) (s : State), (Instr.pktGapTimeout dt r mem).wf = true ∧ Safety.quiet s ∧ (s.pring r).setup = some (x, d) ∧ (s.pring r).block = some b ∧ (s.pring r).run = true ∧ (s.pring r).cons = (s.pring r).prod ∧ (s.pring r).lastPkt + x.gapUs * 1000 ≤ (advance dt s).now ∧ x.motionAddr ≠ 0 ∧ pktRead s x.ctx mem x.motionAddr 64 = .ok l ∧ field l 0 4 ≠ field l 0x3C 4 ∧ b.reads = 0) ∧
    (∃ (dt : Nat) (r : Nat) (mem : ExtMem) (x : PktRec) (d : PktDesc) (l : Block) (b : List Byte) (s : State), (Instr.motionRecordRetry dt r mem).wf = true ∧ Safety.quiet s ∧ (s.pring r).setup = some (x, d) ∧ (s.pring r).closing = [l] ∧ l.motionDue (advance dt s).now = true ∧ pktRead s x.ctx mem x.motionAddr 64 = .ok b ∧ field b 0 4 ≠ field b 0x3C 4 ∧ l.reads + 1 < 3) ∧
    (∃ (dt : Nat) (r : Nat) (mem : ExtMem) (x : PktRec) (d : PktDesc) (l : Block) (b : List Byte) (s : State), (Instr.motionRecordRetry dt r mem).wf = true ∧ (s.pring r).setup = some (x, d) ∧ (s.pring r).closing = [l] ∧ l.motionDue (advance dt s).now = true ∧ pktRead s x.ctx mem x.motionAddr 64 = .ok b ∧ field b 0 4 = field b 0x3C 4) :=
  ⟨⟨0, 7, pktMem, (pktRec0, pktDesc0), upOpen, (by decide +kernel), (by decide +kernel), quiet_of (by decide +kernel), (by decide +kernel)⟩,
   ⟨0, 7, 1, {}, (0, 0), upOpen, (by decide +kernel), (by decide +kernel), quiet_of (by decide +kernel), (by decide +kernel)⟩,
   ⟨0, 7, {}, upPkt ring7, (by decide +kernel)⟩,
   ⟨0, 7, {}, { pktRec0 with motionAddr := 0 }, pktDesc0, block0, upPkt { ring7 with setup := some ({ pktRec0 with motionAddr := 0 }, pktDesc0), block := some block0 }, (by decide +kernel)⟩,
   ⟨7, 16, pktRec0, pktDesc0, upPkt ring7, (by decide +kernel), (by decide +kernel), quiet_of (by decide +kernel), (by decide +kernel)⟩,
   ⟨0, 7, pktMem, pktRec0, pktDesc0, extRead pktMem 0x100000 16, extRead pktMem 0x100010 0, upPkt { ring7 with prod := 1 }, (by decide +kernel), (by decide +kernel), (by decide +kernel), quiet_of (by decide +kernel), (by decide +kernel)⟩,
   ⟨0, 7, pktMem, pktRec0, pktDesc0, extRead pktMem 0x100080 16, extRead pktMem 0x100090 112, extRead pktMem 0x100090 112, upPkt { ring7 with cons := 1, prod := 2 }, (by decide +kernel)⟩,
   ⟨100000, 7, {}, { pktRec0 with motionAddr := 0 }, pktDesc0, block0, upPkt { ring7 with setup := some ({ pktRec0 with motionAddr := 0 }, pktDesc0), block := some block0 }, (by decide +kernel)⟩,
   ⟨100000, 7, pktMem, pktRec0, pktDesc0, block0, extRead pktMem 0x3000 64, upPkt { ring7 with block := some block0 }, (by decide +kernel), quiet_of (by decide +kernel), (by decide +kernel)⟩,
   ⟨1000, 7, pktMem, pktRec0, pktDesc0, { block0 with reads := 1 }, extRead pktMem 0x3000 64, upPkt { ring7 with closing := [{ block0 with reads := 1 }] }, (by decide +kernel), quiet_of (by decide +kernel), (by decide +kernel)⟩,
   ⟨0, 7, {}, pktRec0, pktDesc0, block0, extRead {} 0x3000 64, upPkt { ring7 with closing := [block0] }, (by decide +kernel)⟩⟩

theorem test_witness_PacketsReachFrames :
    (∃ (dt : Nat) (p : Nat) (vc : Nat) (dtype : Nat) (i : Nat) (wid : Nat) (payload : List Byte) (x : Stream) (f : Frame) (w : Work) (s : State), (Instr.csi2LongPacket dt p vc dtype .ok payload true false false).wf = true ∧ s.mainUp = true ∧ vcStream s p vc = some (i, x) ∧ x.st ≠ .attaching ∧ dtypeGroup dtype ≠ none ∧ dtype = x.dtype ∧ x.cur = some wid ∧ Tbl.get? s.works wid = some w ∧ w.frame = some f ∧ f.got < x.height ∧ f.lines.length = f.got ∧ f.got / 64 ∉ f.held ∧ bufferHeld s i wid x (f.got / 64) = false ∧ payload.length = x.lineLen ∧ (padLine x f).length ≤ payload.length ∧ f.marked = false ∧ mirrorOf s i f.counter = none) ∧
    (∃ (dt : Nat) (p : Nat) (vc : Nat) (dtype : Nat) (payload : List Byte) (crcOk : Bool) (fifoLost : Bool) (storeErr : Bool) (s : State), (Instr.csi2LongPacket dt p vc dtype .ok payload crcOk fifoLost storeErr).wf = true ∧ s.mainUp = true ∧ vcStream s p vc = none) ∧
    (∃ (p : Nat) (vc : Nat) (i : Nat) (wid : Nat) (x : Stream) (w : Work) (f : Frame) (s : State), p < 16 ∧ vc < 16 ∧ s.mainUp = true ∧ vcStream s p vc = some (i, x) ∧ x.st ≠ .attaching ∧ x.cur = some wid ∧ Tbl.get? s.works wid = some w ∧ w.frame = some f ∧ f.got = 0 ∧ f.marked = false) ∧
    (∃ (p : Nat) (vc : Nat) (i : Nat) (x : Stream) (s : State), p < 16 ∧ vc < 16 ∧ s.mainUp = true ∧ vcStream s p vc = some (i, x) ∧ x.st ≠ .attaching) ∧
    (∃ (p : Nat) (s : State), p < 16 ∧ s.mainUp = true) ∧
    (∃ (p : Nat) (vc : Nat) (wid : Nat) (i : Nat) (x : Stream) (w : Work) (f : Frame) (s : State), p < 16 ∧ vc < 16 ∧ s.mainUp = true ∧ openFrames s p = [(i, wid)] ∧ Tbl.get? s.streams i = some x ∧ f.got < x.height ∧ Tbl.get? s.works wid = some w ∧ w.frame = some f ∧ Safety.quiet s) :=
  ⟨⟨0, 15, 15, 0x2A, 0x7FEF, 0, List.replicate 64 0, { stream0 with cur := some 0 }, frame0, work0, upFrame work0, (by decide +kernel)⟩,
   ⟨0, 15, 14, 63, [], true, false, false, upFrame work0, (by decide +kernel)⟩,
   ⟨15, 15, 0x7FEF, 0, { stream0 with cur := some 0 }, work0, frame0, upFrame work0, (by decide +kernel)⟩,
   ⟨15, 15, 0x7FEF, { stream0 with cur := some 0 }, upFrame work0, (by decide +kernel)⟩,
   ⟨15, up, (by decide +kernel)⟩,
   ⟨15, 15, 0, 0x7FEF, { stream0 with cur := some 0 }, work0, frame0, upFrame work0, (by decide +kernel), (by decide +kernel), (by decide +kernel), (by decide +kernel), (by decide +kernel), (by decide +kernel), (by decide +kernel), (by decide +kernel), quiet_of (by decide +kernel)⟩⟩

theorem test_witness_FramesOpenAndClose :
    (∃ (p : Nat) (vc : Nat) (fn : Nat) (i : Nat) (x : Stream) (y : Binding × Image × EntryPt) (s : State), p < 16 ∧ vc < 16 ∧ fn < 65536 ∧ s.mainUp = true ∧ Safety.quiet s ∧ vcStream s p vc = some (i, x) ∧ Tbl.get? s.streams i = some x ∧ x.st = .attached ∧ (s.port p).st ≠ .lost ∧ x.port = p ∧ x.cur = none ∧ x.mirrorPool = 0 ∧ groupOf s i = none ∧ streamImage s x = some y ∧ (∀ q ∈ s.works, q.1 < s.workNext)) ∧
    (∃ (p : Nat) (vc : Nat) (fn : Nat) (i : Nat) (wid : Nat) (x : Stream) (w : Work) (f : Frame) (s : State), p < 16 ∧ vc < 16 ∧ fn < 65536 ∧ s.mainUp = true ∧ Safety.quiet s ∧ vcStream s p vc = some (i, x) ∧ Tbl.get? s.streams i = some x ∧ x.cur = some wid ∧ Tbl.get? s.works wid = some w ∧ w.frame = some f ∧ f.lineOpen = false ∧ mirrorOf s i f.counter = none) ∧
    (∃ (dt : Nat) (i : Nat) (wid : Nat) (x : Stream) (w : Work) (f : Frame) (s : State), i < 65536 ∧ Safety.quiet s ∧ Tbl.get? s.streams i = some x ∧ x.cur = some wid ∧ Tbl.get? s.works wid = some w ∧ w.frame = some f ∧ f.lastPkt + f.timeoutUs * 1000 ≤ (advance dt s).now ∧ mirrorOf s i f.counter = none) ∧
    (∃ (dt : Nat) (g : Nat) (x : Group) (s : State), g < 16 ∧ Tbl.get? s.groups g = some x ∧ x.inForce = true ∧ x.frame ≠ 0 ∧ x.expired = false ∧ x.t0 + x.windowUs * 1000 ≤ (advance dt s).now) :=
  ⟨⟨15, 15, 65535, 0x7FEF, stream0, (liveBinding, image0, entry0), upLive, (by decide +kernel), (by decide +kernel), (by decide +kernel), (by decide +kernel), quiet_of (by decide +kernel), (by decide +kernel)⟩,
   ⟨15, 15, 65535, 0x7FEF, 0, { stream0 with cur := some 0 }, work0, frame0, upFrame work0, (by decide +kernel), (by decide +kernel), (by decide +kernel), (by decide +kernel), quiet_of (by decide +kernel), (by decide +kernel)⟩,
   ⟨100000, 0x7FEF, 0, { stream0 with cur := some 0 }, work0, frame0, upFrame work0, (by decide +kernel), quiet_of (by decide +kernel), (by decide +kernel)⟩,
   ⟨1000, 15, { ctx := 255, members := [0x7FEF], windowUs := 1, inForce := true, frame := 1 }, { upLive with groups := [(15, { ctx := 255, members := [0x7FEF], windowUs := 1, inForce := true, frame := 1 })] }, (by decide +kernel)⟩⟩

theorem test_witness_PortsAndStrips :
    (∃ (p : Nat) (edges : Nat) (s : State), p < 16 ∧ edges < 2 ^ 32 ∧ s.mainUp = true ∧ (s.port p).st = .qualifying ∧ (s.port p).qualLeft = 0 ∧ (s.port p).goodWins = 1 ∧ (s.port p).lastWin = .inside ∧ edges ≠ 0 ∧ 50 * ((edges : Int) - (s.port p).laneMbps).natAbs ≤ (s.port p).laneMbps) ∧
    (∃ (p : Nat) (s : State), p < 16 ∧ s.mainUp = true ∧ (s.port p).st = .up ∧ s.works = [] ∧ openFrames s p = [] ∧ Safety.quiet s ∧ Tbl.get? s.faults.records 104 = none) ∧
    (∃ (wid : Nat) (n : Nat) (i : Nat) (w : Work) (f : Frame) (x : Stream) (s : State), Tbl.get? s.works wid = some w ∧ w.kind = .live i ∧ w.frame = some f ∧ Tbl.get? s.streams i = some x ∧ n < x.strips ∧ min (64 * n + 64) x.height ≤ f.lines.length ∧ n ∉ f.held ∧ (∀ r ∈ f.ready, r.1 ≠ n)) ∧
    (∃ (wid : Nat) (n : Nat) (i : Nat) (w : Work) (f : Frame) (x : Stream) (s : State), Tbl.get? s.works wid = some w ∧ w.kind = .live i ∧ w.frame = some f ∧ Tbl.get? s.streams i = some x ∧ stripDone s w n = true ∧ stripPending s wid w f n = false ∧ n ∉ f.released ∧ (∃ r ∈ f.ready, r.1 = n)) ∧
    (∃ (dt : Nat) (wid : Nat) (i : Nat) (w : Work) (f : Frame) (b : Binding) (img : Image) (s : State), Tbl.get? s.works wid = some w ∧ w.kind = .live i ∧ w.frame = some f ∧ f.closed ≠ none ∧ w.buffer ≠ none ∧ w.phase = .working ∧ Tbl.get? s.bindings w.binding = some b ∧ b.image? w.gen = some img ∧ w.frameEnd + img.abandonUs * 1000 ≤ (advance dt s).now ∧ (∃ v < w.views, viewDone w v = false)) :=
  ⟨⟨15, 1020, { up with ports := Tbl.set up.ports 15 { laneMbps := 1000, st := .qualifying, goodWins := 1 } }, (by decide +kernel)⟩,
   ⟨15, upOpen, (by decide +kernel), (by decide +kernel), (by decide +kernel), (by decide +kernel), (by decide +kernel), quiet_of (by decide +kernel), (by decide +kernel)⟩,
   ⟨0, 0, 0x7FEF, { work0 with frame := some { frame0 with lines := List.replicate 64 [], got := 64 } }, { frame0 with lines := List.replicate 64 [], got := 64 }, { stream0 with cur := some 0 }, upFrame { work0 with frame := some { frame0 with lines := List.replicate 64 [], got := 64 } }, (by decide +kernel)⟩,
   ⟨0, 0, 0x7FEF, workDone, { frame0 with lines := List.replicate 64 [], got := 64, ready := [(0, 0)] }, { stream0 with cur := some 0 }, upFrame workDone, (by decide +kernel)⟩,
   ⟨0, 0, 0x7FEF, { work0 with frame := some { frame0 with closed := some 0 } }, { frame0 with closed := some 0 }, liveBinding, image0, upFrame { work0 with frame := some { frame0 with closed := some 0 } }, (by decide +kernel)⟩⟩

theorem test_witness_PlanSyncIsTracked :
    (∃ (dt : Nat) (j : Int) (s : State), s.mainUp = true ∧ isFollower s = true ∧ -1000 ≤ syncError (stampAt (advance dt s) j) s.periodNs s.press.phase ∧ syncError (stampAt (advance dt s) j) s.periodNs s.press.phase ≤ 1000) ∧
    (∃ (dt : Nat) (j : Int) (s : State), s.mainUp = true ∧ isFollower s = true ∧ 1000 < (syncError (stampAt (advance dt s) j) s.periodNs s.press.phase).natAbs ∧ s.press.sync = .locked ∧ Tbl.get? s.faults.records 123 = none) ∧
    (∃ (dt : Nat) (s : State), s.mainUp = true ∧ s.press.sync = .locked ∧ s.press.lastEdge + 2 * s.periodNs + 10000 ≤ (advance dt s).now ∧ Tbl.get? s.faults.records 123 = none) ∧
    (∃ (s : State), isFollower s = false) :=
  ⟨⟨1000, 0, { up with chip := { up.chip with groupM1 := 1, instId := 1 } }, (by decide +kernel)⟩,
   ⟨1001, 0, { up with chip := { up.chip with groupM1 := 1, instId := 1 }, press := { up.press with sync := .locked } }, (by decide +kernel)⟩,
   ⟨2010000, { up with press := { up.press with sync := .locked } }, (by decide +kernel)⟩,
   ⟨up, (by decide +kernel)⟩⟩

theorem test_witness_PressPeriodsRun :
    (∃ (s : State), s.mainUp = true) ∧
    (∃ (k : Nat) (s : State), k ≤ 4 ∧ s.mainUp = true ∧ anyAdmitted s = false) ∧
    (∃ (k : Nat) (s : State), k < 16 ∧ s.mainUp = true ∧ (4 < k ∨ anyAdmitted s = true)) ∧
    (∃ (dt : Nat) (s : State), s.mainUp = true ∧ s.faults.safe = .normal ∧ s.press.phase ≤ (advance dt s).now ∧ ((advance dt s).now - s.press.phase) % s.periodNs = 0 ∧ atPeriodStart (advance dt s) = false ∧ anyAdmitted s = true) ∧
    (∃ (dt : Nat) (s : State), Safety.quiet s ∧ s.mainUp = true ∧ s.faults.safe = .normal ∧ s.press.phase ≤ (advance dt s).now ∧ ((advance dt s).now - s.press.phase) % s.periodNs = 0 ∧ s.press.running = true ∧ s.press.periodStart ≠ (advance dt s).now ∧ anyAdmitted s = false ∧ (∀ p ∈ s.rings, p.2.tail = p.2.done) ∧ s.power.target ≠ 2 ∧ s.power.oppWanted = none) ∧
    (∃ (dt : Nat) (s : State), s.mainUp = true ∧ s.faults.safe = .normal ∧ s.press.phase ≤ (advance dt s).now ∧ ((advance dt s).now - s.press.phase) % 2000 = 0 ∧ s.press.slotAt ≠ some (advance dt s).now ∧ s.press.running = true ∧ s.rings = [] ∧ s.power.array.warns = false ∧ s.power.stage = 0 ∧ s.draw.katStart = false) ∧
    (∃ (dt : Nat) (s : State), s.mainUp = true ∧ s.faults.safe = .normal ∧ s.press.phase ≤ (advance dt s).now ∧ ((advance dt s).now - s.press.phase) % 2000 = 0 ∧ s.press.slotAt ≠ some (advance dt s).now ∧ s.press.running = false ∧ s.rings = [] ∧ s.power.array.warns = false ∧ s.power.stage = 0 ∧ s.draw.katStart = true) ∧
    (∃ (dt : Nat) (s : State), ((advance dt s).now - s.press.phase) % 2000 ≠ 0) :=
  ⟨⟨up, (by decide +kernel)⟩,
   ⟨4, up, (by decide +kernel)⟩,
   ⟨15, up, (by decide +kernel)⟩,
   ⟨0, { up with bindings := [(0xFF000001, liveBinding)] }, (by decide +kernel)⟩,
   ⟨1000000, { up with press := { up.press with running := true } }, quiet_of (by decide +kernel), (by decide +kernel)⟩,
   ⟨2000, { up with press := { up.press with running := true } }, (by decide +kernel)⟩,
   ⟨2000, { up with draw := { up.draw with katStart := true } }, (by decide +kernel)⟩,
   ⟨1, up, (by decide +kernel)⟩⟩

theorem test_witness_FoliosAreCompared :
    (∃ (wid : Nat) (n : Nat) (i : Nat) (v : Nat) (w : Work) (s : State), Tbl.get? s.works wid = some w ∧ w.kind = .live i ∧ Tbl.get? w.strips n = some v ∧ v % 2 = 1 ∧ s.faults.fi.armed = false ∧ arrivedAll s w (upto (stageBase s w) (v / 2 + 1)) = true) ∧
    (∃ (wid : Nat) (c : Nat) (r : Nat) (a : Nat) (b : Nat) (w : Work) (img : Image) (p : EntryPt) (s : State), Tbl.get? s.works wid = some w ∧ w.kind = .chain c r a b ∧ w.inStages = true ∧ w.ran = true ∧ w.place.isSome = true ∧ w.suspended = false ∧ workImage s w = some (img, p) ∧ s.faults.fi.armed = false ∧ w.pendingRd = 0 ∧ arrivedAll s w (stagesNow s w) = true ∧ barrierStage img w.stage img.stages.length + 1 < p.firstStage + p.stageRun) ∧
    (∃ (wid : Nat) (index : Nat) (rel : Nat) (i : Nat) (n : Nat) (w : Work) (f : Frame) (img : Image) (p : EntryPt) (bd : Binding) (x : Stream) (s : State), Tbl.get? s.works wid = some w ∧ liveRuns s w = some i ∧ w.frame = some f ∧ workImage s w = some (img, p) ∧ Tbl.get? s.bindings w.binding = some bd ∧ Tbl.get? s.streams i = some x ∧ index < w.total ∧ w.hasFolio index = false ∧ w.viewOf index ∉ w.shed ∧ p.encodeView img ≠ some (w.viewOf index) ∧ w.compare? index = none ∧ folioStrip s w = some n ∧ rel < bd.quiresA.length ∧ s.faults.fi.armed = false) ∧
    (∃ (dt : Nat) (wid : Nat) (index : Nat) (rel : Nat) (i : Nat) (n : Nat) (q : Nat) (w : Work) (f : Frame) (img : Image) (p : EntryPt) (bd : Binding) (x : Stream) (bs : List Byte) (s : State), Tbl.get? s.works wid = some w ∧ liveRuns s w = some i ∧ w.frame = some f ∧ workImage s w = some (img, p) ∧ Tbl.get? s.bindings w.binding = some bd ∧ Tbl.get? s.streams i = some x ∧ index < w.total ∧ w.hasFolio index = false ∧ w.viewOf index ∉ w.shed ∧ p.encodeView img ≠ some (w.viewOf index) ∧ w.compare? index = none ∧ folioStrip s w = some n ∧ rel < bd.quiresA.length ∧ s.faults.fi.armed = false ∧ crc32c (slice bs 0 4096) ≠ crc32c (goodFolio (advance dt s) w x f img p index) ∧ bd.spare = some q ∧ q ∈ s.press.spareSet ∧ q ∉ s.faults.retired ∧ (s.quire q).testing = false ∧ Tbl.getD w.replays n 0 = 0 ∧ bd.table.any (·.replay) = true) ∧
    (∃ (dt : Nat) (wid : Nat) (index : Nat) (i : Nat) (w : Work) (c : FolioCmp) (s : State), Tbl.get? s.works wid = some w ∧ liveRuns s w = some i ∧ w.compare? index = some c ∧ c.replay = false ∧ c.copyA.isSome = true ∧ c.copyB = none ∧ c.since + 2000 ≤ (advance dt s).now) ∧
    (∃ (dt : Nat) (wid : Nat) (index : Nat) (i : Nat) (q : Nat) (w : Work) (f : Frame) (img : Image) (p : EntryPt) (bd : Binding) (x : Stream) (c : FolioCmp) (s : State), Tbl.get? s.works wid = some w ∧ liveRuns s w = some i ∧ w.frame = some f ∧ workImage s w = some (img, p) ∧ Tbl.get? s.bindings w.binding = some bd ∧ Tbl.get? s.streams i = some x ∧ bd.spare = some q ∧ w.compare? index = some c ∧ c.replaying = true ∧ c.copyA = some (goodFolio (advance dt s) w x f img p index)) ∧
    (∃ (dt : Nat) (wid : Nat) (index : Nat) (i : Nat) (q : Nat) (w : Work) (f : Frame) (img : Image) (p : EntryPt) (bd : Binding) (x : Stream) (c : FolioCmp) (a : List Byte) (b : List Byte) (s : State), Tbl.get? s.works wid = some w ∧ liveRuns s w = some i ∧ w.frame = some f ∧ workImage s w = some (img, p) ∧ Tbl.get? s.bindings w.binding = some bd ∧ Tbl.get? s.streams i = some x ∧ bd.spare = some q ∧ w.compare? index = some c ∧ c.replaying = true ∧ c.copyA = some a ∧ c.copyB = some b ∧ crc32c a ≠ crc32c (goodFolio (advance dt s) w x f img p index) ∧ crc32c b ≠ crc32c (goodFolio (advance dt s) w x f img p index)) :=
  ⟨⟨0, 0, 0x7FEF, 1, { work0 with strips := [(0, 1)] }, upFrame { work0 with strips := [(0, 1)] }, (by decide +kernel)⟩,
   ⟨0, 255, 3, 0, 1, chainWork, image2, entry2, { up with bindings := [(liveHandle, { liveBinding with gens := [(1, image2)] })], works := [(0, chainWork)] }, (by decide +kernel)⟩,
   ⟨0, 0, 0, 0x7FEF, 0, workDone, doneFrame, image0, entry0, liveBinding, { stream0 with cur := some 0 }, upFrame workDone, (by decide +kernel)⟩,
   ⟨0, 0, 0, 0, 0x7FEF, 0, 31, workDone, doneFrame, image0, entry0, replayBinding, { stream0 with cur := some 0 }, [1], upReplay workDone, (by decide +kernel), (by decide +kernel), (by decide +kernel), (by decide +kernel), (by decide +kernel), (by decide +kernel), (by decide +kernel), (by decide +kernel), (by decide +kernel), (by decide +kernel), (by decide +kernel), (by decide +kernel), (by decide +kernel), (by decide +kernel), (fun e => crc_bad (slice_bad ▸ e.trans replay_crc)), (by decide +kernel)⟩,
   ⟨2000, 0, 0, 0x7FEF, { workDone with compares := [half] }, half, upFrame { workDone with compares := [half] }, (by decide +kernel)⟩,
   ⟨0, 0, 0, 0x7FEF, 31, { workDone with compares := [asGood] }, doneFrame, image0, entry0, liveBinding, { stream0 with cur := some 0 }, asGood, upFrame { workDone with compares := [asGood] }, rfl, (by decide +kernel), (by decide +kernel), (by decide +kernel), (by decide +kernel), (by decide +kernel), (by decide +kernel), rfl, (by decide +kernel), (congrArg some (good_zeros [asGood])).symm⟩,
   ⟨0, 0, 0, 0x7FEF, 31, { workDone with compares := [twoBad] }, doneFrame, image0, entry0, liveBinding, { stream0 with cur := some 0 }, twoBad, [1], [2], upFrame { workDone with compares := [twoBad] }, (by decide +kernel), (by decide +kernel), (by decide +kernel), (by decide +kernel), (by decide +kernel), (by decide +kernel), (by decide +kernel), (by decide +kernel), (by decide +kernel), (by decide +kernel), (by decide +kernel), (fun e => crc_one.1 (e.trans (good_crc [twoBad]))), (fun e => crc_one.2 (e.trans (good_crc [twoBad])))⟩⟩

theorem test_witness_StoresAreScrubbed :
    (∃ (q : Nat) (fs : List ScrubFinding) (s : State), q < 64 ∧ fs.all ScrubFinding.wf = true ∧ s.maintains = true ∧ q ∉ s.faults.retired ∧ (s.quire q).st ≠ .gated ∧ tokenHeld s q 3 = false ∧ s.faults.fi.armed = false) ∧
    (∃ (q : Nat) (fs : List ScrubFinding) (s : State), q < 64 ∧ fs.all ScrubFinding.wf = true ∧ s.maintains = true ∧ q ∉ s.faults.retired ∧ (s.quire q).st ≠ .gated ∧ tokenHeld s q 3 = true) ∧
    (∃ (dt : Nat) (q : Nat) (t0 : Nat) (fs : List ScrubFinding) (s : State), q < 64 ∧ fs.all ScrubFinding.wf = true ∧ s.mem.scrubDeferred.find? (·.1 = q) = some (q, t0) ∧ t0 + 1000000 ≤ (advance dt s).now) ∧
    (∃ (key : Nat) (i : Nat) (resp : Nat) (poisoned : Bool) (p : Pool) (s : State), resp < 4 ∧ Tbl.get? s.pools key = some p ∧ s.maintains = true ∧ s.mem.stockSweep = true ∧ i < p.count ∧ Tbl.has p.bufs i = false ∧ (resp ≠ 0 ∨ poisoned = true) ∧ guardCheck (s.ctx (key / 128)).guards false (p.base + i * bufSize (key % 8)) (bufSize (key % 8)) = none) ∧
    (∃ (key : Nat) (p : Pool) (s : State), Tbl.get? s.pools key = some p) ∧
    (∃ (h : Nat) (gen : Nat) (set : Nat) (seg : Nat) (m : ExtMem) (g : Segment) (bs : List Byte) (s : State), findSegment s h gen set seg = some g ∧ s.maintains = true ∧ g.lost = false ∧ g.reloading = true ∧ (s.quire g.quire).st ≠ .gated ∧ reloadRead s g m = .ok bs ∧ crc32c bs = g.crc) ∧
    (∃ (h : Nat) (gen : Nat) (set : Nat) (seg : Nat) (m : ExtMem) (g : Segment) (bs : List Byte) (s : State), findSegment s h gen set seg = some g ∧ s.maintains = true ∧ g.lost = false ∧ g.reloading = true ∧ (s.quire g.quire).st ≠ .gated ∧ reloadRead s g m = .ok bs ∧ crc32c bs ≠ g.crc) :=
  ⟨⟨63, [.corrected], upOn, (by decide +kernel)⟩,
   ⟨63, [.corrected], { upOn with mem := { up.mem with tokens := [(63, 2)] } }, (by decide +kernel)⟩,
   ⟨1000000, 63, 0, [], { up with mem := { up.mem with scrubDeferred := [(63, 0)] } }, (by decide +kernel)⟩,
   ⟨poolKey 255 15 0, 0, 3, false, { base := 0x10000, count := 1 }, { upOpen with mem := { up.mem with stockSweep := true } }, (by decide +kernel)⟩,
   ⟨poolKey 255 15 0, { base := 0x10000, count := 1 }, upOpen, (by decide +kernel)⟩,
   ⟨liveHandle, 1, 0, 0, {}, { segZero with reloading := true }, slice (extRead {} 0 4096) 0 4096, { segState { segZero with reloading := true } with press := upOn.press }, (by decide +kernel), (by decide +kernel), (by decide +kernel), (by decide +kernel), (by decide +kernel), rfl, crc_extRead⟩,
   ⟨liveHandle, 1, 0, 0, {}, { segOther with reloading := true }, slice (extRead {} 0 4096) 0 4096, { segState { segOther with reloading := true } with press := upOn.press }, (by decide +kernel), (by decide +kernel), (by decide +kernel), (by decide +kernel), (by decide +kernel), rfl, (by rw [crc_extRead]; decide +kernel)⟩⟩

theorem test_witness_QuiresAreTestedAndMoved :
    (∃ (q : Nat) (l : List Nat) (s : State), s.maintains = true ∧ s.faults.testEnable = true ∧ s.faults.testState ≠ .running ∧ dueQuires s = q :: l ∧ q ∈ s.press.spareSet ∧ q ∉ s.faults.retired ∧ migrationOf s q = none ∧ testable s q = true) ∧
    (∃ (q : Nat) (l : List Nat) (s : State), s.maintains = true ∧ s.faults.testEnable = true ∧ s.faults.testState ≠ .running ∧ dueQuires s = q :: l ∧ q ∈ s.press.spareSet ∧ q ∉ s.faults.retired ∧ migrationOf s q = none ∧ testable s q = false) ∧
    (∃ (s : State), s.maintains = true ∧ s.faults.testState = .running ∧ (s.quire s.faults.testQuire).testing = true ∧ migrationOf s s.faults.testQuire = none) ∧
    (∃ (q : Nat) (p : Nat) (s : State), q < 64 ∧ s.maintains = true ∧ s.fwRuns = true ∧ s.faults.testEnable = true ∧ q ∉ s.faults.retired ∧ q ∈ dueQuires s ∧ q ∉ s.press.spareSet ∧ freeSpare s q = some p ∧ migrationOf s q = none ∧ Tbl.has s.mem.tokens q = false ∧ Tbl.has s.mem.tokens p = false ∧ mayWake s p = true ∧ 2 ≤ (freeSpares s).length ∧ handedOver s q = false ∧ p ≠ q) ∧
    (∃ (q : Nat) (h : Nat) (m : Migration) (b : Binding) (s : State), q < 64 ∧ s.maintains = true ∧ migrationOf s q = some m ∧ m.dst ∉ s.faults.retired ∧ Tbl.get? s.bindings h = some b ∧ b.admitted = true) ∧
    (∃ (dt : Nat) (q : Nat) (m : Migration) (s : State), q < 64 ∧ s.maintains = true ∧ migrationOf s q = some m ∧ handedOver s q = false ∧ m.began + 1000000 ≤ (advance dt s).now) :=
  ⟨⟨30, [32], { up with faults := { up.faults with testNextLo := 30 } }, (by decide +kernel)⟩,
   ⟨30, [32], { up with faults := { up.faults with testNextLo := 30 }, mem := { up.mem with tokens := [(30, 1)] } }, (by decide +kernel)⟩,
   ⟨{ up with press := { up.press with quires := List.replicate 63 {} ++ [{ testing := true }] }, faults := { up.faults with testState := .running, testQuire := 63 } }, (by decide +kernel)⟩,
   ⟨0, 30, upLive, (by decide +kernel)⟩,
   ⟨63, liveHandle, mig63, liveBinding, { upLive with faults := { up.faults with migrations := [mig63] } }, (by decide +kernel)⟩,
   ⟨1000000, 63, mig63, { up with bindings := [(liveHandle, { liveBinding with quiresB := [63] })], faults := { up.faults with migrations := [mig63] } }, (by decide +kernel)⟩⟩

theorem test_witness_AddressesAreGiven :
    (∃ (a : Nat) (s : State), Safety.quiet s ∧ i3cUp s = true ∧ a < 128 ∧ s.mgmt.dynAddr = none) ∧
    (∃ (a : Nat) (s : State), Safety.quiet s ∧ i3cUp s = true ∧ a < 128 ∧ s.mgmt.dynAddr = none ∧ s.chip.i3cSaddr < 128) ∧
    (∃ (a : Nat) (s : State) (b : Nat), Safety.quiet s ∧ i3cUp s = true ∧ a < 128 ∧ b < 128 ∧ b ≠ s.chip.i3cSaddr) ∧
    (∃ (a : Nat) (s : State), Safety.quiet s ∧ i3cUp s = true ∧ a < 128 ∧ s.mgmt.dynAddr ≠ none) ∧
    (∃ (a : Nat) (s : State), Safety.quiet s ∧ i3cUp s = true ∧ a < 128) :=
  ⟨⟨127, up, quiet_of (by decide +kernel), (by decide +kernel)⟩,
   ⟨127, { up with chip := { up.chip with i3cSaddr := 127 } }, quiet_of (by decide +kernel), (by decide +kernel)⟩,
   ⟨127, up, 127, quiet_of (by decide +kernel), (by decide +kernel)⟩,
   ⟨127, { up with mgmt := { up.mgmt with dynAddr := some 127 } }, quiet_of (by decide +kernel), (by decide +kernel)⟩,
   ⟨127, up, quiet_of (by decide +kernel), (by decide +kernel)⟩⟩

theorem test_witness_TheTargetIdentifiesItself :
    ∃ (s : State), Safety.quiet s ∧ i3cUp s = true ∧ s.mgmt.dynAddr ≠ none :=
  ⟨{ up with mgmt := { up.mgmt with dynAddr := some 127 } }, quiet_of (by decide +kernel), (by decide +kernel)⟩

theorem test_witness_PrivateTransfersMoveBytes :
    (∃ (a : Byte) (l : List Byte) (s : State), Safety.quiet s ∧ i3cUp s = true ∧ s.mgmt.dynAddr ≠ none ∧ l.length ≤ 7 ∧ (∀ i < l.length, (a.toNat + i) % 256 ≠ 0x60)) ∧
    (∃ (c : Byte) (s : State), Safety.quiet s ∧ i3cUp s = true ∧ s.mgmt.dynAddr ≠ none ∧ mgKnown c.toNat = true) ∧
    (∃ (c : Byte) (s : State), Safety.quiet s ∧ i3cUp s = true ∧ s.mgmt.dynAddr ≠ none ∧ mgKnown c.toNat = false ∧ s.mgmt.busy = false) ∧
    (∃ (l : List Byte) (s : State), Safety.quiet s ∧ i3cUp s = true ∧ s.mgmt.dynAddr ≠ none ∧ 1 ≤ l.length ∧ l.length ≤ 8) ∧
    (∃ (n : Nat) (s : State), Safety.quiet s ∧ i3cUp s = true ∧ s.mgmt.dynAddr ≠ none ∧ n ≤ 8 ∧ s.mgmt.ptr ≠ 0x20) ∧
    (∃ (n : Nat) (s : State), i3cUp s = true ∧ s.mgmt.dynAddr ≠ none ∧ n ≤ 8 ∧ s.mgmt.ptr = 0x20) :=
  ⟨⟨0xFF, List.replicate 7 0, { up with mgmt := { up.mgmt with dynAddr := some 127 } }, quiet_of (by decide +kernel), (by decide +kernel)⟩,
   ⟨1, { up with mgmt := { up.mgmt with dynAddr := some 127 } }, quiet_of (by decide +kernel), (by decide +kernel)⟩,
   ⟨0xFF, { up with mgmt := { up.mgmt with dynAddr := some 127 } }, quiet_of (by decide +kernel), (by decide +kernel)⟩,
   ⟨List.replicate 8 0, { up with mgmt := { up.mgmt with dynAddr := some 127 } }, quiet_of (by decide +kernel), (by decide +kernel)⟩,
   ⟨8, { up with mgmt := { up.mgmt with dynAddr := some 127 } }, quiet_of (by decide +kernel), (by decide +kernel)⟩,
   ⟨8, { up with mgmt := { up.mgmt with dynAddr := some 127, ptr := 0x20 } }, (by decide +kernel)⟩⟩

theorem test_witness_ManagementCommandsRun :
    (∃ (s : State), i3cUp s = true ∧ s.mgmt.busy = true ∧ s.mgmt.lastCmd = 0x01 ∧ recordOk s.mgmt.region s.mgmt.record = false) ∧
    (∃ (s : State), i3cUp s = true ∧ s.mgmt.busy = true ∧ s.mgmt.lastCmd = 0x01 ∧ recordOk s.mgmt.region s.mgmt.record = true ∧ s.power.mram.req = true ∧ s.power.mram.pg = true ∧ s.keep.scanDone = true ∧ s.power.state ≠ .keep) ∧
    (∃ (s : State), i3cUp s = true ∧ s.mgmt.busy = true ∧ s.mgmt.lastCmd = 0x02 ∧ s.keep.waiting = [] ∧ s.mgmt.permitKwrite = false) ∧
    (∃ (s : State), i3cUp s = true ∧ s.mgmt.busy = true ∧ s.mgmt.lastCmd = 0x02 ∧ s.keep.waiting = [] ∧ s.mgmt.permitKwrite = true ∧ recordOk s.mgmt.region s.mgmt.record = false) ∧
    (∃ (s : State), i3cUp s = true ∧ s.mgmt.busy = true ∧ s.mgmt.lastCmd = 0x02 ∧ s.keep.waiting = [] ∧ s.mgmt.permitKwrite = true ∧ s.mgmt.region = 3 ∧ recordOk 3 s.mgmt.record = true ∧ s.power.mram.req = true ∧ s.power.mram.pg = true ∧ s.power.mram.fail = false ∧ s.power.mram.warn = false ∧ s.keep.scanDone = true ∧ s.keep.refuses = false ∧ s.power.state ≠ .keep) ∧
    (∃ (s : State), i3cUp s = true ∧ s.mgmt.busy = true ∧ s.mgmt.lastCmd = 0x10 ∧ s.mgmt.permitWake = false) ∧
    (∃ (s : State), i3cUp s = true ∧ s.mgmt.busy = true ∧ s.mgmt.lastCmd = 0x10 ∧ s.mgmt.permitWake = true ∧ s.power.state ≠ .keep) ∧
    (∃ (s : State), i3cUp s = true ∧ s.mgmt.busy = true ∧ s.mgmt.lastCmd = 0x10 ∧ s.mgmt.permitWake = true ∧ s.power.state = .keep ∧ s.power.wake = .idle ∧ s.chip.porstN = true) ∧
    (∃ (s : State), i3cUp s = true ∧ s.mgmt.busy = true ∧ s.mgmt.lastCmd = 0x11 ∧ s.mgmt.permitRestart = false) ∧
    (∃ (s : State), i3cUp s = true ∧ s.mgmt.busy = true ∧ s.mgmt.lastCmd = 0x11 ∧ s.mgmt.permitRestart = true ∧ s.mainUp = false) ∧
    (∃ (s : State), i3cUp s = true ∧ s.mgmt.busy = true ∧ s.mgmt.lastCmd = 0x11 ∧ s.mgmt.permitRestart = true ∧ s.mainUp = true ∧ s.control.restarting = false) ∧
    (∃ (s : State) (e : LogEntry), i3cUp s = true ∧ s.mgmt.enint = true ∧ s.mgmt.dynAddr ≠ none ∧ Safety.quiet s ∧ s.mgmt.ibiFault = some e) ∧
    (∃ (s : State), i3cUp s = true ∧ s.mgmt.enint = true ∧ s.mgmt.dynAddr ≠ none ∧ Safety.quiet s ∧ s.mgmt.ibiFault = none ∧ s.mgmt.ibiSafe = true) ∧
    (∃ (s : State) (c : Nat) (st : Nat), i3cUp s = true ∧ s.mgmt.enint = true ∧ s.mgmt.dynAddr ≠ none ∧ Safety.quiet s ∧ s.mgmt.ibiFault = none ∧ s.mgmt.ibiSafe = false ∧ s.mgmt.ibiCmd = some (c, st)) ∧
    (∃ (s : State), i3cUp s = true ∧ s.mgmt.enint = true ∧ s.mgmt.dynAddr ≠ none ∧ Safety.quiet s) :=
  ⟨⟨{ up with mgmt := { up.mgmt with busy := true, lastCmd := 1, region := 4, record := 64 } }, (by decide +kernel)⟩,
   ⟨{ up with keep := { up.keep with scanDone := true }, mgmt := { up.mgmt with busy := true, lastCmd := 1, region := 4, record := 63 } }, (by decide +kernel)⟩,
   ⟨{ up with mgmt := { up.mgmt with busy := true, lastCmd := 2, permitKwrite := false } }, (by decide +kernel)⟩,
   ⟨{ up with mgmt := { up.mgmt with busy := true, lastCmd := 2, region := 3, record := 2048 } }, (by decide +kernel)⟩,
   ⟨{ up with keep := { up.keep with scanDone := true }, mgmt := { up.mgmt with busy := true, lastCmd := 2, region := 3, record := 2047 } }, (by decide +kernel)⟩,
   ⟨{ up with mgmt := { up.mgmt with busy := true, lastCmd := 0x10, permitWake := false } }, (by decide +kernel)⟩,
   ⟨{ up with mgmt := { up.mgmt with busy := true, lastCmd := 0x10 } }, (by decide +kernel)⟩,
   ⟨{ up with power := { up.power with state := .keep }, mgmt := { up.mgmt with busy := true, lastCmd := 0x10 } }, (by decide +kernel)⟩,
   ⟨{ up with mgmt := { up.mgmt with busy := true, lastCmd := 0x11, permitRestart := false } }, (by decide +kernel)⟩,
   ⟨{ up with power := { up.power with state := .keep }, mgmt := { up.mgmt with busy := true, lastCmd := 0x11 } }, (by decide +kernel)⟩,
   ⟨{ up with mgmt := { up.mgmt with busy := true, lastCmd := 0x11 } }, (by decide +kernel)⟩,
   ⟨{ up with mgmt := { up.mgmt with dynAddr := some 127, enint := true, ibiFault := some { injected := false, escalated := false, scope := .loc, cls := 2, cause := 0x12, source := 122, detail := 0, time := 5 } } }, { injected := false, escalated := false, scope := .loc, cls := 2, cause := 0x12, source := 122, detail := 0, time := 5 }, (by decide +kernel), (by decide +kernel), (by decide +kernel), quiet_of (by decide +kernel), (by decide +kernel)⟩,
   ⟨{ up with mgmt := { up.mgmt with dynAddr := some 127, enint := true, ibiSafe := true } }, (by decide +kernel), (by decide +kernel), (by decide +kernel), quiet_of (by decide +kernel), (by decide +kernel)⟩,
   ⟨{ up with mgmt := { up.mgmt with dynAddr := some 127, enint := true, ibiCmd := some (1, 0) } }, 1, 0, (by decide +kernel), (by decide +kernel), (by decide +kernel), quiet_of (by decide +kernel), (by decide +kernel)⟩,
   ⟨{ up with mgmt := { up.mgmt with dynAddr := some 127, enint := true } }, (by decide +kernel), (by decide +kernel), (by decide +kernel), quiet_of (by decide +kernel)⟩⟩

theorem test_witness_ManagementIsLocked :
    (∃ (dt : Nat) (c : Instr) (s : State), Safety.quiet s ∧ i3cUp s = true ∧ s.mgmt.busy = true ∧ s.mgmt.ibiOnCmd = false ∧ s.keep.waiting = [] ∧ ((c = .kwrite dt .ok ∧ s.mgmt.lastCmd = 0x02 ∧ s.mgmt.permitKwrite = false) ∨ (c = .wake dt ∧ s.mgmt.lastCmd = 0x10 ∧ s.mgmt.permitWake = false) ∨ (c = .restart dt ∧ s.mgmt.lastCmd = 0x11 ∧ s.mgmt.permitRestart = false))) ∧
    (∃ (v : Nat) (s : State), v < 2 ^ 32 ∧ s.keeperUp = true ∧ s.mgmt.lock = true) ∧
    (∃ (v : Nat) (s : State), v < 2 ^ 32 ∧ s.keeperUp = true ∧ s.mgmt.lock = false) ∧
    (∃ (s : State), s.keeperUp = true) :=
  ⟨⟨0, .restart 0, { up with mgmt := { up.mgmt with busy := true, lastCmd := 0x11, permitRestart := false } }, quiet_of (by decide +kernel), (by decide +kernel)⟩,
   ⟨2 ^ 32 - 1, { up with mgmt := { up.mgmt with lock := true } }, (by decide +kernel)⟩,
   ⟨2 ^ 32 - 1, up, (by decide +kernel)⟩,
   ⟨up, (by decide +kernel)⟩⟩

theorem test_witness_AccessesAreDecoded :
    (∃ (dt : Nat) (a : Nat) (v : Nat) (be : Nat) (priv : Bool) (m : ExtMem) (s : State), (Instr.registerWrite dt .host a v be priv m).wf = true ∧ (be ≠ 15 ∨ mapped a = false ∨ regUp s a = false)) ∧
    (∃ (dt : Nat) (a : Nat) (v : Nat) (be : Nat) (priv : Bool) (m : ExtMem) (s : State), (Instr.registerWrite dt .host a v be priv m).wf = true ∧ be = 15 ∧ mapped a = true ∧ regUp s a = true ∧ needsPriv a = true ∧ priv = false) ∧
    (∃ (dt : Nat) (a : Nat) (v : Nat) (be : Nat) (priv : Bool) (m : ExtMem) (s : State), (Instr.registerWrite dt .host a v be priv m).wf = true ∧ be = 15 ∧ mapped a = true ∧ regUp s a = true ∧ (needsPriv a = false ∨ priv = true)) ∧
    (∃ (dt : Nat) (a : Nat) (be : Nat) (priv : Bool) (debug : Bool) (s : State), (Instr.rcRegisterRead dt .host a ⟨priv, be⟩ debug).wf = true ∧ (be ≠ 15 ∨ mapped a = false ∨ regUp s a = false)) ∧
    (∃ (dt : Nat) (a : Nat) (be : Nat) (priv : Bool) (debug : Bool) (s : State), (Instr.rcRegisterRead dt .host a ⟨priv, be⟩ debug).wf = true ∧ be = 15 ∧ mapped a = true ∧ regUp s a = true ∧ needsPriv a = true ∧ priv = false) ∧
    (∃ (dt : Nat) (a : Nat) (be : Nat) (priv : Bool) (debug : Bool) (s : State), (Instr.rcRegisterRead dt .host a ⟨priv, be⟩ debug).wf = true ∧ be = 15 ∧ mapped a = true ∧ regUp s a = true ∧ (needsPriv a = false ∨ priv = true) ∧ debug = true) ∧
    (∃ (dt : Nat) (a : Nat) (be : Nat) (priv : Bool) (debug : Bool) (s : State), (Instr.rcRegisterRead dt .host a ⟨priv, be⟩ debug).wf = true ∧ be = 15 ∧ mapped a = true ∧ regUp s a = true ∧ (needsPriv a = false ∨ priv = true) ∧ debug = false) :=
  ⟨⟨0, 0x8600, 2 ^ 32 - 1, 15, true, {}, { up with chip := { up.chip with porstN := false } }, (by decide +kernel)⟩,
   ⟨0, 0x8600, 0, 15, false, {}, up, (by decide +kernel)⟩,
   ⟨0, 0x8600, 0, 15, true, {}, up, (by decide +kernel)⟩,
   ⟨0, 0x8600, 14, true, false, up, (by decide +kernel)⟩,
   ⟨0, 0x8600, 15, false, false, up, (by decide +kernel)⟩,
   ⟨0, 0x8600, 15, true, true, up, (by decide +kernel)⟩,
   ⟨0, 0x8600, 15, true, false, up, (by decide +kernel)⟩⟩

theorem test_witness_RegistersHoldTheirFields :
    (∃ (s : State), s.keeperUp = true) ∧
    (∃ (s : State), s.mainUp = true ∧ Safety.quiet s) ∧
    (∃ (s : State), s.mainUp = true) ∧
    (∃ (p : Nat) (s : State), p < 16 ∧ s.mainUp = true ∧ Safety.quiet s) ∧
    (∃ (v : Nat) (s : State), v < 2 ^ 32 ∧ s.mainUp = true) ∧
    (∃ (v : Nat) (s : State), v < 2 ^ 32 ∧ s.mainUp = true ∧ Safety.quiet s) ∧
    (∃ (v : Nat) (k : Nat) (s : State), v < 2 ^ 32 ∧ k < 4 ∧ s.mainUp = true ∧ Safety.quiet s ∧ (s.chan k).stream = none ∧ (s.chan k).stopped = false ∧ k < s.codec.channels.length) ∧
    (∃ (lane : Nat) (s : State), lane < 4 ∧ s.mainUp = true) ∧
    (∃ (dt : Nat) (a : Nat) (v : Nat) (priv : Bool) (m : ExtMem) (s : State), (Instr.registerWrite dt .host a v 15 priv m).wf = true ∧ s.chip.rstN = false) ∧
    (∃ (dt : Nat) (c : Nat) (t0 : Nat) (s : State), c < 256 ∧ (s.ctx c).closeHold = some t0 ∧ t0 ≤ (advance dt s).now) :=
  ⟨⟨up, (by decide +kernel)⟩,
   ⟨up, (by decide +kernel), quiet_of (by decide +kernel)⟩,
   ⟨up, (by decide +kernel)⟩,
   ⟨15, up, (by decide +kernel), (by decide +kernel), quiet_of (by decide +kernel)⟩,
   ⟨2 ^ 32 - 1, up, (by decide +kernel)⟩,
   ⟨2 ^ 32 - 1, up, (by decide +kernel), (by decide +kernel), quiet_of (by decide +kernel)⟩,
   ⟨2 ^ 32 - 1, 3, up, (by decide +kernel), (by decide +kernel), (by decide +kernel), quiet_of (by decide +kernel), (by decide +kernel)⟩,
   ⟨3, up, (by decide +kernel)⟩,
   ⟨0, 0x8600, 2 ^ 32 - 1, true, {}, { up with chip := { up.chip with rstN := false } }, (by decide +kernel)⟩,
   ⟨0, 255, 0, { up with ctxs := [(255, { closeHold := some 0 })] }, (by decide +kernel)⟩⟩

theorem test_witness_TargetsFollowTheirSources :
    (∃ (c : Instr) (s : State) (t : State), exec c s = .next t) ∧
    (∃ (s : State) (t : State), Safety.targetsFollow s ∧ step s = .next t) :=
  ⟨⟨.gxRstNAssert 0, State.reset, _, rfl⟩,
   ⟨{ State.reset with pending := [.gxRstNAssert 0] }, _, (by unfold Safety.targetsFollow; decide +kernel), rfl⟩⟩

theorem test_witness_CommandsKeepTheRest :
    (∃ (dt : Nat) (k : Nat) (src : Nat) (p : Bool) (d : Bool) (c : Instr) (s : State) (t : State), Safety.quiet s ∧ (c = .tgtClaim dt k p d ∨ c = .tgtComplete dt k src p ∨ c = .evtSignal dt k ∨ c = .moderationExpiry dt k ∨ c = .hostIdleEdge dt k p) ∧ exec c s = .next t) ∧
    (∃ (dt : Nat) (l : List Byte) (e : Bool) (s : State) (t : State), Safety.quiet s ∧ exec (.i3cPrivateWrite dt l e false) s = .next t) ∧
    (∃ (dt : Nat) (a : Nat) (v : Nat) (be : Nat) (p : Bool) (m : ExtMem) (s : State) (t : State), Safety.quiet s ∧ 0x3000 ≤ a ∧ a < 0x5000 ∧ exec (.registerWrite dt .host a v be p m) s = .next t) :=
  ⟨⟨0, 63, 1023, true, true, .tgtComplete 0 63 1023 true, up, _, quiet_of (by decide +kernel), (by decide +kernel), rfl⟩,
   ⟨0, [1], false, up, _, quiet_of (by decide +kernel), rfl⟩,
   ⟨0, 0x3000, 0, 15, true, {}, up, _, quiet_of (by decide +kernel), (by decide +kernel), (by decide +kernel), rfl⟩⟩

end Sys2Proof.Tests
end

section
/-! SUPPORT. The decode of control-port requests (02 R41, R44, R45): one refusal code per request, that writes and reads share,
and the statement that it settles. -/

namespace Sys2Proof.Machine

section
variable {s : State} {a be : Nat} {priv : Bool}

/-! ### The decode -/

/-- The code with which the control port refuses a request: 2 UNMAPPED, 1 PERMISSION, none where it answers OK (02 R41). -/
def portRefusal (s : State) (a be : Nat) (priv : Bool) : Option Nat :=
  if be ≠ 15 ∨ mapped a = false ∨ regUp s a = false then some 2
  else if needsPriv a = true ∧ priv = false then some 1
  else none

theorem portRefusal_unmapped (h : be ≠ 15 ∨ mapped a = false ∨ regUp s a = false) : portRefusal s a be priv = some 2 := if_pos h

theorem portRefusal_permission (hbe : be = 15) (hm : mapped a = true) (hu : regUp s a = true) (hn : needsPriv a = true) (hp : priv = false) :
    portRefusal s a be priv = some 1 := by simp [portRefusal, hbe, hm, hu, hn, hp]

theorem portRefusal_none (hbe : be = 15) (hm : mapped a = true) (hu : regUp s a = true) (h : needsPriv a = false ∨ priv = true) :
    portRefusal s a be priv = none := by
  have hp : ¬ (needsPriv a = true ∧ priv = false) := by rcases h with h | h <;> simp [h]
  simp [portRefusal, hbe, hm, hu, hp]

/-- Every keeper-domain register lies in a range that needs PRIV (02 R45, R46). -/
theorem needsPriv_of_keeperReg (h : keeperReg a = true) : needsPriv a = true := by
  have hlo : 0x100 ≤ a := by
    by_contra hlt
    have hw : a < 0x400 := by omega
    simp only [keeperReg, hw, if_true, powerKeeper, Bool.or_eq_true, decide_eq_true_eq] at h
    omega
  have hhi : a < 0x100000 := by
    by_contra hge
    have hw : ¬ a < 0x400 ∧ ¬ a < 0x800 ∧ ¬ a < 0x7000 ∧ ¬ a < 0x7018 ∧ ¬ a < 0x9000 ∧ ¬ a < 0x9100 := by omega
    simp [keeperReg, hw] at h
  simp [needsPriv, hlo, hhi]

@[simp] theorem advance_regUp (dt : Nat) : regUp (advance dt s) a = regUp s a := by simp [regUp]

@[simp] theorem advance_portRefusal (dt : Nat) : portRefusal (advance dt s) a be priv = portRefusal s a be priv := by
  simp [portRefusal]

/-- The decode as the model writes it, by the domain of the register, answers as `portRefusal` says: `ok` where nothing refuses. -/
theorem decode_eq_portRefusal_elim (ok : State) :
    (if be ≠ 15 || !mapped a then respond 2 0 s
      else if keeperReg a then (if !s.keeperUp then respond 2 0 s else if !priv then respond 1 0 s else ok)
      else (if !s.mainUp then respond 2 0 s else if needsPriv a && !priv then respond 1 0 s else ok)) =
    (portRefusal s a be priv).elim ok (respond · 0 s) := by
  by_cases hreq : be ≠ 15 ∨ mapped a = false
  · simp [portRefusal_unmapped (hreq.imp_right .inl), hreq]
  obtain ⟨hbe, hm⟩ : be = 15 ∧ mapped a = true := by simpa using hreq
  have hdomain : (if keeperReg a then (if !s.keeperUp then respond 2 0 s else if !priv then respond 1 0 s else ok)
      else (if !s.mainUp then respond 2 0 s else if needsPriv a && !priv then respond 1 0 s else ok)) =
      if !regUp s a then respond 2 0 s else if needsPriv a && !priv then respond 1 0 s else ok := by
    cases hk : keeperReg a
    case false => simp [regUp, hk]
    case true => simp [regUp, hk, needsPriv_of_keeperReg hk]
  rw [hdomain]
  cases hu : regUp s a
  case false => simp [portRefusal_unmapped (.inr (.inr hu)), hbe, hm]
  by_cases hp : needsPriv a = true ∧ priv = false
  · obtain ⟨hn, hf⟩ := hp
    rw [portRefusal_permission hbe hm hu hn hf]
    simp [hbe, hm, hn, hf]
  · have h : needsPriv a = false ∨ priv = true := by simpa [imp_iff_not_or] using hp
    rw [portRefusal_none hbe hm hu h]
    rcases h with h | h <;> simp [hbe, hm, h]

/-! ### Accesses by the host -/

/-- A write by the host has its effect where the decode does not refuse it, and nothing but its response otherwise. -/
theorem registerWrite_host (v : Nat) (ext : ExtMem) : registerWrite .host a v be priv ext s =
    (portRefusal s a be priv).elim (respond 0 0 (regWrite false ext a v s)) (respond · 0 s) :=
  decode_eq_portRefusal_elim _

/-- A read by the host returns the word, with its side effect unless it is a debug read, where the decode does not refuse it. -/
theorem registerRead_host (debug : Bool) : registerRead .host a be priv debug s =
    (portRefusal s a be priv).elim
      (if debug then respond 0 (regRead s a) s else regClear a (respond 0 (regRead s a) s)) (respond · 0 s) :=
  decode_eq_portRefusal_elim _

/-! ### The commands -/

theorem exec_registerWrite_host (dt v : Nat) (ext : ExtMem) (hwf : (Instr.registerWrite dt .host a v be priv ext).wf = true) :
    exec (.registerWrite dt .host a v be priv ext) s = .next (settle s
      ((portRefusal s a be priv).elim (respond 0 0 (regWrite false ext a v (advance dt s))) (respond · 0 (advance dt s)))) := by
  rw [exec_registerWrite _ _ _ _ _ _ _ _ hwf, registerWrite_host, advance_portRefusal]

theorem exec_rcRegisterRead_host (dt : Nat) (debug : Bool) (hwf : (Instr.rcRegisterRead dt .host a ⟨priv, be⟩ debug).wf = true) :
    exec (.rcRegisterRead dt .host a ⟨priv, be⟩ debug) s = .next (settle s
      ((portRefusal s a be priv).elim
        (if debug then respond 0 (regRead (advance dt s) a) (advance dt s)
          else regClear a (respond 0 (regRead (advance dt s) a) (advance dt s)))
        (respond · 0 (advance dt s)))) := by
  rw [exec_rcRegisterRead _ _ _ _ _ _ hwf, registerRead_host, advance_portRefusal]

end

/-- Settles O57: the decode refuses a request before its effect or answers OK with it, for writes and for reads alike. -/
theorem accessesAreDecoded : Obligations.AccessesAreDecoded := by
  unfold Obligations.AccessesAreDecoded
  constructor
  · intro dt a v be priv m s hwf
    rw [exec_registerWrite_host dt v m hwf]
    refine ⟨fun h => ?unmapped, fun hbe hm hu hn hp => ?permission, fun hbe hm hu h => ?ok⟩
    case unmapped => rw [portRefusal_unmapped h, Option.elim_some]
    case permission => rw [portRefusal_permission hbe hm hu hn hp, Option.elim_some]
    case ok => rw [portRefusal_none hbe hm hu h, Option.elim_none]
  · intro dt a be priv debug s hwf
    rw [exec_rcRegisterRead_host dt debug hwf]
    refine ⟨fun h => ?unmapped, fun hbe hm hu hn hp => ?permission, fun hbe hm hu h hd => ?debugRead, fun hbe hm hu h hd => ?read⟩
    case unmapped => rw [portRefusal_unmapped h, Option.elim_some]
    case permission => rw [portRefusal_permission hbe hm hu hn hp, Option.elim_some]
    case debugRead => rw [portRefusal_none hbe hm hu h, Option.elim_none, if_pos hd]
    case read => rw [portRefusal_none hbe hm hu h, Option.elim_none, if_neg (by simp [hd])]

end Sys2Proof.Machine
end

section
/-! SUPPORT. The rules of the semaphores (04 R119-R122): what each access reads, takes, renews, releases or refuses, what the end of a
lease writes, and the statement that they settle. -/

namespace Sys2Proof.Machine

section
variable {s : State} {g : SemAgent} {n k : Nat}

/-! ### The table of semaphores -/

@[simp] theorem modSem_sem_self (f : Sem → Sem) : (modSem n f s).sem n = f (s.sem n) := Tbl.getD_set_self ..
@[simp] theorem modSem_sem_ne (f : Sem → Sem) (h : k ≠ n) : (modSem n f s).sem k = s.sem k := Tbl.getD_set_ne _ _ _ _ _ h
@[simp] theorem modSem_semErr (f : Sem → Sem) : (modSem n f s).control.semErr = s.control.semErr := rfl
@[simp] theorem settle_sem (old : State) : (settle old s).sem n = s.sem n := by simp [State.sem]
@[simp] theorem collect_sem (fs : List FaultIn) : (collect fs s).sem n = s.sem n := by simp [State.sem]
@[simp] theorem putRead_sems (v : Nat) : (putRead g v s).control.sems = s.control.sems := by cases g <;> rfl
@[simp] theorem putRead_sem (v : Nat) : (putRead g v s).sem n = s.sem n := by simp [State.sem]

@[simp] theorem putRead_pair0_rdata0 (v : Nat) : (putRead .pair0 v s).control.rdata0 = v := rfl
@[simp] theorem putRead_pair1_rdata1 (v : Nat) : (putRead .pair1 v s).control.rdata1 = v := rfl
@[simp] theorem putRead_tap_tapOut (v : Nat) : (putRead .tap v s).mgmt.tapOut = leBytes v 4 := rfl

@[simp] theorem advance_agentLive (dt : Nat) : agentLive (advance dt s) g = agentLive s g := by
  cases g <;> simp [agentLive, pairRuns]

/-! ### What an access does -/

/-- An access by a live agent with no loss recorded runs its operation (R121). -/
theorem semAccess_of_live (f : State → State) (h : agentLive s g = true) (hl : g ∉ (s.sem n).lost) : semAccess g n f s = f s := by
  simp [semAccess, h, hl]

theorem semTake_sem_free (h : (s.sem n).owner = none) :
    (semTake g n s).sem n = startLease s.now { s.sem n with owner := some g, frozen := none } := by
  simp [semTake, h]

theorem semTake_sem_ne (h : k ≠ n) : (semTake g n s).sem k = s.sem k := by
  unfold semTake; split
  · exact modSem_sem_ne _ h
  · rfl

/-- A core's own read of a semaphore with no loss recorded takes it where it is free, and returns it as it then stands (R119). -/
theorem semRead_of_live (h : agentLive s g = true) (hl : g ∉ (s.sem n).lost) :
    semRead g n false s = putRead g (semWord ((semTake g n s).sem n) g false) (semTake g n s) := by
  simp [semRead, h, semAccess_of_live _ h hl, hl]

/-- A debug read returns the semaphore and has no effect (R6, R121). -/
theorem semRead_debug (h : agentLive s g = true) :
    semRead g n true s = putRead g (semWord (s.sem n) g ((s.sem n).lost.contains g)) s := by
  simp [semRead, h]

/-! ### Writes by the owner and by others -/

@[simp] theorem semError_sem : (semError g s).sem n = s.sem n := rfl

theorem mem_semError_semErr : g ∈ (semError g s).control.semErr := by
  by_cases h : g ∈ s.control.semErr <;> simp [semError, h]

theorem semRenew_owner {lease : Nat} (h : (s.sem n).owner = some g) :
    semRenew g n lease s = modSem n (fun x => startLease s.now { x with leaseUs := if lease = 0 then x.leaseUs else lease }) s := if_pos h

theorem semRenew_refused {lease : Nat} (h : (s.sem n).owner ≠ some g) : semRenew g n lease s = semError g s := if_neg h

theorem semRelease_owner (h : (s.sem n).owner = some g) :
    semRelease g n s = modSem n (fun x => { x with owner := none, frozen := none }) s := if_pos h

theorem semRelease_refused (h : (s.sem n).owner ≠ some g) : semRelease g n s = semError g s := if_neg h

/-! ### The end of a lease -/

/-- The semaphore after the lease of `g` has run out: free, with the loss recorded for `g` (R121). -/
def loseLease (g : SemAgent) (x : Sem) : Sem :=
  { x with owner := none, lost := if x.lost.contains g then x.lost else x.lost ++ [g] }

theorem mem_loseLease_lost (x : Sem) : g ∈ (loseLease g x).lost := by
  by_cases h : g ∈ x.lost <;> simp [loseLease, h]

/-- A lease that has run out frees its semaphore and raises source 11, whose first record is all that the fault does (R121). -/
theorem leaseExpiry_due (ho : (s.sem n).owner = some g) (hf : (s.sem n).frozen = none) (ht : (s.sem n).leaseEnd ≤ s.now)
    (hr : Tbl.get? s.faults.records 11 = none) :
    leaseExpiry n s = collect [{ src := 11, cls := 1, cause := 0x0E, detail := 0 }] (modSem n (loseLease g) s) := by
  have hrun : leaseExpiry n s = report1 11 1 0x0E 0 false (modSem n (loseLease g) s) := by
    have hran : ¬ ((none : Option Nat).isSome || decide (s.now < (s.sem n).leaseEnd)) = true := by simpa using ht
    simp only [leaseExpiry, ho, hf, if_neg hran]
    rfl
  rw [hrun]
  exact report_corrected _ _ (by simpa using hr) rfl (by decide) rfl

/-! ### The commands -/

variable {dt lease : Nat}

theorem exec_semReadAcquire_core (hn : n < 64) (hg : g ≠ .tap) (h : agentLive s g = true) (hl : g ∉ (s.sem n).lost) :
    exec (.semReadAcquire dt g n false) s = .next (settle s
      (putRead g (semWord ((semTake g n (advance dt s)).sem n) g false) (semTake g n (advance dt s)))) := by
  rw [exec_semReadAcquire _ _ _ _ _ (by simpa [Instr.wf] using hn), onSemReadAcquire, beq_eq_false_iff_ne.mpr hg,
    Bool.or_false, semRead_of_live (by simpa using h) (by simpa using hl)]

theorem exec_semReadAcquire_debug {debug : Bool} (hn : n < 64) (h : agentLive s g = true) (hd : g = .tap ∨ debug = true) :
    exec (.semReadAcquire dt g n debug) s =
      .next (settle s (putRead g (semWord (s.sem n) g ((s.sem n).lost.contains g)) (advance dt s))) := by
  have hdebug : (debug || g == .tap) = true := by simpa [or_comm] using hd
  rw [exec_semReadAcquire _ _ _ _ _ (by simpa [Instr.wf] using hn), onSemReadAcquire, hdebug, semRead_debug (by simpa using h), advance_sem]

theorem exec_semAcquire_live (hn : n < 64) (h : agentLive s g = true) (hl : g ∉ (s.sem n).lost) :
    exec (.semAcquire dt g n) s = .next (settle s (semTake g n (advance dt s))) := by
  rw [exec_semAcquire _ _ _ _ (by simpa [Instr.wf] using hn), semAccess_of_live _ (by simpa using h) (by simpa using hl)]

theorem exec_semRenew_live (hwf : (Instr.semRenew dt g n lease).wf = true) (h : agentLive s g = true) (hl : g ∉ (s.sem n).lost) :
    exec (.semRenew dt g n lease) s = .next (settle s (semRenew g n lease (advance dt s))) := by
  rw [exec_semRenew _ _ _ _ _ hwf, semAccess_of_live _ (by simpa using h) (by simpa using hl)]

theorem exec_semRelease_live (hn : n < 64) (h : agentLive s g = true) (hl : g ∉ (s.sem n).lost) :
    exec (.semRelease dt g n) s = .next (settle s (semRelease g n (advance dt s))) := by
  rw [exec_semRelease _ _ _ _ (by simpa [Instr.wf] using hn), semAccess_of_live _ (by simpa using h) (by simpa using hl)]

end

/-- Settles O23: an access by a live agent runs its operation, which the owner of the semaphore and the state of its lease decide. -/
theorem semaphoresAreLeased : Obligations.SemaphoresAreLeased := by
  unfold Obligations.SemaphoresAreLeased
  refine ⟨?read, ?debugRead, ?acquire, ?renew, ?release, ?releaseRefused, ?renewRefused, ?expiry⟩
  case read =>
    intro dt n g s hn hg h hl ho
    refine ⟨_, exec_semReadAcquire_core hn hg h hl, ?_, ?_, fun k hk => ?_, ?_, ?_⟩
    · simp [semTake_sem_free, ho, startLease]
    · simp [semTake_sem_free, ho, startLease]
    · simp [semTake_sem_ne hk]
    · rintro rfl; simp
    · rintro rfl; simp
  case debugRead =>
    intro dt n g debug s hn h hd
    refine ⟨_, exec_semReadAcquire_debug hn h hd, by simp, ?_⟩
    rintro rfl; simp
  case acquire =>
    intro dt n g s hn h hl ho
    refine ⟨_, exec_semAcquire_live hn h hl, ?_, ?_, fun k hk => ?_⟩
    · simp [semTake_sem_free, ho, startLease]
    · simp [semTake_sem_free, ho, startLease]
    · simp [semTake_sem_ne hk]
  case renew =>
    intro dt n lease g s _ _ hwf h hl ho hlease
    refine ⟨_, exec_semRenew_live hwf h hl, ?_⟩
    rw [semRenew_owner (by simpa using ho)]
    simp [startLease, ho, hlease]
  case release =>
    intro dt n g s hn h hl ho
    refine ⟨_, exec_semRelease_live hn h hl, ?_⟩
    rw [semRelease_owner (by simpa using ho)]
    simp
  case releaseRefused =>
    intro dt n g s hn h hl ho
    refine ⟨_, exec_semRelease_live hn h hl, ?_⟩
    rw [semRelease_refused (by simpa using ho)]
    simp [mem_semError_semErr]
  case renewRefused =>
    intro dt n lease g s _ hwf h hl ho
    refine ⟨_, exec_semRenew_live hwf h hl, ?_⟩
    rw [semRenew_refused (by simpa using ho)]
    simp [mem_semError_semErr]
  case expiry =>
    intro dt n g s hn ho hf ht hr
    refine ⟨_, exec_leaseExpiry _ _ _ (by simpa [Instr.wf] using hn), ?_⟩
    rw [leaseExpiry_due (by simpa using ho) (by simpa using hf) (by simpa using ht) (by simpa using hr)]
    refine ⟨?_, ?_, ?_⟩
    · simp [loseLease]
    · simp [mem_loseLease_lost]
    · rw [Safety.recorded, settle_faults_records, collect_one_first _ _ (by simpa using hr)]
      rfl

end Sys2Proof.Machine
end

section
/-! SUPPORT. Claims of event targets (16 R514): what a claim reads, in the state in which it takes effect, and the statement that they refute. -/

namespace Sys2Proof.Machine

section
variable {s : State} {k n : Nat}

@[simp] theorem claim_chip : (claim k s).chip = s.chip := by
  unfold claim; split
  · rfl
  · split <;> rfl

@[simp] theorem respond_claimValue (code data : Nat) : claimValue (respond code data s) k = claimValue s k := rfl

theorem claimValue_of_pending (hv : (s.target k).service = none) (hp : pendingAt s k = some n) : claimValue s k = n := by
  simp [claimValue, hv, hp]

/-- A claim answers with the claim value of the state in which it takes effect, the one that the time before it has led to (R514). -/
theorem exec_tgtClaim_rspData {t : State} {dt : Nat} (hk : k < 64) (hup : s.mainUp = true)
    (ht : exec (.tgtClaim dt k true false) s = .next t) : t.chip.rspData = claimValue (advance dt s) k := by
  rw [exec_tgtClaim _ _ _ _ _ (by simpa [Instr.wf] using hk)] at ht
  cases ht
  simp [mainRead, hup]

end

/-- The event controller between two sources: EVT_SW stands at 1 (source 14), and in 1 ns a written REF_SEL takes effect that selects the lost
TIME_IN, which sets TB_EVT (source 5; 03 R92). -/
def timeBaseEventDue : State := { State.reset with
  chip := { State.reset.chip with keeperInit := true }
  power := { State.reset.power with wake := .idle }
  tb := { State.reset.tb with selKclk := true, timeLost := true, selNext := some (false, 1, 0) }
  events := { State.reset.events with enabled := [5, 14], sw := true } }

theorem timeBaseEventDue_pendingAt : pendingAt timeBaseEventDue 0 = some 14 := by decide

theorem timeBaseEventDue_pendingAt_advance : pendingAt (advance 1 timeBaseEventDue) 0 = some 5 := by decide

/-- Refutes O12: its first clause names the source pending before time passes, and a source of higher priority that becomes pending in that time
is the one claimed. -/
theorem not_claimAndComplete : ¬ Obligations.ClaimAndComplete := by
  unfold Obligations.ClaimAndComplete
  rintro ⟨hclaim, -⟩
  obtain ⟨t, ht, h14, -⟩ := hclaim 1 0 14 timeBaseEventDue (by decide) (by decide) (by decide) timeBaseEventDue_pendingAt
  have h5 : t.chip.rspData = 5 := (exec_tgtClaim_rspData (by decide) (by decide) ht).trans
    (claimValue_of_pending (by decide) timeBaseEventDue_pendingAt_advance)
  exact absurd (h14.symm.trans h5) (by decide)

end Sys2Proof.Machine
end

section
/-! SUPPORT. The commands of the management port and MGMT_CTL (16 R530, R531, R536): how a command ends, what a write of MGMT_CTL changes,
and the statement that they settle. -/

namespace Sys2Proof.Machine

section
variable {s : State}

/-! ### Commands of the management port -/

/-- A command that asks for no IBI at its end changes its status and BUSY alone. -/
theorem endMgCmd_of_no_ibi (status : Nat) (h : s.mgmt.ibiOnCmd = false) :
    endMgCmd status s = { s with mgmt := { s.mgmt with status, busy := false } } := by simp [endMgCmd, h]

/-- The command that the port has accepted last runs, however much time has passed. -/
theorem mgCommand_accepted {c dt : Nat} (f : State → State) (hup : i3cUp s = true) (hb : s.mgmt.busy = true) (hc : s.mgmt.lastCmd = c) :
    mgCommand c f (advance dt s) = f (advance dt s) := by simp [mgCommand, hup, hb, hc]

theorem mgWrite_refused (out : KOut) (hw : s.keep.waiting = []) (h : s.mgmt.permitKwrite = false) :
    mgWrite out s = endMgCmd 0x10 s := by simp [mgWrite, hw, h]

theorem mgWake_refused (h : s.mgmt.permitWake = false) : mgWake s = endMgCmd 0x10 s := by simp [mgWake, h]

theorem mgRestart_refused (h : s.mgmt.permitRestart = false) : mgRestart s = endMgCmd 0x10 s := by simp [mgRestart, h]

/-- After the end of a command without an IBI, only the targets follow. -/
theorem settle_endMgCmd (dt status : Nat) (hq : Safety.quiet s) (h : s.mgmt.ibiOnCmd = false) :
    settle s (endMgCmd status (advance dt s)) =
      settleTargets { advance dt s with mgmt := { s.mgmt with status, busy := false } } := by
  rw [endMgCmd_of_no_ibi _ (by simpa using h), advance_mgmt]
  exact settle_unmoved hq (by simp) (by simp) (by simp) (by simp)

/-! ### MGMT_CTL -/

/-- MGMT_CTL stands at offset 0x8600 of the control window. -/
theorem regWrite_mgmtCtl (v : Nat) (m : ExtMem) : regWrite false m 0x8600 v s = mgmtCtlWrite v s := rfl

theorem mgmtCtlWrite_locked (v : Nat) (h : s.mgmt.lock = true) : mgmtCtlWrite v s = s := by
  simp only [mgmtCtlWrite, h, if_true, Bool.true_or]
  rw [← h]

theorem mgmtCtlWrite_unlocked (v : Nat) (h : s.mgmt.lock = false) :
    mgmtCtlWrite v s = { s with mgmt := { s.mgmt with
      ibiClass := if bits v 4 2 = 0 then s.mgmt.ibiClass else bits v 4 2, ibiOnCmd := bit v 3, permitKwrite := bit v 2,
      permitRestart := bit v 1, permitWake := bit v 0, lock := bit v 31 } } := by
  simp [mgmtCtlWrite, h]

/-- The host's whole write of MGMT_CTL with PRIV answers OK with its effect, while the keeper domain answers. -/
theorem exec_registerWrite_mgmtCtl (dt v : Nat) (m : ExtMem) (hv : v < 2 ^ 32) (hup : s.keeperUp = true) :
    exec (.registerWrite dt .host 0x8600 v 15 true m) s = .next (settle s (respond 0 0 (mgmtCtlWrite v (advance dt s)))) := by
  rw [exec_registerWrite_host dt v m (by simpa [Instr.wf] using hv),
    portRefusal_none rfl (by decide) (by simpa [regUp, keeperReg, eventKeeper] using hup) (.inr rfl), Option.elim_none, regWrite_mgmtCtl]

theorem exec_mgmtLock_keeperUp (dt : Nat) (hup : s.keeperUp = true) :
    exec (.mgmtLock dt true) s = .next (settle s (respond 0 0 { advance dt s with mgmt := { s.mgmt with lock := true } })) := by
  rw [exec_mgmtLock _ _ _ rfl]
  simp [keeperWrite, hup]

end

/-- Settles O56: a command refused by its PERMIT bit only ends, and LOCK decides what a write of MGMT_CTL changes. -/
theorem managementIsLocked : Obligations.ManagementIsLocked := by
  unfold Obligations.ManagementIsLocked
  refine ⟨?refused, ?locked, ?unlocked, ?lock, ?reset⟩
  case refused =>
    intro dt c s hq hup hb hi hw hc
    rw [← settle_endMgCmd dt 0x10 hq hi]
    rcases hc with ⟨rfl, hlast, hp⟩ | ⟨rfl, hlast, hp⟩ | ⟨rfl, hlast, hp⟩
    · rw [exec_kwrite _ _ _ rfl, mgCommand_accepted _ hup hb hlast, mgWrite_refused _ (by simpa using hw) (by simpa using hp)]
    · rw [exec_wake _ _ rfl, mgCommand_accepted _ hup hb hlast, mgWake_refused (by simpa using hp)]
    · rw [exec_restart _ _ rfl, mgCommand_accepted _ hup hb hlast, mgRestart_refused (by simpa using hp)]
  case locked =>
    intro dt v m s hv hup hl
    refine ⟨_, exec_registerWrite_mgmtCtl dt v m hv hup, ?_⟩
    rw [mgmtCtlWrite_locked _ (by simpa using hl)]
    simp [hl]
  case unlocked =>
    intro dt v m s hv hup hl
    refine ⟨_, exec_registerWrite_mgmtCtl dt v m hv hup, ?_⟩
    rw [mgmtCtlWrite_unlocked _ (by simpa using hl)]
    simp
  case lock =>
    intro dt s hup
    exact ⟨_, exec_mgmtLock_keeperUp dt hup, by simp⟩
  case reset =>
    intro dt s
    refine ⟨_, exec_gxPorstNAssert _ _ rfl, ?_⟩
    rw [settle_mgmt_lock]
    rfl

end Sys2Proof.Machine
end

section
/-! SUPPORT. What every command keeps: the queue, its completion and the event targets; what the reset state reads; and the statements
that these settle. -/

namespace Sys2Proof.Machine

section
variable {s t : State} {c : Instr}

/-! ### The step and the queue -/

/-- A step of a waiting command carries it out with the queue's rest. -/
theorem step_cons {rest : List Instr} (h : s.pending = c :: rest) : step s = exec c { s with pending := rest } := by
  unfold step; rw [h]

/-- A step of an empty queue idles. -/
theorem step_nil (h : s.pending = []) : step s = .next s := by unfold step; rw [h]

/-- A command that can be given is followed by `settle` and by nothing else. -/
theorem exec_given (h : c.wf = true) : ∃ u, exec c s = .next (settle s u) := by
  obtain ⟨dt, f, e⟩ := exec_form c s
  exact ⟨f (advance dt s), e.trans (event_given h)⟩

theorem exec_not_given (h : c.wf = false) : exec c s = .fault .badOperand := by
  obtain ⟨dt, f, e⟩ := exec_form c s
  exact e.trans (event_not_given h)

/-- The state that a command answers has been settled. -/
theorem exec_next (h : exec c s = .next t) : ∃ u, t = settle s u := by
  cases hc : c.wf
  case false => rw [exec_not_given hc] at h; cases h
  case true =>
    obtain ⟨u, e⟩ := exec_given (s := s) hc
    rw [e] at h
    cases h
    exact ⟨u, rfl⟩

/-- The queue that a command leaves is the queue that it found. -/
theorem exec_pending (h : exec c s = .next t) : t.pending = s.pending := by
  obtain ⟨u, rfl⟩ := exec_next h
  exact settle_pending u s

/-! ### The event targets follow -/

/-- A target that has followed its sources holds its output only while one is pending (16 R517). -/
theorem settleTarget_out {k : Nat} {x : Target} (h : (settleTarget s k x).out = true) : (pendingAt s k).isSome = true := by
  cases hp : pendingAt s k
  case some n => rfl
  case none =>
    have hlow : (settleTarget s k x).out = false := by cases ho : x.out <;> cases hm : x.msgPend <;> simp [settleTarget, hp, ho, hm]
    exact absurd (hlow.symm.trans h) (by decide)

/-- A target that has followed its sources works in its written mode while it is quiet (16 R521). -/
theorem settleTarget_modeNow {k : Nat} {x : Target} (ho : (settleTarget s k x).out = false) (hm : (settleTarget s k x).msgPend = false) :
    (settleTarget s k x).modeNow = (settleTarget s k x).message := by
  revert ho hm
  unfold settleTarget
  cases hlow : x.out && (pendingAt s k).isNone
  case true => cases x.msgPend <;> simp
  case false => cases hp : x.msgPend <;> cases hx : x.out <;> simp [hp, hx]

theorem targetsFollow_settleTargets : Safety.targetsFollow (settleTargets s) := by
  intro p hp
  obtain ⟨q, -, rfl⟩ := List.mem_map.mp hp
  exact ⟨fun h => by rw [pendingAt_settleTargets]; exact settleTarget_out h, settleTarget_modeNow⟩

/-- What waits does not concern the targets. -/
theorem targetsFollow_pending {l : List Instr} (h : Safety.targetsFollow s) : Safety.targetsFollow { s with pending := l } := h

theorem targetsFollow_settle : Safety.targetsFollow (settle s t) := targetsFollow_pending targetsFollow_settleTargets

theorem exec_targetsFollow (h : exec c s = .next t) : Safety.targetsFollow t := by
  obtain ⟨u, rfl⟩ := exec_next h
  exact targetsFollow_settle

/-! ### Reads of the reset state -/

/-- A page of a closed context reads 0, its mailbox included, unless the response to its close is held (05 R152, 06 R177). -/
theorem regRead_closed_page {a : Nat} (ha : 0x100000 ≤ a) (hst : (s.ctx (pageCtx a)).st = .closed)
    (hh : (s.ctx (pageCtx a)).closeHold = none) (hc : pageCtx a < 256) : regRead s a = 0 := by
  have hbox : boxOf a = none ∨ ∃ off, boxOf a = some (pageCtx a, off) := by
    have hmgmt : ¬ ((0x800 ≤ a && a < 0x900) = true) := by simp; omega
    by_cases hm : (0x100000 ≤ a && 0x100 ≤ pageOff a && pageOff a < 0x200) = true <;> simp [boxOf, hmgmt, hm]
  have hclosed : boxOpen s (pageCtx a) = false := by
    have : ¬ pageCtx a = 256 := by omega
    simp [boxOpen, hst, this]
  rcases hbox with hb | ⟨off, hb⟩
  · have hw : ¬ a < 0x100 ∧ ¬ a < 0x400 ∧ ¬ a < 0x800 ∧ ¬ a < 0x1000 ∧ ¬ a < 0x2000 ∧ ¬ a < 0x3000 ∧ ¬ a < 0x4000 ∧ ¬ a < 0x5000 ∧
        ¬ a < 0x6000 ∧ ¬ a < 0x7000 ∧ ¬ a < 0x8000 ∧ ¬ a < 0x9000 ∧ ¬ a < 0x100000 := by omega
    simp [regRead, hb, hw, hst]
  · simp [regRead, hb, boxRead, hclosed, hh]

end

/-- Settles O1: a step unfolds to the command at the front, or idles. -/
theorem stepRunsTheFrontCommand : Obligations.StepRunsTheFrontCommand := by
  unfold Obligations.StepRunsTheFrontCommand
  exact ⟨fun _ _ _ h => step_cons h, fun _ h => step_nil h⟩

/-- Settles O2: every command is an event of its own operation, which `settle` ends. -/
theorem commandsCompleteAndLeaveTheQueue : Obligations.CommandsCompleteAndLeaveTheQueue := by
  unfold Obligations.CommandsCompleteAndLeaveTheQueue
  refine ⟨fun c s => ⟨fun h => ?_, exec_not_given⟩, fun c s t h => exec_pending h⟩
  obtain ⟨u, e⟩ := exec_given (s := s) h
  exact ⟨_, e⟩

/-- Settles O3: the front command completes since it could be given, and leaves the queue's rest. -/
theorem waitingCommandsStayGiven : Obligations.WaitingCommandsStayGiven := by
  unfold Obligations.WaitingCommandsStayGiven
  intro s hq
  cases hp : s.pending
  case nil => exact ⟨s, step_nil hp, hq⟩
  case cons c rest =>
    obtain ⟨u, hu⟩ := exec_given (s := { s with pending := rest }) (hq c (by simp [hp]))
    refine ⟨_, (step_cons hp).trans hu, fun d hd => hq d ?_⟩
    rw [settle_pending] at hd
    exact hp ▸ List.mem_cons_of_mem _ hd

/-- Settles O4: the words of the register tables are computed, and every context page of the reset state is closed. -/
theorem resetIsAsStated : Obligations.ResetIsAsStated := by
  unfold Obligations.ResetIsAsStated
  refine ⟨rfl, ?targets, by decide, ?pages⟩
  case targets => intro p hp; cases hp
  case pages =>
    intro c hc off hoff
    have hpage : pageCtx (0x100000 + 0x1000 * c + off) = c := by simp only [pageCtx]; omega
    exact regRead_closed_page (by omega) rfl rfl (by omega)

/-- Settles O59: `settle` makes the targets follow whatever the command did, and an idle step changes nothing. -/
theorem targetsFollowTheirSources : Obligations.TargetsFollowTheirSources := by
  unfold Obligations.TargetsFollowTheirSources
  refine ⟨fun c s t h => exec_targetsFollow h, fun s t hs h => ?_⟩
  cases hp : s.pending
  case nil => rw [step_nil hp] at h; cases h; exact hs
  case cons c rest => exact exec_targetsFollow ((step_cons hp).symm.trans h)

end Sys2Proof.Machine
end

section
/-! SUPPORT. Frames: what commands of the event controller, writes to the I3C target and writes of the codec and of the draw unit
leave, and the statement that these settle. -/

namespace Sys2Proof.Machine

section
variable {s t u : State} {c : Instr}

/-- Only a command that can be given answers a state. -/
theorem wf_of_exec_next (h : exec c s = .next t) : c.wf = true := by
  cases hc : c.wf
  case true => rfl
  case false => rw [exec_not_given hc] at h; cases h

/-! ### The event controller (16 R514-R518) -/

/-- Two states differ in the time base, the control port's response and the events alone. -/
def EventsMoved (s u : State) : Prop := ∃ tb ch ev, u = { s with tb := tb, chip := ch, events := ev }

theorem EventsMoved.refl : EventsMoved s s := ⟨_, _, _, rfl⟩

theorem EventsMoved.trans (h : EventsMoved s t) (k : EventsMoved t u) : EventsMoved s u := by
  obtain ⟨_, _, _, rfl⟩ := h
  obtain ⟨tb, ch, ev, rfl⟩ := k
  exact ⟨tb, ch, ev, rfl⟩

theorem EventsMoved.mainWrite {n p : Bool} {f : State → State} (h : EventsMoved s (f s)) : EventsMoved s (mainWrite n p f s) := by
  unfold Machine.mainWrite
  split
  · exact ⟨_, _, _, rfl⟩
  · split
    · exact ⟨_, _, _, rfl⟩
    · exact h.trans ⟨_, _, _, rfl⟩

theorem EventsMoved.mainRead {n p d : Bool} {v : State → Nat} {f : State → State} (h : ∀ u, EventsMoved u (f u)) :
    EventsMoved s (mainRead n p d v f s) := by
  unfold Machine.mainRead
  split
  · exact ⟨_, _, _, rfl⟩
  · split
    · exact ⟨_, _, _, rfl⟩
    · split
      · exact ⟨_, _, _, rfl⟩
      · exact EventsMoved.trans ⟨_, _, _, rfl⟩ (h _)

theorem eventsMoved_advance (dt : Nat) : EventsMoved s (advance dt s) := ⟨_, _, _, advance_eq dt s⟩

theorem eventsMoved_modTarget (k : Nat) (f : Target → Target) : EventsMoved s (modTarget k f s) := ⟨_, _, _, rfl⟩

theorem eventsMoved_claim (k : Nat) : EventsMoved s (claim k s) := by
  unfold claim
  split
  · exact .refl
  · split
    · exact eventsMoved_modTarget ..
    · exact .refl

theorem eventsMoved_complete (k n : Nat) : EventsMoved s (complete k n s) := by
  unfold complete
  split
  · exact eventsMoved_modTarget ..
  · exact ⟨_, _, _, rfl⟩

theorem eventsMoved_signal (k : Nat) : EventsMoved s (signal k s) := by
  unfold signal
  dsimp only
  split
  · exact eventsMoved_modTarget ..
  · exact .refl

theorem eventsMoved_onHostIdleEdge (k : Nat) (l : Bool) : EventsMoved s (onHostIdleEdge k l s) := by
  unfold onHostIdleEdge
  split
  · exact eventsMoved_modTarget ..
  · exact .refl

/-- After a command that moves the events alone, only the targets follow. -/
theorem EventsMoved.settle (hq : Safety.quiet s) (h : EventsMoved s u) :
    settle s u = { s with tb := (settle s u).tb, chip := (settle s u).chip, events := (settle s u).events } := by
  obtain ⟨tb, ch, ev, rfl⟩ := h
  rw [settle_unmoved (u := { s with tb := tb, chip := ch, events := ev }) hq rfl rfl rfl rfl]
  rfl

/-! ### The I3C target and the register ranges of codec and draw unit -/

/-- A write to the target that no overrun ends moves the target's own registers alone (16 R528). -/
theorem privateWrite_frame (l : List Byte) (e : Bool) (s : State) : ∃ g, privateWrite l e false s = { s with mgmt := g } := by
  unfold privateWrite
  cases e
  case true => exact ⟨_, rfl⟩
  case false =>
    cases l
    case nil => exact ⟨_, rfl⟩
    case cons p data =>
      simp only [Bool.or_self, Bool.false_eq_true, if_false]
      split
      · unfold acceptMgCmd endMgCmd
        dsimp only
        repeat' split
        all_goals exact ⟨_, rfl⟩
      · exact ⟨_, rfl⟩

theorem i3cDirect_frame {f : State → State} (h : ∃ g, f s = { s with mgmt := g }) : ∃ g, i3cDirect f s = { s with mgmt := g } := by
  unfold i3cDirect
  split
  · exact h
  · exact ⟨_, rfl⟩

theorem codecWrite_frame (a v : Nat) (s : State) : ∃ k, codecWrite a v s = { s with codec := k } := by
  unfold codecWrite
  repeat' split
  all_goals exact ⟨_, rfl⟩

theorem drawWrite_frame (a v : Nat) (s : State) : ∃ d, drawWrite a v s = { s with draw := d } := by
  unfold drawWrite
  split <;> exact ⟨_, rfl⟩

/-- An offset of the codec or draw range names no mailbox. -/
theorem boxOf_codec_draw {a : Nat} (hlo : 0x3000 ≤ a) (hhi : a < 0x5000) : boxOf a = none := by
  have h1 : ¬ a < 0x900 := by omega
  have h2 : ¬ 0x100000 ≤ a := by omega
  simp [boxOf, h1, h2]

/-- A write of the codec or draw range moves that unit alone. -/
theorem regWrite_codec_draw {a : Nat} (core : Bool) (m : ExtMem) (v : Nat) (s : State) (hlo : 0x3000 ≤ a) (hhi : a < 0x5000) :
    ∃ k d, regWrite core m a v s = { s with codec := k, draw := d } := by
  have hw : ¬ a < 0x100 ∧ ¬ a < 0x400 ∧ ¬ a < 0x800 ∧ ¬ a < 0x1000 ∧ ¬ a < 0x2000 ∧ ¬ a < 0x3000 := by omega
  by_cases ha : a < 0x4000
  · obtain ⟨k, e⟩ := codecWrite_frame a v s
    exact ⟨k, s.draw, by simp [regWrite, boxOf_codec_draw hlo hhi, hw, ha, e]⟩
  · obtain ⟨d, e⟩ := drawWrite_frame a v s
    exact ⟨s.codec, d, by simp [regWrite, boxOf_codec_draw hlo hhi, hw, ha, hhi, e]⟩

/-- A request of the host to these ranges moves the unit and the response alone, refused or not. -/
theorem registerWrite_codec_draw {a : Nat} (v be : Nat) (p : Bool) (m : ExtMem) (s : State) (hlo : 0x3000 ≤ a) (hhi : a < 0x5000) :
    ∃ ch k d, registerWrite .host a v be p m s = { s with chip := ch, codec := k, draw := d } := by
  rw [registerWrite_host]
  cases portRefusal s a be p
  case some code => exact ⟨_, _, _, rfl⟩
  case none =>
    obtain ⟨k, d, e⟩ := regWrite_codec_draw false m v s hlo hhi
    exact ⟨_, k, d, by rw [Option.elim_none, e]; rfl⟩

end

/-- Settles O60: each of these commands moves its own parts, and of a quiet state `settle` moves the targets alone. -/
theorem commandsKeepTheRest : Obligations.CommandsKeepTheRest := by
  unfold Obligations.CommandsKeepTheRest
  refine ⟨advance_eq, ?events, ?privateWrite, ?registers⟩
  case events =>
    intro dt k src p d c s t hq hc ht
    have hwf := wf_of_exec_next ht
    have hadv : EventsMoved s (advance dt s) := eventsMoved_advance dt
    rcases hc with rfl | rfl | rfl | rfl | rfl
    · rw [exec_tgtClaim _ _ _ _ _ hwf] at ht; cases ht
      exact (hadv.trans (.mainRead fun _ => eventsMoved_claim k)).settle hq
    · rw [exec_tgtComplete _ _ _ _ _ hwf] at ht; cases ht
      exact (hadv.trans (.mainWrite (eventsMoved_complete k src))).settle hq
    · rw [exec_evtSignal _ _ _ hwf] at ht; cases ht
      exact (hadv.trans (eventsMoved_signal k)).settle hq
    · rw [exec_moderationExpiry _ _ _ hwf] at ht; cases ht
      exact (hadv.trans (eventsMoved_modTarget ..)).settle hq
    · rw [exec_hostIdleEdge _ _ _ _ hwf] at ht; cases ht
      exact (hadv.trans (eventsMoved_onHostIdleEdge k p)).settle hq
  case privateWrite =>
    intro dt l e s t hq ht
    rw [exec_i3cPrivateWrite _ _ _ _ _ (wf_of_exec_next ht)] at ht; cases ht
    obtain ⟨g, hg⟩ := i3cDirect_frame (privateWrite_frame l e (advance dt s))
    rw [hg, settle_unmoved hq (by simp) (by simp) (by simp) (by simp), advance_eq]
    rfl
  case registers =>
    intro dt a v be p m s t hq hlo hhi ht
    rw [exec_registerWrite _ _ _ _ _ _ _ _ (wf_of_exec_next ht)] at ht; cases ht
    obtain ⟨ch, k, d, h⟩ := registerWrite_codec_draw v be p m (advance dt s) hlo hhi
    rw [h, settle_unmoved hq (by simp) (by simp) (by simp) (by simp), advance_eq]
    rfl

end Sys2Proof.Machine
end

section
/-! SUPPORT. What memory transfers, gatherings, completions and the reactions to faults leave: the part of the state outside them, once for
each of these operations. -/

namespace Sys2Proof.Machine

/-! ### Transfers, stock and the spine -/

/-- The part of the state that transfers, stock, gatherings, completions and receipts do not reach: all but their own tables, the count of
contained samples and the press's counter of late commits. -/
def outsideSpine (s : State) : State :=
  { s with boxes := [], ctxs := [], rings := [], streams := [], groups := [], ports := [], pkt := {}, pools := [], mem := {}, txs := [],
           txNext := 0, works := [], workNext := 0, chains := [],
           faults := { s.faults with nContained := 0 }, press := { s.press with lateCnt := 0, evt := 0 } }

section
variable {s : State}

theorem outside_setBuf (k i : Nat) (st : Option BufState) : outsideSpine (setBuf k i st s) = outsideSpine s := rfl
theorem outside_addWork (w : Work) : outsideSpine (addWork w s) = outsideSpine s := rfl
theorem outside_modWork (w : Nat) (f : Work → Work) : outsideSpine (modWork w f s) = outsideSpine s := rfl
theorem outside_modStream (i : Nat) (f : Stream → Stream) : outsideSpine (modStream i f s) = outsideSpine s := rfl
theorem outside_modCtx (c : Nat) (f : Ctx → Ctx) : outsideSpine (modCtx c f s) = outsideSpine s := rfl
theorem outside_modRing (c n : Nat) (f : Ring → Ring) : outsideSpine (modRing c n f s) = outsideSpine s := rfl
theorem outside_forgetFetches (c n : Nat) : outsideSpine (forgetFetches c n s) = outsideSpine s := rfl
theorem outside_dropWaiting (w : Nat) : outsideSpine (dropWaiting w s) = outsideSpine s := rfl
theorem outside_dropWork (w : Nat) : outsideSpine (dropWork w s) = outsideSpine s := rfl
theorem outside_countContained (k : Nat) : outsideSpine (countContained k s) = outsideSpine s := rfl
theorem outside_leaveGroup (i : Nat) : outsideSpine (leaveGroup i s) = outsideSpine s := rfl
theorem outside_modPring (r : Nat) (f : PktRing → PktRing) : outsideSpine (modPring r f s) = outsideSpine s := rfl
theorem outside_notePktErr (r code : Nat) : outsideSpine (notePktErr r code s) = outsideSpine s := rfl

theorem outside_cutTxs (t : TxAttr) (p : Purpose) (fuel a n : Nat) (data : List Byte) (s : State) :
    outsideSpine (cutTxs t p a n data fuel s) = outsideSpine s := by
  induction fuel generalizing a n data s with
  | zero => rfl
  | succ fuel ih =>
    unfold cutTxs
    split
    · rfl
    · exact (ih ..).trans rfl

theorem outside_charge (x : Tx) : outsideSpine (charge x s) = outsideSpine s := by
  unfold charge
  split
  · rfl
  · unfold modClassBucket; repeat' split
    all_goals rfl

theorem outside_issueTx (x : Tx) : outsideSpine (issueTx x s) = outsideSpine s := (outside_charge x).trans rfl

theorem outside_pumpList (l behind : List Tx) (s : State) : outsideSpine (pumpList l behind s) = outsideSpine s := by
  induction l generalizing behind s with
  | nil => rfl
  | cons x t ih =>
    unfold pumpList
    split
    · exact (ih ..).trans (outside_issueTx x)
    · exact ih ..

theorem outside_pump : outsideSpine (pump s) = outsideSpine s := outside_pumpList ..

theorem outside_transfer (t : TxAttr) (p : Purpose) (a n : Nat) (data : List Byte) :
    outsideSpine (transfer t p a n data s) = outsideSpine s := outside_pump.trans (outside_cutTxs ..)

theorem outside_readTxs (t : TxAttr) (p : Purpose) (l : List (Nat × Nat)) : outsideSpine (readTxs t p l s) = outsideSpine s :=
  outside_pump.trans (forEach_keeps outsideSpine _ (fun _ _ => outside_cutTxs ..) _ _)

theorem outside_returnBuf (b : Option (Nat × Nat × Nat)) : outsideSpine (returnBuf b s) = outsideSpine s := by
  unfold returnBuf; repeat' split
  all_goals rfl

theorem outside_modRingErr (c n : Nat) (f : Ring → Ring) : outsideSpine (modRingErr c n f s) = outsideSpine s := by
  unfold modRingErr; dsimp only; split <;> rfl

theorem outside_killWork (wid : Nat) : outsideSpine (killWork wid s) = outsideSpine s := by
  unfold killWork; split
  · exact Eq.trans rfl (outside_returnBuf _)
  · rfl

theorem outside_zeroRing (c n : Nat) : outsideSpine (zeroRing c n s) = outsideSpine s := by
  unfold zeroRing; extract_lets s1 s2 s3
  have h1 : outsideSpine s1 = outsideSpine s :=
    (forEach_keeps outsideSpine _ (fun w _ => outside_killWork w) _ _).trans (outside_forgetFetches c n)
  have h3 : outsideSpine s3 = outsideSpine s := (outside_modCtx c _).trans ((outside_modRingErr c n _).trans h1)
  clear_value s3
  exact h3

theorem outside_ringSettle (c n : Nat) : outsideSpine (ringSettle c n s) = outsideSpine s := by
  unfold ringSettle; dsimp only; repeat' split
  · rfl
  · rfl
  · exact (outside_modRing ..).trans (outside_zeroRing c n)
  · exact outside_modRing ..
  · rfl

theorem outside_issueCompletions (c n : Nat) : outsideSpine (issueCompletions c n s) = outsideSpine s := by
  unfold issueCompletions; dsimp only; repeat' split
  · exact outside_ringSettle c n
  · rfl
  · rfl
  · exact outside_modRingErr ..
  · exact (outside_transfer ..).trans rfl

theorem outside_endEntry (c n count : Nat) (f : Entry → Entry) : outsideSpine (endEntry c n count f s) = outsideSpine s :=
  outside_issueCompletions c n

theorem outside_serveBacklog (c n fuel : Nat) (s : State) : outsideSpine (serveBacklog c n fuel s) = outsideSpine s := by
  induction fuel generalizing s with
  | zero => rfl
  | succ fuel ih =>
    unfold serveBacklog; dsimp only; split
    · exact (ih _).trans (outside_endEntry ..)
    · rfl

theorem outside_deliverReceipt (c n : Nat) (q : Receipt) : outsideSpine (deliverReceipt c n q s) = outsideSpine s := by
  have hb := outside_serveBacklog c n 16 s
  unfold deliverReceipt; dsimp only; repeat' split
  · exact hb
  · exact (outside_endEntry ..).trans hb
  · exact hb
  · exact (outside_modRingErr ..).trans hb

theorem outside_endMembers (w : Work) (c n first : Nat) (forced : Option Nat) (col buf tDone : Nat) (l : List Member) (k : Nat) (s : State) :
    outsideSpine (endMembers w c n first forced col buf tDone l k s) = outsideSpine s := by
  induction l generalizing k s with
  | nil => rfl
  | cons m t ih => exact (ih ..).trans (outside_endEntry ..)

theorem outside_endWork (wid : Nat) (forced : Option Nat) (col buf tDone : Nat) :
    outsideSpine (endWork wid forced col buf tDone s) = outsideSpine s := by
  unfold endWork; dsimp only
  split
  · rfl
  · next w _ =>
    generalize hs1 : (if w.frameOpen then dropWaiting wid (modWork wid (fun w => { w with phase := .done, buffer := none, queue := [] })
        (countContained (w.contained forced) s)) else dropWork wid (countContained (w.contained forced) s)) = s1
    have h1 : outsideSpine s1 = outsideSpine s := by
      rw [← hs1]
      split
      · exact (outside_dropWaiting wid).trans ((outside_modWork ..).trans (outside_countContained _))
      · exact (outside_dropWork wid).trans (outside_countContained _)
    split
    · exact (outside_endMembers ..).trans h1
    · exact (outside_endMembers ..).trans h1
    iterate 4
      split
      · exact h1
      · exact (outside_deliverReceipt ..).trans ((outside_modStream ..).trans h1)
    · exact h1

theorem outside_failWork (wid status : Nat) : outsideSpine (failWork wid status s) = outsideSpine s := by
  unfold failWork; split
  · rfl
  · exact (outside_endWork ..).trans (outside_returnBuf _)

theorem outside_abandonMirror (wid : Nat) : outsideSpine (abandonMirror wid s) = outsideSpine s := by
  unfold abandonMirror; split
  · split
    · dsimp only; split
      · exact Eq.trans rfl (outside_returnBuf _)
      · exact Eq.trans rfl (outside_returnBuf _)
    · rfl
  · rfl

theorem outside_abandonBlock (wid : Nat) : outsideSpine (abandonBlock wid s) = outsideSpine s := by
  unfold abandonBlock; split
  · split
    · exact Eq.trans rfl (outside_returnBuf _)
    · rfl
  · rfl

theorem outside_refuseWork (wid line : Nat) : outsideSpine (refuseWork wid line s) = outsideSpine s := by
  unfold refuseWork; split
  · rfl
  · dsimp only; split
    · exact outside_abandonMirror wid
    · exact outside_abandonBlock wid
    · exact outside_failWork wid 3

theorem outside_guardedWrite (gs : List Guard) (wid : Nat) (p : Purpose) (a n : Nat) (data : List Byte) :
    outsideSpine (guardedWrite gs wid p a n data s) = outsideSpine s := by
  unfold guardedWrite; split
  · rfl
  · dsimp only; split
    · exact (outside_refuseWork ..).trans (outside_transfer ..)
    · exact outside_transfer ..

theorem outside_workWrite (wid : Nat) (p : Purpose) (a n : Nat) (data : List Byte) :
    outsideSpine (workWrite wid p a n data s) = outsideSpine s := by
  unfold workWrite; split
  · rfl
  · exact outside_guardedWrite ..

theorem outside_zeroWrite (wid : Nat) : outsideSpine (zeroWrite wid s) = outsideSpine s := by
  unfold zeroWrite; split
  · rfl
  · exact outside_workWrite ..

theorem outside_publishBlock (r gen : Nat) (b : Block) : outsideSpine (publishBlock r gen b s) = outsideSpine s := by
  unfold publishBlock; split
  · rfl
  · exact outside_workWrite ..

theorem outside_stopPktRing (r code : Nat) : outsideSpine (stopPktRing r code s) = outsideSpine s := by
  have h1 (f : PktRing → PktRing) : outsideSpine (notePktErr r code (modPring r f s)) = outsideSpine s :=
    (outside_notePktErr ..).trans (outside_modPring ..)
  unfold stopPktRing; extract_lets p s1
  split
  · rfl
  · split
    · split
      · exact (outside_publishBlock ..).trans ((outside_modPring ..).trans (h1 _))
      · exact (outside_modPring ..).trans ((outside_modPring ..).trans (h1 _))
    · exact h1 _

end

/-! ### Faults and their reactions -/

/-- The part of the state that the record of a fault and its reaction do not reach. -/
def outsideFaults (s : State) : State :=
  let t := outsideSpine s
  { t with
    control := { t.control with
      pair0 := .stopped, pair1 := .stopped, restarting := false, fwUp := false, lastCause := 0, restartCnt := 0, bootCode := 0, wd0 := {}, wd1 := {} },
    press := { t.press with quires := [] }, draw := { t.draw with inService := 0, evt := 0 }, faults := {},
    keep := { t.keep with writesOff := false, evt := 0, indexBad := false, compact := none, waiting := [] },
    mgmt := { t.mgmt with dynAddr := none, enint := false, evt := 0, ibiFault := none } }

/-- What keeps everything outside the spine keeps everything outside the faults. -/
theorem outsideFaults_of_spine {s t : State} (h : outsideSpine t = outsideSpine s) : outsideFaults t = outsideFaults s := by
  unfold outsideFaults; rw [h]

section
variable {s : State}

theorem outsideFaults_noteIbi (e : LogEntry) : outsideFaults (noteIbi e s) = outsideFaults s := by
  unfold noteIbi; repeat' split
  all_goals rfl

theorem outsideFaults_collect1 (f : FaultIn) (s : State) : outsideFaults (collect1 f s) = outsideFaults s := by
  have hlog (e : LogEntry) (s : State) : outsideFaults (pushLog e s) = outsideFaults s := by unfold pushLog; split <;> rfl
  have hmark (s : State) : outsideFaults (markQuire f s) = outsideFaults s := by unfold markQuire; split <;> rfl
  have hpulse (s : State) : outsideFaults (startPulse s) = outsideFaults s := by unfold startPulse; split <;> rfl
  have hpin (s : State) : outsideFaults (refreshPin s) = outsideFaults s := by unfold refreshPin; split <;> rfl
  refine (hpin _).trans ((when_keeps _ outsideFaults _ _ (hpulse _)).trans ?_)
  exact (when_keeps _ outsideFaults _ _ (outsideFaults_noteIbi _)).trans ((hlog _ _).trans ((hmark _).trans rfl))

theorem outsideFaults_collect (fs : List FaultIn) : outsideFaults (collect fs s) = outsideFaults s := by
  have h := forEach_keeps outsideFaults collect1 outsideFaults_collect1 (periodFaults fs) s
  unfold collect captureFirst; extract_lets
  split
  · exact h
  · exact h

theorem outsideFaults_streamSafe (i : Nat) : outsideFaults (streamSafe i s) = outsideFaults s := by
  have hkill (s : State) : outsideSpine (killOpen i s) = outsideSpine s := by
    refine forEach_keeps outsideSpine _ (fun w s => ?_) _ _
    repeat' split
    · rfl
    · exact outside_killWork w
    · rfl
  have hmirror (s : State) : outsideSpine (killMirror i s) = outsideSpine s := by
    unfold killMirror; repeat' split
    · exact Eq.trans rfl (outside_killWork _)
    all_goals rfl
  unfold streamSafe; split
  · rfl
  · split
    · rfl
    · extract_lets o s1 s2 s3 buf s4
      have h1 : outsideSpine s1 = outsideSpine s := by
        clear_value o
        cases o
        · rfl
        · exact outside_modWork ..
      have h3 : outsideSpine s3 = outsideSpine s :=
        (outside_modStream ..).trans ((hmirror _).trans ((outside_leaveGroup i).trans ((hkill s1).trans h1)))
      refine (outsideFaults_collect _).trans (outsideFaults_of_spine ?_)
      clear_value buf
      cases buf
      · exact h3
      · exact (outside_zeroWrite _).trans ((outside_addWork _).trans ((outside_setBuf ..).trans h3))

theorem outsideFaults_stopPort (p : Nat) : outsideFaults (stopPort p s) = outsideFaults s :=
  forEach_keeps outsideFaults _ (fun i _ => outsideFaults_streamSafe i) _ _

theorem outsideFaults_cancelMigrations (q : Nat) : outsideFaults (cancelMigrations q s) = outsideFaults s := by
  unfold cancelMigrations; dsimp only; split
  · rfl
  · refine forEach_keeps outsideFaults _ (fun m s => ?_) _ _
    rfl

theorem outsideFaults_requalifyPort (p : Nat) : outsideFaults (requalifyPort p s) = outsideFaults s := by
  have hmark (s : State) : outsideFaults (forEach (portStreams s p) (fun i s => match Tbl.get? s.streams i with
      | some t => (match t.cur with
        | some w => modWork w (fun x => { x with frame := x.frame.map (fun f => { f with corrupt := true }) }) s
        | none => s)
      | none => s) s) = outsideFaults s := by
    refine forEach_keeps outsideFaults _ (fun i s => ?_) _ _
    repeat' split
    all_goals rfl
  unfold requalifyPort; dsimp only; split
  · exact hmark s
  · exact hmark s

theorem outsideFaults_faultEffect (f : FaultIn) : outsideFaults (faultEffect f s) = outsideFaults s := by
  have hmem (s : State) : outsideFaults (noteMemFault (memFaultCode f) f.src s) = outsideFaults s := by
    unfold noteMemFault; split <;> rfl
  have h0 : outsideFaults (if 16 ≤ f.src && f.src < 80 then cancelMigrations (f.src - 16) (noteMemFault (memFaultCode f) f.src s)
      else noteMemFault (memFaultCode f) f.src s) = outsideFaults s := by
    split
    · exact (outsideFaults_cancelMigrations _).trans (hmem s)
    · exact hmem s
  unfold faultEffect; dsimp only
  generalize (if 16 ≤ f.src && f.src < 80 then cancelMigrations (f.src - 16) (noteMemFault (memFaultCode f) f.src s)
    else noteMemFault (memFaultCode f) f.src s) = u at h0 ⊢
  rw [← h0]
  repeat' split
  case isFalse.isFalse.isTrue => exact outsideFaults_requalifyPort _
  case isFalse.isFalse.isFalse.isTrue => exact outsideFaults_of_spine (outside_stopPktRing _ _)
  all_goals rfl

theorem outsideFaults_controlRestart (cause : Nat) (fatal : Bool) : outsideFaults (controlRestart cause fatal s) = outsideFaults s := by
  unfold controlRestart; dsimp only; repeat' split
  all_goals rfl

theorem outsideFaults_react (f : FaultIn) : outsideFaults (react f s) = outsideFaults s := by
  unfold react; split
  · rfl
  · split
    case h_1 =>
      unfold enterSafe; dsimp only; split
      · rfl
      · split <;> rfl
    case h_2 =>
      split
      · exact outsideFaults_stopPort _
      · rfl
    case h_3 => exact outsideFaults_controlRestart ..
    case h_4 => unfold retireQuire; split <;> rfl
    case h_5 => unfold retireUnit; split <;> rfl
    case h_6 => rfl
    case h_7 =>
      split
      · exact forEach_keeps outsideFaults _ (fun r _ => outsideFaults_of_spine (outside_stopPktRing r 6)) _ _
      · rfl

/-- Reported faults reach no more than their records, effects and reactions. -/
theorem outsideFaults_report (fs : List FaultIn) : outsideFaults (report fs s) = outsideFaults s :=
  (forEach_keeps outsideFaults _ (fun f _ => outsideFaults_react f) _ _).trans
    ((forEach_keeps outsideFaults _ (fun f _ => outsideFaults_faultEffect f) _ _).trans (outsideFaults_collect fs))

@[simp] theorem report_pending (fs : List FaultIn) : (report fs s).pending = s.pending :=
  (congrArg State.pending (outsideFaults_report (s := s) fs) :)
@[simp] theorem report_chip (fs : List FaultIn) : (report fs s).chip = s.chip :=
  (congrArg State.chip (outsideFaults_report (s := s) fs) :)
@[simp] theorem report_power (fs : List FaultIn) : (report fs s).power = s.power :=
  (congrArg State.power (outsideFaults_report (s := s) fs) :)
@[simp] theorem report_tb (fs : List FaultIn) : (report fs s).tb = s.tb :=
  (congrArg State.tb (outsideFaults_report (s := s) fs) :)
@[simp] theorem report_bindings (fs : List FaultIn) : (report fs s).bindings = s.bindings :=
  (congrArg State.bindings (outsideFaults_report (s := s) fs) :)
@[simp] theorem report_codec (fs : List FaultIn) : (report fs s).codec = s.codec :=
  (congrArg State.codec (outsideFaults_report (s := s) fs) :)
@[simp] theorem report_shelf (fs : List FaultIn) : (report fs s).shelf = s.shelf :=
  (congrArg State.shelf (outsideFaults_report (s := s) fs) :)
@[simp] theorem report_events (fs : List FaultIn) : (report fs s).events = s.events :=
  (congrArg State.events (outsideFaults_report (s := s) fs) :)

@[simp] theorem report1_power (src cls cause detail : Nat) (b : Bool) : (report1 src cls cause detail b s).power = s.power := report_power _
@[simp] theorem report1_chip (src cls cause detail : Nat) (b : Bool) : (report1 src cls cause detail b s).chip = s.chip := report_chip _
@[simp] theorem report1_tb (src cls cause detail : Nat) (b : Bool) : (report1 src cls cause detail b s).tb = s.tb := report_tb _

end

end Sys2Proof.Machine
end

section
/-! SUPPORT. The two resets, the wake, PWR_TARGET and KEEP (02 R44, R55, R56; 03 R70-R75), and the statements that they settle. -/

namespace Sys2Proof.Machine

section
variable {s u old : State}

/-! ### What follows a command where nothing is being ended -/

theorem finishSafe_of_not_entering (h : u.faults.safe ≠ .entering) : finishSafe u = u := by
  unfold finishSafe; rw [if_neg]; simp [h]

theorem settle_power_of_not_entering (h : u.faults.safe ≠ .entering) : (settle old u).power = u.power := by
  simp [settle, finishSafe_of_not_entering h]

@[simp] theorem settle_power_keepRefused : (settle old u).power.keepRefused = u.power.keepRefused := by
  have h : (finishSafe u).power.keepRefused = u.power.keepRefused := by unfold finishSafe; split <;> rfl
  simp [settle, h]

theorem finishDetaches_of_no_streams (h : u.streams = []) : finishDetaches u = u := by
  unfold finishDetaches; rw [h]; rfl

theorem settle_boxes_of_no_streams (h : u.streams = []) : (settle old u).boxes = u.boxes := by
  simp [settle, finishDetaches_of_no_streams (u := finishSafe u) (by simpa using h)]

theorem settle_rings_of_no_streams (h : u.streams = []) : (settle old u).rings = u.rings := by
  simp [settle, finishDetaches_of_no_streams (u := finishSafe u) (by simpa using h)]

/-- Where no target is named, none has anything to follow. -/
theorem settle_events_of_no_targets (h : u.events.targets = []) : (settle old u).events = u.events := by
  simp [settle, settleTargets, h]
  rw [← h]

/-! ### The wake (03 R74, R75) -/

/-- The clocks' part of the wake moves the wake's step, three clock requests and the control complex alone. -/
theorem wakeAdvance_frame (s : State) : ∃ w c m a k, wakeAdvance s =
    { s with power := { s.power with wake := w, cclk := c, mclk := m, aclk := a }, control := k } := by
  unfold wakeAdvance bootWatchdogs
  dsimp only
  repeat' split
  all_goals exact ⟨_, _, _, _, _, rfl⟩

@[simp] theorem wakeAdvance_chip : (wakeAdvance s).chip = s.chip := by obtain ⟨_, _, _, _, _, h⟩ := wakeAdvance_frame s; rw [h]
@[simp] theorem wakeAdvance_faults : (wakeAdvance s).faults = s.faults := by obtain ⟨_, _, _, _, _, h⟩ := wakeAdvance_frame s; rw [h]
@[simp] theorem wakeAdvance_mgmt : (wakeAdvance s).mgmt = s.mgmt := by obtain ⟨_, _, _, _, _, h⟩ := wakeAdvance_frame s; rw [h]
@[simp] theorem wakeAdvance_array : (wakeAdvance s).power.array = s.power.array := by
  obtain ⟨_, _, _, _, _, h⟩ := wakeAdvance_frame s; rw [h]
@[simp] theorem wakeAdvance_ctrl : (wakeAdvance s).power.ctrl = s.power.ctrl := by
  obtain ⟨_, _, _, _, _, h⟩ := wakeAdvance_frame s; rw [h]
@[simp] theorem wakeAdvance_mram : (wakeAdvance s).power.mram = s.power.mram := by
  obtain ⟨_, _, _, _, _, h⟩ := wakeAdvance_frame s; rw [h]
@[simp] theorem wakeAdvance_wakeCause : (wakeAdvance s).power.wakeCause = s.power.wakeCause := by
  obtain ⟨_, _, _, _, _, h⟩ := wakeAdvance_frame s; rw [h]
@[simp] theorem wakeAdvance_wakePending : (wakeAdvance s).power.wakePending = s.power.wakePending := by
  obtain ⟨_, _, _, _, _, h⟩ := wakeAdvance_frame s; rw [h]

@[simp] theorem raise_req (r : RailState) : r.raise.req = true := rfl

@[simp] theorem startWake_chip : (startWake s).chip = s.chip := by unfold startWake; split <;> simp
@[simp] theorem startWake_faults : (startWake s).faults = s.faults := by unfold startWake; split <;> simp
@[simp] theorem startWake_mgmt : (startWake s).mgmt = s.mgmt := by unfold startWake; split <;> simp
@[simp] theorem startWake_wakeCause : (startWake s).power.wakeCause = s.power.wakeCause := by unfold startWake; split <;> simp

/-- A wake that starts requests the rails, and one that does not leaves them. -/
theorem startWake_mram_req (h : s.power.mram.req = true) : (startWake s).power.mram.req = true := by
  unfold startWake; split
  · simp
  · exact h

/-- A recorded wake cause is acted on in a live block. -/
theorem startWake_started (hw : s.power.wakePending = true) (hp : s.chip.porstN = true) (hr : s.chip.rstN = true)
    (hk : s.chip.keeperInit = true) : startWake s = wakeAdvance { s with power := { s.power with
      wakePending := false, wake := .rails, ctrl := s.power.ctrl.raise, array := s.power.array.raise, mram := s.power.mram.raise } } := by
  simp [startWake, hw, hp, hr, hk]

/-- A recorded wake cause waits while GX_RST_N is asserted. -/
theorem startWake_waits (hr : s.chip.rstN = false) : startWake s = s := by simp [startWake, hr]

/-! ### Resets -/

theorem keeperReady_ready (hp : s.chip.porstN = true) (hk : s.chip.keeperInit = false) (hw : s.faults.pulseWaits = false) :
    keeperReady s = startWake { s with
      chip := { s.chip with keeperInit := true },
      power := { s.power with
        mram := s.power.mram.raise, wakeCause := if s.power.wakePending then Nat.lor s.power.wakeCause 1 else s.power.wakeCause },
      faults := { s.faults with pinLow := false, pinClass := 0 } } := by
  simp [keeperReady, hp, hk, hw]

theorem rstDeassert_rises (key : Nat) (valid : Bool) (h : s.chip.rstN = false) :
    rstDeassert key valid s = startWake { s with
      chip := { s.chip with rstN := true, rootKeyHash := key, rootKeyValid := valid },
      power := { s.power with
        wake := .cause, wakePending := true,
        wakeCause := if s.power.state == .keep || !s.power.ctrl.req then Nat.lor s.power.wakeCause 1 else s.power.wakeCause } } := by
  simp [rstDeassert, h]

end

/-- Settles O5: each edge writes its reset values, and `settle` finds neither streams nor targets to end. -/
theorem resetsTakeEffect : Obligations.ResetsTakeEffect := by
  unfold Obligations.ResetsTakeEffect
  refine ⟨?porstAssert, ?porstDeassert, ?keeperInit, ?rstAssert, ?rstDeassert⟩
  case porstAssert =>
    intro dt s
    refine ⟨_, exec_gxPorstNAssert dt s rfl, ?_⟩
    rw [settle_boxes_of_no_streams rfl]
    simp [onGxPorstNAssert, porstReset, State.reset]
  case porstDeassert =>
    intro dt inst group saddr mfr s hi hg hs hm hp
    rw [exec_gxPorstNDeassert _ _ _ _ _ _ (by simp [Instr.wf, hi, hg, hs, hm])]
    simp [onGxPorstNDeassert, hp, advance]
  case keeperInit =>
    intro dt s hp hk hw
    refine ⟨_, exec_keeperInitDone dt s rfl, ?_⟩
    rw [keeperReady_ready (by simpa using hp) (by simpa using hk) (by simpa using hw)]
    refine ⟨by simp, ?_, by simp, by simp⟩
    rw [settle_power_mram]
    exact startWake_mram_req rfl
  case rstAssert =>
    intro dt s
    refine ⟨_, exec_gxRstNAssert dt s rfl, ?_⟩
    rw [settle_boxes_of_no_streams rfl, settle_rings_of_no_streams rfl, settle_events_of_no_targets rfl]
    simp [rstAssert, mainReset, State.reset]
  case rstDeassert =>
    intro dt key valid s hkey hr hp hk
    refine ⟨_, exec_gxRstNDeassert dt key valid s (decide_eq_true hkey), ?_⟩
    rw [rstDeassert_rises _ _ (by simpa using hr), startWake_started rfl (by simpa using hp) rfl (by simpa using hk)]
    simp +contextual


/-! ### The power target (03 R71-R73) -/

section
variable {s : State}

/-- While the main domain runs, awake and not on the way to KEEP, a target that nothing refuses is acted on at once. -/
theorem writeTarget_acts {v : Nat} (hv : v ≠ 0) (hm : s.mainUp = true) (hw : s.power.wake = .idle) (hs : s.power.state ≠ .enteringKeep)
    (hr : targetRefused v s = false) :
    writeTarget v s = actTarget s.power.target { s with power := { s.power with target := v } } := by
  simp [writeTarget, hv, hm, hw, hs, hr]

/-- KEEP is refused while a LIVE binding is admitted: the refusal is all that is noted. -/
theorem writeTarget_keep_refused (hm : s.mainUp = true) (hw : s.power.wake = .idle) (hs : s.power.state ≠ .enteringKeep)
    (hl : s.liveAdmitted = true) : writeTarget 1 s = { s with power := { s.power with keepRefused := true } } := by
  simp [writeTarget, hm, hw, hs, targetRefused, hl]

/-- KEEP is acted on at once. -/
theorem actTarget_keep {old : Nat} (ht : s.power.target = 1) : actTarget old s =
    { s with power := { s.power with state := .enteringKeep, blocked := false, keepRefused := false } } := by
  simp [actTarget, ht]

/-- STANDBY, where the admitted bindings allow it, wants operating point 2. -/
theorem actTarget_standby {old : Nat} (ht : s.power.target = 2) (hok : standbyOk s = true) : actTarget old s =
    reachStandby (wantOpp 2 { s with power := { s.power with blocked := false, keepRefused := false } }) := by
  simp [actTarget, ht, hok]

/-- Active ends a STANDBY without periods in READY and wants FASTEST. -/
theorem actTarget_active (ht : s.power.target = 3) (hb : s.power.blocked = false) (hs : s.power.state = .standby)
    (hr : s.press.running = false) : actTarget 2 s =
    wantOpp s.power.fastest { s with power := { s.power with state := .ready, blocked := false, keepRefused := false } } := by
  simp [actTarget, ht, hb, hs, hr]

/-- A change that nothing holds back requests its point at once. -/
theorem wantOpp_requests {p : Nat} (hr : s.press.running = false) (hb : s.oppBusy = false) (hp : s.power.oppPending ≠ p) :
    wantOpp p s = { s with power := { s.power with
      oppPrev := s.power.oppPending, oppPending := p, oppWait := true, oppReturn := false, oppWanted := none, oppStatReset := false } } := by
  simp [wantOpp, hr, hb, requestOpp, hp]

/-- STANDBY is not reached while a change of operating point is under way. -/
theorem reachStandby_waits (h : s.power.oppWait = true) : reachStandby s = s := by
  simp [reachStandby, State.oppBusy, h]

/-- What a STANDBY target that is acted on leaves: operating point 2 is requested, and STANDBY waits for its acknowledge (03 R72). -/
def standbyAsked (s : State) : State :=
  { s with power := { s.power with
      target := 2, blocked := false, keepRefused := false, oppPrev := s.power.oppPending, oppPending := 2, oppWait := true,
      oppReturn := false, oppWanted := none, oppStatReset := false } }

theorem writeTarget_standby (hm : s.mainUp = true) (hw : s.power.wake = .idle) (hs : s.power.state ≠ .enteringKeep)
    (hok : standbyOk s = true) (hr : s.press.running = false) (hb : s.oppBusy = false) (hp : s.power.oppPending ≠ 2) :
    writeTarget 2 s = standbyAsked s := by
  calc writeTarget 2 s = actTarget s.power.target { s with power := { s.power with target := 2 } } := writeTarget_acts (by decide) hm hw hs rfl
    _ = reachStandby (wantOpp 2 { s with power := { s.power with target := 2, blocked := false, keepRefused := false } }) :=
      actTarget_standby rfl hok
    _ = reachStandby (standbyAsked s) := congrArg reachStandby (wantOpp_requests hr hb hp)
    _ = standbyAsked s := reachStandby_waits rfl

/-- What an active target that is acted on in STANDBY leaves: READY, with FASTEST requested (03 R72). -/
def activeAsked (s : State) : State :=
  { s with power := { s.power with
      target := 3, state := .ready, blocked := false, keepRefused := false, oppPrev := s.power.oppPending,
      oppPending := s.power.fastest, oppWait := true, oppReturn := false, oppWanted := none, oppStatReset := false } }

theorem writeTarget_active (hm : s.mainUp = true) (hw : s.power.wake = .idle) (hs : s.power.state = .standby) (ht : s.power.target = 2)
    (hk : s.power.blocked = false) (hr : s.press.running = false) (hb : s.oppBusy = false) (hp : s.power.oppPending ≠ s.power.fastest) :
    writeTarget 3 s = activeAsked s := by
  calc writeTarget 3 s = actTarget s.power.target { s with power := { s.power with target := 3 } } :=
      writeTarget_acts (by decide) hm hw (by simp [hs]) rfl
    _ = actTarget 2 { s with power := { s.power with target := 3 } } := by rw [ht]
    _ = wantOpp s.power.fastest
        { s with power := { s.power with target := 3, state := .ready, blocked := false, keepRefused := false } } :=
      actTarget_active rfl hk hs hr
    _ = activeAsked s := wantOpp_requests hr hb hp

@[simp] theorem advance_standbyOk (dt : Nat) : standbyOk (advance dt s) = standbyOk s := by
  rw [advance_eq]; rfl
@[simp] theorem advance_oppBusy (dt : Nat) : (advance dt s).oppBusy = s.oppBusy := by simp [State.oppBusy]
@[simp] theorem advance_memIdle (dt : Nat) : (advance dt s).memIdle = s.memIdle := by simp [State.memIdle]

/-- KEEP is entered once the memory ports and the rings are idle: the main domain is reset and its clocks and rails are given up. -/
theorem keepEntry_enters (hs : s.power.state = .enteringKeep) (hw : s.power.wake = .idle) (hm : s.memIdle = true)
    (hr : ∀ p ∈ s.rings, p.2.entries = [] ∧ p.2.issued = p.2.head) :
    (keepEntry s).power = { (mainReset s).power with
        state := .keep, keepSince := s.now, aclk := { s.power.aclk.kept with req := false }, vclk := { s.power.vclk.kept with req := false },
        mclk := { s.power.mclk.kept with req := false }, cclk := { s.power.cclk.kept with req := false },
        array := { s.power.array.kept with req := false, up := false }, ctrl := { s.power.ctrl.kept with req := false, up := false },
        mram := { s.power.mram.kept with req := false, up := false } } ∧
      (keepEntry s).ctxs = [] ∧ (keepEntry s).keep.mem = s.keep.mem ∧ (keepEntry s).faults.safe = .normal := by
  have hring : s.rings.any (fun p => !p.2.entries.isEmpty || decide (p.2.issued ≠ p.2.head)) = false := by
    rw [List.any_eq_false]
    intro p hp
    obtain ⟨he, hi⟩ := hr p hp
    simp [he, hi]
  have hgo : ¬ (s.power.state != .enteringKeep || s.power.wake != .idle || !s.memIdle ||
      s.rings.any (fun p => !p.2.entries.isEmpty || p.2.issued ≠ p.2.head)) = true := by
    rw [hring]; simp [hs, hw, hm]
  unfold keepEntry
  rw [if_neg hgo]
  exact ⟨rfl, rfl, rfl, rfl⟩

/-- A write of a keeper-domain register with PRIV has its effect while the keeper domain answers. -/
theorem keeperWrite_ok {f : State → State} (hk : s.keeperUp = true) : keeperWrite true f s = respond 0 0 (f s) := by
  simp [keeperWrite, hk]

end

/-- Settles O6: a target that is acted on sets the state and asks for its operating point, and an entry of KEEP gives up clocks and rails. -/
theorem powerTargets : Obligations.PowerTargets := by
  unfold Obligations.PowerTargets
  refine ⟨?keep, ?keepRefused, ?keepEntry, ?standby, ?active⟩
  case keep =>
    intro dt s hk hm hw hs hl
    refine ⟨_, exec_pwrTargetKeep dt true s rfl, ?_⟩
    rw [keeperWrite_ok (by simpa using hk), writeTarget_acts (by decide) (by simpa using hm) (by simpa using hw) (by simpa using hs)
      (by simp [targetRefused, hl]), actTarget_keep rfl]
    simp
  case keepRefused =>
    intro dt s hk hm hw hs hl
    refine ⟨_, exec_pwrTargetKeep dt true s rfl, ?_⟩
    rw [keeperWrite_ok (by simpa using hk), writeTarget_keep_refused (by simpa using hm) (by simpa using hw) (by simpa using hs)
      (by simpa using hl)]
    simp
  case keepEntry =>
    intro dt s hs hw hm hr
    obtain ⟨hpower, hctxs, hmem, hsafe⟩ := keepEntry_enters (s := advance dt s) (by simpa using hs) (by simpa using hw)
      (by simpa [State.memIdle] using hm) (by simpa using hr)
    refine ⟨_, exec_keepEntry dt s rfl, ?_⟩
    rw [settle_power_of_not_entering (by simp [hsafe]), hpower]
    simp [hctxs, hmem]
  case standby =>
    intro dt s hk hm hw hs hok hrun hbusy hpend hsafe
    refine ⟨_, exec_pwrTargetStandby dt true s rfl, ?_⟩
    rw [keeperWrite_ok (by simpa using hk), writeTarget_standby (by simpa using hm) (by simpa using hw) (by simpa using hs)
      (by simpa using hok) (by simpa using hrun) (by simpa using hbusy) (by simpa using hpend),
      settle_power_of_not_entering (by simp [standbyAsked, hsafe])]
    simp [standbyAsked]
  case active =>
    intro dt s hk hm hw hs ht hb hrun hbusy hpend hsafe
    refine ⟨_, exec_pwrTargetActive dt true s rfl, ?_⟩
    rw [keeperWrite_ok (by simpa using hk), writeTarget_active (by simpa using hm) (by simpa using hw) (by simpa using hs)
      (by simpa using ht) (by simpa using hb) (by simpa using hrun) (by simpa using hbusy) (by simpa using hpend),
      settle_power_of_not_entering (by simp [activeAsked, hsafe])]
    simp [activeAsked]

/-! ### Wake causes (03 R74) -/

section
variable {s : State}

theorem wakeTimerExpiry_due (ht : s.power.wakeTimer ≠ 0) (hs : s.power.state = .keep)
    (hd : s.power.keepSince + 1000000 * s.power.wakeTimer ≤ s.now) : wakeTimerExpiry s = wakeCauseSeen 4 s := by
  simp [wakeTimerExpiry, ht, hs, hd]

/-- A wake cause is recorded: in KEEP, and while GX_RST_N is asserted. -/
theorem wakeCauseSeen_recorded (c : Nat) (hp : s.chip.porstN = true)
    (h : s.power.state = .keep ∧ s.power.wake = .idle ∨ s.chip.rstN = false) :
    wakeCauseSeen c s = startWake { s with power := { s.power with wakePending := true, wakeCause := Nat.lor s.power.wakeCause c } } := by
  rcases h with ⟨hs, hw⟩ | hr
  · simp [wakeCauseSeen, hp, hs, hw]
  · simp [wakeCauseSeen, hp, hr]

end

/-- Settles O7: the timer's end is a recorded cause, and GX_RST_N decides whether the wake starts. -/
theorem wakesFromKeep : Obligations.WakesFromKeep := by
  unfold Obligations.WakesFromKeep
  refine ⟨?starts, ?waits⟩
  case starts =>
    intro dt s hp hr hk hs hw ht hd
    refine ⟨_, exec_wakeTimerExpiry dt s rfl, ?_⟩
    rw [wakeTimerExpiry_due (by simpa using ht) (by simpa using hs) (by simpa using hd),
      wakeCauseSeen_recorded 4 (by simpa using hp) (.inl ⟨by simpa using hs, by simpa using hw⟩),
      startWake_started rfl (by simpa using hp) (by simpa using hr) (by simpa using hk)]
    simp
  case waits =>
    intro dt s hp hr hs ht hd
    refine ⟨_, exec_wakeTimerExpiry dt s rfl, ?_⟩
    rw [wakeTimerExpiry_due (by simpa using ht) (by simpa using hs) (by simpa using hd),
      wakeCauseSeen_recorded 4 (by simpa using hp) (.inr (by simpa using hr)), startWake_waits (by simpa using hr)]
    simp

end Sys2Proof.Machine
end

section
/-! SUPPORT. Faults that no record of their source precedes; clocks, operating points, supplies and heat (03 R79-R87, R551), and the
statements that they settle. -/

namespace Sys2Proof.Machine

section
variable {s old : State}

/-! ### The effect of a fault besides its record and reaction -/

theorem spine_records {s t : State} (h : outsideSpine t = outsideSpine s) : t.faults.records = s.faults.records :=
  (congrArg (fun u : State => u.faults.records) h :)

theorem spine_safe {s t : State} (h : outsideSpine t = outsideSpine s) : t.faults.safe = s.faults.safe :=
  (congrArg (fun u : State => u.faults.safe) h :)

theorem spine_fi {s t : State} (h : outsideSpine t = outsideSpine s) : t.faults.fi = s.faults.fi :=
  (congrArg (fun u : State => u.faults.fi) h :)

/-- The records, device safe state and the injection. -/
def faultCore (s : State) : Tbl Record × SafeState × Injection := (s.faults.records, s.faults.safe, s.faults.fi)

theorem faultCore_of_spine {s t : State} (h : outsideSpine t = outsideSpine s) : faultCore t = faultCore s := by
  simp [faultCore, spine_records h, spine_safe h, spine_fi h]

theorem faultEffect_faultCore (f : FaultIn) (s : State) : faultCore (faultEffect f s) = faultCore s := by
  have hmem : faultCore (noteMemFault (memFaultCode f) f.src s) = faultCore s := by
    unfold noteMemFault; split <;> rfl
  have hcancel (q : Nat) (s : State) : faultCore (cancelMigrations q s) = faultCore s := by
    unfold cancelMigrations; dsimp only; split
    · rfl
    · refine forEach_keeps faultCore _ (fun m s => ?_) _ _
      rfl
  have hport (p : Nat) (s : State) : faultCore (requalifyPort p s) = faultCore s := by
    have hmark (l : List Nat) : faultCore (forEach l (fun i s => match Tbl.get? s.streams i with
        | some t => (match t.cur with
          | some w => modWork w (fun x => { x with frame := x.frame.map (fun f => { f with corrupt := true }) }) s
          | none => s)
        | none => s) s) = faultCore s := by
      refine forEach_keeps faultCore _ (fun i s => ?_) _ _
      repeat' split
      all_goals rfl
    unfold requalifyPort; dsimp only; split <;> exact hmark _
  unfold faultEffect; dsimp only
  rw [← hmem]
  generalize noteMemFault (memFaultCode f) f.src s = u
  rw [← show faultCore (if 16 ≤ f.src && f.src < 80 then cancelMigrations (f.src - 16) u else u) = faultCore u by
    split
    · exact hcancel _ _
    · rfl]
  generalize (if 16 ≤ f.src && f.src < 80 then cancelMigrations (f.src - 16) u else u) = v
  repeat' split
  case isFalse.isFalse.isTrue => exact hport _ _
  case isFalse.isFalse.isFalse.isTrue => exact faultCore_of_spine (outside_stopPktRing _ _)
  all_goals rfl

@[simp] theorem faultEffect_records (f : FaultIn) (s : State) : (faultEffect f s).faults.records = s.faults.records :=
  congrArg Prod.fst (faultEffect_faultCore f s)

@[simp] theorem faultEffect_safe (f : FaultIn) (s : State) : (faultEffect f s).faults.safe = s.faults.safe :=
  congrArg (·.2.1) (faultEffect_faultCore f s)

@[simp] theorem faultEffect_fi (f : FaultIn) (s : State) : (faultEffect f s).faults.fi = s.faults.fi :=
  congrArg (·.2.2) (faultEffect_faultCore f s)

/-! ### The first fault of a source below FATAL -/

/-- A fault below FATAL leaves the record of its source as a first fault makes it. -/
theorem report_first_get? (f : FaultIn) (h : Tbl.get? s.faults.records f.src = none) (hc : f.cls ≠ 3) :
    Tbl.get? (report [f] s).faults.records f.src = some (firstRecord f s.now) := by
  rw [report_one s f h hc, faultEffect_records, collect_one_first s f h]

theorem report_first_safe (f : FaultIn) (h : Tbl.get? s.faults.records f.src = none) (hc : f.cls ≠ 3) :
    (report [f] s).faults.safe = s.faults.safe := by
  rw [report_one s f h hc, faultEffect_safe, collect_safe]

theorem report_first_recorded (f : FaultIn) (h : Tbl.get? s.faults.records f.src = none) (hc : f.cls ≠ 3) :
    Safety.recorded (settle old (report [f] s)) f.src f.cls f.cause := by
  rw [Safety.recorded, settle_faults_records, report_first_get? f h hc]
  rfl

/-- The same for a fault that is named by its fields. -/
theorem report1_first_recorded {src cls cause detail : Nat} {b : Bool} (h : Tbl.get? s.faults.records src = none) (hc : cls ≠ 3) :
    Safety.recorded (settle old (report1 src cls cause detail b s)) src cls cause := report_first_recorded _ h hc

theorem report1_first_safe {src cls cause detail : Nat} {b : Bool} (h : Tbl.get? s.faults.records src = none) (hc : cls ≠ 3) :
    (report1 src cls cause detail b s).faults.safe = s.faults.safe := report_first_safe _ h hc

end

/-! ### Clocks and rails -/

section
variable {s u old : State} {r : Rail} {c : Clk}

theorem rail_of_power {s t : State} (h : t.power = s.power) (r : Rail) : t.rail r = s.rail r := by unfold State.rail; rw [h]

@[simp] theorem modRail_rail (f : RailState → RailState) : (modRail r f s).rail r = f (s.rail r) := by cases r <;> rfl
@[simp] theorem modClk_clk (f : ClkState → ClkState) : (modClk c f s).clk c = f (s.clk c) := by cases c <;> rfl
@[simp] theorem settle_rail : (settle old u).rail r = u.rail r := by cases r <;> simp [State.rail]
@[simp] theorem wakeAdvance_rail : (wakeAdvance s).rail r = s.rail r := by
  obtain ⟨_, _, _, _, _, h⟩ := wakeAdvance_frame s
  rw [h]; cases r <;> rfl
@[simp] theorem report_rail (fs : List FaultIn) : (report fs s).rail r = s.rail r := rail_of_power (report_power fs) r

/-- What follows a command may withdraw VCLK's request, and leaves every acknowledge and every monitor mark. -/
theorem settle_clk : ((settle old u).clk c).ack = (u.clk c).ack ∧ ((settle old u).clk c).bad = (u.clk c).bad ∧
    ((settle old u).clk c).down = (u.clk c).down := by
  have hv : (finishSafe u).power.vclk.ack = u.power.vclk.ack ∧ (finishSafe u).power.vclk.bad = u.power.vclk.bad ∧
      (finishSafe u).power.vclk.down = u.power.vclk.down := by
    unfold finishSafe; split <;> exact ⟨rfl, rfl, rfl⟩
  cases c <;> simp [State.clk, settle, hv]

@[simp] theorem raiseClk_ack (k : ClkState) : (raiseClk k).ack = k.ack := by unfold raiseClk; split <;> rfl

@[simp] theorem wakeAdvance_clk_ack : ((wakeAdvance s).clk c).ack = (s.clk c).ack := by
  unfold wakeAdvance bootWatchdogs
  dsimp only
  repeat' split
  all_goals cases c <;> simp [State.clk]

/-- Counting the droop skip moves no rail. -/
@[simp] theorem droopTick_rail : (droopTick s).rail r = s.rail r := by
  unfold droopTick
  split
  · cases r <;> rfl
  · dsimp only
    split
    · exact (report_rail _).trans (by cases r <;> rfl)
    · cases r <;> rfl

@[simp] theorem droopTick_chip : (droopTick s).chip = s.chip := by
  unfold droopTick; dsimp only; repeat' split
  · rfl
  · exact report_chip _
  · rfl

/-- While the VDD_ARRAY monitor does not warn there is no droop to report. -/
theorem droopTick_faults (h : s.power.array.warns = false) : (droopTick s).faults = s.faults := by
  unfold droopTick; rw [if_pos (by simp [h])]

theorem railWarned_rail : (railWarned r s).rail r = { s.rail r with evtWarn := true } := by
  cases r <;> exact (report_rail _).trans (modRail_rail _)

theorem railFailed_rail (h : r ≠ .keep) : (railFailed r s).rail r = { s.rail r with evtFail := true } := by
  cases r
  case array => exact (report_rail _).trans (modRail_rail _)
  case ctrl => exact (report_rail _).trans (modRail_rail _)
  case mram => exact modRail_rail (r := .mram) _
  case keep => exact absurd rfl h

/-- The rail shows what its monitor sees, but for the event bits. -/
theorem railChange_pg (f : RailState → RailState) (h : r ≠ .keep) : ((railChange r f s).rail r).pg = (f (s.rail r)).pg := by
  unfold railChange; dsimp only
  repeat' split
  · simp
  · rw [railFailed_rail h, railWarned_rail]; simp
  · rw [railFailed_rail h]; simp
  · rw [railWarned_rail]; simp
  · simp

/-- A rail whose monitor does not act shows its new levels and raises nothing. -/
theorem railChange_unused (f : RailState → RailState) (h : (f (s.rail r)).up = false) :
    railChange r f s = modRail r f (droopTick s) := by
  have hw : (f (s.rail r)).warns = false := by simp [RailState.warns, h]
  have hf : (f (s.rail r)).fails = false := by simp [RailState.fails, h]
  simp [railChange, hw, hf]

theorem pgChange_falls : pgChange r false s = railChange r (fun x => { x with pg := false, up := x.up || (false && x.req) }) s := rfl

theorem oppAck_running (hb : s.oppBusy = true) (hr : s.press.running = true) : oppAck s = reachStandby { s with power := { s.power with
    oppCurrent := s.power.oppPending, oppWait := false, oppReturn := false, oppBookAt := none, oppStatReset := false } } := by
  simp [oppAck, hb, hr]

/-- Gating quires moves the press and the memory system alone. -/
theorem gateSpareable_frame (s : State) : (gateSpareable s).power = s.power ∧ (gateSpareable s).faults = s.faults := by
  unfold gateSpareable
  generalize upto 0 64 = l
  constructor
  · exact forEach_keeps (·.power) _ (fun q s => by split <;> rfl) l s
  · exact forEach_keeps (·.faults) _ (fun q s => by split <;> rfl) l s

theorem reachStandby_faults : (reachStandby s).faults = s.faults := by
  unfold reachStandby; split
  · exact (gateSpareable_frame _).2
  · rfl

/-- STANDBY changes the state alone, where it is reached. -/
theorem reachStandby_power : (reachStandby s).power = if s.power.target = 2 && !s.power.blocked && s.power.oppPending = 2 && !s.oppBusy &&
    s.power.oppCurrent = 2 && (s.power.state == .ready || s.power.state == .run) then { s.power with state := .standby } else s.power := by
  unfold reachStandby; split
  · exact (gateSpareable_frame _).1
  · rfl

/-- An acknowledged point becomes current; where STANDBY waits for it, the device enters STANDBY (03 R79). -/
theorem oppAck_current (hb : s.oppBusy = true) (hr : s.press.running = true) :
    (oppAck s).power.oppCurrent = s.power.oppPending ∧ (oppAck s).power.oppWait = false ∧ (oppAck s).power.oppBookAt = none := by
  rw [oppAck_running hb hr, reachStandby_power]
  split <;> simp

/-- STANDBY waits for operating point 2: the device enters it with the acknowledge. -/
theorem oppAck_standby (hb : s.oppBusy = true) (hr : s.press.running = true) (ht : s.power.target = 2) (hk : s.power.blocked = false)
    (hp : s.power.oppPending = 2) (hs : s.power.state = .ready ∨ s.power.state = .run) : (oppAck s).power.state = .standby := by
  rw [oppAck_running hb hr, reachStandby_power]
  simp [ht, hk, hp, hs, State.oppBusy]

/-- A missing acknowledge gives the point back, with a CONTAINED fault. -/
theorem oppTimeout_gives_back (hw : s.power.oppWait = true) (hr : s.power.oppReturn = false) : oppTimeout s =
    report1 121 2 0x15 0 false { s with power := { s.power with
      oppPending := s.power.oppPrev, oppPrev := s.power.oppPending, oppReturn := true,
      oppBookAt := some (max s.power.oppPending s.power.oppPrev) } } := by
  simp [oppTimeout, hw, hr]

theorem clockWindow_good {edges : Nat} (hp : s.chip.porstN = true) (hr : (s.clk c).req = true) (ha : (s.clk c).ack = true)
    (hk : rateOk s c edges = true) : clockWindow c false edges s = modClk c (fun k => { k with bad := false, down := false }) s := by
  simp [clockWindow, hp, hr, ha, hk]

end

/-- Settles O8: each input and acknowledge is followed, and the reports that may come with one leave the power state. -/
theorem clocksAndPoints : Obligations.ClocksAndPoints := by
  unfold Obligations.ClocksAndPoints
  refine ⟨?pgRises, ?pgFalls, ?ack, ?oppAck, ?oppTimeout, ?window⟩
  case pgRises =>
    intro dt r s hr
    refine ⟨_, exec_pgInputChange dt r true s (by simp [Instr.wf, hr]), ?_⟩
    simp [pgChange, railChange_pg _ hr]
  case pgFalls =>
    intro dt r s hr hu hw
    refine ⟨_, exec_pgInputChange dt r false s (by simp [Instr.wf, hr]), ?_⟩
    rw [pgChange_falls, railChange_unused _ (by simpa using hu), settle_faults_records, modRail_faults, droopTick_faults (by simpa using hw)]
    simp
  case ack =>
    intro dt c l s
    refine ⟨_, exec_clkAckChange dt c l s rfl, ?_⟩
    have hack : ((clkAck c l (advance dt s)).clk c).ack = l := by
      unfold clkAck; dsimp only
      split
      · rw [wakeAdvance_clk_ack]; cases c <;> simp [State.clk, modClk]
      · simp
    exact settle_clk.1.trans hack
  case oppAck =>
    intro dt s hb hr hs
    refine ⟨_, exec_oppAckSeen dt s rfl, ?_⟩
    have hb' : (advance dt s).oppBusy = true := by simpa using hb
    have hr' : (advance dt s).press.running = true := by simpa using hr
    obtain ⟨hcur, hwait, hbook⟩ := oppAck_current hb' hr'
    rw [settle_power_of_not_entering (by rw [oppAck_running hb' hr', reachStandby_faults]; simp [hs])]
    refine ⟨by simpa using hcur, by simpa using hwait, by simpa using hbook, fun ⟨ht, hk, hp, hst⟩ => ?_⟩
    simpa using oppAck_standby hb' hr' (by simpa using ht) (by simpa using hk) (by simpa using hp) (by simpa using hst)
  case oppTimeout =>
    intro dt s hw hr hn hs
    refine ⟨_, exec_oppAckTimeout dt s rfl, ?_⟩
    rw [oppTimeout_gives_back (by simpa using hw) (by simpa using hr)]
    refine ⟨?_, ?_, report1_first_recorded (by simpa using hn) (by decide)⟩
    · rw [settle_power_of_not_entering (by rw [report1_first_safe (by simpa using hn) (by decide)]; simp [hs])]; simp
    · rw [settle_power_of_not_entering (by rw [report1_first_safe (by simpa using hn) (by decide)]; simp [hs])]; simp
  case window =>
    intro dt edges c s hp hr ha hk
    refine ⟨_, exec_clockMonitorWindow dt c false edges s rfl, ?_⟩
    rw [clockWindow_good (by simpa using hp) (by simpa using hr) (by simpa using ha) (by simpa [rateOk] using hk), settle_clk.2.1, settle_clk.2.2]
    simp


section
variable {s old : State} {r : Rail}

/-! ### Warnings and heat -/

/-- The fault source that a rail's warning raises (03 R84). -/
def railSource (r : Rail) : Nat := if r = .array then 121 else 122

/-- A warning raises the CORRECTED fault of its rail. -/
theorem railWarned_recorded (h : Tbl.get? s.faults.records (railSource r) = none) :
    Safety.recorded (settle old (railWarned r s)) (railSource r) 1 0x12 := by
  cases r <;> exact report_first_recorded _ h (by decide)

/-- A warning that begins, without a failure that begins, is a warning alone. -/
theorem supplyChange_warns (hp : s.chip.porstN = true) (hu : (s.rail r).up = true) (hw : (s.rail r).warn = false) :
    supplyChange r true false s = railWarned r (modRail r (fun x => { x with warn := true, fail := false }) (droopTick s)) := by
  have hb : ({ s.rail r with warn := true, fail := false } : RailState).warns && !(s.rail r).warns := by simp [RailState.warns, hu, hw]
  have he : ({ s.rail r with warn := true, fail := false } : RailState).fails && !(s.rail r).fails ↔ False := by
    cases hg : (s.rail r).pg <;> simp [RailState.fails, hu, hg]
  simp only [supplyChange, railChange, hp, if_pos hb, he]
  rfl

/-- The highest of readings, as the sensors give it. -/
theorem foldl_highest (l : List Int) (a : Int) : let m := l.foldl (fun m x => if m < x then x else m) a
    (m = a ∨ m ∈ l) ∧ a ≤ m ∧ ∀ x ∈ l, x ≤ m := by
  induction l generalizing a with
  | nil => simp
  | cons y t ih =>
    rw [List.foldl_cons]
    by_cases hay : a < y
    · obtain ⟨hm, ha, hl⟩ := ih y
      rw [if_pos hay]
      exact ⟨.inr (List.mem_cons.2 hm), by omega, by simpa [ha] using hl⟩
    · obtain ⟨hm, ha, hl⟩ := ih a
      rw [if_neg hay]
      exact ⟨hm.imp_right (List.mem_cons_of_mem _), ha, List.forall_mem_cons.2 ⟨by omega, hl⟩⟩

/-- Below 150 C no FATAL fault comes of the sensors: TJ_MAX and the stage alone follow them. -/
theorem thermalSample_cool {l : List Int} (hm : s.mainUp = true) (hl : l ≠ []) (hc : ∀ x ∈ l, x < 600) (hs : s.power.stage ≠ 3) :
    (thermalSample l s).power.tjMax ∈ l ∧ (∀ x ∈ l, x ≤ (thermalSample l s).power.tjMax) ∧
      (thermalSample l s).power.stage = stageFor s.power.stage (thermalSample l s).power.tjMax := by
  obtain ⟨y, l, rfl⟩ := List.exists_cons_of_ne_nil hl
  obtain ⟨hmem, -, hall⟩ := foldl_highest (y :: l) y
  have hmem' : (y :: l).foldl (fun m x => if m < x then x else m) y ∈ y :: l := hmem.elim (fun h => by rw [h]; exact List.mem_cons_self) id
  have hst : stageFor s.power.stage ((y :: l).foldl (fun m x => if m < x then x else m) y) ≠ 3 := by
    have := hc _ hmem'
    unfold stageFor
    simp only [Bool.or_eq_true, Bool.and_eq_true, decide_eq_true_eq]
    split <;> [omega; split <;> [omega; split]] <;> omega
  unfold thermalSample
  rw [if_neg (by simp [hm])]
  dsimp only
  rw [List.headD_cons, if_neg (fun h => hst (of_decide_eq_true (Bool.and_eq_true_iff.1 h).1))]
  exact ⟨hmem', hall, rfl⟩

theorem stageFor_zero {old : Nat} {t : Int} (ho : old ≠ 3) (ht : t < 600) : stageFor old t = 0 ↔ t < 540 ∧ (old = 0 ∨ t ≤ 532) := by
  unfold stageFor
  have h3 : ¬ (old = 3 ∨ 600 ≤ t) := by omega
  simp only [Bool.or_eq_true, Bool.and_eq_true, decide_eq_true_eq]
  split <;> [skip; split <;> [skip; split]] <;> omega

end

/-- Settles O9: a monitor acts only on a rail in use; the stage follows the highest reading. -/
theorem suppliesAndHeat : Obligations.SuppliesAndHeat := by
  unfold Obligations.SuppliesAndHeat
  refine ⟨?unused, ?warning, ?heat⟩
  case unused =>
    intro dt r warn fail s hu hw
    refine ⟨_, exec_supplyMonitorChange dt r warn fail s rfl, ?_⟩
    rw [settle_rail, settle_faults_records, supplyChange, railChange_unused _ (by simpa using hu), modRail_faults, droopTick_faults (by simpa using hw)]
    simp
  case warning =>
    intro dt r s hp hu hn hw hf
    refine ⟨_, exec_supplyMonitorChange dt r true false s rfl, ?_⟩
    rw [settle_rail, supplyChange_warns (by simpa using hp) (by simpa using hu) (by simpa using hn)]
    refine ⟨?_, ?_, railWarned_recorded ?_⟩
    · simp [railWarned_rail]
    · simp [railWarned_rail]
    · rw [modRail_faults, droopTick_faults (by simpa using hw)]
      simpa [railSource] using hf
  case heat =>
    intro dt l s hl hr hm hc hs
    refine ⟨_, exec_thermalSample dt l s (by simpa [Instr.wf, hl] using hr), ?_⟩
    obtain ⟨hmem, hall, hst⟩ := thermalSample_cool (s := advance dt s) (by simpa using hm) (List.ne_nil_of_length_eq_add_one hl) hc (by simpa using hs)
    rw [settle_power_tjMax, settle_power_stage, hst, stageFor_zero (by simpa using hs) (hc _ hmem)]
    simpa using And.intro hmem hall

end Sys2Proof.Machine
end

section
/-! SUPPORT. The time base: what a strobe, a comparison window, a loss and a write of its registers do (03 R88-R94), and the statements that
they settle. -/

namespace Sys2Proof.Machine

section
variable {s old : State}

/-! ### Time that passes -/

theorem switch_of_none {t : TimeBase} (h : t.selNext = none) : t.switch = t := by unfold TimeBase.switch; rw [h]

/-- While no written REF_SEL waits, the time base alone counts. -/
theorem advance_tb (dt : Nat) (h : s.tb.selNext = none) : ∃ n, (advance dt s).tb = { s.tb with now := n } := by
  unfold advance
  split
  · exact ⟨_, switch_of_none (show ({ s.tb with now := (s.tb.now + dt) % 2 ^ 64 } : TimeBase).selNext = none from h)⟩
  · exact ⟨_, rfl⟩

theorem switch_holdover {t : TimeBase} (h : t.quality = 1) : t.switch.quality = 1 := by
  unfold TimeBase.switch
  split
  · repeat' split
    all_goals simp_all
  · exact h

theorem switch_hiLatch (t : TimeBase) : t.switch.hiLatch = t.hiLatch := by
  unfold TimeBase.switch
  repeat' split
  all_goals rfl

/-- A holdover lasts while time passes, also over the edge of a written REF_SEL. -/
theorem advance_holdover (dt : Nat) (h : s.tb.quality = 1) : (advance dt s).tb.quality = 1 := by
  unfold advance; split
  · exact switch_holdover h
  · exact h

@[simp] theorem advance_hiLatch (dt : Nat) : (advance dt s).tb.hiLatch = s.tb.hiLatch := by
  unfold advance; split
  · exact switch_hiLatch _
  · rfl

theorem switch_due {t : TimeBase} {k : Bool} {due : Nat} {r : Int} (h : t.selNext = some (k, due, r)) (hd : due ≤ t.now)
    (hk : t.kclkLost = false) (ht : k = true ∨ t.timeLost = false) :
    t.switch.selKclk = k ∧ t.switch.rate = r ∧ t.switch.refSel = k := by
  unfold TimeBase.switch
  rw [h]
  have hl : (!k && t.timeLost) = false := by rcases ht with rfl | ht <;> simp [*]
  simp [hk, hl, Nat.not_lt.2 hd, TimeBase.refSel]

/-! ### Strobes -/

/-- An offset is slewed away with its own sign and at no more than 500 ppm (03 R90). -/
theorem slewRate_bounds (e : Int) : -500000 ≤ slewRate s e ∧ slewRate s e ≤ 500000 ∧ (slewRate s e).sign = e.sign := by
  unfold slewRate
  extract_lets most
  have hm : 1 ≤ most ∧ most ≤ 500000 := by omega
  have hr := Nat.mod_lt (Config.freeNat s.freeNo) hm.1
  clear_value most
  generalize Config.freeNat s.freeNo % most = n at hr
  split
  case isTrue h => subst h; simp
  case isFalse h =>
    have hn : (((1 + n : Nat) : Int)).sign = 1 := Int.sign_eq_one_of_pos (by omega)
    rw [Int.sign_mul, Int.sign_sign, hn, mul_one]
    rcases lt_or_gt_of_ne h with h | h
    · rw [Int.sign_eq_neg_one_of_neg h]; exact ⟨by omega, by omega, rfl⟩
    · rw [Int.sign_eq_one_of_pos h]; exact ⟨by omega, by omega, rfl⟩

/-- The first strobe loads the selected TIME_IN. -/
theorem acceptStrobe_first {n : Nat} {p : Int} (hl : s.tb.loaded = false) (hk : s.tb.selKclk = false) :
    (acceptStrobe n p s).tb.now = n ∧ (acceptStrobe n p s).tb.loaded = true ∧ (acceptStrobe n p s).tb.timeLost = false ∧
      (acceptStrobe n p s).tb.quality = if s.tb.quality = 2 then 0 else s.tb.quality := by
  simp [acceptStrobe, hl, hk]

/-- A later strobe within 1 ms slews the time base. -/
theorem acceptStrobe_near {n : Nat} {p : Int} (hl : s.tb.loaded = true) (hk : s.tb.selKclk = false) (hq : s.tb.quality = 0)
    (he : ((n : Int) - p).natAbs ≤ 1000000) :
    let t := (acceptStrobe n p s).tb
    t.now = s.tb.now ∧ t.lastTimeIn = n ∧ (-500000 ≤ t.rate ∧ t.rate ≤ 500000 ∧ t.rate.sign = ((n : Int) - p).sign) ∧ t.quality = 0 := by
  simp only [acceptStrobe, hl, hk, hq, Nat.not_lt.2 he]
  exact ⟨rfl, rfl, slewRate_bounds _, rfl⟩

theorem strobe_valid {n : Nat} {j : Int} (hp : s.chip.porstN = true) (hi : s.chip.keeperInit = true) :
    strobe n true j s = acceptStrobe n (stampAt s j) { s with tb := { s.tb with timeValid := true } } := by
  simp [strobe, hp, hi]

/-! ### Comparison windows -/

/-- A window that ends between accepted strobes, after one with a value, is judged by TIME_IN's advance across it. -/
theorem windowEnd_judged {edge : Nat} {u v : Int} (hd : edgeDue s edge = true) (hu : s.tb.edgeTimeIn = some u)
    (hv : interpolate edge s.tb.strobeLog = some v) : windowEnd edge s = judgeWindow (v - u) { s with tb := { s.tb with
      kclkLost := false, lastEdge := edge, edgeTimeIn := some v, strobeLog := strobesFrom edge s.tb.strobeLog } } := by
  simp only [windowEnd, hd, hu, hv]; rfl

/-- Outside holdover a window within 100 ppm keeps its rate. -/
theorem judgeWindow_good {d : Int} (hq : s.tb.quality ≠ 1) (hd : (windowDiff d).natAbs ≤ 100000) :
    (judgeWindow d s).tb = { s.tb with diff := windowDiff d, count := 0, goodRate := s.tb.rate } := by
  have hs : diffShown s (windowDiff d) = windowDiff d := by
    unfold diffShown
    have h : -(2 ^ 31) ≤ windowDiff d ∧ windowDiff d < 2 ^ 31 := by omega
    rw [if_pos (by simpa using h)]
  simp [judgeWindow, useFree, hs, hq, Nat.not_lt.2 hd]

/-- Outside holdover a window beyond 100 ppm is counted; the eighth in a row is a fault. -/
theorem judgeWindow_bad {d : Int} (hq : s.tb.quality ≠ 1) (hd : 100000 < (windowDiff d).natAbs) (hc : s.tb.count < 7) :
    (judgeWindow d s).tb = { s.tb with diff := diffShown s (windowDiff d), count := s.tb.count + 1 } := by
  simp [judgeWindow, useFree, hq, hd, Nat.not_le.2 (Nat.succ_lt_succ hc)]

/-! ### Losses and writes -/

/-- A holdover that begins takes the rate of the last good window and raises CORRECTED on source 123. -/
theorem enterHoldover_begins {c : Nat} (hq : s.tb.quality ≠ 1) : enterHoldover c s = report1 123 1 0x17 0 false { s with tb := { s.tb with
    quality := 1, rate := s.tb.goodRate, count := 0, evt := Nat.lor s.tb.evt c, keepHoldover := false } } := by
  simp [enterHoldover, hq]

theorem relock_tb : (relock s).tb = { s.tb with
    quality := freeQuality s.tb.loaded s.tb.selKclk s.tb.everValid, keepHoldover := false, count := 0, rate := anyRate s } := rfl

theorem freeQuality_ne_holdover (a b c : Bool) : freeQuality a b c ≠ 1 := by unfold freeQuality; split <;> decide

theorem refSelWrite_refSel (k : Bool) : (refSelWrite k s).tb.refSel = k := by
  unfold refSelWrite
  split
  case isTrue h => simpa using h
  split
  case isTrue h => simpa [TimeBase.refSel] using h
  case isFalse => dsimp only; split <;> simp [TimeBase.refSel, useFree]

/-- A reference that is not selected yet is taken from the next KCLK edge on. -/
theorem refSelWrite_selNext {k : Bool} (hn : s.tb.selNext = none) (hk : s.tb.selKclk ≠ k) :
    (refSelWrite k s).tb.selNext = some (k, s.now + 1 + Config.freeNat (s.freeNo + 1) % 30518, anyRate s) := by
  have hr : s.tb.refSel = s.tb.selKclk := by simp [TimeBase.refSel, hn]
  unfold refSelWrite
  rw [if_neg (by simpa [hr] using hk), if_neg (by simpa using hk)]
  dsimp only; split <;> simp [useFree]

end

/-- Settles O10: the strobe, the window and the read, each at the state that time has passed in. -/
theorem timeBaseFollowsItsReference : Obligations.TimeBaseFollowsItsReference := by
  unfold Obligations.TimeBaseFollowsItsReference
  refine ⟨?load, ?slew, ?good, ?bad, ?read⟩
  case load =>
    intro dt n j s hn hp hi hl hk hs
    refine ⟨_, exec_timeStrobeEdge dt n true j s (by simpa [Instr.wf] using hn), ?_⟩
    obtain ⟨now, ht⟩ := advance_tb dt hs
    rw [settle_tb, strobe_valid (by simpa using hp) (by simpa using hi)]
    have h := acceptStrobe_first (n := n) (p := stampAt (advance dt s) j)
      (s := { advance dt s with tb := { (advance dt s).tb with timeValid := true } }) (by simp [ht, hl]) (by simp [ht, hk])
    simpa only [show (advance dt s).tb.quality = s.tb.quality by rw [ht]] using h
  case slew =>
    intro dt n j s hn hp hi hl hk hs hq he
    refine ⟨_, exec_timeStrobeEdge dt n true j s (by simpa [Instr.wf] using hn), ?_⟩
    obtain ⟨now, ht⟩ := advance_tb dt hs
    rw [settle_tb, strobe_valid (by simpa using hp) (by simpa using hi)]
    obtain ⟨hnow, hlast, ⟨hlo, hhi, hsign⟩, hqual⟩ := acceptStrobe_near (n := n) (p := stampAt (advance dt s) j)
      (s := { advance dt s with tb := { (advance dt s).tb with timeValid := true } }) (by simp [ht, hl])
      (by simp [ht, hk]) (by simp [ht, hq]) he
    exact ⟨hnow.trans (advance_now s dt hp), hlast, hlo, hhi, hsign, hqual⟩
  case good =>
    intro dt edge u v s he hs hd hq hu hv hb
    refine ⟨_, exec_tbCompareWindowEnd dt edge s (by simp [Instr.wf]), ?_⟩
    obtain ⟨now, ht⟩ := advance_tb dt hs
    rw [settle_tb, windowEnd_judged (u := u) (v := v) (by simpa [edgeDue, ht] using hd) (by simp [ht, hu]) (by simp [ht, hv]),
      judgeWindow_good (by simp [ht, hq]) hb]
    simp [ht]
  case bad =>
    intro dt edge u v s he hs hd hq hu hv hb hc
    refine ⟨_, exec_tbCompareWindowEnd dt edge s (by simp [Instr.wf]), ?_⟩
    obtain ⟨now, ht⟩ := advance_tb dt hs
    rw [settle_tb, windowEnd_judged (u := u) (v := v) (by simpa [edgeDue, ht] using hd) (by simp [ht, hu]) (by simp [ht, hv]),
      judgeWindow_bad (by simp [ht, hq]) hb (by simp [ht, hc])]
    simp [ht]
  case read =>
    intro dt debug s hk
    refine ⟨_, exec_tbNowLoRead dt true debug s rfl, ?_⟩
    have hp : s.chip.porstN = true := by simp [State.keeperUp] at hk; simp [hk]
    have hk' : (advance dt s).keeperUp = true := by simpa using hk
    rw [settle_tb, settle_chip]
    cases debug <;> simp [keeperRead, hk', State.now, show (advance dt s).tb.now = (s.tb.now + dt) % 2 ^ 64 from advance_now s dt hp]

/-- Settles O11: a loss, a relock and a selection, each at the state that time has passed in. -/
theorem holdoverAndRelock : Obligations.HoldoverAndRelock := by
  unfold Obligations.HoldoverAndRelock
  refine ⟨?timeIn, ?kclk, ?relock, ?without, ?select, ?edge⟩
  case timeIn =>
    intro dt s hp hk hs hq hf
    refine ⟨_, exec_timeInLossTimeout dt true s rfl, ?_⟩
    obtain ⟨now, ht⟩ := advance_tb dt hs
    have hl : timeInLoss true (advance dt s) = enterHoldover 4 (dropWindows { advance dt s with tb := { (advance dt s).tb with
        timeValid := false, timeLost := true, strobes := 0 } }) := by
      simp [timeInLoss, loseTimeIn, hp, ht, hk]
    rw [settle_tb, hl, enterHoldover_begins (by simp [dropWindows, ht, hq])]
    refine ⟨?_, ?_, ?_, ?_, report1_first_recorded (by simpa [dropWindows] using hf) (by decide)⟩ <;> simp [dropWindows, ht]
  case kclk =>
    intro dt s hp hk hs hq hf
    refine ⟨_, exec_kclkLoss dt s rfl, ?_⟩
    obtain ⟨now, ht⟩ := advance_tb dt hs
    have hl : onKclkLoss (advance dt s) = enterHoldover 4 (dropWindows { advance dt s with tb := { (advance dt s).tb with kclkLost := true } }) := by
      simp [onKclkLoss, loseKclk, hp, ht, hk]
    rw [settle_tb, hl, enterHoldover_begins (by simp [dropWindows, ht, hq])]
    refine ⟨?_, ?_, ?_, report1_first_recorded (by simpa [dropWindows] using hf) (by decide)⟩ <;> simp [dropWindows, ht]
  case relock =>
    intro dt s hk hq
    refine ⟨_, exec_tbRelock dt true s rfl, ?_⟩
    rw [settle_tb, keeperWrite_ok (by simpa using hk), respond_tb, relockWrite, if_pos (advance_holdover dt hq), relock_tb]
    exact ⟨freeQuality_ne_holdover _ _ _, rfl, rfl⟩
  case without =>
    intro dt s hk hs hq
    obtain ⟨now, ht⟩ := advance_tb dt hs
    rw [exec_tbRelock dt true s rfl, keeperWrite_ok (by simpa using hk), relockWrite, if_neg (by simpa [ht] using hq)]
  case select =>
    intro dt k s hk
    refine ⟨_, exec_tbRefSelWrite dt true k s rfl, ?_⟩
    rw [settle_tb, settle_chip, keeperWrite_ok (by simpa using hk), respond_tb]
    refine ⟨refSelWrite_refSel k, rfl, fun hs hn => ?_⟩
    obtain ⟨now, ht⟩ := advance_tb dt hs
    refine ⟨_, _, refSelWrite_selNext (by simp [ht, hs]) (by simpa [ht] using hn), ?_⟩
    have := Nat.mod_lt (Config.freeNat ((advance dt s).freeNo + 1)) (show 0 < 30518 by decide)
    omega
  case edge =>
    intro dt due k r s hp hs hd hk ht
    have h : (advance dt s).tb = ({ s.tb with now := (s.tb.now + dt) % 2 ^ 64 } : TimeBase).switch := by simp [advance, hp]
    rw [h]
    exact switch_due hs hd hk ht

end Sys2Proof.Machine
end

section
/-! SUPPORT. Signals, messages and parity errors of the event controller (16 R517-R523), and the statement that they settle. -/

namespace Sys2Proof.Machine

/-- A table that is changed key by key. -/
theorem Tbl.get?_mapKeys {α β : Type} (f : Nat → α → β) (t : Tbl α) (k : Nat) :
    Tbl.get? (t.map (fun p => (p.1, f p.1 p.2))) k = (Tbl.get? t k).map (f k) := by
  induction t with
  | nil => rfl
  | cons p t ih =>
    simp only [List.map_cons, Tbl.get?]
    split
    case isTrue h => rw [h]; rfl
    case isFalse =>
      split
      · rfl
      · exact ih

section
variable {s u old : State} {k : Nat}

/-! ### A target after what follows every command -/

@[simp] theorem modTarget_target (f : Target → Target) : (modTarget k f s).target k = f (s.target k) := Tbl.getD_set_self ..

/-- Following its sources moves a target's output and the mode in force alone. -/
theorem settleTarget_frame (s : State) (k : Nat) (x : Target) : ∃ o m, settleTarget s k x = { x with out := o, modeNow := m } := by
  unfold settleTarget
  dsimp only
  repeat' split
  all_goals exact ⟨_, _, rfl⟩

/-- What a target keeps when it follows its sources. -/
theorem settle_target_keeps {β : Type} (g : Target → β) (hg : ∀ s k x, g (settleTarget s k x) = g x) :
    g ((settle old u).target k) = g (u.target k) := by
  have h : Tbl.get? (settle old u).events.targets k = (Tbl.get? u.events.targets k).map
      (settleTarget (noteSafeChange old (finishPktStops (finishDetaches (finishSafe u)))) k) := by
    simp [settle, settleTargets, Tbl.get?_mapKeys]
  simp only [State.target, Tbl.getD, h]
  cases Tbl.get? u.events.targets k
  · rfl
  · exact hg ..

@[simp] theorem settle_target_msgPend : ((settle old u).target k).msgPend = (u.target k).msgPend :=
  settle_target_keeps (·.msgPend) (fun s k x => by obtain ⟨_, _, h⟩ := settleTarget_frame s k x; rw [h])
@[simp] theorem settle_target_msgSent : ((settle old u).target k).msgSent = (u.target k).msgSent :=
  settle_target_keeps (·.msgSent) (fun s k x => by obtain ⟨_, _, h⟩ := settleTarget_frame s k x; rw [h])
@[simp] theorem settle_target_modEnd : ((settle old u).target k).modEnd = (u.target k).modEnd :=
  settle_target_keeps (·.modEnd) (fun s k x => by obtain ⟨_, _, h⟩ := settleTarget_frame s k x; rw [h])
@[simp] theorem settle_target_idle : ((settle old u).target k).idle = (u.target k).idle :=
  settle_target_keeps (·.idle) (fun s k x => by obtain ⟨_, _, h⟩ := settleTarget_frame s k x; rw [h])
@[simp] theorem settle_target_service : ((settle old u).target k).service = (u.target k).service :=
  settle_target_keeps (·.service) (fun s k x => by obtain ⟨_, _, h⟩ := settleTarget_frame s k x; rw [h])

/-- A target whose output has a source pending keeps its output. -/
theorem settleTargets_out (hm : Tbl.has s.events.targets k = true) (ho : (s.target k).out = true) (hp : (pendingAt s k).isSome = true) :
    ((settleTargets s).target k).out = true := by
  obtain ⟨x, hx⟩ := Option.isSome_iff_exists.1 hm
  have hk : (settleTargets s).target k = settleTarget s k (s.target k) := by
    simp [State.target, Tbl.getD, settleTargets, Tbl.get?_mapKeys, hx]
  have hn : (pendingAt s k).isNone = false := by simpa using hp
  rw [hk]
  simp [settleTarget, ho, hn]

/-! ### What is pending while a target signals -/

theorem any_service_set (t : Tbl Target) (x : Target) (n : Nat) (h : x.service = (Tbl.getD t k {}).service) :
    (Tbl.set t k x).any (fun p => p.2.service = some n) = t.any (fun p => p.2.service = some n) := by
  induction t with
  | nil =>
    have hx : x.service = none := h
    simp [Tbl.set, hx]
  | cons p t ih =>
    obtain ⟨j, y⟩ := p
    by_cases hkj : k = j
    · have hx : x.service = y.service := by simpa [Tbl.getD, Tbl.get?, hkj] using h
      simp [Tbl.set, hkj, hx]
    · by_cases hlt : k < j
      · have hx : x.service = none := by simpa [Tbl.getD, Tbl.get?, hkj, hlt] using h
        simp [Tbl.set, hkj, hlt, hx]
      · have ih := ih (by simpa [Tbl.getD, Tbl.get?, hkj, hlt] using h)
        simp only [Tbl.set, if_neg hkj, if_neg hlt, List.any_cons, ih]

/-- A change of a target that leaves its service leaves what is pending. -/
theorem pendingAt_modTarget (f : Target → Target) (j : Nat) (h : (f (s.target k)).service = (s.target k).service) :
    pendingAt (modTarget k f s) j = pendingAt s j := by
  have hs (n : Nat) : sourcePending (modTarget k f s) n = sourcePending s n := by
    have hin : inService (modTarget k f s) n = inService s n := any_service_set s.events.targets (f (s.target k)) n h
    unfold sourcePending
    rw [hin]; rfl
  unfold pendingAt
  simp only [hs]
  rfl

@[simp] theorem report1_events {src cls cause detail : Nat} {b : Bool} : (report1 src cls cause detail b s).events = s.events := report_events _

theorem transfer_events (t : TxAttr) (p : Purpose) (a n : Nat) (data : List Byte) : (transfer t p a n data s).events = s.events :=
  (congrArg State.events (outside_transfer t p a n data) :)

/-! ### Signals and messages -/

theorem signal_raises (hr : readyToSignal s k = true) (hm : (s.target k).modeNow = false) (ho : (s.target k).out = false) :
    signal k s = modTarget k (fun x => startTimer s.now { x with out := true }) s := by
  simp [signal, hr, hm, ho]

theorem message_target (hr : readyToSignal s k = true) (hm : (s.target k).modeNow = true) (hp : (s.target k).msgPend = false)
    (hs : (s.target k).msgSent = false) :
    (message k s).target k = startTimer s.now { s.target k with msgPend := true, msgSent := true } := by
  have hmsg : message k s = transfer { sys := true, cls := 3, prio := 2, port0 := true } (.message k) (s.target k).msgAddr 4
      (leBytes (messageWord (s.target k) ((pendingAt s k).getD 0)) 4)
      (modTarget k (fun x => startTimer s.now { x with msgPend := true, msgSent := true }) s) := by
    simp [message, hr, hm, hp, hs]
  rw [hmsg, State.target, transfer_events]
  exact modTarget_target _

theorem readyToSignal_pending (h : readyToSignal s k = true) : (pendingAt s k).isSome = true := by
  simp only [readyToSignal, Bool.and_eq_true] at h
  exact h.1.2

end

/-- Settles O13: each command changes one target or the enables; what follows it keeps a signal whose source is pending. -/
theorem targetsSignal : Obligations.TargetsSignal := by
  unfold Obligations.TargetsSignal
  refine ⟨?signal, ?message, ?expiry, ?idle, ?restored, ?enableWord, ?routeWord, ?service⟩
  case signal =>
    intro dt k s hk hq hr hm ho
    refine ⟨_, exec_evtSignal dt k s (by simpa [Instr.wf] using hk), ?_⟩
    have hsig : signal k (advance dt s) = _ := signal_raises hr (by simpa using hm) (by simpa using ho)
    constructor
    · rw [hsig, settle_unmoved hq (by simp) (by simp) (by simp) (by simp)]
      refine settleTargets_out (by simp [modTarget, Tbl.has]) (by simp [startTimer]) ?_
      rw [pendingAt_modTarget _ _ (by rfl)]
      exact readyToSignal_pending hr
    · rw [hsig]; simp [startTimer]
  case message =>
    intro dt k s hk hq hr hm hp hn
    refine ⟨_, exec_evtMessage dt k s (by simpa [Instr.wf] using hk), ?_⟩
    have hmsg := message_target hr (by simpa using hm) (by simpa using hp) (by simpa using hn)
    simp [hmsg, startTimer]
  case expiry =>
    intro dt k s hk hm
    refine ⟨_, exec_moderationExpiry dt k s (by simpa [Instr.wf] using hk), ?_⟩
    simp [moderationEnd, hm]
  case idle =>
    intro dt k level s hk hm
    refine ⟨_, exec_hostIdleEdge dt k level s (by simpa [Instr.wf] using hk), ?_⟩
    simp [onHostIdleEdge, hm]
  case restored =>
    intro dt s hr hn
    refine ⟨_, exec_evtStateParity dt .restored s rfl, ?_⟩
    have hr' : eventsRun (advance dt s) = true := by simpa [eventsRun] using hr
    simp only [onEvtStateParity, if_pos hr', eventParity]
    exact ⟨by simp, by simp, report1_first_recorded (by simpa using hn) (by decide)⟩
  case enableWord =>
    intro dt k s hk hr hn
    refine ⟨_, exec_evtStateParity dt (.enableWord k) s (by simpa [Instr.wf, EvtParity.wf] using hk), ?_⟩
    have hr' : eventsRun (advance dt s) = true := by simpa [eventsRun] using hr
    simp only [onEvtStateParity, if_pos hr', eventParity]
    exact ⟨by simp [clearEnables], by simp [clearEnables], report1_first_recorded (by simpa [clearEnables] using hn) (by decide)⟩
  case routeWord =>
    intro dt k s hk hr hn
    refine ⟨_, exec_evtStateParity dt (.routeWord k) s (by simpa [Instr.wf, EvtParity.wf] using hk), ?_⟩
    have hr' : eventsRun (advance dt s) = true := by simpa [eventsRun] using hr
    simp only [onEvtStateParity, if_pos hr', eventParity]
    exact ⟨by simp [clearRouteWord], by simp [clearRouteWord], report1_first_recorded (by simpa [clearRouteWord] using hn) (by decide)⟩
  case service =>
    intro dt k s hk hr hn
    refine ⟨_, exec_evtStateParity dt (.service k) s (by simpa [Instr.wf, EvtParity.wf] using hk), ?_⟩
    have hr' : eventsRun (advance dt s) = true := by simpa [eventsRun] using hr
    simp only [onEvtStateParity, if_pos hr', eventParity]
    have ht (v : State) : (report1 126 2 3 0 false v).target k = v.target k := congrArg (fun e : Events => Tbl.getD e.targets k {}) report1_events
    exact ⟨by simp [ht], by simp [modTarget]⟩

end Sys2Proof.Machine
end

section
/-! SUPPORT. The fault collector, its pin and log, device safe state and injection (14 R465-R490), and the statements that they settle. -/

namespace Sys2Proof.Machine

section
variable {s u old : State}

/-! ### Records -/

/-- A fault below FATAL that finds a record below FATAL, and leaves it so, has no reaction of a class. -/
theorem report_second (f : FaultIn) {r : Record} (h : Tbl.get? s.faults.records f.src = some r) (hc : (recordFor (some r) f s.now).1.cls ≠ 3) :
    report [f] s = faultEffect f (collect [f] s) := by
  have e : reactionsOf [f] s = [] := by
    simp [reactionsOf, periodFaults_one, h, reactionOf, hc]
  unfold report
  rw [e, periodFaults_one]; rfl

/-- A second counting CORRECTED fault escalates the record. -/
theorem recordFor_escalates {f : FaultIn} {r : Record} (hf : f.cls = 1) (hr : r.cls = 1) (hk : r.counting = true) (hc : counts f = true) (now : Nat) :
    (recordFor (some r) f now).1.cls = 2 ∧ (recordFor (some r) f now).1.escalated = true ∧ (recordFor (some r) f now).1.cause = f.cause := by
  simp [recordFor, hf, hr, hk, hc]

/-! ### The pin -/

@[simp] theorem releasePin_pulse : (releasePin s).faults.pulse = s.faults.pulse := by unfold releasePin; split <;> rfl
@[simp] theorem releasePin_records : (releasePin s).faults.records = s.faults.records := by unfold releasePin; split <;> rfl

theorem releasePin_free (hk : s.chip.keeperInit = true) (hl : s.faults.pinLow = true) (hp : s.faults.pulse = false) (hh : pinHeld s = false) :
    releasePin s = { s with faults := { s.faults with pinLow := false, pinClass := 0, highHold := true } } := by
  simp [releasePin, hk, hl, hp, hh]

theorem releasePin_held (hh : pinHeld s = true) : releasePin s = s := by simp [releasePin, hh]

/-! ### Acknowledgement -/

theorem dropRecord_records {src : Nat} : (dropRecord src s).faults.records = Tbl.erase s.faults.records src := by simp [dropRecord]

theorem acknowledge_accepted {src : Nat} {r : Record} (h : Tbl.get? s.faults.records src = some r) (hm : mayAcknowledge s src r = true) :
    acknowledge src s = dropRecord src s := by
  simp [acknowledge, h, hm]

theorem acknowledge_refused {src : Nat} {r : Record} (h : Tbl.get? s.faults.records src = some r) (hm : mayAcknowledge s src r = false) :
    acknowledge src s = s := by
  simp [acknowledge, h, hm]

/-- An accepted acknowledgement of the host removes the record. -/
theorem ackWrite_records {src : Nat} {r : Record} (hk : s.keeperUp = true) (h : Tbl.get? s.faults.records src = some r)
    (hm : mayAcknowledge s src r = true) :
    (settle old (keeperWrite true (acknowledge src) s)).faults.records = Tbl.erase s.faults.records src := by
  rw [settle_faults_records, keeperWrite_ok hk, respond_faults, acknowledge_accepted h hm, dropRecord_records]

/-! ### Device safe state -/

/-- Entering device safe state closes the commit gate. -/
theorem enterSafe_normal {cause : Nat} (h : s.faults.safe = .normal) : (enterSafe cause s).faults.safe = .entering ∧
    (enterSafe cause s).faults.safeCause = cause ∧ (enterSafe cause s).txs = s.txs.filter Tx.passesGate := by
  simp [enterSafe, h]

/-- What follows a command does not leave device safe state. -/
theorem settle_safe_ne_normal (h : u.faults.safe = .entering) : (settle old u).faults.safe ≠ .normal := by
  have hs : (settle old u).faults.safe = (finishSafe u).faults.safe := by simp [settle]
  rw [hs]
  unfold finishSafe
  split
  · simp
  · simp [h]

/-- A safe-state entry as it stands after the command that made it. -/
theorem settle_enterSafe {cause : Nat} (h : s.faults.safe = .normal) : (settle old (enterSafe cause s)).faults.safe ≠ .normal ∧
    (settle old (enterSafe cause s)).faults.safeCause = cause ∧ (settle old (enterSafe cause s)).txs = s.txs.filter Tx.passesGate := by
  obtain ⟨hsafe, hcause, htxs⟩ := enterSafe_normal (cause := cause) h
  exact ⟨settle_safe_ne_normal hsafe, by simpa using hcause, by simpa using htxs⟩

/-! ### Injection -/

theorem pushLog_fi (e : LogEntry) : (pushLog e s).faults.fi = s.faults.fi := by unfold pushLog; split <;> rfl
theorem markQuire_fi (f : FaultIn) : (markQuire f s).faults.fi = s.faults.fi := by unfold markQuire; split <;> rfl
theorem noteIbi_fi (e : LogEntry) : (noteIbi e s).faults.fi = s.faults.fi := by
  unfold noteIbi; repeat' split
  all_goals rfl
theorem startPulse_fi : (startPulse s).faults.fi = s.faults.fi := by unfold startPulse; split <;> rfl
theorem refreshPin_fi : (refreshPin s).faults.fi = s.faults.fi := by unfold refreshPin; split <;> rfl
theorem collect1_fi (f : FaultIn) (s : State) : (collect1 f s).faults.fi = s.faults.fi := by
  refine refreshPin_fi.trans ((when_keeps _ (·.faults.fi) _ _ startPulse_fi).trans ?_)
  refine (when_keeps _ (·.faults.fi) _ _ (noteIbi_fi _)).trans ?_
  exact (pushLog_fi _).trans (markQuire_fi _)
@[simp] theorem collect_fi (fs : List FaultIn) : (collect fs s).faults.fi = s.faults.fi := by
  unfold collect captureFirst; extract_lets
  split <;> exact forEach_keeps (·.faults.fi) collect1 collect1_fi _ _

theorem report_first_fi (f : FaultIn) (h : Tbl.get? s.faults.records f.src = none) (hc : f.cls ≠ 3) :
    (report [f] s).faults.fi = s.faults.fi := by
  rw [report_one s f h hc, faultEffect_fi, collect_fi]

theorem mainWrite_ok {b : Bool} {f : State → State} (hm : s.mainUp = true) : mainWrite b true f s = respond 0 0 (f s) := by
  simp [mainWrite, hm]

theorem writeFi_ignored {arm : Bool} {mode src cause cls : Nat} (h : s.control.dbgLevel ≠ 2) : writeFi arm mode src cause cls s = s := by
  simp [writeFi, h]

theorem writeFi_arms {mode src cause cls : Nat} (h : s.control.dbgLevel = 2) :
    writeFi true mode src cause cls s = armInjection (injectionOf s.faults.fi mode src cause cls) s := by
  simp [writeFi, h]

theorem armInjection_waits {i : Injection} (h0 : i.mode ≠ 0) (h5 : i.mode ≠ 5) :
    armInjection i s = { s with faults := { s.faults with fi := { i with armed := true } } } := by
  simp [armInjection, h0, h5]

/-- An injection of mode 0 or 5 raises its fault at once; its fault below FATAL makes the record of a source that has none. -/
theorem armInjection_recorded {i : Injection} {f : FaultIn} (h : i.mode = 0 ∧ i.cls ≠ 0 ∨ i.mode = 5) (hf : injectedFault i = f)
    (hn : Tbl.get? s.faults.records f.src = none) (hc : f.cls ≠ 3) :
    (armInjection i s).faults.fi.armed = false ∧ Tbl.get? (armInjection i s).faults.records f.src = some (firstRecord f s.now) := by
  have hfire : armInjection i s = report [f] { s with faults := { s.faults with fi := { i with armed := false } } } := by
    rcases h with ⟨h0, hk⟩ | h5
    · simp [armInjection, h0, hk, hf]
    · simp [armInjection, h5, hf]
  rw [hfire]
  generalize hu : ({ s with faults := { s.faults with fi := { i with armed := false } } } : State) = u
  have hr : u.faults.records = s.faults.records := by rw [← hu]
  have hi : u.faults.fi.armed = false := by rw [← hu]
  have ht : u.now = s.now := by rw [← hu]; rfl
  rw [report_first_fi f (by rw [hr, hn]) hc, report_first_get? f (by rw [hr, hn]) hc, hi, ht]
  exact ⟨rfl, rfl⟩

/-- A write that arms an injection of mode 0 or 5. -/
theorem fiWrite_recorded {mode src cause cls : Nat} {f : FaultIn} (hm : s.mainUp = true) (hd : s.control.dbgLevel = 2)
    (h : mode = 0 ∧ cls ≠ 0 ∨ mode = 5) (hf : injectedFault (injectionOf s.faults.fi mode src cause cls) = f)
    (hn : Tbl.get? s.faults.records f.src = none) (hc : f.cls ≠ 3) :
    let t := settle old (mainWrite true true (writeFi true mode src cause cls) s)
    t.faults.fi.armed = false ∧ Safety.recorded t f.src f.cls f.cause := by
  have hi : (injectionOf s.faults.fi mode src cause cls).mode = mode := by
    unfold injectionOf; rw [if_pos (by omega)]
  obtain ⟨harmed, hrec⟩ := armInjection_recorded (s := s) (by rw [hi]; exact h) hf hn hc
  rw [mainWrite_ok hm, writeFi_arms hd]
  refine ⟨by rw [settle_faults_fi, respond_faults, harmed], ?_⟩
  rw [Safety.recorded, settle_faults_records, respond_faults, hrec]
  rfl

end

/-- Settles O14: a fault's record is the collector's, whatever else the fault does. -/
theorem faultsAreRecorded : Obligations.FaultsAreRecorded := by
  unfold Obligations.FaultsAreRecorded
  constructor
  · intro dt f s hw hp hn hc
    refine ⟨_, exec_faultReport dt [f] s hw, ?_⟩
    rw [settle_faults_records, onFaultReport, if_pos (by simpa using hp), report_first_get? f (by simpa using hn) hc]
    have hnow : (advance dt s).now = (s.tb.now + dt) % 2 ^ 64 := advance_now s dt hp
    simp [firstRecord, hnow]
  · intro dt f r s hw hp hr hf hr1 hk hc
    refine ⟨_, exec_faultReport dt [f] s hw, ?_⟩
    obtain ⟨hcls, hesc, hcause⟩ := recordFor_escalates hf hr1 hk hc (advance dt s).now
    have hr' : Tbl.get? (advance dt s).faults.records f.src = some r := by simpa using hr
    rw [settle_faults_records, onFaultReport, if_pos (by simpa using hp), report_second f hr' (by simp [hcls]), faultEffect_records,
      collect_one_records, hr', Tbl.get?_set_self]
    simp [hcls, hesc, hcause]

/-- Settles O15: the pin rises when neither a pulse nor a record holds it. -/
theorem faultPin : Obligations.FaultPin := by
  unfold Obligations.FaultPin
  refine ⟨?rises, ?held, ?waits⟩
  case rises =>
    intro dt s hk hl hp hall
    refine ⟨_, exec_faultPulseEnd dt s rfl, ?_⟩
    rw [pulseEnd, if_pos (by simpa using hp), releasePin_free (by simpa using hk) (by simpa using hl) rfl (by simpa [pinHeld] using hall)]
    simp
  case held =>
    intro dt p s hp hmem hpin
    refine ⟨_, exec_faultPulseEnd dt s rfl, ?_⟩
    rw [pulseEnd, if_pos (by simpa using hp), releasePin_held (List.any_eq_true.2 ⟨p, by simpa using hmem, by simpa using hpin⟩)]
    simp
  case waits =>
    intro dt s hh hw
    refine ⟨_, exec_minimumHighTimeEnd dt s rfl, ?_⟩
    simp [highTimeEnd, hh, hw, pulseNow]

/-- Settles O16: an acknowledgement that is allowed erases one record, and one that is not erases none. -/
theorem recordsAreAcknowledged : Obligations.RecordsAreAcknowledged := by
  have hreset (dt src : Nat) (r : Record) (s : State) (hs : src < 128) (hk : s.keeperUp = true) (hw : Tbl.wf s.faults.records = true)
      (hr : Tbl.get? s.faults.records src = some r) (hd : r.scope = .device) (hb : r.sinceRst = true) :
      ∃ t, exec (.faultAcknowledge dt src true) s = .next t ∧ Tbl.get? t.faults.records src = none := by
    refine ⟨_, exec_faultAcknowledge dt src true s (by simpa [Instr.wf] using hs), ?_⟩
    rw [ackWrite_records (by simpa using hk) (by simpa using hr) (by simp [mayAcknowledge, hd, hb])]
    exact Tbl.get?_erase_self _ _ (by simpa using hw)
  unfold Obligations.RecordsAreAcknowledged
  refine ⟨?belowFatal, ?device, ?afterReset, ?afterResetAgain, ?firmware⟩
  case belowFatal =>
    intro dt src r s hs hk hw hr hc
    refine ⟨_, exec_faultAcknowledge dt src true s (by simpa [Instr.wf] using hs), ?_⟩
    rw [ackWrite_records (by simpa using hk) (by simpa using hr) (by simp [mayAcknowledge, hc]), advance_faults]
    exact ⟨Tbl.get?_erase_self _ _ hw, fun k hk => Tbl.get?_erase_ne _ _ _ hw hk⟩
  case device =>
    intro dt src r s hs hk hr hc hd hb
    refine ⟨_, exec_faultAcknowledge dt src true s (by simpa [Instr.wf] using hs), ?_⟩
    rw [keeperWrite_ok (by simpa using hk), acknowledge_refused (by simpa using hr) (by simp [mayAcknowledge, hc, hd, hb])]
    simp
  case afterReset => exact fun dt src r s hs hk hw hr _ hd hb => hreset dt src r s hs hk hw hr hd hb
  case afterResetAgain => exact fun dt src r s hs hk hw hr _ hd hb => hreset dt src r s hs hk hw hr hd hb
  case firmware =>
    intro dt src r s hs hf hh hp hw hr hc hj ht
    refine ⟨_, exec_idleRecordAck dt src s (by simpa [Instr.wf] using hs), ?_⟩
    have hporst : s.chip.porstN = true := by simp [State.fwRuns, State.mainUp] at hf; simp [hf]
    have hnow : r.time + 1000000 ≤ (advance dt s).now := by rw [advance_now s dt hporst]; exact ht
    have hj' : journaled (advance dt s) src = true := by simpa [journaled] using hj
    have hdrop : onIdleRecordAck src (advance dt s) = dropRecord src (advance dt s) := by
      simp [onIdleRecordAck, hr, hf, hp, firmwareMayAck, hh, hc, hj', hnow]
    rw [settle_faults_records, hdrop, dropRecord_records]
    exact Tbl.get?_erase_self _ _ (by simpa using hw)

/-- Settles O17: the capture's register and the reads of the log. -/
theorem captureAndLog : Obligations.CaptureAndLog := by
  unfold Obligations.CaptureAndLog
  refine ⟨?clear, ?read, ?debug⟩
  case clear =>
    intro dt s hm
    refine ⟨_, exec_faultFirstClr dt true s rfl, ?_⟩
    rw [mainWrite_ok (by simpa using hm)]
    simp
  case read =>
    intro dt e l s hk hl
    refine ⟨_, exec_faultLogRead dt true false s rfl, ?_⟩
    have hk' : (advance dt s).keeperUp = true := by simpa using hk
    simp [keeperRead, hk', logWord, takeLog, hl]
  case debug =>
    intro dt e l s hk hl
    refine ⟨_, exec_faultLogRead dt true true s rfl, ?_⟩
    have hk' : (advance dt s).keeperUp = true := by simpa using hk
    simp [keeperRead, hk', logWord, hl]

/-- Settles O18: the entry of device safe state, and FI_CTL with and without a granted level. -/
theorem safeStateAndInjection : Obligations.SafeStateAndInjection := by
  have hwf {mode src cause cls : Nat} (dt : Nat) (hm : mode < 16) (hs : src < 128) (hc : cause < 256) (hk : cls < 4) :
      (Instr.fiArm dt true mode src cause cls).wf = true := by simp [Instr.wf, hm, hs, hc, hk]
  have hmode0 (dt src cause cls : Nat) (s : State) (hs : src < 128) (hc : cause < 256) (hk : cls = 1 ∨ cls = 2) (hm : s.mainUp = true)
      (hd : s.control.dbgLevel = 2) (hn : Tbl.get? s.faults.records src = none) :
      ∃ t, exec (.fiArm dt true 0 src cause cls) s = .next t ∧ t.faults.fi.armed = false ∧ Safety.recorded t src cls cause := by
    refine ⟨_, exec_fiArm dt true 0 src cause cls s (hwf dt (by decide) hs hc (by omega)), ?_⟩
    exact fiWrite_recorded (f := { src, cls, cause, detail := 0, injected := true }) (by simpa using hm) (by simpa using hd)
      (.inl ⟨rfl, by omega⟩) rfl (by simpa using hn) (show cls ≠ 3 by omega)
  have hmode5 (dt src cause cls : Nat) (s : State) (hs : src < 128) (hc : cause < 256) (hk : cls < 4) (hm : s.mainUp = true)
      (hd : s.control.dbgLevel = 2) (hn : Tbl.get? s.faults.records 124 = none) :
      ∃ t, exec (.fiArm dt true 5 src cause cls) s = .next t ∧ t.faults.fi.armed = false ∧ Safety.recorded t 124 1 0x25 := by
    refine ⟨_, exec_fiArm dt true 5 src cause cls s (hwf dt (by decide) hs hc hk), ?_⟩
    exact fiWrite_recorded (f := { src := 124, cls := 1, cause := 0x25, detail := 0, injected := true }) (by simpa using hm) (by simpa using hd)
      (.inr rfl) rfl (by simpa using hn) (by simp)
  have hbeyond (dt mode src cause cls : Nat) (s : State) (h7 : 7 ≤ mode) (h16 : mode < 16) (hs : src < 128) (hc : cause < 256) (hk : cls < 4)
      (hm : s.mainUp = true) (hd : s.control.dbgLevel = 2) (h0 : s.faults.fi.mode ≠ 0) (h5 : s.faults.fi.mode ≠ 5) :
      ∃ t, exec (.fiArm dt true mode src cause cls) s = .next t ∧ t.faults.fi.armed = true ∧ t.faults.fi.mode = s.faults.fi.mode := by
    refine ⟨_, exec_fiArm dt true mode src cause cls s (hwf dt h16 hs hc hk), ?_⟩
    have hi : (injectionOf s.faults.fi mode src cause cls).mode = s.faults.fi.mode := by
      simp [injectionOf, Nat.not_lt.2 h7]
    rw [mainWrite_ok (by simpa using hm), writeFi_arms (by simpa using hd), advance_faults,
      armInjection_waits (by rw [hi]; exact h0) (by rw [hi]; exact h5)]
    simp [hi]
  unfold Obligations.SafeStateAndInjection
  refine ⟨?request, ?enter, ?waits, hmode0, hmode5, hbeyond, hmode0, hmode5, hbeyond, ?locked⟩
  case request =>
    intro dt s hm hr hn
    refine ⟨_, exec_gxSafeReqEdge dt true s rfl, ?_⟩
    have hedge : onGxSafeReqEdge true (advance dt s) = enterSafe 2 { advance dt s with chip := { s.chip with safeReq := true } } := by
      simp [onGxSafeReqEdge, hr, hm]
    obtain ⟨hsafe, hcause, htxs⟩ := settle_enterSafe (old := s) (cause := 2)
      (s := { advance dt s with chip := { s.chip with safeReq := true } }) (by simpa using hn)
    rw [hedge]
    exact ⟨by rw [settle_chip]; simp [enterSafe, hn], hsafe, hcause, by simpa using htxs⟩
  case enter =>
    intro dt s hm hn
    refine ⟨_, exec_safeCtlEnter dt true s rfl, ?_⟩
    obtain ⟨hsafe, hcause, htxs⟩ := enterSafe_normal (cause := 3)
      (s := { advance dt s with faults := { (advance dt s).faults with safeEnter := true } }) (by simpa using hn)
    rw [mainWrite_ok (by simpa using hm)]
    exact ⟨settle_safe_ne_normal hsafe, by simpa [safeCtl] using hcause, by simpa [safeCtl] using htxs⟩
  case waits =>
    intro dt mode src cause cls s hlt h0 h5 hs hc hk hm hd
    refine ⟨_, exec_fiArm dt true mode src cause cls s (hwf dt (by omega) hs hc hk), ?_⟩
    have hi : (injectionOf s.faults.fi mode src cause cls).mode = mode := by simp [injectionOf, hlt]
    rw [mainWrite_ok (by simpa using hm), writeFi_arms (by simpa using hd), advance_faults,
      armInjection_waits (by rw [hi]; exact h0) (by rw [hi]; exact h5)]
    simp [injectionOf, hlt]
  case locked =>
    intro dt mode src cause cls s hlt hs hc hk hm hd
    refine ⟨_, exec_fiArm dt true mode src cause cls s (hwf dt hlt hs hc hk), ?_⟩
    rw [mainWrite_ok (by simpa using hm), writeFi_ignored (by simpa using hd)]
    simp

end Sys2Proof.Machine
end

section
/-! SUPPORT. The exchange of a mailbox: GO, ACK and the notice register (05 R131-R142), and the statement that they settle. -/

namespace Sys2Proof.Machine

section
variable {s t u old : State} {box : Nat}

theorem box_of_boxes (h : t.boxes = s.boxes) (b : Nat) : t.box b = s.box b := by unfold State.box; rw [h]

@[simp] theorem respond_box (code data b : Nat) : (respond code data s).box b = s.box b := rfl

/-- Quietness reads device safe state, the streams and packet intake. -/
theorem quiet_of_parts (h : Safety.quiet s) (hf : t.faults.safe = s.faults.safe) (hs : t.streams = s.streams) (hp : t.pkt = s.pkt) :
    Safety.quiet t := by
  unfold Safety.quiet State.pring at *
  rwa [hf, hs, hp]

/-- What follows a command that leaves a quiet state does nothing at a mailbox. -/
theorem settle_box_quiet (h : Safety.quiet u) (b : Nat) : (settle old u).box b = u.box b := by
  rw [settle_quiet _ _ h]
  exact (box_of_boxes (settleTargets_boxes _) b).trans (box_of_boxes (noteSafeChange_boxes _ _) b)

/-! ### GO -/

theorem goWrite_submits (ho : boxOpen s box = true) (hc : box < 256 → (s.ctx box).closeHold = none) :
    goWrite box true false s = submitRequest box s := by
  have hh : (decide (box < 256) && (s.ctx box).closeHold.isSome) = false := by
    by_cases hb : box < 256 <;> simp [hb, hc]
  simp [goWrite, ho, hh]

theorem goWrite_acks (ho : boxOpen s box = true) : goWrite box false true s = ackResponse box s := by simp [goWrite, ho]

/-- A GO while BUSY is an overrun. -/
theorem submitRequest_busy (h : (s.box box).busy = true) : submitRequest box s = modBox box (fun m => { m with evtOverrun := true }) s := by
  simp [submitRequest, h]

/-- Firmware accepts a request whose LENGTH, FLAGS and COMMAND are in range. -/
theorem acceptRequest_accepts (hs : serves s box = true) (hb : (s.box box).busy = true) (ha : (s.box box).accepted = false)
    (hl : (s.box box).len ≤ 56) (hf : (s.box box).flags < 2) (hc : cmdSpec (s.box box).cmd (reqBytes (s.box box)) ≠ none) :
    (acceptRequest box s).box box = { s.box box with accepted := true, order := s.control.accepts } := by
  have hn : (cmdSpec (s.box box).cmd (reqBytes (s.box box))).isNone = false := by simpa [Option.isSome_iff_ne_none] using hc
  simp only [acceptRequest, hs, hb, ha, hn]
  rw [if_neg (by simp), if_neg (by omega), if_neg (by omega), if_neg (by simp), ← hb]
  exact modBox_box_self ..

/-- A GO of an accepted request takes the copy. -/
theorem submitRequest_accepted (hs : serves s box = true) (hb : (s.box box).busy = false)
    (hr : ∀ m : Mbox, m = { s.box box with buf := (s.box box).req } → m.len ≤ 56 ∧ m.flags < 2 ∧ cmdSpec m.cmd (reqBytes m) ≠ none) :
    ∃ d, (submitRequest box s).box box = { s.box box with
      busy := true, accepted := true, buf := (s.box box).req, drain := d, order := s.control.accepts } := by
  obtain ⟨hl, hf, hc⟩ := hr _ rfl
  unfold submitRequest
  rw [if_neg (by simp [hb])]
  extract_lets s1 m sp d
  generalize hu : modBox box (fun x => { x with drain := if bit x.flags 0 then d else [] }) s1 = u
  have hbox : u.box box = { s.box box with
      busy := true, accepted := false, buf := (s.box box).req, drain := if bit (s1.box box).flags 0 then d else [] } := by rw [← hu]; simp [s1]
  have hserves : serves u box = true := by rw [← hu]; exact hs
  rw [acceptRequest_accepts hserves (by rw [hbox]) (by rw [hbox]) (by rw [hbox]; exact hl) (by rw [hbox]; exact hf) (by rw [hbox]; exact hc),
    hbox, show u.control = s.control by rw [← hu]; rfl]
  exact ⟨_, rfl⟩

/-! ### ACK and notices -/

theorem ackResponse_box : (ackResponse box s).box box = { s.box box with respValid := false } := by
  unfold ackResponse
  dsimp only
  split
  · exact (box_of_boxes (modCtx_boxes ..) box).trans (modBox_box_self ..)
  · exact modBox_box_self ..

/-- A read of the notice register of a page that answers. -/
theorem noticeRead_oldest {priv : Bool} {n : Notice} {l : List Notice} (hm : s.mainUp = true) (hp : box = 256 → priv = true)
    (ho : box = 256 ∨ (s.ctx box).st = .opened) (hn : (s.box box).notices = n :: l) :
    noticeRead box priv false s = takeNotice box (respond 0 (n.cmd * 2 ^ 24 + n.status * 2 ^ 16 + n.seq) s) := by
  have hpriv : (decide (box = 256) && !priv) = false := by
    by_cases hb : box = 256 <;> simp [hb, hp]
  have ho' : (decide (box = 256) || (s.ctx box).st == .opened) = true := by simpa using ho
  simp only [noticeRead, mainRead, hm, hpriv, ho', noticeWord, hn]
  exact if_pos ho'

theorem takeNotice_box {n : Notice} {l : List Notice} (hn : (s.box box).notices = n :: l) :
    (takeNotice box s).box box = { s.box box with notices := l, noticeHi := n.value } := by
  simp [takeNotice, hn]

/-- A read of the oldest notice of a page that answers removes it and latches its VALUE. -/
theorem noticeRead_takes {priv : Bool} {n : Notice} {l : List Notice} (hq : Safety.quiet s) (hm : s.mainUp = true)
    (hp : box = 256 → priv = true) (ho : box = 256 ∨ (s.ctx box).st = .opened) (hn : (s.box box).notices = n :: l) :
    let t := settle old (noticeRead box priv false s)
    t.chip.rspCode = 0 ∧ t.chip.rspData = n.cmd * 2 ^ 24 + n.status * 2 ^ 16 + n.seq ∧ (t.box box).notices = l ∧
      (t.box box).noticeHi = n.value := by
  rw [noticeRead_oldest hm hp ho hn]
  dsimp only
  generalize n.cmd * 2 ^ 24 + n.status * 2 ^ 16 + n.seq = data
  have hchip : (takeNotice box (respond 0 data s)).chip = (respond 0 data s).chip := rfl
  have hquiet : Safety.quiet (takeNotice box (respond 0 data s)) := quiet_of_parts (s := s) hq rfl rfl rfl
  have hbox : (takeNotice box (respond 0 data s)).box box = { s.box box with notices := l, noticeHi := n.value } :=
    takeNotice_box (s := respond 0 data s) (by simpa using hn)
  rw [settle_chip, settle_box_quiet hquiet, hbox, hchip]
  exact ⟨rfl, rfl, rfl, rfl⟩

end

/-- Settles O19: a GO and an ACK act on their mailbox, and a quiet state moves no other notice. -/
theorem mailboxExchange : Obligations.MailboxExchange := by
  unfold Obligations.MailboxExchange
  refine ⟨?go, ?overrun, ?ack, ?managementNotice, ?contextNotice⟩
  case go =>
    intro dt box s hb hm hs ho hc hfree hr
    refine ⟨_, exec_mboxGo dt box false true s (by simpa [Instr.wf] using Nat.lt_succ_of_le hb), ?_⟩
    obtain ⟨d, hbox⟩ := submitRequest_accepted (s := advance dt s) (box := box) (by simpa using hs) (by simpa using hfree)
      (by simpa using hr)
    rw [mainWrite_ok (by simpa using hm), goWrite_submits (by simpa using ho) (by simpa using hc)]
    simp [hbox]
  case overrun =>
    intro dt box s hb hm ho hc hbusy
    refine ⟨_, exec_mboxGo dt box false true s (by simpa [Instr.wf] using Nat.lt_succ_of_le hb), ?_⟩
    rw [mainWrite_ok (by simpa using hm), goWrite_submits (by simpa using ho) (by simpa using hc), submitRequest_busy (by simpa using hbusy)]
    simp [hbusy]
  case ack =>
    intro dt box s hb hm ho
    refine ⟨_, exec_mboxAck dt box true s (by simpa [Instr.wf] using Nat.lt_succ_of_le hb), ?_⟩
    rw [mainWrite_ok (by simpa using hm), goWrite_acks (by simpa using ho)]
    simp [ackResponse_box]
  case managementNotice =>
    intro dt n l s hm hq hn
    refine ⟨_, exec_mboxNoticeRead dt 256 true false s rfl, ?_⟩
    exact noticeRead_takes (quiet_of_parts hq (by simp) (by simp) (by simp)) (by simpa using hm) (fun _ => rfl) (.inl rfl) (by simpa using hn)
  case contextNotice =>
    intro dt c n l s hc hm hq ho hn
    refine ⟨_, exec_mboxNoticeRead dt c false false s (by simpa [Instr.wf] using Nat.lt_succ_of_lt hc), ?_⟩
    exact noticeRead_takes (quiet_of_parts hq (by simp) (by simp) (by simp)) (by simpa using hm) (fun h => absurd h (Nat.ne_of_lt hc))
      (.inr (by simpa using ho)) (by simpa using hn)
end Sys2Proof.Machine
end

section
/-! SUPPORT. The boot of the control complex (04 R99-R106, R114), and the statement that it settles. -/

namespace Sys2Proof.Machine

section
variable {s : State}

/-! ### What opening the mailboxes leaves -/

/-- The control complex without the numbers that serving mailboxes counts and without its watchdogs, and the chip without its free values. -/
def bootView (s : State) : Control × Chip :=
  ({ s.control with lastServed := 0, accepts := 0, wd0 := {}, wd1 := {} }, { s.chip with freeCtr := 0 })

theorem bootView_modBox (b : Nat) (f : Mbox → Mbox) : bootView (modBox b f s) = bootView s := rfl

theorem bootView_acceptRequest (b : Nat) : bootView (acceptRequest b s) = bootView s := by
  unfold acceptRequest
  dsimp only
  repeat' split
  all_goals rfl

theorem bootView_restartAnswer (b : Nat) : bootView (restartAnswer b s) = bootView s := by
  unfold restartAnswer
  repeat' split
  all_goals rfl

/-- The boot's results without the two bits that opening the mailboxes sets. -/
theorem bootView_openBoxes (restarted : Bool) : bootView (openBoxes restarted s) =
    bootView { s with control := { s.control with fwUp := true, restarting := false } } := by
  unfold openBoxes
  extract_lets _ _ s1 marked s2 _ s3
  have h1 : bootView s1 = bootView { s with control := { s.control with fwUp := true, restarting := false } } := rfl
  have h2 : bootView s2 = bootView s1 := by
    unfold s2; split
    · exact forEach_keeps bootView _ (fun b s => bootView_modBox b _) _ _
    · rfl
  have h3 : bootView s3 = bootView s2 := by
    unfold s3; split
    · exact forEach_keeps bootView _ (fun b s => bootView_restartAnswer b) _ _
    · rfl
  exact (forEach_keeps bootView _ (fun b s => bootView_acceptRequest b) _ _).trans (h3.trans (h2.trans h1))

theorem bootView_wantOpp (p : Nat) : bootView (wantOpp p s) = bootView s := by
  unfold wantOpp requestOpp
  repeat' split
  all_goals rfl

theorem bootView_reachStandby : bootView (reachStandby s) = bootView s := by
  unfold reachStandby gateSpareable
  generalize upto 0 64 = l
  split
  · exact forEach_keeps bootView _ (fun q s => by split <;> rfl) _ _
  · rfl

theorem bootView_actTarget (old : Nat) : bootView (actTarget old s) = bootView s := by
  unfold actTarget
  extract_lets set
  split
  · rfl
  · split
    · exact bootView_reachStandby.trans ((bootView_wantOpp 2).trans rfl)
    · rfl
  · split
    · exact (bootView_wantOpp _).trans rfl
    · rfl

theorem bootView_reachReady : bootView (reachReady s) = bootView s := by
  unfold reachReady
  extract_lets s1
  split
  · exact (bootView_actTarget 3).trans rfl
  · rfl

/-- Opening the mailboxes of an image that runs. -/
theorem bootView_opened (restarted : Bool) : bootView (openBoxes restarted (setLimits (if s.power.wake == .booting then reachReady s else s))) =
    bootView { s with control := { s.control with fwUp := true, restarting := false } } := by
  rw [bootView_openBoxes]
  split
  · have h : bootView (reachReady s) = bootView s := bootView_reachReady
    exact congrArg (fun v : Control × Chip => ({ v.1 with fwUp := true, restarting := false }, v.2)) h
  · rfl

/-! ### The boot ROM -/

theorem spine_keep {t : State} (h : outsideSpine t = outsideSpine s) : t.keep = s.keep := (congrArg State.keep h :)
theorem spine_chip {t : State} (h : outsideSpine t = outsideSpine s) : t.chip = s.chip := (congrArg State.chip h :)

/-- Fetching an image leaves all but the memory ports. -/
theorem outside_fetchImage (mem : ExtMem) (addr : Nat) : outsideSpine (fetchImage mem addr s) = outsideSpine s := outside_readTxs ..

/-- Without a root key the boot ROM stops. -/
theorem bootRom_without_root (mem : ExtMem) (outs : List KOut) (h : rootOk s = false) :
    (bootRom mem outs s).control = { s.control with
      rollbackCnt := s.keep.counter 0, bootAttempts := s.keep.boot.2.2.2, pair0 := .stopped, pair1 := .stopped, restarting := false, bootCode := 2 } := by
  simp [bootRom, h, bootStopped]

/-- Without a trial the image of the active slot is tried first, and runs where it verifies. -/
theorem bootRom_active (mem : ExtMem) (outs : List KOut) {i : FwImage} (hr : rootOk s = true) (hi : s.keep.indexBad = false)
    (ht : s.keep.boot.2.1 = false) (hv : verifyImage s mem (slotAddrOf s s.keep.boot.1) none = .ok i) :
    ∃ u : State, u.keep = s.keep ∧ u.chip = s.chip ∧ bootRom mem outs s = runImage i s.keep.boot.1 false false u := by
  have hplan (u : State) (hu : u.keep = s.keep) : bootPlan u = .plain s.keep.boot.1 := by
    simp [bootPlan, hu, ht]
  unfold bootRom
  extract_lets _ s0
  rw [if_neg (by simp [hr]), if_neg (by simp [hi]), hplan s0 rfl]
  have htry : trySlot mem s.keep.boot.1 s0 = (.ok i, fetchImage mem (slotAddrOf s s.keep.boot.1) s0) := by
    have hv0 : verifyImage s0 mem (slotAddrOf s0 s.keep.boot.1) none = .ok i := hv
    simp only [trySlot, hv0]
    rfl
  have hfetch := outside_fetchImage (s := s0) mem (slotAddrOf s s.keep.boot.1)
  refine ⟨_, spine_keep (s := s0) hfetch, spine_chip (s := s0) hfetch, ?_⟩
  unfold trySlots
  simp only [BootPlan.first, commitSpent, htry]
  rfl

theorem advance_rootOk (dt : Nat) : rootOk (advance dt s) = rootOk s := by unfold rootOk; rw [advance_chip]

theorem verifyImage_congr {t : State} (hc : t.chip = s.chip) (hk : t.keep = s.keep) (mem : ExtMem) (a : Nat) (z : Option Nat) :
    verifyImage t mem a z = verifyImage s mem a z := by
  unfold verifyImage; rw [hc, hk]

theorem advance_slotAddrOf (dt : Nat) (b : Bool) : slotAddrOf (advance dt s) b = slotAddrOf s b := by unfold slotAddrOf; rw [advance_control]

theorem advance_bootReady (dt : Nat) : bootReady (advance dt s) = bootReady s := by simp [bootReady]

end

/-- Settles O20: the boot ROM leaves the registers, and opening the mailboxes leaves them so. -/
theorem firmwareOpensTheMailboxes : Obligations.FirmwareOpensTheMailboxes := by
  unfold Obligations.FirmwareOpensTheMailboxes
  constructor
  · intro dt mem outs s hw hb hr hi ht hq
    refine ⟨_, exec_mailboxOpen dt mem outs s hw, fun i hv => ?_⟩
    obtain ⟨u, hkeep, hchip, hrom⟩ := bootRom_active (s := advance dt s) mem outs (by rwa [advance_rootOk]) (by simpa using hi) (by simpa using ht)
      (i := i) (by rw [verifyImage_congr (advance_chip ..) (advance_keep ..), advance_slotAddrOf, advance_keep]; exact hv)
    rw [advance_keep] at hrom
    generalize hv : runImage i s.keep.boot.1 false false u = v at hrom
    have hrun : v.control.pair0 = .run := by rw [← hv]; rfl
    have hview := bootView_opened (s := v) (advance dt s).control.restarting
    have hopen : mailboxOpen mem outs (advance dt s) = openBoxes (advance dt s).control.restarting
        (setLimits (if v.power.wake == .booting then reachReady v else v)) := by
      have hsafe (w : State) (h : w.chip.safeReq = false) : (if w.chip.safeReq then enterSafe 2 w else w) = w := by simp [h]
      unfold mailboxOpen
      rw [if_neg (by simp [advance_bootReady, hb])]
      dsimp only
      rw [hrom, if_neg (by simp [hrun])]
      refine hsafe _ ?_
      have hreq : (bootView (openBoxes (advance dt s).control.restarting (setLimits (if v.power.wake == .booting then reachReady v else v)))).2.safeReq =
          v.chip.safeReq := by rw [hview]; rfl
      refine hreq.trans ?_
      rw [← hv]
      exact (congrArg Chip.safeReq hchip).trans (by simpa using hq)
    rw [hopen, settle_control]
    generalize openBoxes _ _ = w at hview
    obtain ⟨hctl, -⟩ := Prod.mk.inj hview
    subst hv
    have hcnt : u.keep.counter 0 = s.keep.counter 0 := by rw [hkeep, advance_keep]
    exact ⟨(congrArg Control.pair0 hctl :), (congrArg Control.pair1 hctl :), (congrArg Control.fwUp hctl :), (congrArg Control.restarting hctl :),
      (congrArg Control.fwRunning hctl :), (congrArg Control.fwSvn hctl :), (congrArg Control.bootSlotB hctl :),
      (congrArg Control.bootTrial hctl :), (congrArg Control.bootFallback hctl :), (congrArg Control.bootCode hctl :),
      (congrArg Control.rollbackCnt hctl :).trans hcnt⟩
  · intro dt mem outs s hw hb hr
    refine ⟨_, exec_mailboxOpen dt mem outs s hw, ?_⟩
    have hctl := bootRom_without_root (s := advance dt s) mem outs (by rwa [advance_rootOk])
    have hb' : bootReady (advance dt s) = true := by rwa [advance_bootReady]
    have hopen : mailboxOpen mem outs (advance dt s) = bootRom mem outs (advance dt s) := by
      simp only [mailboxOpen, hb', hctl]
      rfl
    simp [hopen, hctl]

end Sys2Proof.Machine
end

section
/-! SUPPORT. Faults that restart the control complex (04 R108-R118), and the statement that they settle. -/

namespace Sys2Proof.Machine

section
variable {s u old : State}

/-! ### Restarts -/

/-- A restart that nothing prevents. -/
theorem controlRestart_restarts {cause : Nat} {fatal : Bool} (hr : s.control.restarting = false)
    (hp : fatal = true → s.control.pair0 ≠ .stopped ∨ s.control.pair1 ≠ .stopped) : Safety.restarts (controlRestart cause fatal s) cause := by
  have hn : (fatal && s.control.pair0 == .stopped && s.control.pair1 == .stopped) = false := by
    cases fatal
    · rfl
    · rcases hp rfl with h | h <;> simp [h]
  simp only [controlRestart, hr, hn]
  exact ⟨rfl, rfl, rfl, rfl, rfl⟩

/-- A FATAL fault during a restart stops both pairs. -/
theorem controlRestart_stops {cause : Nat} (hr : s.control.restarting = true) : controlRestart cause true s =
    { s with control := { s.control with pair0 := .stopped, pair1 := .stopped, restarting := false, fwUp := false } } := by
  simp [controlRestart, hr]

theorem restarts_settle {cause : Nat} (h : Safety.restarts u cause) : Safety.restarts (settle old u) cause := by
  unfold Safety.restarts at *
  rwa [settle_control]

theorem restarts_respond {cause code data : Nat} (h : Safety.restarts u cause) : Safety.restarts (respond code data u) cause := h

theorem pairRuns_not_stopped {p : Nat} (h : pairRuns s p = true) : s.control.pair0 ≠ .stopped ∨ s.control.pair1 ≠ .stopped := by
  by_cases hp : p = 0
  · left; intro hs; simp [pairRuns, hp, hs] at h
  · right; intro hs; simp [pairRuns, hp, hs] at h

/-! ### Faults of the control complex -/

section
variable {src cause detail : Nat}

/-- A FATAL fault of the control complex makes its record, and restarts the complex where device safe state does not supersede it. -/
theorem fatal_control (hs : src < 16) (hn : Tbl.get? s.faults.records src = none) :
    ∃ v : State, v.control = s.control ∧ v.faults.safe = s.faults.safe ∧
      Tbl.get? v.faults.records src = some (firstRecord { src, cls := 3, cause, detail } s.now) ∧
      report1 src 3 cause detail false s = if s.faults.safe != .normal then v else controlRestart src true v := by
  refine ⟨collect [{ src, cls := 3, cause, detail }] s, collect_control .., collect_safe .., collect_one_first _ _ hn, ?_⟩
  exact report_control s { src, cls := 3, cause, detail } hn rfl hs rfl

theorem fatal_control_recorded (hs : src < 16) (hn : Tbl.get? s.faults.records src = none) :
    Safety.recorded (settle old (report1 src 3 cause detail false s)) src 3 cause := by
  obtain ⟨v, -, -, hrec, hrep⟩ := fatal_control (cause := cause) (detail := detail) hs hn
  have h : (report1 src 3 cause detail false s).faults.records = v.faults.records := by
    rw [hrep]; split
    · rfl
    · exact controlRestart_records ..
  rw [Safety.recorded, settle_faults_records, h, hrec]
  rfl

theorem fatal_control_restarts (hs : src < 16) (hn : Tbl.get? s.faults.records src = none) (hq : s.faults.safe = .normal)
    (hr : s.control.restarting = false) (hp : s.control.pair0 ≠ .stopped ∨ s.control.pair1 ≠ .stopped) :
    Safety.restarts (settle old (report1 src 3 cause detail false s)) src ∧
      Safety.recorded (settle old (report1 src 3 cause detail false s)) src 3 cause := by
  refine ⟨restarts_settle ?_, fatal_control_recorded hs hn⟩
  obtain ⟨v, hctl, -, -, hrep⟩ := fatal_control (cause := cause) (detail := detail) hs hn
  rw [hrep, if_neg (by simp [hq])]
  exact controlRestart_restarts (by rw [hctl, hr]) (fun _ => by rwa [hctl])

theorem fatal_control_stops (hs : src < 16) (hn : Tbl.get? s.faults.records src = none) (hq : s.faults.safe = .normal)
    (hr : s.control.restarting = true) : (report1 src 3 cause detail false s).control =
      { s.control with pair0 := .stopped, pair1 := .stopped, restarting := false, fwUp := false } := by
  obtain ⟨v, hctl, -, -, hrep⟩ := fatal_control (cause := cause) (detail := detail) hs hn
  rw [hrep, if_neg (by simp [hq]), controlRestart_stops (by rw [hctl, hr]), hctl]

/-- A fault of the complex below FATAL leaves its state. -/
theorem minor_control {cls : Nat} (hs : src < 16) (hn : Tbl.get? s.faults.records src = none) (hc : cls ≠ 3) :
    (report1 src cls cause detail false s).control = s.control := by
  have heff (u : State) : faultEffect { src, cls, cause, detail } u = u := by
    have hm : memFaultCode { src, cls, cause, detail } = 0 := by
      unfold memFaultCode; rw [if_neg (by simp; omega), if_neg (by simp; omega)]
    have h1 : ¬ (16 ≤ src ∧ src < 80) := by omega
    have h2 : src ≠ 127 ∧ src ≠ 107 ∧ src ≠ 110 ∧ src ≠ 118 ∧ src ≠ 125 ∧ ¬ 112 ≤ src := by omega
    simp [faultEffect, hm, noteMemFault, h1, h2]
  rw [report1, report_one s _ hn hc, heff, collect_control]

end

theorem mem_insertNat_self (x : Nat) (l : List Nat) : x ∈ insertNat x l := by
  induction l with
  | nil => simp [insertNat]
  | cons y t ih => unfold insertNat; repeat' split
                   all_goals simp_all

@[simp] theorem advance_pairRuns (dt p : Nat) : pairRuns (advance dt s) p = pairRuns s p := by simp [pairRuns]
@[simp] theorem advance_pairHalted (dt p : Nat) : pairHalted (advance dt s) p = pairHalted s p := by simp [pairHalted]

end

/-- Settles O21: each of these faults is FATAL on a control source, or below FATAL without a restart. -/
theorem controlRestarts : Obligations.ControlRestarts := by
  unfold Obligations.ControlRestarts
  refine ⟨?write, ?watchdog, ?halted, ?lockstep, ?mmu, ?during, ?corrected, ?text, ?scrubbed, ?read⟩
  case write =>
    intro dt s hm hr
    refine ⟨_, exec_ccRestartWrite dt true s rfl, ?_⟩
    rw [mainWrite_ok (by simpa using hm)]
    exact restarts_settle (restarts_respond (controlRestart_restarts (by simpa using hr) (fun h => absurd h (by decide))))
  case watchdog =>
    intro dt pair s hp hrun hh hl hd hn hq hr
    refine ⟨_, exec_watchdogExpiry dt pair s (by simpa [Instr.wf] using hp), ?_⟩
    have hexp : onWatchdogExpiry pair (advance dt s) = report1 (5 + pair) 3 0x0A 0 false (advance dt s) := by
      simp [onWatchdogExpiry, hrun, hh, hl, hd]
    rw [hexp]
    exact fatal_control_restarts (by omega) (by simpa using hn) (by simpa using hq) (by simpa using hr)
      (by simpa using pairRuns_not_stopped hrun)
  case halted =>
    intro dt pair s hp hrun hh
    rw [exec_watchdogExpiry dt pair s (by simpa [Instr.wf] using hp)]
    simp [onWatchdogExpiry, hh]
  case lockstep =>
    intro dt pair s hp hrun hn hq hr
    refine ⟨_, exec_lockstepMismatch dt pair s (by simpa [Instr.wf] using hp), ?_⟩
    rw [onLockstepMismatch, if_pos (by simpa using hrun)]
    exact fatal_control_restarts (by omega) (by simpa using hn) (by simpa using hq) (by simpa using hr)
      (by simpa using pairRuns_not_stopped hrun)
  case mmu =>
    intro dt s hrun hn hq hr
    refine ⟨_, exec_mmuRefusal dt s rfl, ?_⟩
    rw [onMmuRefusal, if_pos (by simp [hrun])]
    exact fatal_control_restarts (by omega) (by simpa using hn) (by simpa using hq) (by simpa using hr)
      (by simpa using pairRuns_not_stopped hrun)
  case during =>
    intro dt pair s hp hrun hn hq hr
    refine ⟨_, exec_lockstepMismatch dt pair s (by simpa [Instr.wf] using hp), ?_⟩
    rw [onLockstepMismatch, if_pos (by simpa using hrun), settle_control,
      fatal_control_stops (by omega) (by simpa using hn) (by simpa using hq) (by simpa using hr)]
    exact ⟨rfl, rfl, rfl, rfl⟩
  case corrected =>
    intro dt word s hw hm hn
    refine ⟨_, exec_controlSramError dt word .corrected s (by simpa [Instr.wf] using hw), ?_⟩
    rw [onControlSramError, if_pos (by simp [hm])]
    exact report1_first_recorded (by simpa using hn) (by decide)
  case text =>
    intro dt word f s hw hf ht hm hrun hn hq hr
    refine ⟨_, exec_controlSramError dt word f s (by simpa [Instr.wf] using hw), ?_⟩
    have htext : textWord (advance dt s) word = true := by simpa [textWord] using ht
    have herr : sramError word f (advance dt s) = report1 3 3 2 0 false (advance dt s) := by
      cases f
      case corrected => exact absurd rfl hf
      all_goals simp [sramError, htext]
    rw [onControlSramError, if_pos (by simp [hm]), herr]
    exact fatal_control_restarts (by omega) (by simpa using hn) (by simpa using hq) (by simpa using hr)
      (by simpa using pairRuns_not_stopped hrun)
  case scrubbed =>
    intro dt word s hw ht hm hn
    refine ⟨_, exec_controlSramError dt word .scrubbed s (by simpa [Instr.wf] using hw), ?_⟩
    have htext : textWord (advance dt s) word = false := by simpa [textWord] using ht
    have herr : sramError word .scrubbed (advance dt s) = report1 2 2 2 0 false { advance dt s with control :=
        { (advance dt s).control with sramPoison := insertNat (8 * word) (advance dt s).control.sramPoison } } := by
      simp [sramError, htext]
    rw [onControlSramError, if_pos (by simp [hm]), herr, settle_control, minor_control (by decide) (by simpa using hn) (by decide)]
    exact ⟨mem_insertNat_self _ _, by simp, report1_first_recorded (by simpa using hn) (by decide)⟩
  case read =>
    intro dt word s hw ht hm hrun hn hq hr
    refine ⟨_, exec_controlSramError dt word .read s (by simpa [Instr.wf] using hw), ?_⟩
    have htext : textWord (advance dt s) word = false := by simpa [textWord] using ht
    have herr : sramError word .read (advance dt s) = report1 2 3 2 0 false (advance dt s) := by simp [sramError, htext]
    rw [onControlSramError, if_pos (by simp [hm]), herr]
    exact fatal_control_restarts (by omega) (by simpa using hn) (by simpa using hq) (by simpa using hr)
      (by simpa using pairRuns_not_stopped hrun)

end Sys2Proof.Machine
end

section
/-! SUPPORT. Byte memories: what is read after bytes are written; what an exception of a core saves (04 R116, R117), and the statement that it
settles. -/

namespace Sys2Proof.Machine

/-! ### Bytes written and read -/

@[simp] theorem leBytes_length (v n : Nat) : (leBytes v n).length = n := by
  induction n generalizing v with
  | zero => rfl
  | succ n ih => simp [leBytes, ih]

@[simp] theorem Mem.readBytes_length (m : Mem) (a n : Nat) : (Mem.readBytes m a n).length = n := by
  induction n generalizing a with
  | zero => rfl
  | succ n ih => simp [Mem.readBytes, ih]

/-- Writing bytes leaves every byte outside them. -/
theorem Mem.read_writeBytes_outside (bs : List Byte) (m : Mem) (a c : Nat) (h : Mem.wf m = true) (hc : c < a ∨ a + bs.length ≤ c) :
    Mem.read (Mem.writeBytes m a bs) c = Mem.read m c := by
  induction bs generalizing m a with
  | nil => rfl
  | cons b bs ih =>
    have hne : c ≠ a := by rintro rfl; simp at hc
    rw [Mem.writeBytes, ih _ _ (Mem.wf_write m a b h) (by simp only [List.length_cons] at hc; omega), Mem.read_write_ne _ _ _ _ h hne]

theorem Mem.readBytes_congr {m m' : Mem} (n a : Nat) (h : ∀ c, a ≤ c → c < a + n → Mem.read m c = Mem.read m' c) :
    Mem.readBytes m a n = Mem.readBytes m' a n := by
  induction n generalizing a with
  | zero => rfl
  | succ n ih =>
    rw [Mem.readBytes, Mem.readBytes, h a (le_refl _) (by omega), ih (a + 1) (fun c hl hh => h c (by omega) (by omega))]

/-- The bytes written are read. -/
theorem Mem.readBytes_writeBytes (bs : List Byte) (m : Mem) (a : Nat) (h : Mem.wf m = true) :
    Mem.readBytes (Mem.writeBytes m a bs) a bs.length = bs := by
  induction bs generalizing m a with
  | nil => rfl
  | cons b bs ih =>
    rw [Mem.writeBytes, List.length_cons, Mem.readBytes, ih _ _ (Mem.wf_write m a b h),
      Mem.read_writeBytes_outside bs _ (a + 1) a (Mem.wf_write m a b h) (by omega), Mem.read_write_self _ _ _ h]

theorem Mem.writeBytes_append (l₁ l₂ : List Byte) (m : Mem) (a : Nat) :
    Mem.writeBytes m a (l₁ ++ l₂) = Mem.writeBytes (Mem.writeBytes m a l₁) (a + l₁.length) l₂ := by
  induction l₁ generalizing m a with
  | nil => rfl
  | cons b t ih => rw [List.cons_append, Mem.writeBytes, ih, List.length_cons, Mem.writeBytes, Nat.add_right_comm]; rfl

/-- A stretch in the middle of what is written is read. -/
theorem Mem.readBytes_writeBytes_mid (pre mid post : List Byte) (m : Mem) (a n k : Nat) (h : Mem.wf m = true) (hn : pre.length = n)
    (hk : mid.length = k) : Mem.readBytes (Mem.writeBytes m a (pre ++ (mid ++ post))) (a + n) k = mid := by
  subst hn hk
  have hpre := Mem.wf_writeBytes pre m a h
  rw [Mem.writeBytes_append, Mem.writeBytes_append]
  refine (Mem.readBytes_congr _ _ (fun c hl hh => ?_)).trans (Mem.readBytes_writeBytes mid _ _ hpre)
  exact Mem.read_writeBytes_outside _ _ _ _ (Mem.wf_writeBytes mid _ _ hpre) (.inl hh)

/-! ### Lists of words -/

theorem flatMap_length_const {α β : Type} (f : α → List β) {k : Nat} (h : ∀ x, (f x).length = k) (l : List α) : (l.flatMap f).length = k * l.length := by
  induction l with
  | nil => simp
  | cons x t ih => rw [List.flatMap_cons, List.length_append, h, ih, List.length_cons, Nat.mul_succ, Nat.add_comm]

/-- The words before, at and after a place of a list of words of one size. -/
theorem flatMap_split {α β : Type} (f : α → List β) (l : List α) (i : Nat) (d : α) (h : i < l.length) :
    l.flatMap f = (l.take i).flatMap f ++ (f (l.getD i d) ++ (l.drop (i + 1)).flatMap f) := by
  conv_lhs => rw [← List.take_append_drop i l, List.flatMap_append, List.drop_eq_getElem_cons h, List.flatMap_cons]
  rw [List.getD_eq_getElem _ _ h]

theorem getD_modNth_self {α : Type} (l : List α) (i : Nat) (f : α → α) (d : α) (h : i < l.length) : (modNth l i f).getD i d = f (l.getD i d) := by
  induction l generalizing i with
  | nil => simp at h
  | cons x t ih =>
    cases i with
    | zero => rfl
    | succ i => simpa [modNth] using ih i (by simpa using h)

theorem getD_modNth_ne {α : Type} (l : List α) (i j : Nat) (f : α → α) (d : α) (h : j ≠ i) : (modNth l i f).getD j d = l.getD j d := by
  induction l generalizing i j with
  | nil => rfl
  | cons x t ih =>
    cases i with
    | zero => cases j with
      | zero => exact absurd rfl h
      | succ j => simp [modNth]
    | succ i => cases j with
      | zero => simp [modNth]
      | succ j => simpa [modNth] using ih i j (by omega)

section
variable {s old : State}

/-! ### Faults of a control source, whatever its record -/

theorem faultEffect_control_source {f : FaultIn} (hs : f.src < 16) (u : State) : faultEffect f u = u := by
  have hm : memFaultCode f = 0 := by
    unfold memFaultCode; rw [if_neg (by simp; omega), if_neg (by simp; omega)]
  have h1 : ¬ (16 ≤ f.src ∧ f.src < 80) := by omega
  have h2 : f.src ≠ 127 ∧ f.src ≠ 107 ∧ f.src ≠ 110 ∧ f.src ≠ 118 ∧ f.src ≠ 125 ∧ ¬ 112 ≤ f.src := by omega
  have h3 : ¬ (16 ≤ f.src ∧ f.src < 104) := by omega
  simp [faultEffect, hm, noteMemFault, h1, h2, h3]

/-- Besides its record a fault of a control source restarts the complex at most. -/
theorem control_fault_cases {src cls cause detail : Nat} (hs : src < 16) : ∃ v : State, v.control = s.control ∧
    (report1 src cls cause detail false s = v ∨ report1 src cls cause detail false s = controlRestart src true v) := by
  have hscope : scopeOf { src, cls, cause, detail } = .control := by simp [scopeOf, hs]
  have hcause : restartCauseOf { src, cls, cause, detail } = src := by unfold restartCauseOf; rw [if_neg (by simp; omega), if_neg (by simp; omega)]
  refine ⟨collect [{ src, cls, cause, detail }] s, collect_control .., ?_⟩
  have hreact (u : State) : react { src, cls, cause, detail } u = u ∨ react { src, cls, cause, detail } u = controlRestart src true u := by
    unfold react; rw [hscope, hcause]; split
    · exact .inl rfl
    · exact .inr rfl
  have hone (p : FaultIn → Bool) (f : FaultIn) : [f].filter p = [] ∨ [f].filter p = [f] := by cases h : p f <;> simp [h]
  unfold report1 report
  rw [periodFaults_one]
  have hlist : reactionsOf [{ src, cls, cause, detail }] s = [] ∨ reactionsOf [{ src, cls, cause, detail }] s = [{ src, cls, cause, detail }] := by
    unfold reactionsOf
    rw [periodFaults_one]
    exact hone _ _
  rcases hlist with h | h
  · rw [h]; exact .inl (faultEffect_control_source hs _)
  · rw [h]
    have hr := hreact (collect [{ src, cls, cause, detail }] s)
    simpa [forEach, hscope, faultEffect_control_source (f := { src, cls, cause, detail }) hs] using hr

/-- A restart leaves control SRAM and the cores. -/
theorem controlRestart_sram (c : Nat) (b : Bool) : (controlRestart c b s).control.sram = s.control.sram ∧
    (controlRestart c b s).control.cores = s.control.cores := by
  unfold controlRestart; dsimp only; repeat' split
  all_goals exact ⟨rfl, rfl⟩

/-- So does a fault of a control source. -/
theorem control_fault_sram {src cls cause detail : Nat} (hs : src < 16) :
    (report1 src cls cause detail false s).control.sram = s.control.sram ∧
      (report1 src cls cause detail false s).control.cores = s.control.cores := by
  obtain ⟨v, hv, h | h⟩ := control_fault_cases (s := s) (cls := cls) (cause := cause) (detail := detail) hs
  · rw [h, hv]; exact ⟨rfl, rfl⟩
  · rw [h, (controlRestart_sram ..).1, (controlRestart_sram ..).2, hv]; exact ⟨rfl, rfl⟩

/-! ### The save area -/

section
variable {c : Core} {cause seq faultAddr now : Nat} {m : Mem} {a : Nat}

theorem saveBytes_length (hg : c.g.length = 32) (hc : c.ctl.length = 8) : (saveBytes c cause seq faultAddr now).length = 512 := by
  simp [saveBytes, flatMap_length_const (fun x : BitVec 64 => leBytes x.toNat 8) (fun _ => leBytes_length _ _), hg, hc]

/-- The layout of 04 R116 as it is read back. -/
theorem saveArea_layout (hw : Mem.wf m = true) (hg : c.g.length = 32) (hc : c.ctl.length = 8) :
    let t := Mem.writeBytes m a (saveBytes c cause seq faultAddr now)
    (∀ i < 32, t.readBytes (a + 8 * i) 8 = leBytes (c.g.getD i 0).toNat 8) ∧ t.readBytes (a + 0x100) 8 = leBytes c.pc.toNat 8 ∧
      t.readBytes (a + 0x108) 8 = leBytes c.status.toNat 8 ∧ t.readBytes (a + 0x110) 4 = leBytes cause 4 ∧
      t.readBytes (a + 0x114) 4 = leBytes seq 4 ∧ t.readBytes (a + 0x118) 8 = leBytes faultAddr 8 ∧ t.readBytes (a + 0x120) 8 = leBytes now 8 ∧
      t.readBytes (a + 0x128) 8 = [1, 0, 0, 0, 0, 0, 0, 0] ∧
      (∀ i < 8, t.readBytes (a + 0x130 + 8 * i) 8 = leBytes (c.ctl.getD i 0).toNat 8) ∧
      t.readBytes (a + 0x170) 144 = List.replicate 144 0 := by
  have hword (l : List (BitVec 64)) : (l.flatMap (fun x => leBytes x.toNat 8)).length = 8 * l.length :=
    flatMap_length_const _ (fun _ => leBytes_length _ _) l
  -- every field stands between what is written before it and after it
  have hread (pre mid : List Byte) (n k : Nat) (hb : ∃ post, saveBytes c cause seq faultAddr now = pre ++ (mid ++ post)) (hn : pre.length = n)
      (hk : mid.length = k) : Mem.readBytes (Mem.writeBytes m a (saveBytes c cause seq faultAddr now)) (a + n) k = mid := by
    obtain ⟨post, hb⟩ := hb
    rw [hb]; exact Mem.readBytes_writeBytes_mid pre mid post m a n k hw hn hk
  let g := c.g.flatMap (fun x => leBytes x.toNat 8)
  let ctl := c.ctl.flatMap (fun x => leBytes x.toNat 8)
  let pc := leBytes c.pc.toNat 8
  let st := leBytes c.status.toNat 8
  let pad : List Byte := List.replicate 144 0
  let head := g ++ pc ++ st ++ leBytes cause 4 ++ leBytes seq 4 ++ leBytes faultAddr 8 ++ leBytes now 8 ++ [1, 0, 0, 0, 0, 0, 0, 0]
  have hall : saveBytes c cause seq faultAddr now = head ++ ctl ++ pad := by simp [saveBytes, head, g, ctl, pc, st, pad, leBytes]
  have hglen : g.length = 256 := by rw [hword, hg]
  have hhead : head.length = 0x130 := by simp [head, hglen, pc, st]
  intro t
  refine ⟨fun i hi => ?_, ?_, ?_, ?_, ?_, ?_, ?_, ?_, fun i hi => ?_, ?_⟩
  · refine hread ((c.g.take i).flatMap (fun x => leBytes x.toNat 8)) _ (8 * i) 8 ?_ ?_ (leBytes_length _ _)
    · exact ⟨_, by rw [hall]; simp only [head, g]; rw [flatMap_split _ c.g i 0 (by omega)]; simp only [List.append_assoc]; rfl⟩
    · rw [hword, List.length_take]; omega
  · exact hread g pc 0x100 8 ⟨_, by rw [hall]; simp only [head, List.append_assoc]; rfl⟩ hglen (leBytes_length _ _)
  · exact hread (g ++ pc) st 0x108 8 ⟨_, by rw [hall]; simp only [head, List.append_assoc]; rfl⟩ (by simp [hglen, pc]) (leBytes_length _ _)
  · exact hread (g ++ pc ++ st) _ 0x110 4 ⟨_, by rw [hall]; simp only [head, List.append_assoc]; rfl⟩ (by simp [hglen, pc, st]) (leBytes_length _ _)
  · exact hread (g ++ pc ++ st ++ leBytes cause 4) _ 0x114 4 ⟨_, by rw [hall]; simp only [head, List.append_assoc]; rfl⟩ (by simp [hglen, pc, st])
      (leBytes_length _ _)
  · exact hread (g ++ pc ++ st ++ leBytes cause 4 ++ leBytes seq 4) _ 0x118 8 ⟨_, by rw [hall]; simp only [head, List.append_assoc]; rfl⟩
      (by simp [hglen, pc, st]) (leBytes_length _ _)
  · exact hread (g ++ pc ++ st ++ leBytes cause 4 ++ leBytes seq 4 ++ leBytes faultAddr 8) _ 0x120 8
      ⟨_, by rw [hall]; simp only [head, List.append_assoc]; rfl⟩ (by simp [hglen, pc, st]) (leBytes_length _ _)
  · exact hread (g ++ pc ++ st ++ leBytes cause 4 ++ leBytes seq 4 ++ leBytes faultAddr 8 ++ leBytes now 8) _ 0x128 8
      ⟨_, by rw [hall]; simp only [head, List.append_assoc]; rfl⟩ (by simp [hglen, pc, st]) rfl
  · rw [Nat.add_assoc]
    refine hread (head ++ (c.ctl.take i).flatMap (fun x => leBytes x.toNat 8)) _ (0x130 + 8 * i) 8 ?_ ?_ (leBytes_length _ _)
    · exact ⟨_, by rw [hall]; simp only [ctl]; rw [flatMap_split _ c.ctl i 0 (by omega)]; simp only [List.append_assoc]; rfl⟩
    · rw [List.length_append, hhead, hword, List.length_take]; omega
  · exact hread (head ++ ctl) pad 0x170 144 ⟨[], by rw [hall, List.append_nil, List.append_assoc]⟩ (by simp [hhead, ctl, hword, hc]) (List.length_replicate ..)

end

/-! ### Exceptions -/

section
variable {core cause faultAddr : Nat}

/-- The core that an exception saves. -/
def savedCore (s : State) (core : Nat) : Core := ranCore s.chip.freeCtr (s.control.cores.getD core {})

/-- SEQ of the next exception. -/
def nextSeq (s : State) (core : Nat) : Nat := ((s.control.cores.getD core {}).excSeq + 1) % 2 ^ 32

/-- The state that an exception leaves, before its stack pointer is checked. -/
def afterSave (core cause faultAddr : Nat) (s : State) : State :=
  { useFree 45 s with control := { s.control with
    cores := modNth s.control.cores core (fun _ => { savedCore s core with excSeq := nextSeq s core }),
    sram := s.control.sram.writeBytes (saveArea core) (saveBytes (savedCore s core) cause (nextSeq s core) faultAddr s.now),
    sramPoison := s.control.sramPoison.filter (fun w => w < saveArea core || saveArea core + 0x200 ≤ w) } }

theorem mem_eq_true {l : List Nat} {x : Nat} : mem l x = true ↔ x ∈ l := by simp [mem]

/-- Where BUSY is cleared and readable, the core's state is saved and its stack pointer checked. -/
theorem coreException_saves (hr : pairRuns s (core / 2) = true) (hh : pairHalted s (core / 2) = false)
    (hp : saveArea core + 0x128 ∉ s.control.sramPoison) (hb : leNat (s.control.sram.readBytes (saveArea core + 0x128) 4) ≠ 1) :
    coreException core cause faultAddr s = if stackOk (savedCore s core) then afterSave core cause faultAddr s
      else report1 (7 + core / 2) 3 0x0B 0 false (afterSave core cause faultAddr s) := by
  have hmem : mem s.control.sramPoison (saveArea core + 0x128) = false := Bool.eq_false_iff.2 (mt mem_eq_true.1 hp)
  have hbusy : busyNow s core = false := by simp [busyNow, hb]
  simp only [coreException, hr, hh, hmem, hbusy]
  rfl

/-- An exception that finds BUSY still 1 saves nothing. -/
theorem coreException_busy (hr : pairRuns s (core / 2) = true) (hh : pairHalted s (core / 2) = false)
    (hp : saveArea core + 0x128 ∉ s.control.sramPoison) (hb : busyNow s core = true) :
    coreException core cause faultAddr s = report1 (7 + core / 2) 3 0x0B 0 false (useFree 45 s) := by
  have hmem : mem s.control.sramPoison (saveArea core + 0x128) = false := Bool.eq_false_iff.2 (mt mem_eq_true.1 hp)
  simp only [coreException, hr, hh, hmem, hb]
  rfl

/-- Neither does one that finds the BUSY word uncorrectable. -/
theorem coreException_poisoned (hr : pairRuns s (core / 2) = true) (hh : pairHalted s (core / 2) = false)
    (hp : saveArea core + 0x128 ∈ s.control.sramPoison) : coreException core cause faultAddr s = report1 2 3 2 0 false (useFree 45 s) := by
  simp only [coreException, hr, hh, mem_eq_true.2 hp]
  rfl

end

end

/-- Settles O22: the save is one stretch of bytes, read back field by field. -/
theorem exceptionsAreSaved : Obligations.ExceptionsAreSaved := by
  have hwf {core cause faultAddr : Nat} (dt : Nat) (hc : core < 4) (hk : cause < 2 ^ 32) (hf : faultAddr < 2 ^ 64) :
      (Instr.coreException dt core cause faultAddr).wf = true := by simpa [Instr.wf, hc] using ⟨hk, hf⟩
  unfold Obligations.ExceptionsAreSaved
  refine ⟨?saved, ?busy, ?poisoned⟩
  case saved =>
    intro dt core cause faultAddr s hc hk hf hr hh hw hl hb hp
    refine ⟨_, exec_coreException dt core cause faultAddr s (hwf dt hc hk hf), ?_⟩
    have hexc := coreException_saves (cause := cause) (faultAddr := faultAddr) (s := advance dt s) (core := core) (by simpa using hr)
      (by simpa using hh) (by simpa using hp) (by simpa using hb)
    have hparts : (coreException core cause faultAddr (advance dt s)).control.sram = (afterSave core cause faultAddr (advance dt s)).control.sram ∧
        (coreException core cause faultAddr (advance dt s)).control.cores = (afterSave core cause faultAddr (advance dt s)).control.cores := by
      rw [hexc]; split
      · exact ⟨rfl, rfl⟩
      · exact control_fault_sram (by omega)
    have hcore : savedCore (advance dt s) core = ranCore s.chip.freeCtr (s.control.cores.getD core {}) := by simp [savedCore]
    have hseq : nextSeq (advance dt s) core = ((s.control.cores.getD core {}).excSeq + 1) % 2 ^ 32 := by simp [nextSeq]
    obtain ⟨hg, hpc, hst, hca, hsq, hfa, hnow, hbusy, hctl, hpad⟩ := saveArea_layout (m := s.control.sram) (a := saveArea core) (cause := cause)
      (seq := nextSeq (advance dt s) core) (faultAddr := faultAddr) (now := (advance dt s).now) (c := savedCore (advance dt s) core) hw rfl rfl
    have hsram : (settle s (coreException core cause faultAddr (advance dt s))).control.sram =
        s.control.sram.writeBytes (saveArea core) (saveBytes (savedCore (advance dt s) core) cause (nextSeq (advance dt s) core) faultAddr
          (advance dt s).now) := by
      rw [settle_control, hparts.1, afterSave, advance_control]
    rw [hsram, ← hcore, ← hseq]
    refine ⟨?_, hg, hpc, hst, hca, hsq, hfa, hnow, hbusy, hctl, hpad, fun a ha => ?_, fun hk hn => ?_⟩
    · rw [settle_control, hparts.2, afterSave, getD_modNth_self _ _ _ _ (by simpa [hl] using hc)]
    · exact Mem.read_writeBytes_outside _ _ _ _ hw (by rwa [saveBytes_length rfl rfl])
    · rw [hexc, if_neg (by simp [hk])]
      exact fatal_control_recorded (by omega) (by simpa [afterSave, useFree] using hn)
  case busy =>
    intro dt core cause faultAddr s hc hk hf hr hh hp hb hn
    refine ⟨_, exec_coreException dt core cause faultAddr s (hwf dt hc hk hf), fun hfree => ?_⟩
    rw [coreException_busy (by simpa using hr) (by simpa using hh) (by simpa using hp) (by simp [busyNow, hb, State.freeNo, hfree])]
    refine ⟨?_, fatal_control_recorded (by omega) (by simpa [useFree] using hn)⟩
    rw [settle_control, (control_fault_sram (by omega)).1]
    simp [useFree]
  case poisoned =>
    intro dt core cause faultAddr s hc hk hf hr hh hp hn
    refine ⟨_, exec_coreException dt core cause faultAddr s (hwf dt hc hk hf), ?_⟩
    rw [coreException_poisoned (by simpa using hr) (by simpa using hh) (by simpa using hp)]
    refine ⟨?_, fatal_control_recorded (by decide) (by simpa [useFree] using hn)⟩
    rw [settle_control, (control_fault_sram (by decide)).1]
    simp [useFree]

end Sys2Proof.Machine
end

section
/-! SUPPORT. Record writes of the keep-store that nothing holds back (15 R497, R498); debug challenges, responses and what a level grants
(04 R123-R128), and the statement that they settle. -/

namespace Sys2Proof.Machine

section
variable {s u old : State}

/-! ### Record writes that nothing holds back -/

/-- Neither a refusal, a supply warning nor an earlier request stands in the way of a record write (15 R498, R507). -/
def keepFree (s : State) : Prop := s.keep.refuses = false ∧ mramDown s = false ∧ s.power.mram.warn = false ∧ s.keep.waiting = []

theorem keepFree_of_parts {t : State} (h : keepFree s) (hk : t.keep = s.keep) (hp : t.power = s.power) : keepFree t := by
  unfold keepFree mramDown at *
  rwa [hk, hp]

theorem requestWrite_free {o : KOrigin} {slot : Nat} {data : List Byte} (h : keepFree s) :
    requestWrite o slot data .ok s = (.done, wroteAll slot data s) := by
  obtain ⟨hr, hd, hw, hq⟩ := h
  simp [requestWrite, hr, hd, hw, hq, doWrite]

theorem requestCounter_free {o : KOrigin} {i v : Nat} (h : keepFree s) (hv : s.keep.counter i < v) :
    requestCounter o i v .ok s = (.done, wroteAll (s.keep.other (counterSlot i)) (leBytes v 8 ++ List.replicate 44 0) s) := by
  rw [requestCounter, if_neg (Nat.not_lt.2 (Nat.le_of_lt hv)), if_neg (Nat.ne_of_gt hv), requestWrite_free h]

theorem requestBoot_free {o : KOrigin} {a t b : Bool} {n : Nat} (h : keepFree s) :
    requestBoot o a t b n .ok s = (.done, wroteAll (s.keep.other 0) (bootData a t b n) s) := requestWrite_free h

/-! ### Faults that leave the debug state -/

/-- The debug state of the control complex. -/
def debugState (c : Control) : Nat × Option Challenge × Nat := (c.dbgLevel, c.challenge, c.dbgFails)

theorem controlRestart_debug (c : Nat) (b : Bool) : debugState (controlRestart c b s).control = debugState s.control := by
  unfold controlRestart; dsimp only; repeat' split
  all_goals rfl

theorem control_fault_debug {src cls cause detail : Nat} (hs : src < 16) :
    debugState (report1 src cls cause detail false s).control = debugState s.control := by
  obtain ⟨v, hv, h | h⟩ := control_fault_cases (s := s) (cls := cls) (cause := cause) (detail := detail) hs
  · rw [h, hv]
  · rw [h, controlRestart_debug, hv]

/-! ### Grants and failures -/

theorem grantLevel_debug (level : Nat) : debugState (grantLevel level s).control = (level, none, s.control.dbgFails) :=
  control_fault_debug (by decide)

theorem grantLevel_testGranted (level : Nat) : (grantLevel level s).chip.testGranted = (decide (level = 2) && s.chip.testMode) :=
  congrArg Chip.testGranted (report1_chip ..)

theorem unlockFailed_debug : debugState (unlockFailed s).control = (s.control.dbgLevel, none, min 3 (s.control.dbgFails + 1)) :=
  control_fault_debug (by decide)

theorem debugState_settle {l f : Nat} {c : Option Challenge} (h : debugState u.control = (l, c, f)) :
    (settle old u).control.dbgLevel = l ∧ (settle old u).control.challenge = c ∧ (settle old u).control.dbgFails = f := by
  rw [settle_control]
  obtain ⟨hl, hc, hf⟩ := Prod.ext_iff.1 h |>.imp_right Prod.ext_iff.1
  exact ⟨hl, hc, hf⟩

/-- The level of the TEST_MODE pin as a challenge finds it. -/
def seeTestMode (tm : Bool) (s : State) : State := { s with chip := { s.chip with testMode := tm } }

/-- A challenge request by the state that the filter has shown TEST_MODE to. -/
theorem debugChallenge_eq (level : Nat) (out : KOut) (tm : Bool) (s : State) : debugChallenge level out tm s =
    let t := seeTestMode tm s
    if !t.mainUp then t
    else if 3 ≤ t.control.dbgFails || (level = 2 && t.liveAdmitted) then { t with mgmt := { t.mgmt with tapOut := [] } }
    else match t.keep.unlockRecord with
      | none => if level = 2 && t.chip.rootKeyHash = 0 then grantLevel 2 t else { t with mgmt := { t.mgmt with tapOut := [] } }
      | some _ => challengeCommitted level (requestCounter (.challenge level) 1 (t.keep.counter 1 + 1) out t).1
          (requestCounter (.challenge level) 1 (t.keep.counter 1 + 1) out t).2 := rfl

/-- A challenge commits UNLOCK_SEQ. -/
theorem debugChallenge_commits {level : Nat} {tm : Bool} (hm : s.mainUp = true) (hf : s.control.dbgFails < 3)
    (hl : level = 2 → s.liveAdmitted = false) (hu : s.keep.unlockRecord ≠ none) (hk : keepFree s) :
    debugChallenge level .ok tm s = challengeCommitted level .done (wroteAll (s.keep.other (counterSlot 1))
      (leBytes (s.keep.counter 1 + 1) 8 ++ List.replicate 44 0) (seeTestMode tm s)) := by
  obtain ⟨d, hd⟩ := Option.ne_none_iff_exists'.1 hu
  have hlive : (decide (level = 2) && (seeTestMode tm s).liveAdmitted) = false := by
    by_cases h : level = 2
    · have hs : (seeTestMode tm s).liveAdmitted = false := hl h
      simp [hs]
    · simp [h]
  have hmain : (seeTestMode tm s).mainUp = true := hm
  have hfails : decide (3 ≤ (seeTestMode tm s).control.dbgFails) = false := decide_eq_false (Nat.not_le.2 hf)
  have hrec : (seeTestMode tm s).keep.unlockRecord = some d := hd
  have hcount : requestCounter (.challenge level) 1 ((seeTestMode tm s).keep.counter 1 + 1) .ok (seeTestMode tm s) =
      (.done, wroteAll (s.keep.other (counterSlot 1)) (leBytes (s.keep.counter 1 + 1) 8 ++ List.replicate 44 0) (seeTestMode tm s)) :=
    requestCounter_free (keepFree_of_parts hk rfl rfl) (Nat.lt_succ_self _)
  rw [debugChallenge_eq]
  simp only [hmain, hfails, hlive, hrec, hcount]
  rfl

/-- Without an unlock record level 2 is granted where the hash of the root key is 0. -/
theorem debugChallenge_unfused {out : KOut} {tm : Bool} (hm : s.mainUp = true) (hf : s.control.dbgFails < 3) (hl : s.liveAdmitted = false)
    (hu : s.keep.unlockRecord = none) (hk : s.chip.rootKeyHash = 0) : debugChallenge 2 out tm s = grantLevel 2 (seeTestMode tm s) := by
  have hmain : (seeTestMode tm s).mainUp = true := hm
  have hfails : decide (3 ≤ (seeTestMode tm s).control.dbgFails) = false := decide_eq_false (Nat.not_le.2 hf)
  have hlive : (seeTestMode tm s).liveAdmitted = false := hl
  have hrec : (seeTestMode tm s).keep.unlockRecord = none := hu
  have hhash : (seeTestMode tm s).chip.rootKeyHash = 0 := hk
  rw [debugChallenge_eq]
  simp only [hmain, hfails, hlive, hrec, hhash]
  rfl

/-- After three failures no challenge is given. -/
theorem debugChallenge_refused {level : Nat} {out : KOut} {tm : Bool} (hm : s.mainUp = true) (hf : 3 ≤ s.control.dbgFails) :
    debugChallenge level out tm s = { seeTestMode tm s with mgmt := { s.mgmt with tapOut := [] } } := by
  have hmain : (seeTestMode tm s).mainUp = true := hm
  have hfails : decide (3 ≤ (seeTestMode tm s).control.dbgFails) = true := decide_eq_true hf
  rw [debugChallenge_eq]
  simp only [hmain, hfails]
  rfl

theorem debugWrite_granted {f : State → State} (h : s.control.dbgLevel ≠ 0) : debugWrite f s = f s := by simp [debugWrite, h]
theorem debugWrite_locked {f : State → State} (h : s.control.dbgLevel = 0) : debugWrite f s = s := by simp [debugWrite, h]

theorem setHalt_halted {pair : Nat} {b : Bool} (h : pair < 2) :
    pairHalted (setHalt pair b s) pair = b ∧ pairHalted (setHalt pair b s) (1 - pair) = pairHalted s (1 - pair) := by
  rcases (by omega : pair = 0 ∨ pair = 1) with rfl | rfl <;> exact ⟨rfl, rfl⟩

@[simp] theorem settle_pairHalted {p : Nat} : pairHalted (settle old u) p = pairHalted u p := by simp [pairHalted]
@[simp] theorem respond_pairHalted {p code data : Nat} : pairHalted (respond code data u) p = pairHalted u p := rfl

/-- A halted pair that is stepped: its first core stands at a free value, and the other pair is as it was. -/
theorem stepPair_cores {pair : Nat} (h : pair < 2) (hh : pairHalted s pair = true) (hl : s.control.cores.length = 4) :
    ((stepPair pair s).control.cores.getD (2 * pair) {}).pc = Config.freeWord (s.chip.freeCtr + 32) ∧
      pairHalted (stepPair pair s) pair = true ∧
      (stepPair pair s).control.cores.getD (2 * (1 - pair)) {} = s.control.cores.getD (2 * (1 - pair)) {} := by
  have hstep : stepPair pair s = useFree 42 { s with control := { s.control with
      cores := modNth (modNth s.control.cores (2 * pair) (freeCore s.freeNo)) (2 * pair + 1) (freeCore s.freeNo) } } := by simp [stepPair, hh]
  rw [hstep]
  refine ⟨?_, hh, ?_⟩
  · show ((modNth (modNth s.control.cores (2 * pair) (freeCore s.freeNo)) (2 * pair + 1) (freeCore s.freeNo)).getD (2 * pair) {}).pc = _
    rw [getD_modNth_ne _ _ _ _ _ (by omega), getD_modNth_self _ _ _ _ (by omega)]
    rfl
  · show (modNth (modNth s.control.cores (2 * pair) (freeCore s.freeNo)) (2 * pair + 1) (freeCore s.freeNo)).getD (2 * (1 - pair)) {} = _
    rw [getD_modNth_ne _ _ _ _ _ (by omega), getD_modNth_ne _ _ _ _ _ (by omega)]

end

/-- Settles O24: the grants and failures of an exchange, and the writes that a granted level allows. -/
theorem debugIsUnlocked : Obligations.DebugIsUnlocked := by
  unfold Obligations.DebugIsUnlocked
  refine ⟨?unfused, ?challenge, ?refused, ?response, ?timeout, ?halt, ?step, ?freeze, ?locked⟩
  case unfused =>
    intro dt tm s hm hf hl hu hk
    refine ⟨_, exec_debugChallenge dt ⟨2, tm⟩ .ok s rfl, ?_⟩
    rw [debugChallenge_unfused (by simpa using hm) (by simpa using hf) (by simpa using hl) (by simpa using hu) (by simpa using hk)]
    obtain ⟨hlevel, hchal, -⟩ := debugState_settle (old := s) (grantLevel_debug (s := seeTestMode tm (advance dt s)) 2)
    exact ⟨hlevel, hchal, by rw [settle_chip, grantLevel_testGranted]; rfl⟩
  case challenge =>
    intro dt level tm s hwf hm hf hl hu hq hr hd hw
    refine ⟨_, exec_debugChallenge dt ⟨level, tm⟩ .ok s hwf, ?_⟩
    rw [debugChallenge_commits (by simpa using hm) (by simpa using hf) (by simpa using hl) (by simpa using hu)
      (keepFree_of_parts ⟨hr, hd, hw, hq⟩ (advance_keep ..) (advance_power ..)), advance_keep, settle_keep, settle_control]
    generalize hv : wroteAll (s.keep.other (counterSlot 1)) (leBytes (s.keep.counter 1 + 1) 8 ++ List.replicate 44 0) (seeTestMode tm (advance dt s)) = v
    have hseq : v.keep.seq = s.keep.seq + 1 := by rw [← hv]; simp [wroteAll, seeTestMode]
    have hmem : v.keep.mem = putWords s.keep.mem (recordWords (s.keep.other (counterSlot 1)) s.keep.seq
        (leBytes (s.keep.counter 1 + 1) 8 ++ List.replicate 44 0)) := by rw [← hv]; simp [wroteAll, seeTestMode]
    have hnow : v.now = (advance dt s).now := by rw [← hv]; rfl
    have hhash : v.chip.rootKeyHash = s.chip.rootKeyHash := by rw [← hv]; simp [wroteAll, seeTestMode]
    refine ⟨hseq, hmem, ?_, ?_⟩
    · rw [← hnow]; rfl
    · rw [settle_mgmt_tapOut, ← hnow]
      simp [challengeCommitted, challengeBytes, hhash]
  case refused =>
    intro dt level tm out s hwf hm hf
    refine ⟨_, exec_debugChallenge dt ⟨level, tm⟩ out s hwf, ?_⟩
    rw [debugChallenge_refused (by simpa using hm) (by simpa using hf)]
    simp [seeTestMode]
  case response =>
    intro dt key sig c s hwf hc
    refine ⟨_, exec_debugUnlockResponse dt key sig false s hwf, ?_⟩
    have hc' : (advance dt s).control.challenge = some c := by simpa using hc
    cases hok : unlockOk (advance dt s) c key sig
    case true =>
      have hgrant : unlockResponse key sig false (advance dt s) = grantLevel c.level (seeTestMode false (advance dt s)) := by
        simp only [unlockResponse, hc', hok]; rfl
      rw [hgrant]
      obtain ⟨hlevel, hchal, -⟩ := debugState_settle (old := s) (grantLevel_debug (s := seeTestMode false (advance dt s)) c.level)
      exact ⟨hchal, hlevel, fun h => absurd h (by decide)⟩
    case false =>
      have hfail : unlockResponse key sig false (advance dt s) = unlockFailed (seeTestMode false (advance dt s)) := by
        simp only [unlockResponse, hc', hok]; rfl
      rw [hfail]
      obtain ⟨hlevel, hchal, hfails⟩ := debugState_settle (old := s) (unlockFailed_debug (s := seeTestMode false (advance dt s)))
      exact ⟨hchal, by simpa [seeTestMode] using hlevel, fun _ => by simpa [seeTestMode] using hfails⟩
  case timeout =>
    intro dt c s hc ht
    refine ⟨_, exec_debugChallengeTimeout dt s rfl, ?_⟩
    have hfail : challengeTimeout (advance dt s) = unlockFailed (advance dt s) := by simp [challengeTimeout, hc, ht]
    rw [hfail]
    obtain ⟨hlevel, hchal, hfails⟩ := debugState_settle (old := s) (unlockFailed_debug (s := advance dt s))
    exact ⟨hchal, by simpa using hlevel, by simpa using hfails⟩
  case halt =>
    intro dt pair h s hp hm hl
    refine ⟨_, exec_debugHalt dt true pair h s (by simpa [Instr.wf] using hp), ?_⟩
    rw [mainWrite_ok (by simpa using hm), debugWrite_granted (by simpa using hl)]
    have hh := setHalt_halted (s := advance dt s) (b := h) hp
    simpa using hh
  case step =>
    intro dt pair s hp hm hl hh hn
    refine ⟨_, exec_debugStep dt true pair s (by simpa [Instr.wf] using hp), ?_⟩
    rw [mainWrite_ok (by simpa using hm), debugWrite_granted (by simpa using hl)]
    have h := stepPair_cores (s := advance dt s) hp (by simpa using hh) (by simpa using hn)
    simpa using h
  case freeze =>
    intro dt v s hm hl
    refine ⟨_, exec_freezeLeaseWrite dt true v s rfl, ?_⟩
    rw [mainWrite_ok (by simpa using hm), debugWrite_granted (by simpa using hl)]
    simp [setFreeze, refreeze]
  case locked =>
    intro dt pair h s hp hm hl
    rw [exec_debugHalt dt true pair h s (by simpa [Instr.wf] using hp), mainWrite_ok (by simpa using hm), debugWrite_locked (by simpa using hl)]

end Sys2Proof.Machine
end

section
/-! SUPPORT. The bytes of a record write of the keep-store (15 R494-R498), and the statement that they settle. -/

namespace Sys2Proof.Machine

/-! ### CRC-32C and numbers in bytes -/

theorem crc32cBit_lt {c : Nat} (h : c < 2 ^ 32) : crc32cBit c < 2 ^ 32 := by
  unfold crc32cBit
  split
  · exact Nat.xor_lt_two_pow (by omega) (by decide)
  · omega

theorem crc32cRun_lt (bs : List Byte) {c : Nat} (h : c < 2 ^ 32) : crc32cRun c bs < 2 ^ 32 := by
  induction bs generalizing c with
  | nil => exact h
  | cons b bs ih =>
    have hx : Nat.xor c b.toNat < 2 ^ 32 := Nat.xor_lt_two_pow h (lt_trans b.isLt (by decide))
    exact ih (crc32cBit_lt (crc32cBit_lt (crc32cBit_lt (crc32cBit_lt (crc32cBit_lt (crc32cBit_lt (crc32cBit_lt (crc32cBit_lt hx))))))))

theorem crc32c_lt (bs : List Byte) : crc32c bs < 2 ^ 32 := Nat.xor_lt_two_pow (crc32cRun_lt bs (by decide)) (by decide)

theorem leNat_leBytes (n v : Nat) (h : v < 256 ^ n) : leNat (leBytes v n) = v := by
  induction n generalizing v with
  | zero => have : v = 0 := by simpa using h
            subst this; rfl
  | succ n ih =>
    have hd : v / 256 < 256 ^ n := Nat.div_lt_of_lt_mul (by rwa [Nat.pow_succ', ] at h)
    rw [leBytes, leNat, ih _ hd, BitVec.toNat_ofNat]
    omega

/-! ### Records -/

theorem slice_full (l : List Byte) (n : Nat) (h : l.length = n) : slice l 0 n = l := by
  subst h; simp [slice]

theorem slice_inside (l : List Byte) (a n : Nat) (h : a + n ≤ l.length) : slice l a n = (l.drop a).take n := by
  have hl : ((l.drop a).take n).length = n := by rw [List.length_take, List.length_drop]; omega
  simp [slice, hl]

/-- Words one after another are one stretch of bytes. -/
theorem putWords_words (body : List Byte) (a n k : Nat) (m : Mem) (h : 8 * (k + n) ≤ body.length) :
    putWords m ((upto k n).map (fun i => (a + 8 * i, slice body (8 * i) 8))) = m.writeBytes (a + 8 * k) ((body.drop (8 * k)).take (8 * n)) := by
  induction n generalizing k m with
  | zero => rfl
  | succ n ih =>
    have hsplit : (body.drop (8 * k)).take (8 * (n + 1)) = slice body (8 * k) 8 ++ (body.drop (8 * (k + 1))).take (8 * n) := by
      rw [slice_inside _ _ _ (by omega), show 8 * (n + 1) = 8 + 8 * n by omega, List.take_add, List.drop_drop, Nat.mul_add]
    have hlen : (slice body (8 * k) 8).length = 8 := by rw [slice_inside _ _ _ (by omega), List.length_take, List.length_drop]; omega
    rw [upto, List.map_cons, putWords, ih (k + 1) _ (by omega), hsplit, Mem.writeBytes_append, hlen]
    rfl

theorem putWords_append (l₁ l₂ : List (Nat × List Byte)) (m : Mem) : putWords m (l₁ ++ l₂) = putWords (putWords m l₁) l₂ := by
  induction l₁ generalizing m with
  | nil => rfl
  | cons p t ih => exact ih _

section
variable {slot seq : Nat} {data : List Byte} {m : Mem}

/-- CRC word of a record. -/
def recordCrc (slot seq : Nat) (data : List Byte) : Nat := crc32c (data ++ commitBytes slot seq)

theorem commitBytes_length : (commitBytes slot seq).length = 8 := by simp [commitBytes]

/-- A record write in three stretches: the commit mark is cleared, the data and their CRC are written, and the commit mark. -/
theorem putWords_recordWords (h : data.length = 52) : putWords m (recordWords slot seq data) =
    ((m.writeBytes (64 * slot + 0x38) (List.replicate 8 0)).writeBytes (64 * slot) (data ++ leBytes (recordCrc slot seq data) 4)).writeBytes
      (64 * slot + 0x38) (commitBytes slot seq) := by
  have hbody : (data ++ leBytes (recordCrc slot seq data) 4).length = 56 := by simp [h]
  have hwords := putWords_words (data ++ leBytes (recordCrc slot seq data) 4) (64 * slot) 7 0 (m.writeBytes (64 * slot + 0x38) (List.replicate 8 0))
    (by omega)
  unfold recordWords
  simp only [slice_full data 52 h]
  rw [List.cons_append, putWords, putWords_append]
  rw [← recordCrc, hwords]
  simp only [putWords]
  rw [Nat.mul_zero, List.drop_zero, List.take_of_length_le (by omega)]
  rfl

theorem wf_putWords_recordWords (hm : Mem.wf m = true) (h : data.length = 52) : Mem.wf (putWords m (recordWords slot seq data)) = true := by
  rw [putWords_recordWords h]
  exact Mem.wf_writeBytes _ _ _ (Mem.wf_writeBytes _ _ _ (Mem.wf_writeBytes _ _ _ hm))

/-- A record write changes no byte outside its slot. -/
theorem read_recordWords_outside (hm : Mem.wf m = true) (h : data.length = 52) {a : Nat} (ha : a < 64 * slot ∨ 64 * slot + 64 ≤ a) :
    (putWords m (recordWords slot seq data)).read a = m.read a := by
  have h1 := Mem.wf_writeBytes (List.replicate 8 0) m (64 * slot + 0x38) hm
  have h2 := Mem.wf_writeBytes (data ++ leBytes (recordCrc slot seq data) 4) _ (64 * slot) h1
  rw [putWords_recordWords h, Mem.read_writeBytes_outside _ _ _ _ h2 (by rw [commitBytes_length]; omega),
    Mem.read_writeBytes_outside _ _ _ _ h1 (by rw [List.length_append, h, leBytes_length]; omega),
    Mem.read_writeBytes_outside _ _ _ _ hm (by rw [List.length_replicate]; omega)]

/-- What the slot of a record write holds: data, CRC and commit mark. -/
theorem readBytes_recordWords (hm : Mem.wf m = true) (h : data.length = 52) : let t := putWords m (recordWords slot seq data)
    t.readBytes (64 * slot) 52 = data ∧ leNat (t.readBytes (64 * slot + 0x34) 4) = recordCrc slot seq data ∧
      t.readBytes (64 * slot + 0x38) 8 = commitBytes slot seq := by
  have h1 := Mem.wf_writeBytes (List.replicate 8 0) m (64 * slot + 0x38) hm
  have h2 := Mem.wf_writeBytes (data ++ leBytes (recordCrc slot seq data) 4) _ (64 * slot) h1
  have hbelow (a n : Nat) (ha : a + n ≤ 64 * slot + 0x38) : (putWords m (recordWords slot seq data)).readBytes a n =
      ((m.writeBytes (64 * slot + 0x38) (List.replicate 8 0)).writeBytes (64 * slot) (data ++ leBytes (recordCrc slot seq data) 4)).readBytes a n := by
    rw [putWords_recordWords h]
    exact Mem.readBytes_congr _ _ (fun c hl hh => Mem.read_writeBytes_outside _ _ _ _ h2 (.inl (by omega)))
  intro t
  refine ⟨?_, ?_, ?_⟩
  · rw [hbelow _ _ (by omega)]
    exact Mem.readBytes_writeBytes_mid [] data (leBytes (recordCrc slot seq data) 4) _ (64 * slot) 0 52 h1 rfl h
  · rw [hbelow _ _ (by omega)]
    have hread := Mem.readBytes_writeBytes_mid data (leBytes (recordCrc slot seq data) 4) [] _ (64 * slot) 0x34 4 h1 h (leBytes_length _ _)
    rw [List.append_nil] at hread
    rw [hread, leNat_leBytes _ _ (crc32c_lt _)]
  · have hread := Mem.readBytes_writeBytes (commitBytes slot seq) _ (64 * slot + 0x38) h2
    rw [commitBytes_length] at hread
    exact (congrArg (fun m : Mem => m.readBytes (64 * slot + 0x38) 8) (putWords_recordWords h)).trans hread

end

/-- A waiting write of a confirmation that nothing holds back is carried out, and the confirmation is done with it. -/
theorem keepTurn_confirms {s : State} {q : KReq} {l : List KReq} (hq : s.keep.waiting = q :: l) (ho : q.origin = .confirm) (hs : 64 ≤ q.slot)
    (hr : s.keep.refuses = false) (hd : mramDown s = false) (hw : s.power.mram.warn = false) :
    keepTurn .ok s = confirmDone (wroteAll q.slot q.data { s with keep := { s.keep with waiting := l } }) := by
  simp [keepTurn, hq, hr, hd, hw, doWrite, finishKeep, ho, Nat.not_lt.2 hs]

/-- Settles O26: the nine words of a record write make three stretches of bytes. -/
theorem recordWritesFillTheirSlot : Obligations.RecordWritesFillTheirSlot := by
  unfold Obligations.RecordWritesFillTheirSlot
  intro dt q l s hq hs hl hseq hm hr hd hw ho h64
  refine ⟨_, exec_keepRecordWrite dt .ok s rfl, ?_⟩
  have hturn := keepTurn_confirms (s := advance dt s) (by simpa using hq) ho h64 (by simpa using hr)
    (by simpa [mramDown] using hd) (by simpa using hw)
  have hkeep : (settle s (keepTurn .ok (advance dt s))).keep = { s.keep with
      waiting := l, mem := putWords s.keep.mem (recordWords q.slot s.keep.seq q.data), seq := s.keep.seq + 1,
      eccBad := s.keep.eccBad.filter (· ≠ q.slot) } := by
    rw [settle_keep, hturn]; simp [confirmDone, wroteAll]
  obtain ⟨hdata, hcrc, hcommit⟩ := readBytes_recordWords (slot := q.slot) (seq := s.keep.seq) hm hl
  rw [hkeep]
  exact ⟨rfl, rfl, wf_putWords_recordWords hm hl, hdata, hcommit, hcrc, fun a ha => read_recordWords_outside hm hl ha⟩

end Sys2Proof.Machine
end

section
/-! SUPPORT. Staging, activation and confirmation of firmware (04 R104-R107, 05 R173, R174); the keep-store's own events (15 R503-R507), and the
statements that they settle. -/

namespace Sys2Proof.Machine

section
variable {s u t old : State}

/-! ### What reports leave of the control complex and the keep-store -/

/-- What is staged and where the slots' images lie. -/
def stagedView (s : State) : Option Staged × Nat × Nat := (s.control.staged, s.control.fwAddrA, s.control.fwAddrB)

theorem stagedView_of_faults (h : outsideFaults t = outsideFaults s) : stagedView t = stagedView s :=
  (congrArg (fun u : State => stagedView u) h :)

theorem stagedView_report1 (src cls cause detail : Nat) (b : Bool) : stagedView (report1 src cls cause detail b s) = stagedView s :=
  stagedView_of_faults (outsideFaults_report _)

theorem slotAddrOf_of_staged (h : stagedView t = stagedView s) (b : Bool) : slotAddrOf t b = slotAddrOf s b := by
  obtain ⟨-, hA, hB⟩ := Prod.ext_iff.1 h |>.imp_right Prod.ext_iff.1
  unfold slotAddrOf
  cases b
  · exact hA
  · exact hB

/-! ### FW_STAGE -/

/-- The mailbox shows an ordinary response. -/
theorem answer_box {box status detail : Nat} {p : List Byte} :
    ((answer box status detail p s).box box).busy = false ∧ ((answer box status detail p s).box box).respValid = true := by
  simp [answer, answerAs]

theorem checked_passed {box : Nat} {checks : List (Bool × Nat × Nat)} {f : State → State} (h : firstFail checks = none) :
    checked box checks f s = f s := by simp [checked, h]

theorem firstFail_none {l : List (Bool × Nat × Nat)} (h : ∀ x ∈ l, x.1 = true) : firstFail l = none := by
  have hn : l.find? (fun x => !x.1) = none := List.find?_eq_none.2 (fun x hx => by simp [h x hx])
  simp [firstFail, hn]

/-- What a staging that passes its checks leaves: the response, and the image where it verifies. -/
theorem fwStage_stages {box : Nat} {mem : ExtMem} {b : List Byte} (ha : field b 0x10 8 % 4096 = 0) (hb : field b 0x10 8 < 2 ^ 48)
    (ht : trialRuns s = false) (hr : rootOk s = true) :
    ∃ v st d p, fwStage box mem b s = answer box st d p v ∧
      stagedView v = match verifyImage s mem (field b 0x10 8) (some (field b 0x18 4)) with
        | .ok i => (some { version := i.version, slotB := inactiveB s },
            if inactiveB s then s.control.fwAddrA else field b 0x10 8, if inactiveB s then field b 0x10 8 else s.control.fwAddrB)
        | .error _ => stagedView s := by
  have hfetch := outside_fetchImage (s := s) mem (field b 0x10 8)
  have hview : stagedView (fetchImage mem (field b 0x10 8) s) = stagedView s := stagedView_of_faults (outsideFaults_of_spine hfetch)
  unfold fwStage
  rw [checked_passed (firstFail_none (by simpa [ha, ht, hr] using hb))]
  dsimp only
  generalize verifyImage s mem (field b 0x10 8) (some (field b 0x18 4)) = r
  generalize fetchImage mem (field b 0x10 8) s = v at hfetch hview ⊢
  split
  · exact ⟨v, _, _, _, rfl, hview⟩
  · exact ⟨_, _, _, _, rfl, (stagedView_report1 ..).trans ((stagedView_report1 ..).trans hview)⟩
  · exact ⟨v, _, _, _, rfl, hview⟩
  · refine ⟨_, _, _, _, rfl, ?_⟩
    have hslot : inactiveB v = inactiveB s := by unfold inactiveB; rw [spine_keep hfetch]
    obtain ⟨-, hA, hB⟩ := Prod.ext_iff.1 hview |>.imp_right Prod.ext_iff.1
    rw [hslot]
    cases inactiveB s
    · exact congrArg (fun n => (_, _, n)) hB
    · exact congrArg (fun n => (_, n, _)) hA

/-! ### FW_ACTIVATE and confirmation -/

/-- FW_ACTIVATE of the staged version commits the boot record and restarts. -/
theorem fwActivate_staged {box : Nat} {b : List Byte} {g : Staged} (hk : keepFree s) (hg : s.control.staged = some g) (hv : g.version = field b 8 4)
    (hr : s.control.restarting = false) : let t := fwActivate box .ok b s
    t.control.staged = none ∧ Safety.restarts t 0x41 ∧ t.keep.seq = s.keep.seq + 1 ∧
      t.keep.mem = putWords s.keep.mem (recordWords (s.keep.other 0) s.keep.seq (bootData s.keep.boot.1 true g.slotB 0)) := by
  have hact : fwActivate box .ok b s = activated box .done (wroteAll (s.keep.other 0) (bootData s.keep.boot.1 true g.slotB 0) s) := by
    have hw : (s.keep.waiting.any (·.origin == .activate box)) = false := by simp [hk.2.2.2]
    simp [fwActivate, hw, hg, hv, requestBoot_free hk]
  generalize hu : wroteAll (s.keep.other 0) (bootData s.keep.boot.1 true g.slotB 0) s = u at hact
  have hseq : u.keep.seq = s.keep.seq + 1 := by rw [← hu]; rfl
  have hmem : u.keep.mem = putWords s.keep.mem (recordWords (s.keep.other 0) s.keep.seq (bootData s.keep.boot.1 true g.slotB 0)) := by rw [← hu]; rfl
  have hrest : u.control.restarting = false := by rw [← hu]; exact hr
  generalize hv : answer box 0 0 [] { u with control := { u.control with staged := none } } = v
  have hrun : activated box .done u = controlRestart 0x41 false v := by rw [← hv]; rfl
  have hkeep : (controlRestart 0x41 false v).keep.seq = u.keep.seq ∧ (controlRestart 0x41 false v).keep.mem = u.keep.mem := by
    have h := outsideFaults_controlRestart (s := v) 0x41 false
    exact ⟨(congrArg (fun x : State => x.keep.seq) h :).trans (by rw [← hv]; rfl), (congrArg (fun x : State => x.keep.mem) h :).trans (by rw [← hv]; rfl)⟩
  have hstaged : (controlRestart 0x41 false v).control.staged = none :=
    (congrArg Prod.fst (stagedView_of_faults (outsideFaults_controlRestart (s := v) 0x41 false)) :).trans (by rw [← hv]; rfl)
  rw [hact, hrun]
  exact ⟨hstaged, controlRestart_restarts (by rw [← hv]; exact hrest) (fun h => absurd h (by decide)), hkeep.1.trans hseq, hkeep.2.trans hmem⟩

/-- A confirmation whose turn it is. -/
theorem confirmRun_turn {outs : List KOut} (hf : s.fwRuns = true) (hh : s.control.halt0 = false) (hw : s.keep.waiting = []) :
    (s.control.confirm = .counter → confirmRun outs s = confirmCounter (outs.headD .ok) s) ∧
      (s.control.confirm = .record → ∀ v, requestBoot .confirm s.keep.boot.2.2.1 false s.keep.boot.2.2.1 s.keep.boot.2.2.2 (outs.headD .ok) s =
        (.done, v) → confirmRun outs s = confirmCounter (outs.getD 1 .ok) (recordConfirmed v)) := by
  have hgate : (!s.fwRuns || s.control.halt0 || s.keep.waiting.any (·.origin == .confirm)) = false := by simp [hf, hh, hw]
  constructor
  · intro hc
    simp [confirmRun, hgate, hc]
  · intro hc v hv
    simp only [confirmRun, hgate, hc, hv]
    rfl

theorem confirmCounter_reached {out : KOut} (h : s.control.fwSvn ≤ s.keep.counter 0) : confirmCounter out s = confirmDone s := by
  simp [confirmCounter, h]

theorem confirmCounter_writes (hk : keepFree s) (h : s.keep.counter 0 < s.control.fwSvn) : confirmCounter .ok s =
    confirmDone (wroteAll (s.keep.other (counterSlot 0)) (leBytes s.control.fwSvn 8 ++ List.replicate 44 0) s) := by
  simp [confirmCounter, Nat.not_le.2 h, requestCounter_free hk h]

theorem exec_confirms {dt : Nat} {outs : List KOut} {c : Instr} (hc : c = .fwConfirm dt outs ∨ c = .fwConfirmRetry dt outs) :
    exec c s = .next (settle s (confirmRun outs (advance dt s))) := by
  rcases hc with rfl | rfl
  · exact exec_fwConfirm dt outs s rfl
  · exact exec_fwConfirmRetry dt outs s rfl

end

/-- Settles O25: staging, activation and each step of a confirmation. -/
theorem firmwareIsStagedAndConfirmed : Obligations.FirmwareIsStagedAndConfirmed := by
  unfold Obligations.FirmwareIsStagedAndConfirmed
  refine ⟨?stage, ?activate, ?record, ?counter, ?reached⟩
  case stage =>
    intro dt mem s hwf hdue ha hb ht hr
    refine ⟨_, exec_fwStage dt 256 mem s hwf, ?_⟩
    rw [command_due hdue anyReq rfl]
    obtain ⟨v, st, d, p, hans, hview⟩ := fwStage_stages (s := advance dt s) (box := 256) (mem := mem) ha hb (by simpa [trialRuns] using ht)
      (by rwa [advance_rootOk])
    have hafter : stagedView (settle s (answer 256 st d p v)) = stagedView v := by
      unfold stagedView; rw [settle_control]; rfl
    have hverify : verifyImage (advance dt s) mem = verifyImage s mem := by
      funext a z; exact verifyImage_congr (advance_chip ..) (advance_keep ..) mem a z
    have hbox := answer_box (s := v) (box := 256) (status := st) (detail := d) (p := p)
    have hslot : inactiveB (advance dt s) = inactiveB s := by unfold inactiveB; rw [advance_keep]
    rw [hverify, hslot, advance_control] at hview
    rw [hans]
    refine ⟨by rw [settle_box_busy]; exact hbox.1, by rw [settle_box_respValid]; exact hbox.2, ?_⟩
    generalize settle s (answer 256 st d p v) = w at hafter
    have hview := hafter.trans hview
    cases hv : verifyImage s mem (field (reqBytes (s.box 256)) 0x10 8) (some (field (reqBytes (s.box 256)) 0x18 4)) with
    | error e =>
      rw [hv] at hview
      have hs : stagedView w = stagedView s := hview.trans (by unfold stagedView; rw [advance_control])
      exact ⟨slotAddrOf_of_staged hs _, Prod.ext_iff.2 ⟨(congrArg Prod.fst hs :), slotAddrOf_of_staged hs _⟩⟩
    | ok i =>
      rw [hv] at hview
      obtain ⟨hst, hA, hB⟩ := Prod.ext_iff.1 hview |>.imp_right Prod.ext_iff.1
      simp only [stagedView] at hst hA hB
      cases hi : inactiveB s <;> simp [hi] at hst hA hB ⊢ <;> simp [slotAddrOf, hst, hA, hB]
  case activate =>
    intro dt g s hdue hq hg hv hr hd hw hrest
    refine ⟨_, exec_fwActivate dt 256 .ok s rfl, ?_⟩
    rw [command_due hdue anyReq rfl]
    obtain ⟨hst, ⟨h1, h2, h3, h4, h5⟩, hseq, hmem⟩ := fwActivate_staged (s := advance dt s) (box := 256)
      (keepFree_of_parts ⟨hr, hd, hw, hq⟩ (advance_keep ..) (advance_power ..)) (by simpa using hg) hv (by simpa using hrest)
    rw [settle_control, settle_keep]
    exact ⟨hst, h1, h5, by simpa using hseq, by simpa using hmem⟩
  case record =>
    intro dt c s hc hf hh hq hcf hr hd hw hsvn
    refine ⟨_, exec_confirms hc, ?_⟩
    have hboot := requestBoot_free (o := .confirm) (a := s.keep.boot.2.2.1) (t := false) (b := s.keep.boot.2.2.1) (n := s.keep.boot.2.2.2)
      (s := advance dt s) (keepFree_of_parts ⟨hr, hd, hw, hq⟩ (advance_keep ..) (advance_power ..))
    rw [(confirmRun_turn (by simpa using hf) (by simpa using hh) (by simpa using hq)).2 (by simpa using hcf) _ (by simpa using hboot),
      confirmCounter_reached (by simpa [recordConfirmed, wroteAll] using hsvn)]
    simp [confirmDone, recordConfirmed, wroteAll]
  case counter =>
    intro dt c s hc hf hh hq hcf hlt hr hd hw
    refine ⟨_, exec_confirms hc, ?_⟩
    rw [(confirmRun_turn (by simpa using hf) (by simpa using hh) (by simpa using hq)).1 (by simpa using hcf), List.headD_nil,
      confirmCounter_writes (keepFree_of_parts ⟨hr, hd, hw, hq⟩ (advance_keep ..) (advance_power ..)) (by simpa using hlt)]
    simp [confirmDone, wroteAll]
  case reached =>
    intro dt outs c s hc hwf hf hh hq hcf hle
    refine ⟨_, exec_confirms hc, ?_⟩
    rw [(confirmRun_turn (by simpa using hf) (by simpa using hh) (by simpa using hq)).1 (by simpa using hcf),
      confirmCounter_reached (by simpa using hle)]
    simp [confirmDone]

end Sys2Proof.Machine
end

section
/-! SUPPORT. The boot scan, held-back writes, the journal, compaction and the rail of the keep-store (15 R503-R507, 16 R530), and the statement
that they settle. -/

namespace Sys2Proof.Machine

section
variable {s : State}

/-! ### What validity reads -/

section
variable {k k' : Keep} (hm : k'.mem = k.mem) (hi : k'.indexBad = k.indexBad) (he : k'.eccBad = k.eccBad)
include hm hi he

theorem valid_congr (slot : Nat) : k'.valid slot = k.valid slot := by unfold Keep.valid Keep.slotBytes; rw [hm, hi, he]

theorem current_congr (a : Nat) : k'.current a = k.current a := by
  unfold Keep.current Keep.slotBytes
  rw [valid_congr hm hi he, valid_congr hm hi he, hm]

theorem counter_congr (i : Nat) : k'.counter i = k.counter i := by
  unfold Keep.counter Keep.pairData Keep.dataOf Keep.slotBytes
  rw [current_congr hm hi he, hm]

theorem journalValid_congr (r : Nat) : k'.journalValid r = k.journalValid r := by
  unfold Keep.journalValid Keep.slotBytes
  simp only [counter_congr hm hi he, current_congr hm hi he, valid_congr hm hi he, hm]

theorem head_congr : k'.head = k.head := by
  have hj : k'.journal = k.journal := by
    unfold Keep.journal Keep.slotBytes
    simp only [journalValid_congr hm hi he, hm]
  unfold Keep.head
  rw [hj]

end

/-! ### The boot scan -/

/-- A running maximum is at least each of its terms. -/
theorem le_foldl_max (l : List Nat) (p : Nat → Bool) (f : Nat → Nat) (a : Nat) :
    a ≤ l.foldl (fun m i => if p i then max m (f i) else m) a ∧
      ∀ i ∈ l, p i = true → f i ≤ l.foldl (fun m i => if p i then max m (f i) else m) a := by
  induction l generalizing a with
  | nil => simp
  | cons j t ih =>
    have hstep := ih (if p j then max a (f j) else a)
    rw [List.foldl_cons]
    refine ⟨?_, fun i hi hp => ?_⟩
    · refine le_trans ?_ hstep.1
      split
      · exact le_max_left ..
      · exact le_refl _
    · rcases List.mem_cons.1 hi with rfl | hi
      · refine le_trans ?_ hstep.1
        rw [if_pos hp]; exact le_max_right ..
      · exact hstep.2 i hi hp

/-- A valid slot is one that the scan counts. -/
theorem slotValid_scanned {k : Keep} {i : Nat} (h : k.slotValid i = true) :
    (k.valid i && (decide (i < 128) || decide (1664 ≤ i) || k.journalValid (i - 128))) = true := by
  unfold Keep.slotValid at h
  split at h
  case isTrue hr =>
    have hv : k.valid i = true := by
      unfold Keep.journalValid at h
      simp only [Bool.and_eq_true, decide_eq_true_eq] at hr h
      rw [show 128 + (i - 128) = i by omega] at h
      exact h.1.1
    simp [h, hv]
  case isFalse hr =>
    split at h
    · exact absurd h (by decide)
    · have : i < 128 ∨ 1664 ≤ i := by simp at hr; omega
      simp [h, this]

/-- A scan that finds nothing leaves KEEP_SEQ above every valid record's (15 R505). -/
theorem keepScan_clean (hp : s.chip.porstN = true) (hi : s.chip.keeperInit = true) (hn : s.keep.scanDone = false) (hg : s.power.mram.pg = true)
    (hr : s.power.mram.req = true) : let k := (keepScan [] [] s).keep
    k.scanDone = true ∧ k.eccBad = [] ∧ k.mem = s.keep.mem ∧
      ∀ i < 4096, ({ s.keep with eccBad := [], indexBad := false } : Keep).slotValid i = true → slotSeq (s.keep.slotBytes i) < k.seq := by
  have hgate : (!(s.chip.porstN && s.chip.keeperInit) || s.keep.scanDone || !s.power.mram.pg || !s.power.mram.req) = false := by
    simp [hp, hi, hn, hg, hr]
  unfold keepScan
  rw [hgate]
  refine ⟨rfl, rfl, rfl, fun i hlt hv => ?_⟩
  exact Nat.lt_succ_of_le ((le_foldl_max (upto 0 4096) _ (fun i => slotSeq (s.keep.slotBytes i)) 0).2 i ((mem_upto ..).2 ⟨Nat.zero_le _, by omega⟩)
    (slotValid_scanned hv))

/-! ### The journal -/

/-- Firmware has taken one entry of the fault log into its empty buffer. -/
def tookEntry (e : LogEntry) (s : State) : State :=
  { s with faults := { s.faults with log := [], logHi := e.detail, logTime := e.time }, keep := { s.keep with jbuf := [e] } }

theorem fillBuffer_one {e : LogEntry} (hb : s.keep.jbuf = []) (hl : s.faults.log = [e]) : fillBuffer 3 s = tookEntry e s := by
  simp [fillBuffer, hb, hl, tookEntry]

theorem keepFree_tookEntry {e : LogEntry} (h : keepFree s) : keepFree (tookEntry e s) := h

theorem head_tookEntry {e : LogEntry} : (tookEntry e s).keep.head = s.keep.head := head_congr (k := s.keep) rfl rfl rfl

theorem journalValid_tookEntry {e : LogEntry} (r : Nat) : (tookEntry e s).keep.journalValid r = s.keep.journalValid r :=
  journalValid_congr (k := s.keep) rfl rfl rfl r

/-- The journal takes one entry at a HEAD that holds no valid record. -/
theorem journalWrite_one {e : LogEntry} (hb : s.keep.jbuf = [e]) (hk : keepFree s) (hv : s.keep.journalValid s.keep.head = false) :
    let u := wroteAll (128 + s.keep.head) (journalData 0 [entryBytes e false e.detail]) s
    journalWrite [.ok] s = { u with keep := { u.keep with jbuf := [], jretry := false } } := by
  have hlost : overwritten s.keep = 0 := by simp [overwritten, hv]
  simp only [journalWrite, hb, hlost]
  simp [requestWrite_free hk, loseEntries]

/-! ### Compaction and the rail -/

/-- The last step of a compaction writes its counter. -/
theorem compactStep_last {n e : Nat} (hf : s.fwRuns = true) (hh : s.control.halt1 = false) (hd : s.keep.scanDone = true) (hk : keepFree s)
    (hc : s.keep.compact = some ([], n, e)) (hlt : s.keep.counter 2 < e + 1) :
    let u := wroteAll (s.keep.other (counterSlot 2)) (leBytes (e + 1) 8 ++ List.replicate 44 0) s
    compactStep [.ok] s = { u with keep := { u.keep with compact := none } } := by
  obtain ⟨hr, hm, hw, hq⟩ := hk
  have hcount := requestCounter_free (o := .journal) (i := 2) (v := e + 1) (s := s) ⟨hr, hm, hw, hq⟩ hlt
  simp [compactStep, hf, hh, hd, hr, hm, hw, hq, hc, compactRun, hcount]

end

/-- Settles O27: each event of the keep-store as its own operation gives it. -/
theorem keepStoreEvents : Obligations.KeepStoreEvents := by
  unfold Obligations.KeepStoreEvents
  refine ⟨?scan, ?timeout, ?append, ?retry, ?noRetry, ?noCompaction, ?last, ?rail⟩
  case scan =>
    intro dt s hp hi hn hg hr
    refine ⟨_, exec_keepScan dt [] [] s rfl, ?_⟩
    rw [settle_keep]
    have h := keepScan_clean (s := advance dt s) (by simpa using hp) (by simpa using hi) (by simpa using hn) (by simpa using hg) (by simpa using hr)
    rwa [advance_keep] at h
  case timeout =>
    intro dt q l s hq ho hw ht
    refine ⟨_, exec_keepWarnTimeout dt s rfl, ?_⟩
    have hend : keepTimeout (advance dt s) = lowVoltage { advance dt s with keep := { s.keep with waiting := l } } := by
      simp [keepTimeout, hq, hw, ht, finishKeep, ho]
    rw [hend]
    simp [lowVoltage]
  case append =>
    intro dt e s ho hj hb hl hr hd hw hq hv
    refine ⟨_, exec_journalAppend dt [.ok] s rfl, ?_⟩
    have hopen : journalOpen (advance dt s) = true := by simpa [journalOpen] using ho
    have happ : journalAppend [.ok] (advance dt s) = journalWrite [.ok] (fillBuffer 3 (advance dt s)) := by simp [journalAppend, hopen, hj]
    rw [happ, fillBuffer_one (e := e) (by simpa using hb) (by simpa using hl), journalWrite_one (e := e) rfl
      (keepFree_tookEntry (keepFree_of_parts ⟨hr, hd, hw, hq⟩ (advance_keep ..) (advance_power ..)))
      (by rw [head_tookEntry, journalValid_tookEntry, advance_keep]; exact hv), head_tookEntry]
    simp [wroteAll, tookEntry]
  case retry =>
    intro dt e s ho hj hb hr hd hw hq hv
    refine ⟨_, exec_journalRetry dt [.ok] s rfl, ?_⟩
    have hopen : journalOpen (advance dt s) = true := by simpa [journalOpen] using ho
    have hret : journalRetry [.ok] (advance dt s) = journalWrite [.ok] (advance dt s) := by simp [journalRetry, hopen, hj]
    rw [hret, journalWrite_one (e := e) (by simpa using hb) (keepFree_of_parts ⟨hr, hd, hw, hq⟩ (advance_keep ..) (advance_power ..)) (by simpa using hv)]
    simp [wroteAll]
  case noRetry =>
    intro dt outs s hwf hj
    rw [exec_journalRetry dt outs s hwf]
    simp [journalRetry, hj]
  case noCompaction =>
    intro dt outs s hwf hc hf
    rw [exec_journalCompaction dt outs s hwf]
    have hstep : compactStep outs (advance dt s) = advance dt s := by
      unfold compactStep
      split
      · rfl
      · simp [hc, Nat.not_lt.2 hf]
    rw [hstep]
  case last =>
    intro dt n e s hf hh hd hr hm hw hq hc hlt
    refine ⟨_, exec_journalCompaction dt [.ok] s rfl, ?_⟩
    rw [compactStep_last (by simpa using hf) (by simpa using hh) (by simpa using hd)
      (keepFree_of_parts ⟨hr, hm, hw, hq⟩ (advance_keep ..) (advance_power ..)) (by simpa using hc) (by simpa using hlt)]
    simp [wroteAll]
  case rail =>
    intro dt at_ s hu hk ht hq
    refine ⟨_, exec_mramRailRelease dt s rfl, ?_⟩
    simp [mramRelease, hu, hk, ht, hq]

end Sys2Proof.Machine
end

section
/-! SUPPORT. Requests that read: the version, the statistics and the keep-store (05 R151, R171, R172), and the statement that they settle. -/

namespace Sys2Proof.Machine

section
variable {s t u old : State} {box : Nat} {b : List Byte}

/-! ### The answer -/

/-- An answer changes its mailbox and which context was served last. -/
theorem answer_frame (box status detail : Nat) (p : List Byte) (s : State) : answer box status detail p s = { s with
    boxes := (answer box status detail p s).boxes,
    control := { s.control with lastServed := if box < 256 then box else s.control.lastServed } } := rfl

theorem answer_box_ne {status detail k : Nat} {p : List Byte} (h : k ≠ box) : (answer box status detail p s).box k = s.box k :=
  modBox_box_ne _ _ _ _ h

theorem answered_self (s : State) (box status detail : Nat) (p : List Byte) : Safety.answered s (answer box status detail p s) box status detail p := by
  unfold Safety.answered answer answerAs
  rw [modBox_box_self]
  exact ⟨rfl, rfl, rfl, rfl⟩

theorem serves_fwRuns (h : serves s box = true) : s.fwRuns = true := by
  simp only [serves, Bool.and_eq_true] at h
  exact h.1.1

/-! ### Statistics and records -/

/-- QUERY_STATS of a group that exists, of a stream of the target context where the group asks for one. -/
theorem queryStats_answers (hg : byteAt b 9 < 3)
    (hs : byteAt b 9 = 1 → ∃ x, Tbl.get? s.streams (field b 0x0A 2) = some x ∧ x.ctx = byteAt b 8) :
    queryStats box b s = answer box 0 0
      ((statCounters s (byteAt b 9) (byteAt b 8) (field b 0x0A 2)).flatMap (leBytes · 8) ++ leBytes s.now 8) s := by
  unfold queryStats
  refine checked_passed (firstFail_none ?_)
  by_cases h1 : byteAt b 9 = 1
  · obtain ⟨x, hx, hc⟩ := hs h1
    simp [h1, hx, hc]
  · simp [hg, h1]

theorem keepRead_answers (hg : byteAt b 8 < 5) (hr : recordOk (byteAt b 8) (field b 0x0A 2) = true) (hp : s.power.mram.pg = true) :
    keepRead box b s = answer box 0 0 (readRecord s (recordSlot (byteAt b 8) (field b 0x0A 2))) s := by
  unfold keepRead
  rw [checked_passed (firstFail_none (by simp [hg, hr, hp]))]

@[simp] theorem answer_keep (box status detail : Nat) (p : List Byte) : (answer box status detail p s).keep = s.keep := rfl

theorem wroteAll_keep (slot : Nat) (data : List Byte) : (wroteAll slot data s).keep.seq = s.keep.seq + 1 ∧
    (wroteAll slot data s).keep.mem = putWords s.keep.mem (recordWords slot s.keep.seq data) := ⟨rfl, rfl⟩

/-- KEEP_WRITE of a record of region 3 that nothing holds back writes it and answers OK. -/
theorem keepWrite_writes (hg : byteAt b 8 = 3) (hr : field b 0x0A 2 < 2048) (hf : s.fwRuns = true) (hk : keepFree s) :
    keepWrite box .ok b s = answer box 0 0 [] (wroteAll (1664 + field b 0x0A 2) (slice b 0x0C 52) s) := by
  have hwait : (s.keep.waiting.any (·.origin == .mailbox box)) = false := by simp [hk.2.2.2]
  have hfw : (wroteAll (1664 + field b 0x0A 2) (slice b 0x0C 52) s).fwRuns = true := by
    simpa only [State.fwRuns, State.mainUp, wroteAll] using hf
  unfold keepWrite
  dsimp only
  rw [if_neg (by simp [hwait]), checked_passed (firstFail_none (by simp [hg, recordOk, regionOf, hr])), hg,
    show recordSlot 3 (field b 0x0A 2) = 1664 + field b 0x0A 2 from rfl, requestWrite_free hk]
  simp [answerKeep, hfw]

end

/-- Settles O28: each request that reads passes its checks, and an answer touches its mailbox alone. -/
theorem queriesAnswer : Obligations.QueriesAnswer := by
  unfold Obligations.QueriesAnswer
  refine ⟨?version, ?context, ?stream, ?device, ?read, ?frame, ?write⟩
  case version =>
    intro dt box s hb hdue
    rw [exec_getVersion dt box s (by simpa [Instr.wf] using Nat.lt_succ_of_le hb), command_due hdue anyReq rfl]
    simp [versionPayload]
  case context =>
    intro dt box s hb hdue hg
    rw [exec_queryStats dt box s (by simpa [Instr.wf] using Nat.lt_succ_of_le hb), command_due hdue anyReq rfl,
      queryStats_answers (by omega) (by omega)]
    simp [statCounters, hg]
  case stream =>
    intro dt box x s hb hdue hg hx hc
    rw [exec_queryStats dt box s (by simpa [Instr.wf] using Nat.lt_succ_of_le hb), command_due hdue anyReq rfl,
      queryStats_answers (by omega) (fun _ => ⟨x, by simpa using hx, hc⟩)]
    simp [statCounters, hg, hx]
  case device =>
    intro dt box s hb hdue hg
    rw [exec_queryStats dt box s (by simpa [Instr.wf] using Nat.lt_succ_of_le hb), command_due hdue anyReq rfl,
      queryStats_answers (by omega) (by omega)]
    simp [statCounters, hg]
  case read =>
    intro dt s hdue hg hr hp
    rw [exec_keepRead dt 256 s rfl, command_due hdue anyReq rfl, keepRead_answers hg hr (by simpa using hp)]
    simp [readRecord, Keep.dataOf]
  case frame =>
    intro box status detail p s
    exact ⟨answered_self .., answer_frame .., fun b hb => answer_box_ne hb⟩
  case write =>
    intro dt s hdue hg hr hq href hd hw
    have hfree : keepFree (advance dt s) := keepFree_of_parts ⟨href, hd, hw, hq⟩ (advance_keep ..) (advance_power ..)
    refine ⟨_, exec_keepWrite dt 256 .ok s rfl, ?_⟩
    rw [command_due hdue anyReq rfl, keepWrite_writes hg hr (by simpa using serves_fwRuns hdue.1) hfree, settle_keep]
    exact ⟨answered_answer _ _ _ _ _ _ _ (congrArg Mbox.seq (advance_box (s := s) dt 256)), by simp [wroteAll_keep], by simp [wroteAll_keep]⟩

end Sys2Proof.Machine
end

section
/-! SUPPORT. The I3C management target: addressing and what it tells of itself (16 R527), and the statements that they settle. -/

namespace Sys2Proof.Machine

section
variable {s : State} {g : Mgmt} {f : State → State}

/-- A command that moves the target's own registers alone is followed by the event targets alone. -/
theorem settle_mgmt_only (dt : Nat) (hq : Safety.quiet s) (h : f (advance dt s) = { advance dt s with mgmt := g }) :
    settle s (f (advance dt s)) = settleTargets { advance dt s with mgmt := g } := by
  rw [h]
  exact settle_unmoved hq (by simp) (by simp) (by simp) (by simp)

theorem i3cDirect_answers (hup : i3cUp s = true) (ha : s.mgmt.dynAddr ≠ none) : i3cDirect f s = f s := by
  simp [i3cDirect, hup, Option.isSome_iff_ne_none.2 ha]

theorem i3cDirect_silent (ha : s.mgmt.dynAddr = none) : i3cDirect f s = { s with mgmt := { s.mgmt with nack := true } } := by
  simp [i3cDirect, ha, i3cNack]

theorem i3cBroadcast_answers (hup : i3cUp s = true) : i3cBroadcast f s = f s := by simp [i3cBroadcast, hup]

theorem i3cAssign_gives {a : Nat} (hup : i3cUp s = true) (ha : s.mgmt.dynAddr = none) : i3cAssign true a s =
    { s with mgmt := { s.mgmt with dynAddr := some a, nack := false, rdata := [] } } := by
  simp [i3cAssign, hup, ha, giveAddr, i3cReply]

theorem i3cAssign_silent {a : Nat} : i3cAssign false a s = { s with mgmt := { s.mgmt with nack := true } } := by
  simp [i3cAssign, i3cNack]

/-- A direct read of the target's own description replies with its bytes. -/
theorem i3cDirect_replies {bs : State → List Byte} (hup : i3cUp s = true) (ha : s.mgmt.dynAddr ≠ none) :
    i3cDirect (fun s => i3cReply (bs s) s) s = { s with mgmt := { s.mgmt with nack := false, rdata := bs s } } := by
  rw [i3cDirect_answers hup ha]; rfl

/-- The pending IBIs with the protocol error, as GETSTATUS tells them. -/
theorem status_count (g : Mgmt) : b2n g.ibiFault.isSome + b2n g.ibiSafe + b2n g.ibiCmd.isSome + flag 5 g.protErr =
    (if g.ibiFault.isSome then 1 else 0) + (if g.ibiSafe then 1 else 0) + (if g.ibiCmd.isSome then 1 else 0) + (if g.protErr then 32 else 0) := by
  cases g.ibiFault.isSome <;> cases g.ibiSafe <;> cases g.ibiCmd.isSome <;> cases g.protErr <;> rfl

end

/-- Settles O52: each command of the addressing moves the target's own registers, and of a quiet state `settle` moves the event targets alone. -/
theorem addressesAreGiven : Obligations.AddressesAreGiven := by
  unfold Obligations.AddressesAreGiven
  intro dt a s hq hup ha
  have hup' : i3cUp (advance dt s) = true := by simpa using hup
  refine ⟨?entdaa, ?setdasa, ?otherStatic, ?setnewda, ?unassigned, ?rstdaa, ?enec, ?disec⟩
  case entdaa =>
    intro hn
    rw [exec_entdaa dt a s (by simpa [Instr.wf] using ha), settle_mgmt_only dt hq (i3cAssign_gives hup' (by simpa using hn)), advance_mgmt]
  case setdasa =>
    intro hn hs
    have hown : onSetdasa s.chip.i3cSaddr a (advance dt s) = i3cAssign true a (advance dt s) := by simp [onSetdasa]
    rw [exec_setdasa dt _ a s (by simp [Instr.wf, ha, hs]),
      settle_mgmt_only dt hq (hown.trans (i3cAssign_gives hup' (by simpa using hn))), advance_mgmt]
  case otherStatic =>
    intro b hb hne
    have hother : onSetdasa b a (advance dt s) = i3cAssign false a (advance dt s) := by simp [onSetdasa, hne]
    rw [exec_setdasa dt b a s (by simp [Instr.wf, ha, hb]), settle_mgmt_only dt hq (hother.trans i3cAssign_silent), advance_mgmt]
  case setnewda =>
    intro hn
    rw [exec_setnewda dt a s (by simpa [Instr.wf] using ha), settle_mgmt_only dt hq (i3cDirect_answers hup' (by simpa using hn)), advance_mgmt]
  case unassigned =>
    intro hn
    rw [exec_setnewda dt a s (by simpa [Instr.wf] using ha), settle_mgmt_only dt hq (i3cDirect_silent (by simpa using hn)), advance_mgmt]
  case rstdaa =>
    intro hn
    have hlose : onRstdaa (advance dt s) = { advance dt s with
        mgmt := { s.mgmt with dynAddr := none, enint := false, evt := s.mgmt.evt ||| 1 } } := by
      simp [onRstdaa, hup', loseAddr, Option.isSome_iff_ne_none.2 hn]
    rw [exec_rstdaa dt s rfl, settle_mgmt_only dt hq hlose]
  case enec =>
    rw [exec_enec dt true s rfl, settle_mgmt_only dt hq (i3cBroadcast_answers hup'), advance_mgmt, Bool.or_true]
  case disec =>
    rw [exec_disec dt true s rfl, settle_mgmt_only dt hq (i3cBroadcast_answers hup'), advance_mgmt, Bool.not_true, Bool.and_false]

/-- Settles O53: what each CCC replies with, and that nothing else moves. -/
theorem theTargetIdentifiesItself : Obligations.TheTargetIdentifiesItself := by
  unfold Obligations.TheTargetIdentifiesItself
  intro dt s hq hup ha
  have hup' : i3cUp (advance dt s) = true := by simpa using hup
  have ha' : (advance dt s).mgmt.dynAddr ≠ none := by simpa using ha
  refine ⟨?pid, ?bcr, ?dcr, ?mwl, ?mrl, ?status⟩
  case pid =>
    rw [exec_getpid dt s rfl, settle_mgmt_only dt hq (i3cDirect_replies hup' ha'), advance_mgmt, provisionalId, advance_chip]
  case bcr => rw [exec_getbcr dt s rfl, settle_mgmt_only dt hq (i3cDirect_answers hup' ha'), advance_mgmt]
  case dcr => rw [exec_getdcr dt s rfl, settle_mgmt_only dt hq (i3cDirect_answers hup' ha'), advance_mgmt]
  case mwl => rw [exec_getmwl dt s rfl, settle_mgmt_only dt hq (i3cDirect_answers hup' ha'), advance_mgmt]; rfl
  case mrl => rw [exec_getmrl dt s rfl, settle_mgmt_only dt hq (i3cDirect_answers hup' ha'), advance_mgmt]; rfl
  case status =>
    refine ⟨_, exec_getstatus dt s rfl, ?_⟩
    rw [settle_mgmt_only dt hq (i3cDirect_answers hup' ha')]
    refine ⟨rfl, rfl, ?_⟩
    rw [← status_count, ← advance_mgmt (s := s) dt]
    rfl

end Sys2Proof.Machine
end

section
/-! SUPPORT. Private transfers of the management window (16 R528, R529), and the statement that they settle. -/

namespace Sys2Proof.Machine

section
variable {s : State}

/-- Bytes of a write that do not reach MG_CMD start no command. -/
theorem privateWrite_moves {a : Byte} {l : List Byte} (h : ∀ i < l.length, (a.toNat + i) % 256 ≠ 0x60) :
    privateWrite (a :: l) false false s = { s with mgmt :=
      { windowWrite a.toNat l { s.mgmt with nack := false, rdata := [] } with ptr := (a.toNat + l.length) % 256 } } := by
  have hcmd : (upto a.toNat l.length).any (fun x => decide (x % 256 = 0x60)) = false := by
    refine List.any_eq_false.2 (fun x hx => ?_)
    obtain ⟨hlo, hhi⟩ := (mem_upto ..).1 hx
    have hx' := h (x - a.toNat) (by omega)
    rw [show a.toNat + (x - a.toNat) = x by omega] at hx'
    simpa using hx'
  unfold privateWrite
  simp [hcmd, i3cReply]

/-- A write of MG_CMD alone is accepted as a command. -/
theorem privateWrite_command (c : Byte) : ∃ g, privateWrite [0x60, c] false false s = acceptMgCmd { s with mgmt := g } ∧
    g.cmd = c.toNat ∧ g.busy = s.mgmt.busy ∧ g.lost = s.mgmt.lost ∧ g.lastCmd = s.mgmt.lastCmd ∧ g.status = s.mgmt.status :=
  ⟨{ s.mgmt with nack := false, rdata := [], cmd := c.toNat, ptr := 0x61 }, rfl, rfl, rfl, rfl, rfl, rfl⟩

theorem acceptMgCmd_busy (h : s.mgmt.busy = true) : acceptMgCmd s = { s with mgmt := { s.mgmt with lost := true } } := by
  simp [acceptMgCmd, h]

theorem acceptMgCmd_known (h : s.mgmt.busy = false) (hk : mgKnown s.mgmt.cmd = true) :
    acceptMgCmd s = { s with mgmt := { s.mgmt with lost := false, lastCmd := s.mgmt.cmd, busy := true } } := by
  simp [acceptMgCmd, h, hk]

theorem acceptMgCmd_unknown (h : s.mgmt.busy = false) (hk : mgKnown s.mgmt.cmd = false) :
    acceptMgCmd s = endMgCmd 0x12 { s with mgmt := { s.mgmt with lost := false, lastCmd := s.mgmt.cmd, busy := true } } := by
  simp [acceptMgCmd, h, hk]

theorem privateRead_window {n : Nat} (h : s.mgmt.ptr ≠ 0x20) : privateRead n false s = { s with mgmt :=
    { s.mgmt with nack := false, rdata := windowRead s s.mgmt.ptr n, ptr := (s.mgmt.ptr + n) % 256 } } := by
  simp [privateRead, h, i3cReply, readEnd]

theorem privateRead_time {n : Nat} (h : s.mgmt.ptr = 0x20) : (privateRead n false s).mgmt.timeLatch = s.now ∧
    (privateRead n false s).mgmt.ptr = (0x20 + n) % 256 ∧
    (privateRead n false s).mgmt.rdata = windowRead { s with mgmt := { s.mgmt with timeLatch := s.now } } 0x20 n := by
  simp [privateRead, h, i3cReply, readEnd]

/-- The first bytes of a stretch, read one by one. -/
theorem map_getD_upto (pre m rest : List Byte) {lo n : Nat} (hlo : pre.length = lo) (hn : n ≤ m.length) :
    (upto lo n).map (fun a => (pre ++ (m ++ rest)).getD a 0) = m.take n := by
  induction n generalizing pre m lo with
  | zero => rfl
  | succ n ih =>
    obtain _ | ⟨x, m⟩ := m
    · simp at hn
    have hcons := ih (pre ++ [x]) m (lo := lo + 1) (by simp [hlo]) (by simpa using hn)
    rw [show (pre ++ [x]) ++ (m ++ rest) = pre ++ (x :: m ++ rest) by simp] at hcons
    rw [upto, List.map_cons, hcons, List.take_succ_cons]
    congr 1
    simp [← hlo]

/-- The latched time stands at 0x20 of the window. -/
theorem windowBytes_time (s : State) : ∃ pre rest, windowBytes s = pre ++ (leBytes s.mgmt.timeLatch 8 ++ rest) ∧ pre.length = 0x20 := by
  unfold windowBytes
  extract_lets w
  refine ⟨w 0x00020100 ++ w (mgState s) ++ w (faultStat s) ++ w (firstInfo s) ++ w (firstDetail s) ++ w (mgTherm s) ++ w (supplyStat s) ++
    w (tbStat s), ?_⟩
  simp only [List.append_assoc]
  exact ⟨_, rfl, by simp [leBytes_length, w]⟩

theorem windowRead_time {n : Nat} (h : n ≤ 8) : windowRead s 0x20 n = (leBytes s.mgmt.timeLatch 8).take n := by
  obtain ⟨pre, rest, hw, hlen⟩ := windowBytes_time s
  have hsmall : (upto 0x20 n).map (fun a => (windowBytes s).getD (a % 256) 0) = (upto 0x20 n).map (fun a => (windowBytes s).getD a 0) := by
    refine List.map_congr_left (fun a ha => ?_)
    obtain ⟨hlo, hhi⟩ := (mem_upto ..).1 ha
    rw [Nat.mod_eq_of_lt (by omega)]
  rw [windowRead, hsmall, hw]
  exact map_getD_upto pre _ rest hlen (by rw [leBytes_length]; exact h)

end

/-- Settles O54: what a write puts and starts, and what a read returns. -/
theorem privateTransfersMoveBytes : Obligations.PrivateTransfersMoveBytes := by
  unfold Obligations.PrivateTransfersMoveBytes
  refine ⟨?bytes, ?known, ?unknown, ?parity, ?read, ?time⟩
  case bytes =>
    intro dt a l s hq hup ha hl hcmd
    rw [exec_i3cPrivateWrite dt _ false false s (by simpa [Instr.wf] using Nat.lt_succ_of_le hl),
      settle_mgmt_only dt hq ((i3cDirect_answers (by simpa using hup) (by simpa using ha)).trans (privateWrite_moves hcmd)), advance_mgmt]
  case known =>
    intro dt c s hq hup ha hk
    refine ⟨_, exec_i3cPrivateWrite dt _ false false s rfl, ?_⟩
    obtain ⟨g, hg, hcmd, hbusy, hlost, hlast, hst⟩ := privateWrite_command (s := advance dt s) c
    rw [advance_mgmt] at hbusy hlost hlast hst
    rw [i3cDirect_answers (by simpa using hup) (by simpa using ha), hg]
    cases hb : s.mgmt.busy with
    | true =>
      rw [acceptMgCmd_busy (hbusy.trans hb)]
      simp [hcmd, hbusy, hb, hlast, hst]
    | false =>
      rw [acceptMgCmd_known (hbusy.trans hb) (by simpa [hcmd] using hk)]
      simp [hcmd]
  case unknown =>
    intro dt c s hq hup ha hk hb
    refine ⟨_, exec_i3cPrivateWrite dt _ false false s rfl, ?_⟩
    obtain ⟨g, hg, hcmd, hbusy, -⟩ := privateWrite_command (s := advance dt s) c
    rw [i3cDirect_answers (by simpa using hup) (by simpa using ha), hg,
      acceptMgCmd_unknown (hbusy.trans (by simpa using hb)) (by simpa [hcmd] using hk)]
    simp [endMgCmd, hcmd]
  case parity =>
    intro dt l s hq hup ha hlo hhi
    have herr : privateWrite l true false (advance dt s) = { advance dt s with
        mgmt := { (advance dt s).mgmt with nack := false, rdata := [], protErr := true } } := by simp [privateWrite, i3cReply]
    rw [exec_i3cPrivateWrite dt l true false s (by simp [Instr.wf]; omega),
      settle_mgmt_only dt hq ((i3cDirect_answers (by simpa using hup) (by simpa using ha)).trans herr), advance_mgmt]
  case read =>
    intro dt n s hq hup ha hn hp
    rw [exec_i3cPrivateRead dt n false s (by simpa [Instr.wf] using hn),
      settle_mgmt_only dt hq ((i3cDirect_answers (by simpa using hup) (by simpa using ha)).trans (privateRead_window (by simpa using hp))),
      advance_mgmt]
  case time =>
    intro dt n s hup ha hn hp
    refine ⟨_, exec_i3cPrivateRead dt n false s (by simpa [Instr.wf] using hn), ?_⟩
    rw [i3cDirect_answers (by simpa using hup) (by simpa using ha)]
    obtain ⟨htime, hptr, hdata⟩ := privateRead_time (s := advance dt s) (n := n) (by simpa using hp)
    rw [settle_mgmt_timeLatch, settle_mgmt_rdata, settle_mgmt_ptr, htime, hptr, hdata, windowRead_time hn]
    exact ⟨rfl, rfl, Nat.mod_eq_of_lt (by omega)⟩

end Sys2Proof.Machine
end

section
/-! SUPPORT. Commands of the management port and the order of its in-band interrupts (16 R530-R532), and the statement that they settle. -/

namespace Sys2Proof.Machine

section
variable {s : State}

/-- Outside KEEP an access to a powered and scanned keep-store is made at once. -/
theorem mgKeep_ready {f : State → State} (hr : s.power.mram.req = true) (hp : s.power.mram.pg = true) (hs : s.keep.scanDone = true)
    (hk : s.power.state ≠ .keep) : mgKeep f s = f s := by
  simp [mgKeep, hr, hp, hs, hk]

theorem mgRead_out_of_range (h : recordOk s.mgmt.region s.mgmt.record = false) : mgRead s = endMgCmd 5 s := by simp [mgRead, h]

theorem mgRead_ready (h : recordOk s.mgmt.region s.mgmt.record = true) (hr : s.power.mram.req = true) (hp : s.power.mram.pg = true)
    (hs : s.keep.scanDone = true) (hk : s.power.state ≠ .keep) : mgRead s =
      endMgCmd 0 { s with mgmt := { s.mgmt with kdata := readRecord s (recordSlot s.mgmt.region s.mgmt.record) } } := by
  unfold mgRead
  simp only [h, Bool.not_true, Bool.false_eq_true, if_false]
  exact mgKeep_ready hr hp hs hk

theorem mgWrite_out_of_range {out : KOut} (hw : s.keep.waiting = []) (hp : s.mgmt.permitKwrite = true)
    (h : recordOk s.mgmt.region s.mgmt.record = false) : mgWrite out s = endMgCmd 5 s := by
  simp [mgWrite, hw, hp, h]

/-- KWRITE of a host record that nothing holds back. -/
theorem mgWrite_ready (hf : keepFree s) (hp : s.mgmt.permitKwrite = true) (hg : s.mgmt.region = 3) (h : recordOk 3 s.mgmt.record = true)
    (hr : s.power.mram.req = true) (hpg : s.power.mram.pg = true) (hs : s.keep.scanDone = true) (hk : s.power.state ≠ .keep) :
    mgWrite .ok s = mgDone 3 (wroteAll (recordSlot 3 s.mgmt.record) s.mgmt.kdata s) := by
  have hw : s.keep.waiting = [] := hf.2.2.2
  unfold mgWrite
  simp only [hw, hp, hg, h, List.any_nil, Bool.not_true, Bool.false_eq_true, if_false]
  rw [mgKeep_ready hr hpg hs hk]
  simp [requestWrite_free hf, mgWriteEnd]

theorem mgWake_elsewhere (hp : s.mgmt.permitWake = true) (hk : s.power.state ≠ .keep) : mgWake s = endMgCmd 0 s := by
  simp [mgWake, hp, hk]

theorem mgWake_in_keep (hp : s.mgmt.permitWake = true) (hk : s.power.state = .keep) : mgWake s = mgDone 1 (wakeCauseSeen 2 s) := by
  simp [mgWake, hp, hk]

theorem mgRestart_main_down (hp : s.mgmt.permitRestart = true) (hm : s.mainUp = false) : mgRestart s = endMgCmd 0x0D s := by
  simp [mgRestart, hp, hm]

theorem mgRestart_restarts (hp : s.mgmt.permitRestart = true) (hm : s.mainUp = true) (hr : s.control.restarting = false) :
    mgRestart s = mgDone 2 (controlRestart 0x42 false s) := by
  simp [mgRestart, hp, hm, hr]

theorem ibiTurn_sends (hup : i3cUp s = true) (he : s.mgmt.enint = true) (ha : s.mgmt.dynAddr ≠ none) : ibiTurn false s = sendIbi s := by
  simp [ibiTurn, hup, he, ha]

theorem ibiTurn_nacked : ibiTurn true s = s := by simp [ibiTurn]

end

/-- Settles O55: each command of the port by its permission, its operands and the power state, and the interrupt whose turn it is. -/
theorem managementCommandsRun : Obligations.ManagementCommandsRun := by
  unfold Obligations.ManagementCommandsRun
  refine ⟨?kread, ?kwrite, ?wake, ?restart, ?ibi⟩
  case kread =>
    intro dt s hup hb hc
    refine ⟨fun hr => ⟨_, exec_kread dt s rfl, ?_⟩, fun hr hreq hpg hscan hk => ⟨_, exec_kread dt s rfl, ?_⟩⟩
    · rw [mgCommand_accepted _ hup hb hc, mgRead_out_of_range (by simpa using hr)]
      simp [endMgCmd]
    · rw [mgCommand_accepted _ hup hb hc, mgRead_ready (by simpa using hr) (by simpa using hreq) (by simpa using hpg) (by simpa using hscan)
        (by simpa using hk)]
      simp [endMgCmd, readRecord]
  case kwrite =>
    intro dt s hup hb hc hq
    refine ⟨fun hp => ⟨_, exec_kwrite dt .ok s rfl, ?_⟩, fun hp hr => ⟨_, exec_kwrite dt .ok s rfl, ?_⟩,
      fun hp hg hr hreq hpg hfail hw hscan href hk => ⟨_, exec_kwrite dt .ok s rfl, ?_⟩⟩
    · rw [mgCommand_accepted _ hup hb hc, mgWrite_refused _ (by simpa using hq) (by simpa using hp)]
      simp [endMgCmd]
    · rw [mgCommand_accepted _ hup hb hc, mgWrite_out_of_range (by simpa using hq) (by simpa using hp) (by simpa using hr)]
      simp [endMgCmd]
    · have hfree : keepFree (advance dt s) :=
        keepFree_of_parts ⟨href, by simp [mramDown, hpg, hfail], hw, hq⟩ (advance_keep ..) (advance_power ..)
      rw [mgCommand_accepted _ hup hb hc, mgWrite_ready hfree (by simpa using hp) (by simpa using hg) (by simpa using hr) (by simpa using hreq)
        (by simpa using hpg) (by simpa using hscan) (by simpa using hk)]
      simp [mgDone, endMgCmd, wroteAll]
  case wake =>
    intro dt s hup hb hc
    refine ⟨fun hp => ⟨_, exec_wake dt s rfl, ?_⟩, fun hp hk => ⟨_, exec_wake dt s rfl, ?_⟩, fun hp hk hi hporst => ⟨_, exec_wake dt s rfl, ?_⟩⟩
    · rw [mgCommand_accepted _ hup hb hc, mgWake_refused (by simpa using hp)]
      simp [endMgCmd]
    · rw [mgCommand_accepted _ hup hb hc, mgWake_elsewhere (by simpa using hp) (by simpa using hk)]
      simp [endMgCmd]
    · rw [mgCommand_accepted _ hup hb hc, mgWake_in_keep (by simpa using hp) (by simpa using hk),
        wakeCauseSeen_recorded 2 (by simpa using hporst) (.inl ⟨by simpa using hk, by simpa using hi⟩)]
      simp [mgDone, endMgCmd]
  case restart =>
    intro dt s hup hb hc
    refine ⟨fun hp => ⟨_, exec_restart dt s rfl, ?_⟩, fun hp hm => ⟨_, exec_restart dt s rfl, ?_⟩, fun hp hm hr => ?_⟩
    · rw [mgCommand_accepted _ hup hb hc, mgRestart_refused (by simpa using hp)]
      simp [endMgCmd]
    · rw [mgCommand_accepted _ hup hb hc, mgRestart_main_down (by simpa using hp) (by simpa using hm)]
      simp [endMgCmd]
    · rw [exec_restart dt s rfl, mgCommand_accepted _ hup hb hc, mgRestart_restarts (by simpa using hp) (by simpa using hm) (by simpa using hr)]
  case ibi =>
    intro dt s hup he ha hq
    have hturn : ibiTurn false (advance dt s) = sendIbi (advance dt s) := ibiTurn_sends (by simpa using hup) (by simpa using he) (by simpa using ha)
    refine ⟨fun e hf => ?_, fun hf hsafe => ?_, fun c st hf hsafe hcmd => ?_, ?_⟩
    · have hsend : sendIbi (advance dt s) = { advance dt s with
          mgmt := { s.mgmt with ibiFault := none, ibiSent := 0xA1 :: leBytes (infoWord e) 4 } } := by simp [sendIbi, hf]
      rw [exec_ibiSend dt false s rfl, settle_mgmt_only dt hq (hturn.trans hsend)]
    · have hsend : sendIbi (advance dt s) = { advance dt s with
          mgmt := { s.mgmt with ibiSafe := false, ibiSent := 0xA2 :: leBytes (safeStat s) 4 } } := by simp [sendIbi, hf, hsafe, safeStat]
      rw [exec_ibiSend dt false s rfl, settle_mgmt_only dt hq (hturn.trans hsend)]
    · have hsend : sendIbi (advance dt s) = { advance dt s with
          mgmt := { s.mgmt with ibiCmd := none, ibiSent := 0xA3 :: (leBytes c 1 ++ leBytes st 1) } } := by simp [sendIbi, hf, hsafe, hcmd]
      rw [exec_ibiSend dt false s rfl, settle_mgmt_only dt hq (hturn.trans hsend)]
    · rw [exec_ibiSend dt true s rfl, ibiTurn_nacked]
      exact congrArg Host.Outcome.next (settle_unmoved hq (by simp) (by simp) (by simp) (by simp))

end Sys2Proof.Machine
end

section
/-! SUPPORT. Plan synchronisation at a follower (07 R249-R251), and the statement that it settles. -/

namespace Sys2Proof.Machine

section
variable {s : State} {j : Int}

/-- The record of a fault that is no CORRECTED fault of a quire marks none. -/
theorem collect1_press {f : FaultIn} (hf : ¬ (16 ≤ f.src ∧ f.src < 80 ∧ f.cls = 1)) : (collect1 f s).press = s.press := by
  have hlog (e : LogEntry) (s : State) : (pushLog e s).press = s.press := by unfold pushLog; split <;> rfl
  have hibi (e : LogEntry) (s : State) : (noteIbi e s).press = s.press := by
    unfold noteIbi; repeat' split
    all_goals rfl
  have hpulse (s : State) : (startPulse s).press = s.press := by unfold startPulse; split <;> rfl
  have hpin (s : State) : (refreshPin s).press = s.press := by unfold refreshPin; split <;> rfl
  have hmark (s : State) : markQuire f s = s := if_neg (by simpa [and_assoc] using hf)
  refine (hpin _).trans ((when_keeps _ (·.press) _ _ (hpulse _)).trans ?_)
  refine (when_keeps _ (·.press) _ _ (hibi ..)).trans ((hlog ..).trans ?_)
  rw [hmark]

/-- A first CORRECTED fault of a source that is no quire and no memory port is recorded, and nothing more follows. -/
theorem report1_corrected {src cause detail : Nat} {b : Bool} (hs : 80 ≤ src ∧ src < 112 ∨ 116 ≤ src) (h : Tbl.get? s.faults.records src = none) :
    Recorded s (report1 src 1 cause detail b s) ∧ (report1 src 1 cause detail b s).press = s.press := by
  have heff (u : State) : faultEffect { src, cls := 1, cause, detail, bestEffort := b } u = u := by
    have hm : memFaultCode { src, cls := 1, cause, detail, bestEffort := b } = 0 := by
      unfold memFaultCode; rw [if_neg (by simp; omega), if_neg (by simp; omega)]
    have hq : ¬ (16 ≤ src ∧ src < 80) := by omega
    simp [faultEffect, hm, noteMemFault, hq]
  rw [report1, report_one s _ h (by decide : (1 : Nat) ≠ 3), heff]
  refine ⟨recorded_collect .., ?_⟩
  unfold collect captureFirst; extract_lets
  have hone := collect1_press (s := s) (f := { src, cls := 1, cause, detail, bestEffort := b }) (by simp; omega)
  split
  · exact hone
  · exact hone

/-! ### Edges -/

/-- The registers of a synchronisation edge before it is counted. -/
def edgeSeen (j : Int) (s : State) : State :=
  let s1 := { s with press := { s.press with syncOffset := syncError (stampAt s j) s.periodNs s.press.phase, lastEdge := s.now } }
  if !anyAdmitted s && s.press.sync != .locked then { s1 with press := { s1.press with phaseNext := some (stampAt s j % 2000).toNat } } else s1

theorem syncEdge_follower (hm : s.mainUp = true) (hf : isFollower s = true) : syncEdge j s =
    countEdge (decide (-1000 ≤ syncError (stampAt s j) s.periodNs s.press.phase ∧ syncError (stampAt s j) s.periodNs s.press.phase ≤ 1000))
      (edgeSeen j s) := by
  simp [syncEdge, hm, hf, edgeSeen]

theorem syncEdge_elsewhere (hf : isFollower s = false) : syncEdge j s = s := by simp [syncEdge, hf]

theorem edgeSeen_press : (edgeSeen j s).press = { s.press with
    syncOffset := syncError (stampAt s j) s.periodNs s.press.phase, lastEdge := s.now,
    phaseNext := if anyAdmitted s = false ∧ s.press.sync ≠ .locked then some (stampAt s j % 2000).toNat else s.press.phaseNext } := by
  unfold edgeSeen
  cases ha : anyAdmitted s <;> by_cases hl : s.press.sync = .locked <;> simp [hl]

theorem edgeSeen_faults : (edgeSeen j s).faults = s.faults := by unfold edgeSeen; dsimp only; split <;> rfl

/-- A near edge: three of them lock. -/
theorem countEdge_near : (countEdge true s).press = { s.press with
    syncGood := min 3 (s.press.syncGood + 1), syncBad := 0, sync := if 2 ≤ s.press.syncGood then .locked else s.press.sync } := by
  have hthree : min 3 (s.press.syncGood + 1) = 3 ↔ 2 ≤ s.press.syncGood := by omega
  simp [countEdge, hthree]

/-- The first far edge in a row. -/
theorem countEdge_far_first (h : s.press.syncBad = 0) :
    countEdge false s = { s with press := { s.press with syncGood := 0, syncBad := 1 } } := by
  simp [countEdge, h]

/-- The second far edge in a row unlocks. -/
theorem countEdge_far_second (h : 1 ≤ s.press.syncBad) (hl : s.press.sync = .locked) :
    countEdge false s = unlockSync { s with press := { s.press with syncGood := 0, syncBad := 2 } } := by
  have htwo : min 2 (s.press.syncBad + 1) = 2 := by omega
  simp [countEdge, htwo, hl]

/-- What an unlocking shows: SYNC_LOST and a CORRECTED fault. -/
theorem unlockSync_shows (h : Tbl.get? s.faults.records 123 = none) :
    (unlockSync s).press = { s.press with sync := .unlocked, syncGood := 0, syncBad := 0, evt := s.press.evt ||| 8 } ∧
      (Tbl.get? (unlockSync s).faults.records 123).map (·.cls) = some 1 := by
  unfold unlockSync
  generalize hu : ({ s with press := { s.press with sync := .unlocked, syncGood := 0, syncBad := 0, evt := s.press.evt ||| 8 } } : State) = u
  have hrec : Tbl.get? u.faults.records 123 = none := by rw [← hu]; exact h
  constructor
  · rw [(report1_corrected (.inr (by decide)) hrec).2, ← hu]
  · rw [report1, report_first_get? _ hrec (by decide)]
    rfl

end

/-- Settles O47: each edge by its distance and the count of those before it, and the missing edge. -/
theorem planSyncIsTracked : Obligations.PlanSyncIsTracked := by
  unfold Obligations.PlanSyncIsTracked
  refine ⟨?near, ?far, ?missing, ?elsewhere⟩
  case near =>
    intro dt j s hm hf hlo hhi
    refine ⟨_, exec_planSyncEdge dt j s rfl, ?_⟩
    have hnear := syncEdge_follower (s := advance dt s) (j := j) (by simpa using hm) (by simpa [isFollower] using hf)
    rw [decide_eq_true (by simpa [State.periodNs] using ⟨hlo, hhi⟩)] at hnear
    have hany : anyAdmitted (advance dt s) = anyAdmitted s := by simp [anyAdmitted]
    have hpress := edgeSeen_press (s := advance dt s) (j := j)
    rw [hany, State.periodNs, advance_press, ← State.periodNs] at hpress
    rw [hnear]
    simp [countEdge_near, hpress]
  case far =>
    intro dt j s hm hf he hl hn
    refine ⟨_, exec_planSyncEdge dt j s rfl, ?_⟩
    have hfar := syncEdge_follower (s := advance dt s) (j := j) (by simpa using hm) (by simpa [isFollower] using hf)
    rw [decide_eq_false (by simp [State.periodNs] at he ⊢; omega)] at hfar
    rw [hfar]
    generalize hu : edgeSeen j (advance dt s) = u
    have hpress : u.press = { s.press with
        syncOffset := syncError (stampAt (advance dt s) j) s.periodNs s.press.phase, lastEdge := (advance dt s).now } := by
      rw [← hu, edgeSeen_press]
      simp [hl, State.periodNs]
    have hrec : Tbl.get? u.faults.records 123 = none := by rw [← hu, edgeSeen_faults, advance_faults, hn]
    rcases Nat.eq_zero_or_pos s.press.syncBad with h0 | h1
    · rw [countEdge_far_first (by rw [hpress]; exact h0)]
      simp [hpress, h0, hl]
    · rw [countEdge_far_second (by rw [hpress]; exact h1) (by rw [hpress]; exact hl)]
      obtain ⟨hp, hr⟩ := unlockSync_shows (s := { u with press := { u.press with syncGood := 0, syncBad := 2 } }) hrec
      generalize unlockSync { u with press := { u.press with syncGood := 0, syncBad := 2 } } = w at hp hr ⊢
      rw [settle_faults_records, hr]
      simp [hp, hpress, Nat.ne_of_gt h1]
  case missing =>
    intro dt s hm hl hd hn
    refine ⟨_, exec_planSyncTimeout dt s rfl, ?_⟩
    have hout : syncTimeout (advance dt s) = unlockSync (advance dt s) := by
      simp [syncTimeout, hm, hl, State.periodNs] at hd ⊢
      omega
    obtain ⟨hp, hr⟩ := unlockSync_shows (s := advance dt s) (by simpa using hn)
    rw [hout]
    simp [hp, hr]
  case elsewhere =>
    intro dt j s hf
    rw [exec_planSyncEdge dt j s rfl, syncEdge_elsewhere (by simpa [isFollower] using hf)]

end Sys2Proof.Machine
end

section
/-! SUPPORT. Heartbeat, spares, press periods and slot boundaries (07 R223-R229, R252; 12 R417), and the statement that they settle. -/

namespace Sys2Proof.Machine

section
variable {s u old : State}

theorem settle_press_of_not_entering (h : u.faults.safe ≠ .entering) : (settle old u).press = u.press := by
  simp [settle, finishSafe_of_not_entering h]

theorem advance_anyAdmitted (dt : Nat) (s : State) : anyAdmitted (advance dt s) = anyAdmitted s := by simp [anyAdmitted]
theorem advance_periodNs (dt : Nat) (s : State) : (advance dt s).periodNs = s.periodNs := by simp [State.periodNs]

/-! ### Spares -/

theorem writeSpares_chooses {k : Nat} (hk : k ≤ 4) (ha : anyAdmitted s = false) : writeSpares k s =
    { s with press := { s.press with spares := k, spareSet := chooseSpares k s.faults.retired } } := by
  simp [writeSpares, ha, Nat.not_lt.2 hk]

theorem writeSpares_ignored {k : Nat} (h : 4 < k ∨ anyAdmitted s = true) : writeSpares k s = s := by
  rcases h with h | h <;> simp [writeSpares, h]

/-- Without a retired quire the spares go down the sequence. -/
theorem chooseSpares_none_retired (k : Nat) : chooseSpares k [] = [31, 63, 30, 62].take k := rfl

/-! ### Period starts -/

/-- The state in which a period start acts: a waiting PHASE has been taken. -/
def phaseTaken (s : State) : State := { s with press := { s.press with phase := s.press.phaseNext.getD s.press.phase, phaseNext := none } }

theorem phaseTaken_anyAdmitted : anyAdmitted (phaseTaken s) = anyAdmitted s := rfl

/-- A start of the grid that has not been acted on yet. -/
theorem periodStart_on_grid {flagged : Bool} (hm : s.mainUp = true) (hf : s.faults.safe = .normal) (hp : s.press.phase ≤ s.now)
    (hg : (s.now - s.press.phase) % s.periodNs = 0) (ha : atPeriodStart s = false) : periodStart flagged s =
      if periodRuns (phaseTaken s) then runPeriod flagged (phaseTaken s)
      else if s.press.running then stopPeriods (phaseTaken s) else phaseTaken s := by
  simp only [periodStart, hm, hf, hp, hg, ha]
  rfl

theorem periodRuns_of_admitted (h : anyAdmitted s = true) : periodRuns s = true := by simp [periodRuns, h]

/-- With nothing admitted and every ring empty, running periods are to stop. -/
theorem periodRuns_of_idle (ha : anyAdmitted s = false) (hr : s.press.running = true) (h : ∀ p ∈ s.rings, p.2.tail = p.2.done) :
    periodRuns s = false := by
  simpa [periodRuns, ha, hr] using h

/-- Periods that stop while neither an operating point nor STANDBY waits for it. -/
theorem stopPeriods_plain (ht : s.power.target ≠ 2) (hw : s.power.oppWanted = none) : stopPeriods s = { s with
    power := { s.power with state := if s.power.state == .run then .ready else s.power.state },
    press := { s.press with
      running := false, quires := s.press.quires.map (fun q => if q.st == .on && !q.testing then { q with st := .retain } else q) } } := by
  simp [stopPeriods, applyWanted, hw, retryTarget, reachStandby, ht]

/-! ### Slot boundaries -/

/-- The state in which a slot runs: the droop time of the slot counts from 0, and the boundary has been passed. -/
def slotBegun (s : State) : State := { droopSlot s with press := { (droopSlot s).press with slotAt := some s.now } }

theorem droopSlot_quiet (h : s.power.array.warns = false) : ∃ p, droopSlot s = { s with power := p } ∧ p.stage = s.power.stage := by
  simp only [droopSlot, droopTick, h]
  exact ⟨_, rfl, rfl⟩

/-- A boundary of the grid without rings, droop or a thermal stage. -/
theorem slotBoundary_on_grid {m : ExtMem} {fail : Bool} (hm : s.mainUp = true) (hf : s.faults.safe = .normal) (hp : s.press.phase ≤ s.now)
    (hg : (s.now - s.press.phase) % 2000 = 0) (ha : s.press.slotAt ≠ some s.now) (hr : s.rings = []) (hw : s.power.array.warns = false)
    (hs : s.power.stage = 0) : slotBoundary m fail s =
      if (katRun fail (slotBegun s)).press.running && (katRun fail (slotBegun s)).faults.safe == .normal then runSlot m (katRun fail (slotBegun s))
      else katRun fail (slotBegun s) := by
  obtain ⟨p, hd, hstage⟩ := droopSlot_quiet hw
  have hquiet : thermalRise (abortBoundaries (slotBegun s)) = slotBegun s := by
    have habort : abortBoundaries (slotBegun s) = slotBegun s := by
      have hrings : (slotBegun s).rings = [] := by rw [slotBegun, hd]; exact hr
      rw [abortBoundaries, hrings]; rfl
    have hdemand : thermalDemand (slotBegun s) = 0 := by
      have h0 : (slotBegun s).power.stage = 0 := by rw [slotBegun, hd]; exact hstage.trans hs
      simp [thermalDemand, h0]
    rw [habort]
    simp [thermalRise, hdemand]
  have hgate : (!(s.mainUp && s.faults.safe == .normal && (s.press.phase ≤ s.now && decide ((s.now - s.press.phase) % 2000 = 0))) ||
      s.press.slotAt == some s.now) = false := by
    simp [hm, hf, hp, hg, ha]
  unfold slotBoundary
  dsimp only
  rw [if_neg (by rw [hgate]; decide), show ({ droopSlot s with press := { (droopSlot s).press with slotAt := some s.now } } : State) = slotBegun s
    from rfl, hquiet]

theorem slotBoundary_off_grid {m : ExtMem} {fail : Bool} (hg : (s.now - s.press.phase) % 2000 ≠ 0) : slotBoundary m fail s = s := by
  simp [slotBoundary, hg]

theorem katRun_idle {fail : Bool} (h : s.draw.katStart = false) : katRun fail s = s := by simp [katRun, h]

theorem katRun_passes (h : s.draw.katStart = true) : katRun false s = { s with draw := { s.draw with
    katStart := false, katDone := s.draw.katDone ||| BitVec.ofNat 4 (2 ^ s.draw.katLane),
    katPass := s.draw.katPass ||| BitVec.ofNat 4 (2 ^ s.draw.katLane) } } := by
  simp [katRun, h]

end

/-- Settles O48: what each event of the press does where its conditions hold. -/
theorem pressPeriodsRun : Obligations.PressPeriodsRun := by
  unfold Obligations.PressPeriodsRun
  refine ⟨?heartbeat, ?spares, ?sparesIgnored, ?runs, ?stops, ?slot, ?knownAnswer, ?offGrid⟩
  case heartbeat =>
    intro dt s hm
    rw [exec_pressHb dt s rfl, pressBeat, if_pos (by simpa using hm), advance_press]
  case spares =>
    intro dt k s hk hm ha
    refine ⟨_, exec_pressSparesWrite dt true k s (by simpa [Instr.wf] using by omega), ?_⟩
    rw [mainWrite_ok (by simpa using hm), writeSpares_chooses hk (by rwa [advance_anyAdmitted])]
    simp +contextual [chooseSpares_none_retired]
  case sparesIgnored =>
    intro dt k s hk hm h
    rw [exec_pressSparesWrite dt true k s (by simpa [Instr.wf] using hk), mainWrite_ok (by simpa using hm),
      writeSpares_ignored (by rwa [advance_anyAdmitted])]
  case runs =>
    intro dt flagged s hm hf hp hg hat ha
    rw [exec_pressPeriodStart dt flagged s rfl, periodStart_on_grid (by simpa using hm) (by simpa using hf) (by simpa using hp)
      (by rw [advance_periodNs]; simpa using hg) hat, periodRuns_of_admitted (by rw [phaseTaken_anyAdmitted, advance_anyAdmitted, ha]), if_pos rfl,
      phaseTaken, advance_press]
  case stops =>
    intro dt flagged s hq hm hf hp hg hr hat ha hrings ht hw
    refine ⟨_, exec_pressPeriodStart dt flagged s rfl, ?_⟩
    have hat' : atPeriodStart (advance dt s) = false := by simpa [atPeriodStart, hr] using hat
    rw [periodStart_on_grid (by simpa using hm) (by simpa using hf) (by simpa using hp) (by rw [advance_periodNs]; simpa using hg) hat',
      periodRuns_of_idle (s := phaseTaken (advance dt s)) (by rw [phaseTaken_anyAdmitted, advance_anyAdmitted, ha]) (by simpa [phaseTaken] using hr)
        (by simpa [phaseTaken] using hrings),
      if_neg (by decide), if_pos (by simpa using hr), stopPeriods_plain (by simpa [phaseTaken] using ht) (by simpa [phaseTaken] using hw)]
    rw [settle_press_of_not_entering (by simp [phaseTaken, hf])]
    simp [phaseTaken]
  case slot =>
    intro dt m fail s hm hf hp hg hat hr hrings hw hs hk
    have hdraw : (slotBegun (advance dt s)).draw.katStart = false ∧ (slotBegun (advance dt s)).press.running = true ∧
        (slotBegun (advance dt s)).faults.safe = .normal := by
      obtain ⟨p, hd, -⟩ := droopSlot_quiet (s := advance dt s) (by simpa using hw)
      simp [slotBegun, hd, hk, hr, hf]
    obtain ⟨hkat, hrun, hsafe⟩ := hdraw
    rw [exec_slotBoundary dt m fail s rfl, slotBoundary_on_grid (by simpa using hm) (by simpa using hf) (by simpa using hp)
      (by simpa using hg) (by simpa using hat) (by simpa using hrings) (by simpa using hw) (by simpa using hs), katRun_idle hkat, hrun, hsafe,
      if_pos (by decide), slotBegun]
  case knownAnswer =>
    intro dt m s hm hf hp hg hat hr hrings hw hs hk
    obtain ⟨p, hd, -⟩ := droopSlot_quiet (s := advance dt s) (by simpa using hw)
    have hbegun : slotBegun (advance dt s) = { advance dt s with power := p, press := { s.press with slotAt := some (advance dt s).now } } := by
      rw [slotBegun, hd, advance_press]
    refine ⟨_, exec_slotBoundary dt m false s rfl, ?_⟩
    rw [slotBoundary_on_grid (by simpa using hm) (by simpa using hf) (by simpa using hp)
      (by simpa using hg) (by simpa using hat) (by simpa using hrings) (by simpa using hw) (by simpa using hs), hbegun,
      katRun_passes (by simpa using hk), if_neg (by simp [hr])]
    simp
  case offGrid =>
    intro dt m fail s hg
    rw [exec_slotBoundary dt m fail s rfl, slotBoundary_off_grid (by simpa using hg)]

end Sys2Proof.Machine
end

section
/-! SUPPORT. Scrubbing, the sweep of stock and coefficient reloads (13 R429, R446-R448), and the statement that they settle. -/

namespace Sys2Proof.Machine

section
variable {s : State} {q : Nat}

theorem advance_maintains (dt : Nat) (s : State) : (advance dt s).maintains = s.maintains := by simp [State.maintains]
theorem advance_findSegment (dt h gen set seg : Nat) : findSegment (advance dt s) h gen set seg = findSegment s h gen set seg := by simp [findSegment]

theorem maintains_safe (h : s.maintains = true) : s.faults.safe = .normal := by
  simp only [State.maintains, Bool.and_eq_true, beq_iff_eq] at h
  exact h.2

theorem quireOn_faults (q : Nat) (s : State) : (quireOn q s).faults = s.faults := by
  unfold quireOn; dsimp only; split <;> rfl

/-! ### Scrub passes -/

/-- The cover check reaches the times of the last passes and the memory's events. -/
theorem coverCheck_frame (s : State) : ∃ m, coverCheck s = { s with mem := m } ∧ m.tokens = s.mem.tokens ∧ m.scrubCorr = s.mem.scrubCorr ∧
    m.scrubUncorr = s.mem.scrubUncorr := by
  unfold coverCheck memEvt
  dsimp only
  split <;> exact ⟨_, rfl, rfl, rfl, rfl⟩

/-- What decides about a pass is the same before and after the cover check. -/
theorem coverCheck_gates (s : State) (q : Nat) : (coverCheck s).maintains = s.maintains ∧ (coverCheck s).faults = s.faults ∧
    (coverCheck s).quire q = s.quire q ∧ tokenHeld (coverCheck s) q 3 = tokenHeld s q 3 ∧ (coverCheck s).now = s.now := by
  obtain ⟨m, hm, htok, -⟩ := coverCheck_frame s
  rw [hm]
  exact ⟨rfl, rfl, rfl, by unfold tokenHeld; rw [htok], rfl⟩

/-- A pass of a quire that works: made where its token is free, else deferred. -/
theorem scrubPass_gates {fs : List ScrubFinding} (hm : s.maintains = true) (hr : q ∉ s.faults.retired) (hg : (s.quire q).st ≠ .gated) :
    (tokenHeld s q 3 = false → s.faults.fi.armed = false →
      scrubPass q fs s = forEach fs (scrubFinding q) (passMade q (quireOn q (coverCheck s)))) ∧
    (tokenHeld s q 3 = true → scrubPass q fs s = { coverCheck s with mem := { (coverCheck s).mem with
      scrubDeferred := (coverCheck s).mem.scrubDeferred.filter (·.1 ≠ q) ++ [(q, s.now)] } }) := by
  obtain ⟨hm', hf, hq, ht, hn⟩ := coverCheck_gates s q
  have hgate : (!(coverCheck s).maintains || mem (coverCheck s).faults.retired q || ((coverCheck s).quire q).st == .gated) = false := by
    have hmem : mem s.faults.retired q = false := Bool.eq_false_iff.2 (mt mem_eq_true.1 hr)
    simp [hm', hm, hf, hmem, hq, hg]
  unfold scrubPass
  dsimp only
  rw [if_neg (by rw [hgate]; decide), ht]
  constructor
  · intro h ha
    have hinj : scrubInjection q (passMade q (quireOn q (coverCheck s))) = passMade q (quireOn q (coverCheck s)) := by
      have harm : (passMade q (quireOn q (coverCheck s))).faults.fi.armed = false := by
        rw [show (passMade q (quireOn q (coverCheck s))).faults = s.faults from (quireOn_faults ..).trans hf]
        exact ha
      simp [scrubInjection, harm]
    rw [if_neg (by simp [h]), hinj]
  · intro h
    rw [if_pos h, hn]

theorem scrubRetry_due {fs : List ScrubFinding} {t : Nat} (h : s.mem.scrubDeferred.find? (·.1 = q) = some (q, t)) (hd : t + 1000000 ≤ s.now) :
    scrubRetry q fs s = scrubPass q fs { s with mem := { s.mem with scrubDeferred := s.mem.scrubDeferred.filter (·.1 ≠ q) } } := by
  simp [scrubRetry, h, Nat.not_lt.2 hd]

/-! ### The sweep of stock -/

theorem stockSweep_good {key i : Nat} : stockSweep key i 0 false s = s := by
  unfold stockSweep
  dsimp only
  repeat' split
  case isFalse.isFalse.isFalse h => exact absurd rfl h
  all_goals rfl

theorem stockSweep_bad {key i resp : Nat} {b : Bool} {p : Pool} (hp : Tbl.get? s.pools key = some p) (hm : s.maintains = true)
    (hs : s.mem.stockSweep = true) (hi : i < p.count) (hf : Tbl.has p.bufs i = false) (hbad : resp ≠ 0 ∨ b = true)
    (hg : guardCheck (s.ctx (key / 128)).guards false (p.base + i * bufSize (key % 8)) (bufSize (key % 8)) = none) :
    stockSweep key i resp b s = noteMemFault 6 (112 + portOf (p.base + i * bufSize (key % 8)))
      (report1 (112 + portOf (p.base + i * bufSize (key % 8))) 2 0x19 (key / 128) true
        (memEvt 2 (setBuf key i (some .quarantined) s))) := by
  have hfree : (!s.maintains || !s.mem.stockSweep || decide (p.count ≤ i) || Tbl.has p.bufs i) = false := by
    simp [hm, hs, hf, Nat.not_le.2 hi]
  have hresp : ¬ (decide (resp = 0) && !b) = true := by
    rcases hbad with h | h <;> simp [h]
  unfold stockSweep
  rw [hp]
  dsimp only
  rw [hfree, hg, if_neg (by decide), if_neg (by decide), if_neg hresp]

/-! ### Coefficient reloads -/

theorem giveToken_bindings (q k : Nat) (s : State) : (giveToken q k s).bindings = s.bindings := by unfold giveToken; split <;> rfl

theorem reloadRead_congr {t : State} (h : t.bindings = s.bindings) (g : Segment) (m : ExtMem) : reloadRead t g m = reloadRead s g m := by
  unfold reloadRead; rw [h]

/-- A reload whose read succeeds. -/
theorem reloadDone_read {h gen set seg : Nat} {m : ExtMem} {g : Segment} {bs : List Byte} (hg : findSegment s h gen set seg = some g)
    (hm : s.maintains = true) (hl : g.lost = false) (hr : g.reloading = true) (hq : (s.quire g.quire).st ≠ .gated)
    (hb : reloadRead s g m = .ok bs) : reloadDone h gen set seg m s =
      if crc32c bs = g.crc then modSegment h gen set seg (fun x => { x with reloading := false }) (presentReload g (giveToken g.quire 1 s))
      else reloadFailed g (presentReload g (giveToken g.quire 1 s)) := by
  have hgate : (!s.maintains || g.lost || !g.reloading || (s.quire g.quire).st == .gated) = false := by simp [hm, hl, hr, hq]
  unfold reloadDone
  rw [hg]
  dsimp only
  rw [hgate, if_neg (by decide), reloadRead_congr (giveToken_bindings ..), hb]

end

/-- Settles O50: what a pass, a sweep read and a reload do by what they find. -/
theorem storesAreScrubbed : Obligations.StoresAreScrubbed := by
  unfold Obligations.StoresAreScrubbed
  refine ⟨?made, ?deferred, ?retry, ?bad, ?good, ?agrees, ?fails⟩
  case made =>
    intro dt q fs s hq hwf hm hr hg ht ha
    rw [exec_scrubPass dt q fs s (by simpa [Instr.wf, hq] using hwf), (scrubPass_gates (s := advance dt s) (by rwa [advance_maintains])
      (by simpa using hr) (by simpa using hg)).1 (by simpa [tokenHeld] using ht) (by simpa using ha)]
  case deferred =>
    intro dt q fs s hq hwf hm hr hg ht
    refine ⟨_, exec_scrubPass dt q fs s (by simpa [Instr.wf, hq] using hwf), ?_⟩
    rw [(scrubPass_gates (s := advance dt s) (by rwa [advance_maintains]) (by simpa using hr) (by simpa using hg)).2
      (by simpa [tokenHeld] using ht)]
    obtain ⟨m, hcover, -, hcorr, huncorr⟩ := coverCheck_frame (advance dt s)
    rw [settle_mem, settle_press_of_not_entering (by rw [hcover]; simp [maintains_safe hm]), hcover]
    exact ⟨by simp, by simpa using hcorr, by simpa using huncorr, by simp⟩
  case retry =>
    intro dt q t fs s hq hwf hd ht
    rw [exec_scrubRetry dt q fs s (by simpa [Instr.wf, hq] using hwf), scrubRetry_due (by simpa using hd) ht, advance_mem]
  case bad =>
    intro dt key i resp b p s hresp hp hm hs hi hf hbad hg
    rw [exec_stockSweep dt key i resp b s (by simpa [Instr.wf] using hresp), stockSweep_bad (s := advance dt s) (by simpa using hp)
      (by rwa [advance_maintains]) (by simpa using hs) hi hf hbad (by simpa using hg)]
  case good =>
    intro dt key i p s hp
    rw [exec_stockSweep dt key i 0 false s rfl, stockSweep_good]
  case agrees =>
    intro dt h gen set seg m g bs s hg hm hl hr hq hb hc
    rw [exec_coeffReloadDone dt h gen set seg m s rfl, reloadDone_read (s := advance dt s) (by rwa [advance_findSegment])
      (by rwa [advance_maintains]) hl hr (by simpa using hq) (by rwa [reloadRead_congr (advance_bindings ..)]), if_pos hc]
  case fails =>
    intro dt h gen set seg m g bs s hg hm hl hr hq hb hc
    rw [exec_coeffReloadDone dt h gen set seg m s rfl, reloadDone_read (s := advance dt s) (by rwa [advance_findSegment])
      (by rwa [advance_maintains]) hl hr (by simpa using hq) (by rwa [reloadRead_congr (advance_bindings ..)]), if_neg hc]

end Sys2Proof.Machine
end

section
/-! SUPPORT. The rotation of self-tests and migrations (14 R472-R476, R481), and the statement that they settle. -/

namespace Sys2Proof.Machine

/-! ### Tables whose values change at a key -/

section
variable {α β : Type}

/-- A change at a key that a view of the values does not see. -/
theorem Tbl.map_adjust (g : α → β) (f : α → α) (h : ∀ v, g (f v) = g v) (t : Tbl α) (k : Nat) :
    (Tbl.adjust t k f).map (fun p => (p.1, g p.2)) = t.map (fun p => (p.1, g p.2)) := by
  have hset : ∀ (t : Tbl α) (v w : α), Tbl.get? t k = some v → g w = g v →
      (Tbl.set t k w).map (fun p => (p.1, g p.2)) = t.map (fun p => (p.1, g p.2)) := by
    intro t v w hv hw
    induction t with
    | nil => simp [Tbl.get?] at hv
    | cons p t ih =>
      obtain ⟨k', v'⟩ := p
      simp only [Tbl.get?] at hv
      simp only [Tbl.set]
      split at hv
      · next he => simp_all
      · split at hv
        · cases hv
        · next h1 h2 => rw [if_neg h1, if_neg h2, List.map_cons, List.map_cons, ih hv]
  unfold Tbl.adjust
  split
  · next v hv => exact hset t v _ hv (h v)
  · rfl

theorem Tbl.get?_adjust_self (t : Tbl α) (k : Nat) (f : α → α) : Tbl.get? (Tbl.adjust t k f) k = (Tbl.get? t k).map f := by
  unfold Tbl.adjust
  split
  · next v hv => rw [Tbl.get?_set_self, hv]; rfl
  · next hv => rw [hv]; rfl

theorem Tbl.get?_adjust_ne (t : Tbl α) (k j : Nat) (f : α → α) (h : j ≠ k) : Tbl.get? (Tbl.adjust t k f) j = Tbl.get? t j := by
  unfold Tbl.adjust
  split
  · exact Tbl.get?_set_ne _ _ _ _ h
  · rfl

end

section
variable {s : State} {q : Nat}

theorem advance_dueQuires (dt : Nat) (s : State) : dueQuires (advance dt s) = dueQuires s := by simp [dueQuires, dueQuire]
theorem advance_migrationOf (dt : Nat) (s : State) (q : Nat) : migrationOf (advance dt s) q = migrationOf s q := by simp [migrationOf]
theorem advance_handedOver (dt : Nat) (s : State) (q : Nat) : handedOver (advance dt s) q = handedOver s q := by simp [handedOver]
theorem advance_freeSpares (dt : Nat) (s : State) : freeSpares (advance dt s) = freeSpares s := by simp [freeSpares]
theorem advance_freeSpare (dt : Nat) (s : State) (q : Nat) : freeSpare (advance dt s) q = freeSpare s q := by simp [freeSpare]
theorem advance_mayWake (dt : Nat) (s : State) (q : Nat) : mayWake (advance dt s) q = mayWake s q := by rw [advance_eq]; rfl
theorem advance_testable (dt : Nat) (s : State) (q : Nat) : testable (advance dt s) q = testable s q := by
  simp [testable, advance_freeSpares, advance_migrationOf, advance_mayWake, vacant, advance_handedOver, heldMask, tokenHeld]

theorem mem_eq_false {l : List Nat} {x : Nat} (h : x ∉ l) : mem l x = false := Bool.eq_false_iff.2 (mt mem_eq_true.1 h)

theorem tryFinish_none (h : migrationOf s q = none) : tryFinish q s = s := by simp [tryFinish, h]

theorem tryFinish_stands (h : handedOver s q = false) : tryFinish q s = s := by
  unfold tryFinish
  split
  · rw [if_neg (by simp [h])]
  · rfl

/-! ### Steps of the rotation -/

/-- A spare that is due does not migrate. -/
theorem migrationStart_spare (hr : q ∉ s.faults.retired) (hs : q ∈ s.press.spareSet) : migrationStart q s = s := by
  simp [migrationStart, mem_eq_false hr, mem_eq_true.2 hs]

/-- The step of a spare that is due: its test where it can be tested, else it is stalled. -/
theorem selfTestStep_spare {l : List Nat} (hm : s.maintains = true) (he : s.faults.testEnable = true) (hrun : s.faults.testState ≠ .running)
    (hd : dueQuires s = q :: l) (hs : q ∈ s.press.spareSet) (hr : q ∉ s.faults.retired) (hmig : migrationOf s q = none) :
    selfTestStep s = if testable s q then beginTest q l.head? s else { s with faults := { s.faults with testState := .stalled } } := by
  have hgate : (!s.maintains || !s.faults.testEnable || s.faults.testState == .running) = false := by simp [hm, he, hrun]
  unfold selfTestStep
  rw [hgate, if_neg (by decide), hd]
  dsimp only
  rw [migrationStart_spare hr hs, tryFinish_none hmig]

/-- The state after the tested quire's test, before the rotation goes on. -/
def testOver (q : Nat) (s : State) : State := giveToken q 2 (modQuire q (fun x => { x with testing := false }) s)

theorem testOver_frame (q : Nat) (s : State) : (testOver q s).faults = s.faults ∧ (testOver q s).press.spareSet = s.press.spareSet ∧
    (testOver q s).mem.tokens = if Tbl.get? s.mem.tokens q = some 2 then Tbl.erase s.mem.tokens q else s.mem.tokens := by
  unfold testOver giveToken
  rw [modQuire_mem]
  split <;> exact ⟨rfl, rfl, rfl⟩

/-- A passed test of a quire that has not moved. -/
theorem selfTestEnd_passed (hm : s.maintains = true) (hrun : s.faults.testState = .running)
    (ht : (s.quire s.faults.testQuire).testing = true) (hmig : migrationOf s s.faults.testQuire = none) :
    selfTestEnd true s = nextStep s.faults.testQuire (testOver s.faults.testQuire s) := by
  have hgate : (!s.maintains || s.faults.testState != .running || !(s.quire s.faults.testQuire).testing) = false := by simp [hm, hrun, ht]
  have hnone : migrationOf (testOver s.faults.testQuire s) s.faults.testQuire = none := by
    unfold migrationOf; rw [(testOver_frame ..).1]; exact hmig
  unfold selfTestEnd
  dsimp only
  rw [hgate, if_neg (by decide), show giveToken s.faults.testQuire 2 (modQuire s.faults.testQuire (fun x => { x with testing := false }) s) =
    testOver s.faults.testQuire s from rfl, hnone, if_pos rfl]

theorem nextStep_frame (q : Nat) (s : State) : (nextStep q s).mem = s.mem ∧ (nextStep q s).press = s.press ∧
    (nextStep q s).faults.testState = .idle ∧ (nextStep q s).faults.retired = s.faults.retired ∧
    (nextStep q s).faults.testUpper = !decide (32 ≤ q) := by
  unfold nextStep
  dsimp only
  split <;> exact ⟨rfl, rfl, rfl, rfl, rfl⟩

/-! ### Migrations -/

theorem handedOver_congr {t : State} (h : t.bindings.map (fun p => (p.1, p.2.standsOn q)) = s.bindings.map (fun p => (p.1, p.2.standsOn q))) :
    handedOver t q = handedOver s q := by
  have hview (u : State) : handedOver u q = (u.bindings.map (fun p => (p.1, p.2.standsOn q))).all (fun p => !p.2) := by
    simp [handedOver, Function.comp_def]
  rw [hview, hview, h]

/-- New replay spares leave the quires that bindings stand on. -/
theorem remapReplays_frame (p : Nat) (s : State) : (remapReplays p s).faults = s.faults ∧ (remapReplays p s).mem = s.mem ∧
    ∀ q, handedOver (remapReplays p s) q = handedOver s q := by
  have hmod (h : Nat) (x : Option Nat) (u : State) (q : Nat) :
      handedOver (modBinding h (fun b => { b with spare := x }) u) q = handedOver u q :=
    handedOver_congr (Tbl.map_adjust (fun b : Binding => b.standsOn q) (fun b : Binding => { b with spare := x }) (fun _ => rfl) ..)
  have h := forEach_keeps (fun u : State => (u.faults, u.mem, fun q => handedOver u q)) (fun h s =>
      let t := modBinding h (fun b => { b with spare := none }) s
      match Tbl.get? t.bindings h with
      | some b => modBinding h (fun x => { x with spare := replaySpare t b.table }) t
      | none => t) (fun h s => by
    dsimp only
    split
    · exact Prod.ext rfl (Prod.ext rfl (funext fun q => (hmod ..).trans (hmod ..)))
    · exact Prod.ext rfl (Prod.ext rfl (funext fun q => hmod ..)))
    (s.bindings.filterMap (fun x => if x.2.live && x.2.spare = some p then some x.1 else none)) s
  exact ⟨congrArg Prod.fst h, congrArg (·.2.1) h, fun q => congrFun (congrArg (·.2.2) h) q⟩

/-- A quire that has its token already is switched on without taking it. -/
theorem quireOn_mem {p : Nat} (h : Tbl.has s.mem.tokens p = true) : (quireOn p s).mem = s.mem := by
  unfold quireOn
  dsimp only
  rw [if_neg (by simp [h])]
  rfl

theorem quireOn_bindings (p : Nat) (s : State) : (quireOn p s).bindings = s.bindings := by unfold quireOn; dsimp only; split <;> rfl

/-- A migration of a due quire onto a free spare takes both tokens. -/
theorem startMigration_starts {p : Nat} (hr : q ∉ s.faults.retired) (hp : freeSpare s q = some p) (hf : s.fwRuns = true)
    (hm : migrationOf s q = none) (hq : Tbl.has s.mem.tokens q = false) (ht : Tbl.has s.mem.tokens p = false) (hw : mayWake s p = true)
    (h2 : 2 ≤ (freeSpares s).length) (hh : handedOver s q = false) :
    (startMigration q s).faults.migrations = s.faults.migrations ++ [{ src := q, dst := p, began := s.now, retired := false }] ∧
      (startMigration q s).mem.tokens = Tbl.set (Tbl.set s.mem.tokens p 2) q 2 := by
  have hret : mem s.faults.retired q = false := mem_eq_false hr
  have hgate : (!s.fwRuns || (migrationOf s q).isSome || Tbl.has s.mem.tokens q || Tbl.has s.mem.tokens p || !mayWake s p ||
      (!mem s.faults.retired q && decide ((freeSpares s).length < 2))) = false := by
    simp [hf, hm, hq, ht, hw, Nat.not_lt.2 h2]
  unfold startMigration
  rw [hp]
  dsimp only
  rw [hgate, if_neg (by decide), hret]
  generalize hu : takeToken q 2 (takeToken p 2 { s with faults := { s.faults with
    migrations := s.faults.migrations ++ [{ src := q, dst := p, began := s.now, retired := false }] } }) = u
  have htok : u.mem.tokens = Tbl.set (Tbl.set s.mem.tokens p 2) q 2 := by rw [← hu]; rfl
  have hhas : Tbl.has u.mem.tokens p = true := by
    rw [htok, Tbl.has]
    by_cases h : p = q
    · rw [h, Tbl.get?_set_self]; rfl
    · rw [Tbl.get?_set_ne _ _ _ _ h, Tbl.get?_set_self]; rfl
  obtain ⟨hfaults, hmem, hover⟩ := remapReplays_frame p (quireOn p u)
  have hstands : handedOver (remapReplays p (quireOn p u)) q = false := by
    rw [hover, handedOver_congr (s := s) (by rw [quireOn_bindings, ← hu]; rfl), hh]
  rw [tryFinish_stands hstands, hfaults, hmem, quireOn_faults, quireOn_mem hhas, htok, ← hu]
  exact ⟨rfl, rfl⟩

theorem migrationStart_due (hm : s.maintains = true) (hr : q ∉ s.faults.retired) (he : s.faults.testEnable = true) (hd : q ∈ dueQuires s)
    (hs : q ∉ s.press.spareSet) : migrationStart q s = startMigration q s := by
  simp [migrationStart, hm, mem_eq_false hr, he, mem_eq_true.2 hd, mem_eq_false hs]

theorem handover_moves {m : Migration} {h : Nat} {b : Binding} (hm : s.maintains = true) (hmig : migrationOf s q = some m)
    (hr : m.dst ∉ s.faults.retired) (hb : Tbl.get? s.bindings h = some b) (ha : b.admitted = true) : handover q h s =
      tryFinish q (remapReplays m.dst (modBinding h (fun b => { b with
        quiresA := b.quiresA.map (fun x => if x = q then m.dst else x),
        quiresB := b.quiresB.map (fun x => if x = q then m.dst else x) }) s)) := by
  unfold handover
  rw [hmig]
  dsimp only
  rw [if_neg (by simp [hm, mem_eq_false hr]), hb]
  simp only [ha, when, if_true]

theorem abandonStages_due {m : Migration} (hm : s.maintains = true) (hmig : migrationOf s q = some m) (hh : handedOver s q = false)
    (hd : m.began + 1000000 ≤ s.now) : (abandonStages q s).works = s.works.map (fun x => (x.1,
      match x.2.place with | some (p, _) => if p = q then restartSample s x.2 else x.2 | none => x.2)) := by
  unfold abandonStages
  rw [hmig]
  dsimp only
  rw [if_neg (by simp [hm, Nat.not_lt.2 hd])]
  generalize hl : s.works.map (fun x => (x.1,
    match x.2.place with | some (p, _) => if p = q then restartSample s x.2 else x.2 | none => x.2)) = l
  have hstands : handedOver { s with works := l } q = false := hh
  exact congrArg State.works (tryFinish_stands hstands)

end

/-- Settles O51: a step of the rotation by what is due, the end of a test, and a migration from its start to its abandoned stages. -/
theorem quiresAreTestedAndMoved : Obligations.QuiresAreTestedAndMoved := by
  unfold Obligations.QuiresAreTestedAndMoved
  refine ⟨?tested, ?stalled, ?passed, ?starts, ?handover, ?abandons⟩
  case tested =>
    intro dt q l s hm he hrun hd hs hr hmig ht
    rw [exec_selftestStep dt s rfl, selfTestStep_spare (s := advance dt s) (by rwa [advance_maintains]) (by simpa using he) (by simpa using hrun)
      (by rwa [advance_dueQuires]) (by simpa using hs) (by simpa using hr) (by rwa [advance_migrationOf]), advance_testable, if_pos ht]
  case stalled =>
    intro dt q l s hm he hrun hd hs hr hmig ht
    refine ⟨_, exec_selftestStep dt s rfl, ?_⟩
    rw [selfTestStep_spare (s := advance dt s) (by rwa [advance_maintains]) (by simpa using he) (by simpa using hrun)
      (by rwa [advance_dueQuires]) (by simpa using hs) (by simpa using hr) (by rwa [advance_migrationOf]), advance_testable,
      if_neg (by rw [ht]; decide)]
    simp
  case passed =>
    intro dt s hm hrun ht hmig
    refine ⟨_, exec_selftestStepEnd dt true s rfl, ?_⟩
    rw [selfTestEnd_passed (s := advance dt s) (by rwa [advance_maintains]) (by simpa using hrun) (by simpa using ht)
      (by simpa [advance_migrationOf] using hmig), advance_faults]
    obtain ⟨hfaults, hspares, htokens⟩ := testOver_frame s.faults.testQuire (advance dt s)
    obtain ⟨hmem, hpress, hstate, hretired, hupper⟩ := nextStep_frame s.faults.testQuire (testOver s.faults.testQuire (advance dt s))
    rw [settle_mem, settle_press_spareSet, settle_faults_testState, settle_faults_retired, settle_faults_testUpper, hmem, hpress, hstate, hretired,
      hupper, hfaults, hspares, htokens]
    simp
  case starts =>
    intro dt q p s hq hm hf he hr hd hs hp hmig htq htp hw h2 hh hne
    refine ⟨_, exec_migrationStart dt q s (by simpa [Instr.wf] using hq), ?_⟩
    rw [migrationStart_due (s := advance dt s) (by rwa [advance_maintains]) (by simpa using hr) (by simpa using he)
      (by rwa [advance_dueQuires]) (by simpa using hs)]
    obtain ⟨hmigs, htok⟩ := startMigration_starts (s := advance dt s) (by simpa using hr) (by rwa [advance_freeSpare]) (by simpa using hf)
      (by rwa [advance_migrationOf]) (by simpa using htq) (by simpa using htp) (by rwa [advance_mayWake]) (by rwa [advance_freeSpares])
      (by rwa [advance_handedOver])
    rw [settle_mem, settle_faults_migrations, hmigs, htok, Tbl.get?_set_ne _ _ _ _ hne]
    simp
  case handover =>
    intro dt q h m b s hq hm hmig hr hb ha
    rw [exec_migrationHandover dt q h s (by simpa [Instr.wf] using hq), handover_moves (s := advance dt s) (by rwa [advance_maintains])
      (by rwa [advance_migrationOf]) (by simpa using hr) (by simpa using hb) ha]
  case abandons =>
    intro dt q m s hq hm hmig hh hd
    refine ⟨_, exec_migrationAbandonTimeout dt q s (by simpa [Instr.wf] using hq), ?_⟩
    rw [settle_works]
    refine (abandonStages_due (s := advance dt s) (by rwa [advance_maintains]) (by rwa [advance_migrationOf])
      (by rwa [advance_handedOver]) hd).trans ?_
    exact congrArg (List.map _) (advance_works ..)

end Sys2Proof.Machine
end

section
/-! SUPPORT. Stage barriers, comparison of folios and replays (07 R224, R234; 13 R422; 14 R456, R457), and the statement that they settle. -/

namespace Sys2Proof.Machine

section
variable {s : State} {wid index i n : Nat} {w : Work} {f : Frame} {img : Image} {p : EntryPt} {x : Stream} {bd : Binding} {c : FolioCmp}

/-! ### Barriers -/

theorem advance_workImage (dt : Nat) (s : State) (w : Work) : workImage (advance dt s) w = workImage s w := by rw [advance_eq]; rfl
theorem advance_liveRuns (dt : Nat) (s : State) (w : Work) : liveRuns (advance dt s) w = liveRuns s w := by rw [advance_eq]; rfl
theorem advance_folioStrip (dt : Nat) (s : State) (w : Work) : folioStrip (advance dt s) w = folioStrip s w := by rw [advance_eq]; rfl
theorem advance_arrivedAll (dt : Nat) (s : State) (w : Work) (l : List Nat) : arrivedAll (advance dt s) w l = arrivedAll s w l := by
  rw [advance_eq]; rfl
theorem advance_stagesNow (dt : Nat) (s : State) (w : Work) : stagesNow (advance dt s) w = stagesNow s w := by rw [advance_eq]; rfl
theorem advance_stageBase (dt : Nat) (s : State) (w : Work) : stageBase (advance dt s) w = stageBase s w := by rw [advance_eq]; rfl

/-- Changes that agree on the gathering that stands there are the same. -/
theorem modWork_congr {g h : Work → Work} (hw : Tbl.get? s.works wid = some w) (he : g w = h w) : modWork wid g s = modWork wid h s := by
  unfold modWork Tbl.adjust
  rw [hw]
  dsimp only
  rw [he]

theorem modWork_get? {g : Work → Work} (hw : Tbl.get? s.works wid = some w) : Tbl.get? (modWork wid g s).works wid = some (g w) := by
  refine (Tbl.get?_adjust_self ..).trans ?_
  rw [hw]
  rfl

theorem injectStage_unarmed (h : s.faults.fi.armed = false) : injectStage wid w s = s := by simp [injectStage, h]

theorem stageBarrier_live {v : Nat} (hw : Tbl.get? s.works wid = some w) (hk : w.kind = .live i) (hs : Tbl.get? w.strips n = some v)
    (hv : v % 2 = 1) (ha : s.faults.fi.armed = false) (hall : arrivedAll s w (upto (stageBase s w) (v / 2 + 1)) = true) :
    stageBarrier wid n s = modWork wid (fun w => { w with strips := Tbl.set w.strips n (v + 1) }) s := by
  unfold stageBarrier
  rw [hw]
  dsimp only
  rw [hk]
  dsimp only
  rw [hs]
  dsimp only
  rw [if_neg (by simp [hv, hall]), injectStage_unarmed ha]

theorem stageBarrier_chain {c r a b : Nat} (hw : Tbl.get? s.works wid = some w) (hk : w.kind = .chain c r a b) (hin : w.inStages = true)
    (hran : w.ran = true) (hplace : w.place.isSome = true) (hsus : w.suspended = false) (himg : workImage s w = some (img, p))
    (ha : s.faults.fi.armed = false) (hrd : w.pendingRd = 0) (hall : arrivedAll s w (stagesNow s w) = true)
    (hnext : barrierStage img w.stage img.stages.length + 1 < p.firstStage + p.stageRun) : stageBarrier wid n s =
      modWork wid (fun w => { w with place := none, stage := barrierStage img w.stage img.stages.length + 1 }) s := by
  unfold stageBarrier
  rw [hw]
  dsimp only
  rw [hk]
  dsimp only
  rw [if_pos (by simp [hin, hran, hplace, hsus, hrd, hall]), injectStage_unarmed ha, hw]
  dsimp only
  unfold sampleBarrier
  rw [himg]
  dsimp only
  rw [if_neg (Nat.not_le.2 hnext)]
  exact modWork_congr hw rfl

/-! ### Comparisons -/

/-- A gathering whose stages run, with what a comparison reads of it. -/
structure LiveFolio (s : State) (wid i : Nat) (w : Work) (f : Frame) (img : Image) (p : EntryPt) (x : Stream) : Prop where
  work : Tbl.get? s.works wid = some w
  runs : liveRuns s w = some i
  frame : w.frame = some f
  image : workImage s w = some (img, p)
  stream : Tbl.get? s.streams i = some x

theorem LiveFolio.advance (h : LiveFolio s wid i w f img p x) (dt : Nat) : LiveFolio (Machine.advance dt s) wid i w f img p x :=
  ⟨by simpa using h.work, by rw [advance_liveRuns]; exact h.runs, h.frame, by rw [advance_workImage]; exact h.image, by simpa using h.stream⟩

theorem liveRuns_kind (h : liveRuns s w = some i) : w.kind = .live i := by
  unfold liveRuns at h
  split at h
  · next hk _ =>
    obtain ⟨-, he⟩ := Option.ite_none_right_eq_some.1 h
    rw [hk, Option.some.inj he]
  · cases h

/-- What lets a first comparison of a folio begin. -/
structure Comparable (s : State) (w : Work) (p : EntryPt) (img : Image) (bd : Binding) (index rel n : Nat) : Prop where
  binding : Tbl.get? s.bindings w.binding = some bd
  inside : index < w.total
  missing : w.hasFolio index = false
  shown : w.viewOf index ∉ w.shed
  plain : p.encodeView img ≠ some (w.viewOf index)
  fresh : w.compare? index = none
  strip : folioStrip s w = some n
  quire : rel < bd.quiresA.length
  unarmed : s.faults.fi.armed = false

theorem folioCompare_first {rel : Nat} {a b : Copy} {ext : ExtMem} (h : LiveFolio s wid i w f img p x) (hc : Comparable s w p img bd index rel n) :
    folioCompare wid index a b rel ext s = judge wid
      ((newCompare s index (bd.quiresA.getD rel 0) (bd.quiresB.getD rel 0)).withCopies a b (goodFolio s w x f img p index) false) s := by
  have huncoded : (p.encodeView img = some (w.viewOf index)) = False := eq_false hc.plain
  have hgate : (w.hasFolio index || mem w.shed (w.viewOf index) ||
      (decide (p.encodeView img = some (w.viewOf index)) && (w.encBefore.isNone || !w.slices.isEmpty)) || false || (folioStrip s w).isNone ||
      decide (bd.quiresA.length ≤ rel)) = false := by
    simp [hc.missing, mem_eq_false hc.shown, huncoded, hc.strip, Nat.not_le.2 hc.quire]
  have hinj : takeInjection s = (s, false) := by simp [takeInjection, hc.unarmed]
  unfold folioCompare
  rw [h.work]
  dsimp only
  rw [h.runs, h.frame, h.image, hc.binding]
  dsimp only
  rw [h.stream]
  dsimp only
  rw [if_neg (Nat.not_le.2 hc.inside), hc.fresh, hgate, if_neg (by decide), hinj]
  rfl

/-- Two equal copies are released. -/
theorem judge_equal {g : List Byte} (ha : c.copyA = some g) (hb : c.copyB = some g) (hi : c.injected = false) :
    judge wid c s = releaseFolio wid c.index g s := by
  unfold judge
  rw [ha, hb]
  dsimp only
  rw [if_pos (by simp [hi])]

/-- Two copies that differ disagree. -/
theorem judge_differs {g h : List Byte} (ha : c.copyA = some g) (hb : c.copyB = some h) (hne : crc32c g ≠ crc32c h) :
    judge wid c s = disagree wid c (keepCompare wid c s) := by
  unfold judge
  rw [ha, hb]
  dsimp only
  rw [if_neg (by simp [hne])]

/-- A disagreement that may be replayed asks for its replay. -/
theorem disagree_replays {q : Nat} (hw : Tbl.get? s.works wid = some w) (hk : w.kind = .live i) (himg : workImage s w = some (img, p))
    (hin : c.index < w.total) (hplain : p.encodeView img ≠ some (w.viewOf c.index)) (hn : folioStrip s w = some n)
    (hb : Tbl.get? s.bindings w.binding = some bd) (hq : bd.spare = some q) (hs : q ∈ s.press.spareSet) (hr : q ∉ s.faults.retired)
    (ht : (s.quire q).testing = false) (h0 : Tbl.getD w.replays n 0 = 0) (hrec : bd.table.any (·.replay) = true) : disagree wid c s =
      startReplay wid (slotIndex s) { c with replay := true }
        (keepCompare wid { c with replay := true } (modWork wid (fun w => { w with replays := Tbl.set w.replays n 1 }) s)) := by
  have hready : (mem s.press.spareSet q && !mem s.faults.retired q && !(s.quire q).testing && bd.table.any (·.replay)) = true := by
    simp only [mem_eq_true.2 hs, mem_eq_false hr, ht, hrec]; rfl
  unfold disagree
  rw [hw]
  dsimp only
  rw [hk, himg]
  dsimp only
  rw [if_neg (Nat.not_le.2 hin), if_neg hplain, hn, hb]
  simp only [Option.bind_some, hq, Option.getD_some]
  rw [hready, if_neg (by simp [h0])]

theorem slice_length (l : List Byte) (a n : Nat) : (slice l a n).length = n := by
  simp only [slice, List.length_append, List.length_replicate, List.length_take]
  omega

/-- A gathering that keeps a comparison. -/
def Work.keeping (c : FolioCmp) (w : Work) : Work := { w with compares := w.compares.filter (·.index ≠ c.index) ++ [c] }

/-- The comparison that is kept is the one that is found. -/
theorem compare?_keeping : (w.keeping c).compare? c.index = some c := by
  have hnone : (w.compares.filter (·.index ≠ c.index)).find? (·.index = c.index) = none := by
    simp
  rw [Work.compare?, Work.keeping, List.find?_append, hnone]
  simp

theorem keepCompare_get? (hw : Tbl.get? s.works wid = some w) : Tbl.get? (keepCompare wid c s).works wid = some (w.keeping c) :=
  modWork_get? (g := Work.keeping c) hw

/-- A replay that is asked for starts in a REPLAY slot. -/
theorem startReplay_asked {k : Nat} (hw : Tbl.get? s.works wid = some w) (hb : Tbl.get? s.bindings w.binding = some bd) (hr : c.replay = true)
    (hrun : c.replaying = false) (hc : w.compare? c.index = some c) :
    (startReplay wid k c s).faults.nReplays = (if replayRecs bd k = [] then s.faults.nReplays else s.faults.nReplays + 1) ∧
      ∃ v, Tbl.get? (startReplay wid k c s).works wid = some v ∧ v.replays = w.replays ∧
        v.compare? c.index = some { c with replaying := decide (replayRecs bd k ≠ []) } := by
  unfold startReplay
  rw [hw, Option.bind_some, hb]
  dsimp only
  by_cases hk : replayRecs bd k = []
  · rw [if_pos (by simp [hk])]
    exact ⟨by simp [hk], w, hw, rfl, by rw [hc]; simp [hk, ← hrun]⟩
  · rw [if_neg (by simp [hr, hrun, hk]), if_neg hk]
    refine ⟨rfl, _, modWork_get? hw, rfl, ?_⟩
    have hfind : (w.compares.map (fun y => if y.index = c.index then { y with replaying := true } else y)).find? (·.index = c.index) =
        (w.compares.find? (·.index = c.index)).map (fun y => if y.index = c.index then { y with replaying := true } else y) := by
      rw [List.find?_map]
      congr 2
      funext y
      simp only [Function.comp]
      split <;> rfl
    rw [Work.compare?, hfind, ← Work.compare?, hc]
    simp [hk]

/-- Two copies that differ for the first time in their strip: a replay has been asked for, and runs where the slot is a REPLAY slot. -/
theorem judge_asks_replay {q : Nat} {g h : List Byte} (hl : LiveFolio s wid i w f img p x) (ha : c.copyA = some g) (hb : c.copyB = some h)
    (hne : crc32c g ≠ crc32c h) (hrun : c.replaying = false) (hin : c.index < w.total) (hplain : p.encodeView img ≠ some (w.viewOf c.index))
    (hn : folioStrip s w = some n) (hbd : Tbl.get? s.bindings w.binding = some bd) (hq : bd.spare = some q) (hs : q ∈ s.press.spareSet)
    (hr : q ∉ s.faults.retired) (ht : (s.quire q).testing = false) (h0 : Tbl.getD w.replays n 0 = 0) (hrec : bd.table.any (·.replay) = true) :
    (judge wid c s).faults.nReplays = (if replayRecs bd (slotIndex s) = [] then s.faults.nReplays else s.faults.nReplays + 1) ∧
      ∃ v, Tbl.get? (judge wid c s).works wid = some v ∧ Tbl.getD v.replays n 0 = 1 ∧
        v.compare? c.index = some { c with replay := true, replaying := decide (replayRecs bd (slotIndex s) ≠ []) } := by
  have hkept : Tbl.get? (keepCompare wid c s).works wid = some (w.keeping c) := keepCompare_get? hl.work
  rw [judge_differs ha hb hne, disagree_replays (s := keepCompare wid c s) hkept (liveRuns_kind hl.runs) hl.image hin hplain hn hbd hq hs hr ht h0 hrec]
  have hasked := keepCompare_get? (c := { c with replay := true }) (modWork_get? (g := fun w => { w with replays := Tbl.set w.replays n 1 }) hkept)
  obtain ⟨hcount, v, hv, hrep, hcmp⟩ := startReplay_asked (k := slotIndex s) (c := { c with replay := true }) hasked hbd rfl hrun compare?_keeping
  refine ⟨hcount, v, hv, ?_, hcmp⟩
  rw [hrep]
  exact Tbl.getD_set_self ..

/-! ### Time-outs and replays -/

theorem folioTimeout_due (hw : Tbl.get? s.works wid = some w) (hl : liveRuns s w = some i) (hc : w.compare? index = some c)
    (hr : c.replay = false) (ha : c.copyA.isSome = true) (hb : c.copyB = none) (hd : c.since + 2000 ≤ s.now) :
    folioTimeout wid index s = disagree wid { c with late := true } (keepCompare wid { c with late := true } s) := by
  unfold folioTimeout
  rw [hw, Option.bind_some, hl, Option.bind_some, hc]
  dsimp only
  rw [if_neg (by simp [hr, ha, hb, Nat.not_lt.2 hd])]

/-- A copy that is there equals the replay. -/
def copyAgrees (copy : Option (List Byte)) (r : List Byte) : Bool := match copy with | some l => crc32c l = crc32c r | none => false

/-- A replay that has its copies is judged by the folio that it produces. -/
theorem replayDone_judges {q : Nat} (h : LiveFolio s wid i w f img p x) (hb : Tbl.get? s.bindings w.binding = some bd) (hq : bd.spare = some q)
    (hc : w.compare? index = some c) (hr : c.replaying = true) : replayDone wid index .good false s =
      if copyAgrees c.copyA (goodFolio s w x f img p index) then
        blame c.quireB i c.injected (releaseFolio wid index (goodFolio s w x f img p index) s)
      else if copyAgrees c.copyB (goodFolio s w x f img p index) then
        blame c.quireA i c.injected (releaseFolio wid index (goodFolio s w x f img p index) s)
      else containFolio wid c i none s := by
  unfold replayDone
  rw [h.work]
  dsimp only
  rw [h.runs, h.frame, h.image, hc]
  dsimp only
  rw [h.stream, hb, Option.bind_some, hq]
  dsimp only
  rw [if_neg (by simp [hr]), if_neg (by decide)]
  rfl

end

/-- Settles O49: barriers, comparisons that agree, differ and time out, and replays. -/
theorem foliosAreCompared : Obligations.FoliosAreCompared := by
  unfold Obligations.FoliosAreCompared
  refine ⟨?liveBarrier, ?chainBarrier, ?equal, ?differ, ?timeout, ?replayed, ?contained⟩
  case liveBarrier =>
    intro dt wid n i v w s hw hk hs hv ha hall
    rw [exec_stageBarrier dt wid n s rfl, stageBarrier_live (s := advance dt s) (by simpa using hw) hk hs hv (by simpa using ha)
      (by rwa [advance_stageBase, advance_arrivedAll])]
  case chainBarrier =>
    intro dt wid n c r a b w img p s hw hk hin hran hplace hsus himg ha hrd hall hnext
    rw [exec_stageBarrier dt wid n s rfl, stageBarrier_chain (s := advance dt s) (by simpa using hw) hk hin hran hplace hsus
      (by rwa [advance_workImage]) (by simpa using ha) hrd (by rwa [advance_stagesNow, advance_arrivedAll]) hnext]
  case equal =>
    intro dt wid index rel i n m w f img p bd x s hw hl hf himg hb hx hin hmiss hshed hplain hcmp hn hrel ha
    have hlive : LiveFolio (advance dt s) wid i w f img p x := LiveFolio.advance ⟨hw, hl, hf, himg, hx⟩ dt
    rw [exec_folioCompare dt wid index .good .good ⟨rel, m⟩ s rfl, folioCompare_first hlive
      ⟨by simpa using hb, hin, hmiss, hshed, hplain, hcmp, by rwa [advance_folioStrip], hrel, by simpa using ha⟩, judge_equal rfl rfl rfl]
    rfl
  case differ =>
    intro dt wid index rel i n q m w f img p bd x bs s hw hl hf himg hb hx hin hmiss hshed hplain hcmp hn hrel ha hne hq hsp hr ht h0 hrec
    refine ⟨_, exec_folioCompare dt wid index .good (.bad bs) ⟨rel, m⟩ s rfl, ?_⟩
    have hlive : LiveFolio (advance dt s) wid i w f img p x := LiveFolio.advance ⟨hw, hl, hf, himg, hx⟩ dt
    rw [folioCompare_first hlive
      ⟨by simpa using hb, hin, hmiss, hshed, hplain, hcmp, by rwa [advance_folioStrip], hrel, by simpa using ha⟩]
    generalize hg : goodFolio (advance dt s) w x f img p index = g at hne
    have hlen : g.length = 4096 := by rw [← hg]; exact slice_length ..
    generalize hc : (newCompare (advance dt s) index (bd.quiresA.getD rel 0) (bd.quiresB.getD rel 0)).withCopies .good (.bad bs) g false = c
    obtain ⟨hindex, hcopyA, hcopyB, hrep, hrun, hqa, hqb⟩ : c.index = index ∧ c.copyA = some g ∧ c.copyB = some (slice bs 0 4096) ∧
        c.replay = false ∧ c.replaying = false ∧ c.quireA = bd.quiresA.getD rel 0 ∧ c.quireB = bd.quiresB.getD rel 0 := by
      rw [← hc, ← hlen]; exact ⟨rfl, rfl, rfl, rfl, rfl, rfl, rfl⟩
    obtain ⟨hcount, v, hv, hrep, hcmp'⟩ := judge_asks_replay (n := n) hlive hcopyA hcopyB (Ne.symm hne) hrun (by rwa [hindex]) (by rwa [hindex])
      (by rwa [advance_folioStrip]) (by simpa using hb) hq (by simpa using hsp) (by simpa using hr) (by simpa using ht) h0 hrec
    rw [hindex] at hcmp'
    rw [settle_faults_nReplays, settle_works, hcount, hv, Option.bind_some, hcmp', Option.map_some, Option.map_some, hrep, hqa, hqb, advance_faults]
    exact ⟨rfl, rfl, rfl⟩
  case timeout =>
    intro dt wid index i w c s hw hl hc hr ha hb hd
    rw [exec_folioCompareTimeout dt wid index s rfl, folioTimeout_due (s := advance dt s) (by simpa using hw) (by rwa [advance_liveRuns]) hc hr ha
      hb hd]
  case replayed =>
    intro dt wid index i q w f img p bd x c s hw hl hf himg hb hx hq hc hr ha
    have hlive : LiveFolio (advance dt s) wid i w f img p x := LiveFolio.advance ⟨hw, hl, hf, himg, hx⟩ dt
    rw [exec_replayDone dt wid index .good false s rfl, replayDone_judges hlive (by simpa using hb) hq hc hr, if_pos (by simp [copyAgrees, ha])]
  case contained =>
    intro dt wid index i q w f img p bd x c a b s hw hl hf himg hb hx hq hc hr hcopyA hcopyB ha hb'
    have hlive : LiveFolio (advance dt s) wid i w f img p x := LiveFolio.advance ⟨hw, hl, hf, himg, hx⟩ dt
    rw [exec_replayDone dt wid index .good false s rfl, replayDone_judges hlive (by simpa using hb) hq hc hr,
      if_neg (by simp [copyAgrees, hcopyA, ha]), if_neg (by simp [copyAgrees, hcopyB, hb'])]

end Sys2Proof.Machine
end

section
/-! SUPPORT. What packets of a sensor port do to the open frame of their stream (08 R257, R258, R263, R266), and the statement that they settle. -/

namespace Sys2Proof.Machine

section
variable {s u : State} {p vc i wid dtype n : Nat} {x : Stream} {w : Work} {f : Frame} {l : LineIn}

theorem advance_vcStream (dt : Nat) (s : State) (p vc : Nat) : vcStream (advance dt s) p vc = vcStream s p vc := by simp [vcStream]
theorem advance_mirrorOf (dt : Nat) (s : State) (i c : Nat) : mirrorOf (advance dt s) i c = mirrorOf s i c := by simp [mirrorOf]
theorem advance_bufferHeld (dt : Nat) (s : State) (i wid : Nat) (x : Stream) (n : Nat) :
    bufferHeld (advance dt s) i wid x n = bufferHeld s i wid x n := by rw [advance_eq]; rfl
theorem advance_openFrames (dt : Nat) (s : State) (p : Nat) : openFrames (advance dt s) p = openFrames s p := by simp [openFrames]
theorem settle_frameOf (o s : State) (wid : Nat) : frameOf (settle o s) wid = frameOf s wid := by simp [frameOf]

theorem frameOf_work (hw : Tbl.get? s.works wid = some w) (hf : w.frame = some f) : frameOf s wid = some f := by
  unfold frameOf; rw [hw]; exact hf

/-- A change of a gathering's frame is seen in its frame. -/
theorem modFrame_frameOf (g : Frame → Frame) (hw : Tbl.get? s.works wid = some w) (hf : w.frame = some f) :
    frameOf (modFrame wid g s) wid = some (g f) := by
  unfold frameOf modFrame
  rw [modWork_get? hw, Option.bind_some, hf]
  rfl

/-- What a mirror gathering is found by: its kind and the counter of its frame. -/
def Work.mirrors (i c : Nat) (w : Work) : Bool := w.kind == .mirror i && w.counter = c

theorem mirrorOf_none_iff (s : State) (i c : Nat) : mirrorOf s i c = none ↔ (s.works.map (fun p => (p.1, p.2.mirrors i c))).any (·.2) = false := by
  simp [mirrorOf, Work.mirrors, List.find?_eq_none]

/-- A change that keeps kind and counter of a gathering makes no mirror copy. -/
theorem mirrorOf_modWork_none {c : Nat} {g : Work → Work} (hg : ∀ v, (g v).kind = v.kind ∧ (g v).counter = v.counter)
    (h : mirrorOf s i c = none) : mirrorOf (modWork wid g s) i c = none := by
  rw [mirrorOf_none_iff] at h ⊢
  have he : ∀ v, (g v).mirrors i c = v.mirrors i c := fun v => by unfold Work.mirrors; rw [(hg v).1, (hg v).2]
  unfold modWork
  rw [Tbl.map_adjust (Work.mirrors i c) g he]
  exact h

theorem feedMirror_unmirrored {c : Nat} {bad : List Nat} {lines : List (List Byte)} {last : Bool} (h : mirrorOf s i c = none) :
    feedMirror i c bad lines last s = s := by unfold feedMirror; rw [h]

theorem checkStaging_unmirrored {c : Nat} (h : mirrorOf s i c = none) : checkStaging p i c s = s := by unfold checkStaging; rw [h]

theorem withHeader_ok {g : State → State} (h : s.mainUp = true) : withHeader p .ok g s = g s := by simp [withHeader, h]

theorem takeLine_counter {held : Bool} {now : Nat} : (takeLine x l held now f).counter = f.counter := by
  unfold takeLine Frame.put Frame.spoil
  dsimp only
  split <;> split <;> rfl

/-- A good line of a frame whose buffer is free takes its place. -/
theorem acceptLine_good (hx : f.got < x.height) (hw : Tbl.get? s.works wid = some w) (hf : w.frame = some f) (hheld : n ∉ f.held)
    (hn : n = f.got / 64) (hfree : bufferHeld s i wid x n = false) (hcrc : l.crcOk = true) (hfifo : l.fifoLost = false)
    (hstore : l.storeErr = false) (hm : mirrorOf s i f.counter = none) :
    acceptLine p i wid x f l s = snsEvt p (lineEvents x l false) (modFrame wid (takeLine x l false s.now) s) := by
  have hh : (decide (f.lines.length ≤ f.got) && (mem f.held (f.got / 64) || bufferHeld s i wid x (f.got / 64))) = false := by
    rw [← hn, mem_eq_false hheld, hfree]; simp
  have hfr : frameOf (snsEvt p (lineEvents x l false) (modFrame wid (takeLine x l false s.now) s)) wid =
      some (takeLine x l false s.now f) := modFrame_frameOf _ hw hf
  have hmir : mirrorOf (snsEvt p (lineEvents x l false) (modFrame wid (takeLine x l false s.now) s)) i f.counter = none :=
    mirrorOf_modWork_none (fun _ => ⟨rfl, rfl⟩) hm
  unfold acceptLine
  rw [if_neg (Nat.not_le.2 hx)]
  dsimp only
  rw [hh, hcrc, hfifo, hstore]
  simp only [Bool.not_true, when, Bool.false_eq_true, if_false]
  rw [hfr]
  dsimp only
  rw [takeLine_counter, feedMirror_unmirrored hmir, checkStaging_unmirrored hmir]

/-- What a good line leaves of its frame. -/
theorem takeLine_good {now : Nat} (hcrc : l.crcOk = true) (hfifo : l.fifoLost = false) (hstore : l.storeErr = false)
    (hlen : l.payload.length = x.lineLen) (hpad : (padLine x f).length ≤ l.payload.length) (hmark : f.marked = false)
    (hlines : f.lines.length = f.got) : (takeLine x l false now f).got = f.got + 1 ∧ (takeLine x l false now f).lines = f.lines ++ [l.payload] ∧
      (takeLine x l false now f).corrupt = f.corrupt ∧ (takeLine x l false now f).lastPkt = now := by
  have hbad : l.bad x f = false := by simp [LineIn.bad, LineIn.wrongLen, hlen, hcrc, hfifo, hstore, hmark]
  have hline : l.line x f = l.payload := by
    unfold LineIn.line
    rw [← hlen, List.take_length, List.drop_eq_nil_of_le hpad, List.append_nil]
  unfold takeLine
  rw [hbad]
  simp [Frame.put, hlines, hline]

/-- The long packet of a stream whose frame is open. -/
theorem longPacket_open (hv : vcStream s p vc = some (i, x)) (ha : x.st ≠ .attaching) (hd : dtypeGroup dtype ≠ none) (he : dtype = x.dtype)
    (hc : x.cur = some wid) (hf : frameOf s wid = some f) : longPacket p vc dtype l s = acceptLine p i wid x f l s := by
  unfold longPacket
  rw [hv]
  dsimp only
  rw [if_neg (by simpa using ⟨ha, hd⟩), hc]
  dsimp only
  rw [hf]
  dsimp only
  rw [if_neg (by simpa using he)]

theorem longPacket_unknown (hv : vcStream s p vc = none) : longPacket p vc dtype l s = dropPacket p s := by
  unfold longPacket; rw [hv]

/-- The Line Start before the first line marks the frame. -/
theorem lineStart_first (hv : vcStream s p vc = some (i, x)) (ha : x.st ≠ .attaching) (hc : x.cur = some wid)
    (hw : Tbl.get? s.works wid = some w) (hf : w.frame = some f) (hg : f.got = 0) (hm : f.marked = false) :
    frameOf (lineStart p vc s) wid = some { f with marked := true, lineOpen := true } := by
  unfold lineStart
  rw [hv]
  dsimp only
  rw [if_neg (by simpa using ha), hc]
  dsimp only
  rw [modFrame_frameOf _ hw hf, if_pos (by simp [hg, hm])]

theorem lineEnd_ignored (hv : vcStream s p vc = some (i, x)) (ha : x.st ≠ .attaching) : lineEnd p vc s = s := by
  unfold lineEnd
  rw [hv]
  exact if_neg (by simpa using ha)

/-- An uncorrectable header with one open frame: the frame becomes CORRUPT from the strip being filled on. -/
theorem withHeader_bad {g : State → State} (hu : s.mainUp = true) (ho : openFrames s p = [(i, wid)]) (hx : Tbl.get? s.streams i = some x) :
    withHeader p .bad g s = modFrame wid (fun f => f.spoilRest x.height)
      (snsEvt p 16 (modPort p (fun x => { x with eccErr := sat32 (x.eccErr + 1) }) s)) := by
  unfold withHeader
  rw [if_neg (by simp [hu])]
  dsimp only
  rw [ho, forEach, forEach]
  simp only [snsEvt, modPort_streams, hx]

theorem snsEvt_eccErr (q m : Nat) : ((snsEvt p m s).port q).eccErr = (s.port q).eccErr := by
  unfold snsEvt State.port
  rw [modPort_ports]
  by_cases hq : q = p
  · subst hq; rw [Tbl.getD_set_self]; rfl
  · rw [Tbl.getD_set_ne _ _ _ _ _ hq]

theorem modPort_port_self (g : Port → Port) : (modPort p g s).port p = g (s.port p) := by
  unfold State.port; rw [modPort_ports, Tbl.getD_set_self]; rfl

theorem spoilRest_corrupt (height : Nat) : (f.spoilRest height).corrupt = true := rfl

theorem spoilRest_isBad {height : Nat} (h : f.got < height) : (f.spoilRest height).isBad (f.got / 64) = true := by
  simp [Frame.spoilRest, Frame.isBad, Frame.spoilFrom, h]

/-- A quiet state stays quiet where only ports and gatherings change. -/
theorem settle_ports_quiet (h : Safety.quiet u) (o : State) (q : Nat) : (settle o u).port q = u.port q := by
  unfold State.port
  rw [settle_quiet (h := h)]
  simp

end

/-- Settles O44: packets by header, virtual channel and data type. -/
theorem packetsReachFrames : Obligations.PacketsReachFrames := by
  unfold Obligations.PacketsReachFrames
  refine ⟨?line, ?unknown, ?start, ?lend, ?short, ?bad⟩
  case line =>
    intro dt p vc dtype i wid payload x f w s hwf hu hv ha hd he hc hw hf hx hl hh hb hlen hpad hm hmir
    have hr : longPacket p vc dtype ⟨payload, true, false, false⟩ (advance dt s) = snsEvt p (lineEvents x ⟨payload, true, false, false⟩ false)
        (modFrame wid (takeLine x ⟨payload, true, false, false⟩ false (advance dt s).now) (advance dt s)) := by
      rw [longPacket_open (by rw [advance_vcStream]; exact hv) ha hd he hc (frameOf_work (by simpa using hw) hf)]
      exact acceptLine_good hx (by simpa using hw) hf hh rfl (by rw [advance_bufferHeld]; exact hb) rfl rfl rfl
        (by rw [advance_mirrorOf]; exact hmir)
    obtain ⟨hgot, hlines, hcor, hlast⟩ := takeLine_good (l := ⟨payload, true, false, false⟩) (now := (advance dt s).now) rfl rfl rfl hlen hpad hm hl
    refine ⟨_, exec_csi2LongPacket _ _ _ _ _ _ _ _ _ _ hwf, ?_⟩
    have hfr : frameOf (modFrame wid (takeLine x ⟨payload, true, false, false⟩ false (advance dt s).now) (advance dt s)) wid = _ :=
      modFrame_frameOf _ (by simpa using hw) hf
    rw [settle_frameOf, withHeader_ok (by simpa [State.mainUp] using hu), hr]
    refine (congrArg (Option.map _) hfr).trans ?_
    rw [Option.map_some, hgot, hlines, hcor, hlast]
  case unknown =>
    intro dt p vc dtype payload c fl se s hwf hu hv
    rw [exec_csi2LongPacket _ _ _ _ _ _ _ _ _ _ hwf, withHeader_ok (by simpa [State.mainUp] using hu),
      longPacket_unknown (by rw [advance_vcStream]; exact hv)]
    rfl
  case start =>
    intro dt p vc i wid x w f s hp hvc hu hv ha hc hw hf hg hm
    refine ⟨_, exec_lineStart _ _ _ _ _ (by simp [Instr.wf]; omega), ?_⟩
    rw [settle_frameOf, withHeader_ok (by simpa [State.mainUp] using hu)]
    exact lineStart_first (by rw [advance_vcStream]; exact hv) ha hc (by simpa using hw) hf hg hm
  case lend =>
    intro dt p vc i x s hp hvc hu hv ha
    rw [exec_lineEnd _ _ _ _ _ (by simp [Instr.wf]; omega), withHeader_ok (by simpa [State.mainUp] using hu),
      lineEnd_ignored (by rw [advance_vcStream]; exact hv) ha]
  case short =>
    intro dt p s hp hu
    rw [exec_genericShortPacket _ _ _ _ (by simp [Instr.wf]; omega), withHeader_ok (by simpa [State.mainUp] using hu)]
    rfl
  case bad =>
    intro dt p vc wid i x w f s hp hvc hu ho hx hgot hw hf hq
    have hr := withHeader_bad (s := advance dt s) (g := lineEnd p vc) (by simpa [State.mainUp] using hu)
      (by rw [advance_openFrames]; exact ho) (by simpa using hx)
    refine ⟨_, exec_lineEnd _ _ _ _ _ (by simp [Instr.wf]; omega), ?_, ?_⟩
    · rw [hr, settle_ports_quiet (by simpa [Safety.quiet, State.pring, modFrame, snsEvt] using hq)]
      exact (snsEvt_eccErr ..).trans ((congrArg Port.eccErr (modPort_port_self ..)).trans (by simp))
    · rw [hr, settle_frameOf]
      rw [modFrame_frameOf (w := w) (f := f) _ (by simpa [snsEvt] using hw) hf, Option.map_some, spoilRest_corrupt, spoilRest_isBad hgot]

end Sys2Proof.Machine
end

section
/-! SUPPORT. How frames open and close (08 R259-R261, R271, R277, R278), and the statement that they settle. -/

namespace Sys2Proof.Machine

/-- The states of the streams, by stream: what of the streams a quiet state is judged by. -/
def streamStates (s : State) : Tbl StreamState := s.streams.map (fun p => (p.1, p.2.st))

section
variable {s u : State} {p i wid fn stamp at_ : Nat} {x y : Stream} {w : Work} {f : Frame} {fe c lost : Bool}

theorem quiet_of_states (h : Safety.quiet s) (hf : u.faults.safe = s.faults.safe) (hs : streamStates u = streamStates s) (hp : u.pkt = s.pkt) :
    Safety.quiet u := by
  obtain ⟨hsafe, hst, hring⟩ := h
  refine ⟨by rwa [hf], fun q hq => ?_, fun r hr => ?_⟩
  · have hq' : (q.1, q.2.st) ∈ streamStates s := hs ▸ List.mem_map_of_mem hq
    obtain ⟨q0, hq0, he⟩ := List.mem_map.1 hq'
    have he' : q0.2.st = q.2.st := (Prod.ext_iff.1 he).2
    rw [← he']
    exact hst q0 hq0
  · unfold State.pring; rw [hp]; exact hring r hr

theorem settle_streams_quiet (h : Safety.quiet u) (o : State) : (settle o u).streams = u.streams := by
  rw [settle_quiet (h := h)]; simp

theorem modStream_states {g : Stream → Stream} (hg : ∀ v, (g v).st = v.st) : streamStates (modStream i g s) = streamStates s :=
  Tbl.map_adjust Stream.st g hg _ _

theorem modStream_get? {g : Stream → Stream} (hx : Tbl.get? s.streams i = some x) : Tbl.get? (modStream i g s).streams i = some (g x) := by
  refine (Tbl.get?_adjust_self ..).trans ?_
  rw [hx]
  rfl

/-! ### Closing -/

/-- The frame of a gathering as its close leaves it. -/
def closedFrame (x : Stream) (f : Frame) (at_ : Nat) (fe : Bool) : Frame :=
  { padFrame x f with closed := some at_, corrupt := (padFrame x f).corrupt || (!fe && x.height ≤ f.got) }

/-- The stream and its gathering as the close of their frame leaves them. -/
def closeStates (i wid : Nat) (x : Stream) (f : Frame) (at_ : Nat) (fe : Bool) (s : State) : State :=
  modStream i (fun t => { t with cur := none }) (modWork wid (fun w => { w with
    frame := some (closedFrame x f at_ fe), exposure := f.fsStamp - f.expo, frameEnd := at_ }) s)

theorem padFrame_truncated : (padFrame x f).truncated = (f.truncated || decide (f.got < x.height)) := by
  unfold padFrame
  split
  · next h => simp [h]
  · next h => simp [h]

theorem padFrame_corrupt : (padFrame x f).corrupt = f.corrupt := by
  unfold padFrame; split <;> rfl

/-- What the counting of a qualified frame leaves alone. -/
theorem qualifyFrame_frame : (qualifyFrame p f s).works = s.works ∧ (qualifyFrame p f s).streams = s.streams ∧
    (qualifyFrame p f s).faults = s.faults ∧ (qualifyFrame p f s).pkt = s.pkt := by
  unfold qualifyFrame
  dsimp only
  split
  · exact ⟨rfl, rfl, rfl, rfl⟩
  · exact ⟨rfl, rfl, rfl, rfl⟩

/-- A frame without a mirror copy closes: the states of its stream and gathering, then its events and the count of qualified frames. -/
theorem closeFrame_unmirrored (hx : Tbl.get? s.streams i = some x) (hf : frameOf s wid = some f) (hm : mirrorOf s i f.counter = none) :
    closeFrame i wid at_ fe s = qualifyFrame x.port f (snsEvt x.port
      ((if f.got < x.height then 64 else 0) + (if fe then 0 else 2048)) (closeStates i wid x f at_ fe s)) := by
  have hmir : mirrorOf (qualifyFrame x.port f (snsEvt x.port
      ((if f.got < x.height then 64 else 0) + (if fe then 0 else 2048)) (closeStates i wid x f at_ fe s))) i f.counter = none := by
    have h := mirrorOf_modWork_none (s := s) (wid := wid) (i := i) (c := f.counter)
      (g := fun w => { w with frame := some (closedFrame x f at_ fe), exposure := f.fsStamp - f.expo, frameEnd := at_ })
      (fun _ => ⟨rfl, rfl⟩) hm
    rw [mirrorOf_none_iff] at h ⊢
    rw [qualifyFrame_frame.1]
    exact h
  unfold closeFrame
  rw [hx, hf]
  exact feedMirror_unmirrored hmir

/-- After the close the stream has no open frame, and the gathering holds the closed one. -/
theorem closeFrame_closes (hx : Tbl.get? s.streams i = some x) (hw : Tbl.get? s.works wid = some w) (hf : w.frame = some f)
    (hm : mirrorOf s i f.counter = none) : (Tbl.get? (closeFrame i wid at_ fe s).streams i).map (·.cur) = some none ∧
      frameOf (closeFrame i wid at_ fe s) wid = some (closedFrame x f at_ fe) ∧
      streamStates (closeFrame i wid at_ fe s) = streamStates s ∧ (closeFrame i wid at_ fe s).faults = s.faults ∧
      (closeFrame i wid at_ fe s).pkt = s.pkt := by
  rw [closeFrame_unmirrored hx (frameOf_work hw hf) hm]
  have hget : Tbl.get? (closeStates i wid x f at_ fe s).streams i = some { x with cur := none } := modStream_get? (by simpa using hx)
  refine ⟨?_, ?_, ?_, ?_, ?_⟩
  · rw [qualifyFrame_frame.2.1]
    exact congrArg (Option.map Stream.cur) hget
  · unfold frameOf
    rw [qualifyFrame_frame.1]
    exact congrArg (Option.bind · Work.frame) (modWork_get? hw)
  · unfold streamStates
    rw [qualifyFrame_frame.2.1]
    exact modStream_states fun _ => rfl
  · rw [qualifyFrame_frame.2.2.1]; rfl
  · rw [qualifyFrame_frame.2.2.2]; rfl

/-- The frame as its Frame End finds it. -/
def Frame.ended (fn : Nat) (lost : Bool) (x : Stream) (f : Frame) : Frame :=
  let f := if f.lineOpen then { missLine x f with lineOpen := false } else f
  { f with corrupt := f.corrupt || lost || fn ≠ f.fn }

theorem ended_closed {f : Frame} (h : f.lineOpen = false) : Frame.ended fn false x f = { f with corrupt := f.corrupt || decide (fn ≠ f.fn) } := by
  simp [Frame.ended, h]

theorem frameEnd_closes {vc : Nat} {j : Int} (hv : vcStream s p vc = some (i, x)) (hc : x.cur = some wid) :
    frameEnd p vc fn j false s = closeFrame i wid (stampAt s j).toNat true (modFrame wid (Frame.ended fn false x) s) := by
  unfold frameEnd
  simp only [noteOverrun, when, Bool.false_eq_true, if_false]
  rw [hv]
  dsimp only
  rw [hc]
  rfl

theorem lineTimeout_closes (hx : Tbl.get? s.streams i = some x) (hc : x.cur = some wid) (hf : frameOf s wid = some f)
    (ht : f.lastPkt + f.timeoutUs * 1000 ≤ s.now) : lineTimeout i s = closeFrame i wid (f.lastPkt + f.timeoutUs * 1000) false s := by
  unfold lineTimeout
  rw [hx]
  dsimp only
  rw [hc]
  dsimp only
  rw [hf]
  exact if_pos ht

/-! ### Opening -/

theorem beginMirror_unmirrored (hx : Tbl.get? s.streams i = some x) (hm : x.mirrorPool = 0) : beginMirror i stamp s = s := by
  unfold beginMirror
  rw [hx]
  exact if_pos hm

/-- The frame that opens and what its stream becomes. -/
structure Opened (s u : State) (i fn stamp : Nat) (x : Stream) (c : Bool) : Prop where
  stream : (Tbl.get? u.streams i).map (fun x => (x.cur, x.nFrames)) = some (some s.workNext, x.nFrames + 1)
  frame : frameOf u s.workNext = some (newFrame (s.port x.port) fn stamp s.now x.counter c)
  next : u.workNext = s.workNext + 1
  states : streamStates u = streamStates s
  faults : u.faults = s.faults
  pkt : u.pkt = s.pkt

/-- The stream of a frame that opens now. -/
def Stream.opening (wid : Nat) (img : Image) (e : EntryPt) (x : Stream) : Stream :=
  { x with drawPos := (x.drawPos + drawSpan img e) % 2 ^ 64, cur := some wid, nFrames := x.nFrames + 1 }

/-- A gathering with the new frame is added, and no mirror copy begins. -/
theorem opened_addWork {v : State} {k : Nat} (hget : Tbl.get? v.streams i = some y) (hm : y.mirrorPool = 0) (hcur : y.cur = some s.workNext)
    (hn : y.nFrames = x.nFrames + 1) (hw : w.frame = some (newFrame (s.port x.port) fn stamp s.now x.counter c)) (hnext : v.workNext = s.workNext)
    (hstates : streamStates v = streamStates s) (hflt : v.faults = s.faults) (hpkt : v.pkt = s.pkt) :
    Opened s (beginMirror i k (addWork w v)) i fn stamp x c := by
  rw [beginMirror_unmirrored (s := addWork w v) (x := y) hget hm]
  refine ⟨?_, ?_, ?_, hstates, hflt, hpkt⟩
  · rw [addWork_streams, hget, Option.map_some, hcur, hn]
  · unfold frameOf addWork
    rw [hnext, Tbl.get?_set_self]
    exact hw
  · rw [addWork_workNext, hnext]

theorem openFrame_opens {b : Binding} {img : Image} {e : EntryPt} (hx : Tbl.get? s.streams i = some x)
    (himg : streamImage s x = some (b, img, e)) (hm : x.mirrorPool = 0) : Opened s (openFrame i fn stamp c s) i fn stamp x c := by
  let opened := modStream i (fun t => { t with cur := some s.workNext, nFrames := t.nFrames + 1 }) (nextDraw i img e s)
  have hget : Tbl.get? opened.streams i = some (x.opening s.workNext img e) := modStream_get? (modStream_get? hx)
  have hstates : streamStates opened = streamStates s := by
    refine (modStream_states ?_).trans (modStream_states ?_)
    · exact fun _ => rfl
    · exact fun _ => rfl
  unfold openFrame
  rw [hx]
  dsimp only
  rw [himg]
  dsimp only
  cases folioBuffer s x.ctx x.outPool (streamWork s x (.live i) i b e stamp).total with
  | none => exact opened_addWork hget hm rfl rfl rfl rfl hstates rfl rfl
  | some k => exact opened_addWork (v := setBuf k.1 k.2.1 (some .issued) opened) hget hm rfl rfl rfl rfl hstates rfl rfl

theorem groupOf_groups (h : u.groups = s.groups) (i : Nat) : groupOf u i = groupOf s i := by unfold groupOf; rw [h]

theorem lateToGroup_alone (h : groupOf s i = none) : lateToGroup s i stamp = false := by unfold lateToGroup; rw [h]

theorem joinGroup_alone (h : groupOf s i = none) : joinGroup i stamp s = s := by unfold joinGroup; rw [h]

/-- The stream of a frame whose number has advanced its counter. -/
def Stream.counted (step fn : Nat) (x : Stream) : Stream :=
  { x with counter := (x.counter + step) % 2 ^ 64, started := true, prevFn := if fn = 0 then x.prevFn else some fn }

theorem snsEvt_st (p m : Nat) : ((snsEvt p m s).port p).st = (s.port p).st := by
  unfold snsEvt
  rw [modPort_port_self]

/-- A Frame Start of an attached stream outside every group, without an open frame, opens one. -/
theorem startFrame_opens {b : Binding} {img : Image} {e : EntryPt} (hx : Tbl.get? s.streams i = some x) (hst : x.st = .attached)
    (hc : x.cur = none) (hport : (s.port p).st ≠ .lost) (hg : groupOf s i = none) (himg : streamImage s x = some (b, img, e))
    (hm : x.mirrorPool = 0) : ∃ (v : State) (y : Stream) (c : Bool), startFrame p i fn stamp false s = openFrame i fn stamp c v ∧
      Tbl.get? v.streams i = some y ∧ streamImage v y = some (b, img, e) ∧ y.mirrorPool = 0 ∧ y.nFrames = x.nFrames ∧
      v.workNext = s.workNext ∧ v.tb = s.tb ∧ streamStates v = streamStates s ∧ v.faults = s.faults ∧ v.pkt = s.pkt := by
  rcases hk : counterStep x (s.port p).fnWrap fn with ⟨step, bad, gap⟩
  let v := when gap (snsEvt p 512) (advanceCounter i fn step s)
  have hv : v.streams = (advanceCounter i fn step s).streams ∧ v.bindings = s.bindings ∧ v.groups = s.groups ∧ v.workNext = s.workNext ∧
      v.tb = s.tb ∧ v.faults = s.faults ∧ v.pkt = s.pkt := by
    cases gap
    · exact ⟨rfl, rfl, rfl, rfl, rfl, rfl, rfl⟩
    · exact ⟨rfl, rfl, rfl, rfl, rfl, rfl, rfl⟩
  have hpst : (v.port p).st = (s.port p).st := by
    cases gap
    · rfl
    · exact snsEvt_st (s := advanceCounter i fn step s) p 512
  obtain ⟨hstr, hbnd, hgrp, hnext, htb, hflt, hpkt⟩ := hv
  have hget : Tbl.get? v.streams i = some (x.counted step fn) := by rw [hstr]; exact modStream_get? hx
  have hgv : groupOf v i = none := by rw [groupOf_groups hgrp]; exact hg
  refine ⟨v, x.counted step fn, bad || false, ?_, hget, ?_, hm, rfl, hnext, htb, ?_, hflt, hpkt⟩
  · unfold startFrame
    rw [hx]
    dsimp only
    rw [hk]
    dsimp only
    rw [hc]
    dsimp only
    rw [if_neg (by simpa [hst] using hport), lateToGroup_alone hgv, if_neg (by decide), joinGroup_alone hgv]
  · unfold streamImage at himg ⊢
    rw [hbnd]
    exact himg
  · unfold streamStates
    rw [hstr]
    exact modStream_states fun _ => rfl

theorem frameStart_attached {vc : Nat} {j : Int} (hv : vcStream s p vc = some (i, x)) (hx : Tbl.get? s.streams i = some x) (hst : x.st = .attached) :
    frameStart p vc fn j false s = startFrame p i fn (stampAt s j).toNat false (modPort p (fun x => { x with fsStamp := (stampAt s j).toNat }) s) := by
  have hat : streamAttached i (modPort p (fun x => { x with fsStamp := (stampAt s j).toNat }) s) =
      modPort p (fun x => { x with fsStamp := (stampAt s j).toNat }) s := by
    unfold streamAttached
    rw [modPort_streams, hx]
    exact if_neg (by simp [hst])
  have hv' : vcStream (modPort p (fun x => { x with fsStamp := (stampAt s j).toNat }) s) p vc = some (i, x) := hv
  unfold frameStart
  simp only [noteOverrun, when, packetStamp, Bool.false_eq_true, if_false]
  rw [hv']
  dsimp only
  rw [if_neg (by simp [hst]), hat]

/-! ### Sync groups -/

/-- The window of a group frame in force ends: the group goes on without the members that have not joined. -/
theorem onSyncWindowExpiry_expires {g : Nat} {x : Group} (hx : Tbl.get? s.groups g = some x) (hin : x.inForce = true) (hf : x.frame ≠ 0)
    (he : x.expired = false) (ht : x.t0 + x.windowUs * 1000 ≤ s.now) : onSyncWindowExpiry g s =
      forEach (x.members.filter (fun i => decide (i ∉ x.joined))) (missMember (x.t0 + x.windowUs * 1000))
        (modGroup g (fun x => { x with expired := true }) s) := by
  have hmem : (fun i => !mem x.joined i) = fun i => decide (i ∉ x.joined) := by
    funext i
    by_cases h : i ∈ x.joined
    · simp [mem_eq_true.2 h, h]
    · simp [mem_eq_false h, h]
  unfold onSyncWindowExpiry
  rw [hx]
  dsimp only
  rw [if_pos (by simp [hin, hf, he, ht])]
  unfold expireGroup
  rw [hx]
  dsimp only
  rw [hmem]

end

/-- Settles O45: Frame Start, Frame End, the line timeout and the end of a group's window. -/
theorem framesOpenAndClose : Obligations.FramesOpenAndClose := by
  unfold Obligations.FramesOpenAndClose
  refine ⟨?fstart, ?fend, ?timeout, ?window⟩
  case fstart =>
    intro dt p vc fn i j x y s hp hvc hfn hu hq hv hx hst hport hxp hc hm hg himg _
    obtain ⟨b, img, e⟩ := y
    have hx' : Tbl.get? (advance dt s).streams i = some x := by simpa using hx
    let stamp := (stampAt (advance dt s) j).toNat
    let s1 := modPort p (fun x => { x with fsStamp := stamp }) (advance dt s)
    obtain ⟨v, z, c, hs, hz, hzi, hzm, hzn, hnext, htb, hstates, hflt, hpkt⟩ :=
      startFrame_opens (s := s1) (fn := fn) (stamp := stamp) (p := p) hx' hst hc
        (by rw [show s1.port p = _ from modPort_port_self _]; simpa using hport)
        (by rw [groupOf_groups (s := s) (by simp [s1])]; exact hg)
        (by have h : streamImage s1 x = streamImage s x := by simp [streamImage, s1]
            rw [h]; exact himg) hm
    have ho := openFrame_opens (fn := fn) (stamp := stamp) (c := c) hz hzi hzm
    have hn : v.workNext = s.workNext := hnext.trans (by simp [s1])
    refine ⟨_, exec_frameStart _ _ _ _ _ _ _ _ (by simp [Instr.wf]; omega), ?_⟩
    rw [withHeader_ok (by simpa [State.mainUp] using hu), frameStart_attached (by rw [advance_vcStream]; exact hv) hx' hst, hs]
    have hquiet : Safety.quiet (openFrame i fn stamp c v) := quiet_of_states hq
      (by rw [ho.faults, hflt]; simp [s1]) (by rw [ho.states, hstates]; simp [streamStates, s1]) (by rw [ho.pkt, hpkt]; simp [s1])
    refine ⟨?_, ?_, ?_⟩
    · rw [settle_streams_quiet hquiet, ← hn, ← hzn]
      exact ho.stream
    · rw [settle_frameOf, ← hn, ho.frame]
      rfl
    · rw [settle_workNext, ← hn]
      exact ho.next
  case fend =>
    intro dt p vc fn i wid j x w f s hp hvc hfn hu hq hv hx hc hw hf hopen hm
    have hw' : Tbl.get? (modFrame wid (Frame.ended fn false x) (advance dt s)).works wid =
        some { w with frame := some (Frame.ended fn false x f) } :=
      (modWork_get? (by simpa using hw)).trans (by rw [hf]; rfl)
    have hend := ended_closed (fn := fn) (x := x) hopen
    obtain ⟨hcur, hfr, hstates, hflt, hpkt⟩ := closeFrame_closes (at_ := (stampAt (advance dt s) j).toNat) (fe := true) (i := i)
      (by simpa [modFrame] using hx) hw' rfl (by
        rw [hend]
        exact mirrorOf_modWork_none (fun _ => ⟨rfl, rfl⟩) (by rw [advance_mirrorOf]; exact hm))
    refine ⟨_, exec_frameEnd _ _ _ _ _ _ _ _ (by simp [Instr.wf]; omega), ?_⟩
    rw [withHeader_ok (by simpa [State.mainUp] using hu), frameEnd_closes (by rw [advance_vcStream]; exact hv) hc]
    refine ⟨?_, ?_⟩
    · rw [settle_streams_quiet (quiet_of_states hq (by rw [hflt]; simp [modFrame]) (by rw [hstates]; simp [streamStates, modFrame])
        (by rw [hpkt]; simp [modFrame]))]
      exact hcur
    · rw [settle_frameOf, hfr, hend]
      simp only [closedFrame, Option.map_some, padFrame_truncated, padFrame_corrupt]
      simp
  case timeout =>
    intro dt i wid x w f s hi hq hx hc hw hf ht hm
    have hw' : Tbl.get? (advance dt s).works wid = some w := by simpa using hw
    have hx' : Tbl.get? (advance dt s).streams i = some x := by simpa using hx
    obtain ⟨hcur, hfr, hstates, hflt, hpkt⟩ := closeFrame_closes (at_ := f.lastPkt + f.timeoutUs * 1000) (fe := false) hx' hw' hf
      (by rw [advance_mirrorOf]; exact hm)
    refine ⟨_, exec_lineTimeout _ _ _ (by simpa [Instr.wf] using hi), ?_⟩
    rw [lineTimeout_closes hx' hc (frameOf_work hw' hf) ht]
    refine ⟨?_, ?_⟩
    · rw [settle_streams_quiet (quiet_of_states hq (by rw [hflt]; simp) (by rw [hstates]; simp [streamStates]) (by rw [hpkt]; simp))]
      exact hcur
    · rw [settle_frameOf, hfr]
      rfl
  case window =>
    intro dt g x s hg hx hin hf he ht
    rw [exec_syncWindowExpiry _ _ _ (by simpa [Instr.wf] using hg)]
    rw [onSyncWindowExpiry_expires (by simpa using hx) hin hf he ht]

end Sys2Proof.Machine
end

section
/-! SUPPORT. Byte clocks, strips, line buffers and abandoned views (08 R263-R275, 07 R247), and the statement that they settle. -/

namespace Sys2Proof.Machine

section
variable {s u : State} {p i wid n edges : Nat} {x : Stream} {w : Work} {f : Frame} {b : Binding} {img : Image}

/-! ### Byte clocks -/

theorem windowClass_inside {c n : Nat} (h0 : c ≠ 0) (h : 50 * ((c : Int) - n).natAbs ≤ n) : windowClass c n = .inside := by
  unfold windowClass; rw [if_neg h0, if_pos h]

/-- The second good window of a port that has no frame to qualify brings it UP. -/
theorem goodWindow_second (hst : (s.port p).st = .qualifying) (hq : (s.port p).qualLeft = 0) (hg : (s.port p).goodWins = 1) :
    goodWindow p s = modPort p (fun x => { x with st := .up, qualLeft := 0, goodWins := 0 }) s := by
  unfold goodWindow
  dsimp only
  rw [if_neg (by simp [hst]), if_pos (by simp [hst, hq]), hg]
  rfl

theorem pclkWindow_qualifies (hu : s.mainUp = true) (hst : (s.port p).st = .qualifying) (hq : (s.port p).qualLeft = 0)
    (hg : (s.port p).goodWins = 1) (hl : (s.port p).lastWin = .inside) (h0 : edges ≠ 0)
    (hn : 50 * ((edges : Int) - (s.port p).laneMbps).natAbs ≤ (s.port p).laneMbps) :
    pclkWindow p edges s = settlePort p (modPort p (fun x => { x with pclkCnt := edges, lastWin := .inside })
      (modPort p (fun x => { x with st := .up, qualLeft := 0, goodWins := 0 }) s)) := by
  unfold pclkWindow
  dsimp only
  rw [if_neg (by simp [hu, hst]), windowClass_inside h0 hn]
  unfold actWindow
  dsimp only
  rw [when, if_neg (by simp [hl]), goodWindow_second hst hq hg]

/-- A first CONTAINED fault of a byte clock is recorded, and nothing more follows. -/
theorem report1_byteClock {cause detail : Nat} {be : Bool} (h : Tbl.get? s.faults.records 104 = none) :
    report1 104 2 cause detail be s = collect [{ src := 104, cls := 2, cause, detail, bestEffort := be }] s := by
  rw [report1, report_one s _ h (by decide : (2 : Nat) ≠ 3)]
  simp [faultEffect, memFaultCode, noteMemFault]

theorem settlePort_no_works (h : s.works = []) : settlePort p s = s := by
  unfold settlePort; rw [h]; rfl

/-- A port whose byte clock has stopped, before its fault is reported. -/
def lostPort (p : Nat) (s : State) : State := snsEvt p 1 (modPort p (fun x => { x with st := .lost, qualLeft := 0, goodWins := 0 }) s)

theorem losePort_idle (ho : openFrames s p = []) : losePort p s = report1 104 2 0x1C p false (lostPort p s) := by
  have ho' : openFrames (lostPort p s) p = [] := ho
  unfold losePort
  exact congrArg (report1 104 2 0x1C p false) ((congrArg (forEach · _ (lostPort p s)) ho').trans rfl)

theorem pclkWindow_stopped (hu : s.mainUp = true) (hst : (s.port p).st = .up) (hw : s.works = []) (ho : openFrames s p = [])
    (hr : Tbl.get? s.faults.records 104 = none) : pclkWindow p 0 s = modPort p (fun x => { x with pclkCnt := 0, lastWin := .zero })
      (collect [{ src := 104, cls := 2, cause := 0x1C, detail := p, bestEffort := false }] (lostPort p s)) := by
  unfold pclkWindow
  dsimp only
  rw [if_neg (by simp [hu, hst])]
  unfold windowClass actWindow
  dsimp only
  rw [if_pos rfl]
  dsimp only
  rw [if_neg (by simp [hst]), losePort_idle ho, report1_byteClock (s := lostPort p s) hr]
  exact settlePort_no_works (by rw [modPort_works, collect_works]; exact hw)

/-! ### Strips -/

theorem stripReady_landed (hw : Tbl.get? s.works wid = some w) (hk : w.kind = .live i) (hf : w.frame = some f)
    (hx : Tbl.get? s.streams i = some x) (hn : n < x.strips) (hl : min (64 * n + 64) x.height ≤ f.lines.length) (hh : n ∉ f.held)
    (hr : ∀ r ∈ f.ready, r.1 ≠ n) : stripReady wid n s = modFrame wid (fun f => { f with ready := Tbl.set f.ready n s.now }) s := by
  unfold stripReady
  rw [hw]
  dsimp only
  rw [hk, hf]
  dsimp only
  rw [hx]
  dsimp only
  rw [if_pos (by simpa [hn, hl, mem_eq_false hh] using hr)]

theorem stripRelease_answered (hw : Tbl.get? s.works wid = some w) (hk : w.kind = .live i) (hf : w.frame = some f)
    (hx : Tbl.get? s.streams i = some x) (hd : stripDone s w n = true) (hp : stripPending s wid w f n = false) (hr : n ∉ f.released)
    (hy : ∃ r ∈ f.ready, r.1 = n) : stripRelease wid n s =
      fillFree i x (when (f.lateStrip n) countLateStrip (modFrame wid (fun f => { f with released := insertNat n f.released }) s)) := by
  unfold stripRelease
  rw [hw]
  dsimp only
  rw [hf]
  dsimp only
  rw [hd, hp, if_pos (by rfl)]
  unfold releaseStrip
  rw [hw]
  dsimp only
  rw [hk, hf]
  dsimp only
  rw [hx]
  dsimp only
  rw [if_neg (by simpa [mem_eq_false hr] using hy)]

theorem advance_stripDone (dt : Nat) (s : State) (w : Work) (n : Nat) : stripDone (advance dt s) w n = stripDone s w n := by
  rw [advance_eq]; rfl
theorem advance_stripPending (dt : Nat) (s : State) (wid : Nat) (w : Work) (f : Frame) (n : Nat) :
    stripPending (advance dt s) wid w f n = stripPending s wid w f n := by rw [advance_eq]; rfl

/-! ### Abandoned views -/

theorem viewAbandon_tips (hw : Tbl.get? s.works wid = some w) (hk : w.kind = .live i) (hf : w.frame = some f) (hc : f.closed ≠ none)
    (hb : w.buffer ≠ none) (hph : w.phase = .working) (hbind : Tbl.get? s.bindings w.binding = some b) (himg : b.image? w.gen = some img)
    (ht : w.frameEnd + img.abandonUs * 1000 ≤ s.now) (hv : ∃ v < w.views, viewDone w v = false) :
    viewAbandon wid s = tryColophon wid (tipViews wid 7 (countMiss s)) := by
  have hall : (upto 0 w.views).all (viewDone w) = false := by
    obtain ⟨v, hlt, hd⟩ := hv
    rw [List.all_eq_false]
    exact ⟨v, (mem_upto ..).2 (by omega), by simp [hd]⟩
  have hclosed : f.closed.isNone = false := by simpa [Option.isSome_iff_ne_none] using hc
  have hbuf : w.buffer.isSome = true := Option.isSome_iff_ne_none.2 hb
  unfold viewAbandon
  rw [hw]
  dsimp only
  rw [hk, hf, hbind, Option.bind_some, himg]
  dsimp only
  rw [if_neg (by simp [hclosed, hbuf, hph, Nat.not_lt.2 ht, hall])]

end

/-- Settles O46: windows of a byte clock, strips and the end of a frame's views. -/
theorem portsAndStrips : Obligations.PortsAndStrips := by
  unfold Obligations.PortsAndStrips
  refine ⟨?up, ?lost, ?ready, ?release, ?abandon⟩
  case up =>
    intro dt p edges s hp he hu hst hq hg hl h0 hn
    rw [exec_pclkWindow _ _ _ _ (by simp [Instr.wf]; omega), pclkWindow_qualifies (by simpa [State.mainUp] using hu) (by simpa using hst)
      (by simpa using hq) (by simpa using hg) (by simpa using hl) h0 (by simpa using hn)]
  case lost =>
    intro dt p s hp hu hst hw ho hq hr
    refine ⟨_, exec_pclkWindow _ _ _ _ (by simp [Instr.wf]; omega), ?_⟩
    rw [pclkWindow_stopped (by simpa [State.mainUp] using hu) (by simpa using hst) (by simpa using hw) (by rw [advance_openFrames]; exact ho)
      (by simpa using hr)]
    refine ⟨?_, ?_⟩
    · rw [settle_ports_quiet (quiet_of_parts hq (by simp [lostPort, snsEvt]) (by simp [lostPort, snsEvt]) (by simp [lostPort, snsEvt])),
        modPort_port_self]
      have hport : (collect [{ src := 104, cls := 2, cause := 0x1C, detail := p, bestEffort := false }] (lostPort p (advance dt s))).port p =
          (lostPort p (advance dt s)).port p := by simp [State.port]
      rw [hport, lostPort, snsEvt_st, modPort_port_self]
    · rw [Safety.recorded, settle_faults_records, modPort_faults, collect_one_first _ _ (by simpa [lostPort, snsEvt] using hr)]
      rfl
  case ready =>
    intro dt wid n i w f x s hw hk hf hx hn hl hh hr
    refine ⟨_, exec_stripReady _ _ _ _ rfl, ?_⟩
    rw [stripReady_landed (by simpa using hw) hk hf (by simpa using hx) hn hl hh hr, settle_frameOf, modFrame_frameOf _ (by simpa using hw) hf]
  case release =>
    intro dt wid n i w f x s hw hk hf hx hd hp hr hy
    rw [exec_stripBufferRelease _ _ _ _ rfl, stripRelease_answered (by simpa using hw) hk hf (by simpa using hx)
      (by rw [advance_stripDone]; exact hd) (by rw [advance_stripPending]; exact hp) hr hy]
  case abandon =>
    intro dt wid i w f b img s hw hk hf hc hb hph hbind himg ht hv
    rw [exec_viewAbandon _ _ _ rfl, viewAbandon_tips (by simpa using hw) hk hf hc hb hph (by simpa using hbind) himg ht hv]

end Sys2Proof.Machine
end

section
/-! SUPPORT. Answers and time-outs of the memory ports and the regulator's refill (02 R34-R38, 13 R436), and the statement that they settle. -/

namespace Sys2Proof.Machine

section
variable {s u old : State} {port tag : Nat} {x y : Tx}

theorem advance_findTx (dt : Nat) (s : State) (port tag : Nat) : findTx (advance dt s) port tag = findTx s port tag := by simp [findTx]

theorem settle_ring_quiet {c n : Nat} (h : Safety.quiet u) (o : State) : (settle o u).ring c n = u.ring c n := by
  unfold State.ring
  rw [settle_quiet (h := h)]
  simp

/-! ### Issue -/

/-- What the issue of a transaction leaves alone. -/
theorem issueTx_frame : (issueTx x s).rings = s.rings ∧ (issueTx x s).streams = s.streams ∧ (issueTx x s).pkt = s.pkt ∧
    (issueTx x s).faults = s.faults := by
  unfold issueTx charge
  split
  · exact ⟨rfl, rfl, rfl, rfl⟩
  · unfold modClassBucket
    repeat' split
    all_goals exact ⟨rfl, rfl, rfl, rfl⟩

theorem pumpList_frame (l behind : List Tx) (s : State) : (pumpList l behind s).rings = s.rings ∧ (pumpList l behind s).streams = s.streams ∧
    (pumpList l behind s).pkt = s.pkt ∧ (pumpList l behind s).faults = s.faults := by
  induction l generalizing behind s with
  | nil => exact ⟨rfl, rfl, rfl, rfl⟩
  | cons x t ih =>
    obtain ⟨hr, hs, hp, hf⟩ := issueTx_frame (x := x) (s := s)
    unfold pumpList
    split
    · obtain ⟨ir, is_, ip, if_⟩ := ih behind (issueTx x s)
      exact ⟨ir.trans hr, is_.trans hs, ip.trans hp, if_.trans hf⟩
    · exact ih (x :: behind) s

theorem pump_quiet (h : Safety.quiet s) : Safety.quiet (pump s) := by
  obtain ⟨-, hs, hp, hf⟩ := pumpList_frame (s.txs.filter (·.tag.isNone)) [] s
  exact quiet_of_parts h (congrArg Faults.safe hf) hs hp

/-- The issue of one transaction leaves every other one. -/
theorem issueTx_other (h : y ∈ s.txs) (hne : y.id ≠ x.id) : y ∈ (issueTx x s).txs := by
  have hm : y ∈ s.txs.map (fun y => if y.id = x.id then { y with tag := some (pickTag s x), issued := s.now } else y) :=
    List.mem_map.2 ⟨y, h, if_neg hne⟩
  unfold issueTx charge
  split
  · exact hm
  · unfold modClassBucket
    repeat' split
    all_goals exact hm

theorem pumpList_other (l behind : List Tx) (s : State) (h : y ∈ s.txs) (hl : ∀ x ∈ l, y.id ≠ x.id) : y ∈ (pumpList l behind s).txs := by
  induction l generalizing behind s with
  | nil => exact h
  | cons x t ih =>
    have ht : ∀ x ∈ t, y.id ≠ x.id := fun x hx => hl x (List.mem_cons_of_mem _ hx)
    unfold pumpList
    split
    · exact ih _ _ (issueTx_other h (hl x List.mem_cons_self)) ht
    · exact ih _ _ h ht

/-- A transaction whose number no waiting one has stays as it is. -/
theorem pump_other (h : y ∈ s.txs) (hw : ∀ x ∈ s.txs, x.tag = none → y.id ≠ x.id) : y ∈ (pump s).txs := by
  refine pumpList_other _ _ _ h fun x hx => ?_
  obtain ⟨hm, ht⟩ := List.mem_filter.1 hx
  exact hw x hm (by simpa using ht)

/-! ### Answers -/

theorem poisoned_clean (beat : Nat) : x.poisoned beat 0 = false := by simp [Tx.poisoned, bit]

/-- A good beat of a ring's fetch. -/
theorem readBeat_fetch {c n count lines beat : Nat} {data : List Byte} (hx : findTx s port tag = some x) (hrd : x.rd = true)
    (hto : x.timedOut = false) (hb : x.beats = beat) (hp : x.purpose = .fetch c n count lines) :
    ∃ v : State, v.rings = s.rings ∧ v.streams = s.streams ∧ v.pkt = s.pkt ∧ v.faults = s.faults ∧
      readBeat port tag data beat (decide (beat + 1 = x.lines)) 0 0 s = pump (fetchLine c n (count + beat) data false v) := by
  have hbad : (x.poisoned beat 0 || decide ((0 : Nat) ≠ 0)) = false := by rw [poisoned_clean]; rfl
  unfold readBeat
  rw [hx]
  dsimp only
  rw [if_neg (by simp [hrd]), if_neg (by simp [hb]), hbad, hto, hp]
  by_cases hl : beat + 1 = x.lines
  · exact ⟨dropTx x.id s, rfl, rfl, rfl, rfl, by rw [decide_eq_true hl]; rfl⟩
  · exact ⟨{ s with txs := s.txs.map (fun y => if y.id = x.id then { y with beats := beat + 1 } else y) }, rfl, rfl, rfl, rfl, by
      rw [decide_eq_false hl]; rfl⟩

theorem writeResponse_late {resp : Nat} (hx : findTx s port tag = some x) (hrd : x.rd = false) (hto : x.timedOut = true) :
    writeResponse port tag resp s = pump (noteLate x (dropTx x.id s)) := by
  unfold writeResponse
  rw [hx]
  dsimp only
  rw [if_neg (by simp [hrd]), if_pos hto]

theorem writeResponse_status {r : Nat} (hx : findTx s port tag = some x) (hrd : x.rd = false) (hto : x.timedOut = false)
    (hp : x.purpose = .status r) : writeResponse port tag 0 s = pump (noteLate x (dropTx x.id s)) := by
  unfold writeResponse
  rw [hx]
  dsimp only
  rw [if_neg (by simp [hrd]), if_neg (by simp [hto])]
  unfold writeDone
  rw [hp]
  rfl

theorem writeResponse_unknown {resp : Nat} (hx : findTx s port tag = none) : writeResponse port tag resp s = unknownTag port s := by
  unfold writeResponse; rw [hx]

/-! ### Faults of a port -/

theorem portFault_unnoted {cls cause detail : Nat} (hp : port < 4) (hc : cause = 0x1A ∨ cause = 0x1B) (s : State) :
    faultEffect { src := 112 + port, cls, cause, detail } s = s := by
  have h1 : ¬ (16 ≤ 112 + port ∧ 112 + port < 80) := by omega
  have hne : 112 + port ≠ 127 ∧ 112 + port ≠ 107 ∧ 112 + port ≠ 110 ∧ 112 + port ≠ 118 ∧ 112 + port ≠ 125 := by omega
  have hcause : cause ≠ 0x1F ∧ cause ≠ 0x20 := by omega
  have hm : memFaultCode { src := 112 + port, cls, cause, detail } = 0 := by
    unfold memFaultCode
    rw [if_neg (by simpa using h1)]
    simp [hcause]
  unfold faultEffect
  rw [hm]
  simp [noteMemFault, h1, hne, hcause]

/-- A tag that is not outstanding is a FATAL fault on its port's source. -/
theorem unknownTag_recorded (hp : port < 4) (hn : Tbl.get? s.faults.records (112 + port) = none) :
    Safety.recorded (settle old (unknownTag port s)) (112 + port) 3 0x1B := by
  let f : FaultIn := { src := 112 + port, cls := 3, cause := 0x1B, detail := 0 }
  have hscope : scopeOf f = .device := by
    simp [scopeOf, f, show ¬ (112 + port < 16) by omega, show ¬ (112 + port < 80) by omega, show ¬ (112 + port < 104) by omega,
      show ¬ (112 + port < 109) by omega, show ¬ (112 + port < 112) by omega, show 112 + port < 116 by omega]
  have hreact : reactionsOf [f] s = [f] := by
    have h : Tbl.get? s.faults.records f.src = none := hn
    simp [reactionsOf, periodFaults_one, h, recordFor, reactionOf, f]
  have hsame (u : State) : (react f u).faults.records = u.faults.records := by
    unfold react
    rw [hscope]
    dsimp only
    split
    · rfl
    · unfold enterSafe
      split
      · rfl
      · rfl
  have hrep : unknownTag port s = react f (collect [f] s) := by
    unfold unknownTag report1 report
    rw [show reactionsOf [_] s = [f] from hreact, periodFaults_one]
    simp [forEach, hscope, portFault_unnoted hp (.inr rfl), f]
  rw [Safety.recorded, settle_faults_records, hrep, hsame]
  exact congrArg (Option.map fun r : Record => (r.cls, r.cause)) (collect_one_first _ f hn)

/-- A first CONTAINED fault of a port is recorded, and nothing more follows. -/
theorem report1_port {detail : Nat} (hp : port < 4) (hn : Tbl.get? s.faults.records (112 + port) = none) :
    report1 (112 + port) 2 0x1A detail false s = collect [{ src := 112 + port, cls := 2, cause := 0x1A, detail }] s := by
  rw [report1, report_one s _ hn (by decide : (2 : Nat) ≠ 3)]
  exact portFault_unnoted hp (.inl rfl) _

/-- A transaction given up: it is marked, and what it reads goes nowhere. -/
def Tx.givenUp (x : Tx) : Tx := { x with timedOut := true, purpose := .read x.ctx }

/-- A SYS read outstanding for 100 us is given up with a fault on its port's source. -/
theorem memTimeout_sysRead {c : Nat} (hp : port < 4) (hx : findTx s port tag = some x) (hto : x.timedOut = false) (ht : x.issued + 100000 ≤ s.now)
    (hr : x.purpose = .read c) (hn : Tbl.get? s.faults.records (112 + port) = none) (hport : x.port = port) (hsys : x.sys = true) :
    memTimeout port tag s = pump (collect [{ src := 112 + port, cls := 2, cause := 0x1A, detail := 0 }]
      { s with txs := s.txs.map (fun y => if y.id = x.id then { y with timedOut := true, purpose := .read x.ctx } else y) }) := by
  unfold memTimeout
  rw [hx]
  dsimp only
  rw [if_neg (by simp [hto, ht])]
  unfold writeFault txFault
  rw [hr]
  dsimp only
  rw [hsys, hport]
  exact congrArg pump (report1_port hp hn)

theorem findTx_mem (hx : findTx s port tag = some x) : x ∈ s.txs ∧ x.tag = some tag := by
  have h := List.find?_some hx
  simp only [Bool.and_eq_true, decide_eq_true_eq] at h
  exact ⟨List.mem_of_find?_eq_some hx, h.2⟩

/-- The transaction given up stands with its tag after what may issue has issued. -/
theorem givenUp_stays (hx : x ∈ s.txs) (ht : x.tag = some tag) (huniq : ∀ y ∈ s.txs, y.id = x.id → y = x)
    (hu : u.txs = s.txs.map (fun y => if y.id = x.id then { y with timedOut := true, purpose := .read x.ctx } else y)) :
    x.givenUp ∈ (pump u).txs := by
  refine pump_other (hu ▸ List.mem_map.2 ⟨x, hx, if_pos rfl⟩) fun z hz hw he => ?_
  obtain ⟨z0, hz0, rfl⟩ := List.mem_map.1 (hu ▸ hz)
  have hid : z0.id = x.id := by
    by_cases h : z0.id = x.id
    · exact h
    · rw [if_neg h] at he
      exact he.symm
  rw [huniq z0 hz0 hid, if_pos rfl] at hw
  exact absurd (hw.symm.trans ht) (by simp)

/-! ### The regulator -/

theorem refillAll_empty (h : s.txs = []) : (refillAll s).mem.class1 = s.mem.class1.refill ∧ (refillAll s).mem.class2 = s.mem.class2.refill ∧
    (refillAll s).mem.class3 = s.mem.class3.refill := by
  have hp : refillAll s = { s with mem := { s.mem with
      class1 := s.mem.class1.refill, class2 := s.mem.class2.refill, class3 := s.mem.class3.refill,
      ctxBuckets := s.mem.ctxBuckets.map (fun p => (p.1, p.2.refill)) } } := by
    unfold refillAll pump
    rw [h]
    rfl
  rw [hp]
  exact ⟨rfl, rfl, rfl⟩

end

/-- Settles O42: beats, responses, time-outs and the refill. -/
theorem memoryPortsAnswer : Obligations.MemoryPortsAnswer := by
  unfold Obligations.MemoryPortsAnswer
  refine ⟨?beat, ?late, ?status, ?unknown, ?timeout, ?refill⟩
  case beat =>
    intro dt port tag beat c n count lines data x s hwf hu hq hx hrd hto hb hp
    obtain ⟨v, hr, hs, hk, hf, he⟩ := readBeat_fetch (data := data) (s := advance dt s) (by rw [advance_findTx]; exact hx) hrd hto hb hp
    refine ⟨_, exec_memReadBeat _ _ _ _ _ _ _ _ _ hwf, ?_⟩
    have hv : Safety.quiet (fetchLine c n (count + beat) data false v) := quiet_of_parts hq
      (by simp [fetchLine, hf]) (by simp [fetchLine, hs]) (by simp [fetchLine, hk])
    dsimp only
    rw [when, if_pos (by simpa [State.mainUp] using hu), he, settle_ring_quiet (pump_quiet hv)]
    have hring : v.ring c n = s.ring c n := by unfold State.ring; rw [hr, advance_rings]
    unfold State.ring pump
    rw [(pumpList_frame ..).1]
    exact (congrArg Ring.arrived (Tbl.getD_set_self ..)).trans (by rw [hring]; rfl)
  case late =>
    intro dt port tag resp x s hp ht hr hu hx hrd hto
    rw [exec_memWriteResponse _ _ _ _ _ (by simp [Instr.wf]; omega), onMemWriteResponse, when, if_pos (by simpa [State.mainUp] using hu),
      writeResponse_late (by rw [advance_findTx]; exact hx) hrd hto]
  case status =>
    intro dt port tag r x s hp ht hu hx hrd hto hr
    rw [exec_memWriteResponse _ _ _ _ _ (by simp [Instr.wf]; omega), onMemWriteResponse, when, if_pos (by simpa [State.mainUp] using hu),
      writeResponse_status (by rw [advance_findTx]; exact hx) hrd hto hr]
  case unknown =>
    intro dt port tag s hp ht hu hx hn
    refine ⟨_, exec_memWriteResponse _ _ _ _ _ (by simp [Instr.wf]; omega), ?_⟩
    rw [onMemWriteResponse, when, if_pos (by simpa [State.mainUp] using hu), writeResponse_unknown (by rw [advance_findTx]; exact hx)]
    exact unknownTag_recorded hp (by simpa using hn)
  case timeout =>
    intro dt port tag c x s hp ht hu hx hto htime hr hn hport hsys huniq
    refine ⟨_, exec_memTimeout _ _ _ _ (by simp [Instr.wf]; omega), ?_⟩
    rw [onMemTimeout, when, if_pos (by simpa [State.mainUp] using hu),
      memTimeout_sysRead hp (by rw [advance_findTx]; exact hx) hto htime hr (by simpa using hn) hport hsys]
    obtain ⟨hmem, htag⟩ := findTx_mem hx
    refine ⟨⟨x.givenUp, ?_, rfl, htag, rfl⟩, ?_⟩
    · rw [settle_txs]
      exact givenUp_stays hmem htag huniq (by simp)
    · rw [Safety.recorded, settle_faults_records, pump, (pumpList_frame ..).2.2.2]
      exact congrArg (Option.map fun r : Record => (r.cls, r.cause))
        (collect_one_first _ { src := 112 + port, cls := 2, cause := 0x1A, detail := 0 } (by simpa using hn))
  case refill =>
    intro dt s hu htx
    refine ⟨_, exec_regulatorRefill _ _ rfl, ?_⟩
    obtain ⟨h1, h2, h3⟩ := refillAll_empty (s := advance dt s) (by simpa using htx)
    rw [onRegulatorRefill, when, if_pos (by simpa [State.mainUp] using hu), settle_mem, h1, h2, h3]
    simp [Bucket.refill]

end Sys2Proof.Machine
end

section
/-! SUPPORT. A state without packet rings, on which the start of a ring leaves nothing (08 R286), and the statement that it refutes. -/

namespace Sys2Proof.Machine

/-- The bytes of a ring record of context 0: 16 slots of 128 bytes, blocks of 64 points, a descriptor at 0x40, a queue of 16 entries and a
gap of 100 us (08 R285). -/
def startRecord : List Byte :=
  [0, 0, 4, 7, 64, 0, 0, 0] ++ List.replicate 8 0 ++ [0x40, 0, 0, 0, 0, 0, 0, 0] ++ List.replicate 20 0 ++ [4] ++ List.replicate 7 0 ++
    [100, 0, 0, 0] ++ List.replicate 8 0

/-- The bytes of a descriptor with three Cartesian fields of one byte each (08 R290, R291). -/
def startDescriptor : List Byte :=
  let axis (d : Byte) : List Byte := [0, 0, 0, 0, 0, 8, d, 0, 1, 0, 0, 0, 0, 0, 0, 0]
  [0x50, 0x4B, 0x44, 0x31, 1, 0, 112, 0, 0, 0, 1, 0, 0, 0, 3, 0] ++ List.replicate 80 0 ++ axis 1 ++ axis 2 ++ axis 3

/-- Memory that holds the record of ring 0 at 0 and its descriptor behind it. -/
def startMem : ExtMem := { segs := [(0, startRecord ++ startDescriptor)] }

/-- The block awake with context 0 open over all of memory and one pool of its set 0, but without a packet ring. -/
def ringlessState : State := { State.reset with
  chip := { State.reset.chip with keeperInit := true }
  power := { State.reset.power with wake := .idle, wakePending := false }
  ctxs := [(0, { st := .opened, guards := [{ rd := true, wr := true, limit := 2 ^ 48 - 1 }] })]
  pools := [(poolKey 0 0 0, { base := 0x10000, count := 1 })]
  pkt := { rings := [] } }

/-- ENABLE of packet ring 0 after a command. -/
def ringOnAfter : Host.Outcome State Fault Refusal → Bool
  | .next t => (t.pring 0).enable
  | _ => true

theorem ringlessState_quiet : Safety.quiet ringlessState :=
  ⟨by decide, fun _ hp => absurd hp (List.not_mem_nil), fun _ _ => rfl⟩

/-- The record and the descriptor hold. -/
theorem ringlessState_setup : ∃ x, setupRing ringlessState 0 startMem = .ok x := by
  have h : (setupRing ringlessState 0 startMem).isOk = true := by decide +kernel
  cases hs : setupRing ringlessState 0 startMem with
  | ok x => exact ⟨x, rfl⟩
  | error e => rw [hs] at h; exact absurd h (by simp [Except.isOk, Except.toBool])

/-- There is no ring that could start. -/
theorem ringlessState_stays_off : ringOnAfter (exec (.pktRingEnable 0 0 true startMem) ringlessState) = false := by decide +kernel

/-- Refutes O43: its first clause does not ask that the packet rings be eight. In a state with none, ring 0 reads as stopped, its record and
descriptor hold, and the write of ENABLE starts nothing. -/
theorem not_packetRings : ¬ Obligations.PacketRings := by
  unfold Obligations.PacketRings
  rintro ⟨henable, -⟩
  obtain ⟨x, hx⟩ := ringlessState_setup
  obtain ⟨t, ht, hring⟩ := henable 0 0 startMem x ringlessState (by decide +kernel) (by decide +kernel) ringlessState_quiet rfl rfl rfl hx
  have hoff := ringlessState_stays_off
  rw [ht] at hoff
  have hon : ringOnAfter (.next t) = true := congrArg PktRing.enable hring
  rw [hon] at hoff
  cases hoff

end Sys2Proof.Machine
end

section
/-! SUPPORT. The runs of SUBMIT chains and DRAW entries (06 R193, 12 R413), and the statement that they settle. -/

namespace Sys2Proof.Machine

section
variable {s u : State} {c n k wid len : Nat} {e : Entry} {w : Work}

theorem advance_chainEntries (dt : Nat) (s : State) (c n k len : Nat) : chainEntries (advance dt s) c n k len = chainEntries s c n k len := by
  simp [chainEntries]

/-- A started chain whose members run without a failure: their reads are presented, and what they leave is kept. -/
theorem submitRun_runs {mem : ExtMem} {i : Image} {p : EntryPt} {b : Batch} (he : (s.ring c n).entry? k = some e) (hwid : e.work = some wid)
    (hw : Tbl.get? s.works wid = some w) (hk : w.kind = .chain c n k len) (hst : w.started = true) (hran : w.ran = false)
    (himg : workImage s w = some (i, p)) (hrun : runMembers w mem (chainEntries s c n k len) 0 {} s = (b, u)) (hf : b.fail = none) :
    submitRun c n k mem s = presentLookups wid w b.lookups (presentInputs wid w b.reads (modWork wid (fun w => { w with
      ran := true, payload := b.payload, codecOut := b.writes, members := markMembers p.views w.members b.statuses }) u)) := by
  have hbind : ((s.ring c n).entry? k).bind (fun e => e.work.bind (fun wid => (Tbl.get? s.works wid).map (fun w => (wid, w)))) = some (wid, w) := by
    rw [he, Option.bind_some, hwid, Option.bind_some, hw, Option.map_some]
  unfold submitRun
  rw [hbind]
  dsimp only
  rw [hk, himg]
  dsimp only
  rw [if_neg (by simp [hst, hran]), hrun]
  dsimp only
  rw [hf]

/-- A started draw computes the values of its key and position. -/
theorem drawRun_runs {q : DrawKey} (he : (s.ring c n).entry? k = some e) (hwid : e.work = some wid) (hw : Tbl.get? s.works wid = some w)
    (hk : w.kind = .draw c n k) (hst : w.started = true) (hran : w.ran = false) (hsus : w.suspended = false) (hq : w.key = some q) :
    drawRun c n k s = finishSample wid (countDraws (modWork wid (fun w => { w with
      ran := true, place := none,
      payload := drawValues q.key e.drawPos (bits e.param 16 16) (bits e.param 0 8) e.ext (bits e.param 32 32) }) s)) := by
  unfold drawRun
  rw [he]
  dsimp only
  rw [hwid, Option.bind_some, hw, Option.map_some]
  dsimp only
  rw [if_neg (by simp [hk, hst, hran, hsus]), hq]

end

/-- Settles O41: the run of a chain by its members, and that of a draw by its key and position. -/
theorem chainsRun : Obligations.ChainsRun := by
  unfold Obligations.ChainsRun
  refine ⟨?submit, ?draw⟩
  case submit =>
    intro dt c n k wid len mem e w i p b u s hwf he hwid hw hk hst hran himg hrun hf
    rw [exec_submit _ _ _ _ _ _ hwf, submitRun_runs (by simpa using he) hwid (by simpa using hw) hk hst hran
      (by rw [advance_workImage]; exact himg) (by rw [advance_chainEntries]; exact hrun) hf]
  case draw =>
    intro dt c n k wid e w q s hc hn he hwid hw hk hst hran hsus hq
    rw [exec_draw _ _ _ _ _ (by simp [Instr.wf]; omega), drawRun_runs (by simpa using he) hwid (by simpa using hw) hk hst hran hsus hq]

end Sys2Proof.Machine
end

section
/-! SUPPORT. What the registers of a work ring do (06 R187, R210, R211), and the statement that they settle. -/

namespace Sys2Proof.Machine

section
variable {s u : State} {c n v : Nat}

theorem modRing_ring_self (f : Ring → Ring) : (modRing c n f s).ring c n = f (s.ring c n) := by
  unfold State.ring modRing; exact Tbl.getD_set_self ..

theorem modRingErr_ring_self (f : Ring → Ring) : (modRingErr c n f s).ring c n = f (s.ring c n) := by
  unfold modRingErr
  dsimp only
  split
  · exact modRing_ring_self _
  · exact modRing_ring_self _

/-- What a state is judged quiet by. -/
theorem modRingErr_quiet {f : Ring → Ring} (h : Safety.quiet s) : Safety.quiet (modRingErr c n f s) := by
  unfold modRingErr
  dsimp only
  split
  · exact h
  · exact h

/-- What the end of a gathering leaves alone. -/
theorem killWork_frame (wid : Nat) (s : State) : (killWork wid s).rings = s.rings ∧ (killWork wid s).streams = s.streams ∧
    (killWork wid s).pkt = s.pkt ∧ (killWork wid s).faults = s.faults := by
  unfold killWork
  split
  · unfold returnBuf
    repeat' split
    all_goals exact ⟨rfl, rfl, rfl, rfl⟩
  · exact ⟨rfl, rfl, rfl, rfl⟩

theorem killWorks_frame (l : List Nat) (s : State) : (forEach l killWork s).rings = s.rings ∧ (forEach l killWork s).streams = s.streams ∧
    (forEach l killWork s).pkt = s.pkt ∧ (forEach l killWork s).faults = s.faults :=
  ⟨forEach_keeps (·.rings) _ (fun w s => (killWork_frame w s).1) _ _, forEach_keeps (·.streams) _ (fun w s => (killWork_frame w s).2.1) _ _,
    forEach_keeps (·.pkt) _ (fun w s => (killWork_frame w s).2.2.1) _ _, forEach_keeps (·.faults) _ (fun w s => (killWork_frame w s).2.2.2) _ _⟩

/-- The ring after its counts are set to 0. -/
def Ring.zeroed (r : Ring) : Ring := { r with
  tail := 0, head := 0, done := 0, issued := 0, arrived := [], entries := [], abortDue := false, aborting := false,
  ctlReset := false, cplLines := 0, broken := false, receiptLost := r.receiptLost || (r.ctlReset && r.unwritten),
  backlog := if r.ctlReset then [] else r.backlog }

theorem zeroRing_ring_self : (zeroRing c n s).ring c n = (s.ring c n).zeroed := by
  have hkill : (forEach (ringWorks s c n) killWork (forgetFetches c n s)).ring c n = s.ring c n := by
    unfold State.ring
    rw [(killWorks_frame ..).1]
    rfl
  unfold zeroRing
  exact (modRingErr_ring_self _).trans (congrArg Ring.zeroed hkill)

theorem zeroRing_quiet (h : Safety.quiet s) : Safety.quiet (zeroRing c n s) := by
  obtain ⟨-, hs, hp, hf⟩ := killWorks_frame (ringWorks s c n) (forgetFetches c n s)
  have hk : Safety.quiet (forEach (ringWorks s c n) killWork (forgetFetches c n s)) := quiet_of_parts h (congrArg Faults.safe hf) hs hp
  exact modRingErr_quiet hk

/-! ### The doorbell -/

theorem doorbell_moves (hc : (s.ctx c).st = .opened) (hst : (s.ring c n).st ≠ .none) (hr : (s.ring c n).reset = none)
    (hv : v < 2 * (s.ring c n).size)
    (hd : (v + 2 * (s.ring c n).size - (s.ring c n).done % (2 * (s.ring c n).size)) % (2 * (s.ring c n).size) ≤ (s.ring c n).size)
    (ht : (s.ring c n).tail - (s.ring c n).done ≤
      (v + 2 * (s.ring c n).size - (s.ring c n).done % (2 * (s.ring c n).size)) % (2 * (s.ring c n).size)) :
    doorbell c n v s = modRing c n (fun r => { r with
      tail := (s.ring c n).done + (v + 2 * (s.ring c n).size - (s.ring c n).done % (2 * (s.ring c n).size)) % (2 * (s.ring c n).size) }) s := by
  unfold doorbell
  dsimp only
  rw [if_neg (by simp [hc, hst]), if_pos (by simp [hr, hv, hd, ht])]
  rfl

theorem doorbell_refused (hc : (s.ctx c).st = .opened) (hst : (s.ring c n).st ≠ .none) (hv : 2 * (s.ring c n).size ≤ v ∨
      (s.ring c n).size < (v + 2 * (s.ring c n).size - (s.ring c n).done % (2 * (s.ring c n).size)) % (2 * (s.ring c n).size) ∨
      (v + 2 * (s.ring c n).size - (s.ring c n).done % (2 * (s.ring c n).size)) % (2 * (s.ring c n).size) <
        (s.ring c n).tail - (s.ring c n).done) : doorbell c n v s = modRingErr c n (fun r => { r with dbErr := true }) s := by
  unfold doorbell
  dsimp only
  rw [if_neg (by simp [hc, hst]), if_neg]
  simp only [Bool.and_eq_true, decide_eq_true_eq]
  omega

/-! ### The control register -/

theorem ringCtl_pauses (hc : (s.ctx c).st = .opened) (hst : (s.ring c n).st = .run) (hr : (s.ring c n).reset = none)
    (he : (s.ring c n).enable = true) : ringCtl c n 0 s = modRing c n (fun r => { r with enable := false, st := .paused }) s := by
  unfold ringCtl
  dsimp only
  rw [if_neg (by simp [hc, hst]), if_neg (by simp [hr, bit]), if_neg (by decide), if_neg (by decide), if_neg (by simp [he, bit]), hst]

theorem ringCtl_resumes (hc : (s.ctx c).st = .opened) (hst : (s.ring c n).st = .paused) (hr : (s.ring c n).reset = none)
    (he : (s.ring c n).enable = false) : ringCtl c n 1 s = modRing c n (fun r => { r with enable := true, st := .run }) s := by
  unfold ringCtl
  dsimp only
  rw [if_neg (by simp [hc, hst]), if_neg (by simp [hr, bit]), if_neg (by decide), if_neg (by decide), if_neg (by simp [he, bit]), hst]

theorem ringCtl_aborts (hc : (s.ctx c).st = .opened) (hst : (s.ring c n).st = .run) (hr : (s.ring c n).reset = none) :
    ringCtl c n 2 s = modRing c n (fun r => { r with enable := false, st := .aborting, aborting := true, abortDue := false }) s := by
  unfold ringCtl
  dsimp only
  rw [if_neg (by simp [hc, hst]), if_neg (by simp [hr, bit]), if_pos (by decide), hst]

theorem ringCtl_resets (hc : (s.ctx c).st = .opened) (hst : (s.ring c n).st = .paused) (hr : (s.ring c n).reset = none)
    (hd : (s.ring c n).done = (s.ring c n).head) (hi : (s.ring c n).issued = (s.ring c n).head) :
    ringCtl c n 4 s = modRing c n (fun r => { r with st := .paused, enable := false }) (zeroRing c n s) := by
  unfold ringCtl
  dsimp only
  rw [if_neg (by simp [hc, hst]), if_neg (by simp [hr, bit]), if_neg (by decide), if_pos (by decide), hst]
  dsimp only
  rw [if_pos (by simp [hd, hi])]

end

/-- Settles O37: the doorbell by its conditions, and each write of the control register by the ring's state. -/
theorem ringRegisters : Obligations.RingRegisters := by
  unfold Obligations.RingRegisters
  refine ⟨?moves, ?refused, ?pause, ?resume, ?abort, ?reset⟩
  case moves =>
    intro dt c n u v s hu hv hc hn hm hq hst hr hres hsz hd ht
    refine ⟨_, exec_ringDoorbell _ _ _ _ _ (by simp [Instr.wf]; omega), ?_⟩
    have hb : bits u 0 17 = v := by simp [bits, hv]
    rw [mainWrite_ok (by simpa [State.mainUp] using hm), hb, doorbell_moves (by simpa using hst) (by simpa using hr) (by simpa using hres)
      (by simpa using hsz) (by simpa using hd) (by simpa using ht)]
    refine ⟨by simp [respond], ?_⟩
    rw [settle_ring_quiet (quiet_of_parts hq (by simp) (by simp) (by simp))]
    rw [show (respond 0 0 (modRing c n _ (advance dt s))).ring c n = _ from modRing_ring_self _, advance_ring]
  case refused =>
    intro dt c n u v s hu hv hc hn hm hq hst hr hbad
    refine ⟨_, exec_ringDoorbell _ _ _ _ _ (by simp [Instr.wf]; omega), ?_⟩
    have hb : bits u 0 17 = v := by simp [bits, hv]
    rw [mainWrite_ok (by simpa [State.mainUp] using hm), hb, doorbell_refused (by simpa using hst) (by simpa using hr) (by simpa using hbad)]
    have hring := modRingErr_ring_self (s := advance dt s) (c := c) (n := n) (fun r => { r with dbErr := true })
    have hquiet : Safety.quiet (respond 0 0 (modRingErr c n (fun r => { r with dbErr := true }) (advance dt s))) :=
      modRingErr_quiet (quiet_of_parts hq (by simp) (by simp) (by simp))
    refine ⟨by simp [respond], ?_, ?_⟩
    · rw [settle_ring_quiet hquiet]
      exact (congrArg Ring.dbErr hring).trans rfl
    · rw [settle_ring_quiet hquiet]
      exact (congrArg Ring.tail hring).trans (by simp)
  case pause =>
    intro dt c n s hc hn hm hq hst hr hres he
    refine ⟨_, exec_ringPause _ _ _ _ (by simp [Instr.wf]; omega), ?_⟩
    rw [mainWrite_ok (by simpa [State.mainUp] using hm), ringCtl_pauses (by simpa using hst) (by simpa using hr) (by simpa using hres) (by simpa using he),
      settle_ring_quiet (quiet_of_parts hq (by simp) (by simp) (by simp))]
    rw [show (respond 0 0 (modRing c n _ (advance dt s))).ring c n = _ from modRing_ring_self _, advance_ring]
  case resume =>
    intro dt c n s hc hn hm hq hst hr hres he
    refine ⟨_, exec_ringResume _ _ _ _ (by simp [Instr.wf]; omega), ?_⟩
    rw [mainWrite_ok (by simpa [State.mainUp] using hm), ringCtl_resumes (by simpa using hst) (by simpa using hr) (by simpa using hres) (by simpa using he),
      settle_ring_quiet (quiet_of_parts hq (by simp) (by simp) (by simp))]
    rw [show (respond 0 0 (modRing c n _ (advance dt s))).ring c n = _ from modRing_ring_self _, advance_ring]
  case abort =>
    intro dt c n s hc hn hm hq hst hr hres
    refine ⟨_, exec_ringAbort _ _ _ _ (by simp [Instr.wf]; omega), ?_⟩
    rw [mainWrite_ok (by simpa [State.mainUp] using hm), ringCtl_aborts (by simpa using hst) (by simpa using hr) (by simpa using hres),
      settle_ring_quiet (quiet_of_parts hq (by simp) (by simp) (by simp)),
      show (respond 0 0 (modRing c n _ (advance dt s))).ring c n = _ from modRing_ring_self _]
    simp
  case reset =>
    intro dt c n s hc hn hm hq hst hr hres hd hi
    refine ⟨_, exec_ringCtlReset _ _ _ _ (by simp [Instr.wf]; omega), ?_⟩
    rw [mainWrite_ok (by simpa [State.mainUp] using hm), ringCtl_resets (by simpa using hst) (by simpa using hr) (by simpa using hres)
      (by simpa using hd) (by simpa using hi)]
    have hz : Safety.quiet (zeroRing c n (advance dt s)) := zeroRing_quiet (quiet_of_parts hq (by simp) (by simp) (by simp))
    have hr := zeroRing_ring_self (s := advance dt s) (c := c) (n := n)
    generalize zeroRing c n (advance dt s) = z at hz hr
    rw [settle_ring_quiet (quiet_of_parts hz (by simp) (by simp) (by simp)),
      show (respond 0 0 (modRing c n _ z)).ring c n = _ from modRing_ring_self _, hr]
    exact ⟨rfl, rfl, rfl, rfl, rfl⟩

end Sys2Proof.Machine
end

section
/-! SUPPORT. What a transfer leaves alone, the turn of the fetch round robin (06 R188-R191), and the statement that it settles. -/

namespace Sys2Proof.Machine

/-- The state but for what the presentation of a transfer changes: transactions and the regulator. -/
def besidesTxs (s : State) : State := { s with txs := [], txNext := 0, mem := {} }

section
variable {s u : State} {c n k : Nat}

/-! ### Transfers -/

theorem besides_cutTxs (t : TxAttr) (p : Purpose) (fuel a n : Nat) (data : List Byte) (s : State) :
    besidesTxs (cutTxs t p a n data fuel s) = besidesTxs s := by
  induction fuel generalizing a n data s with
  | zero => rfl
  | succ fuel ih =>
    unfold cutTxs
    split
    · rfl
    · exact (ih ..).trans rfl

theorem besides_issueTx (x : Tx) (s : State) : besidesTxs (issueTx x s) = besidesTxs s := by
  unfold issueTx charge
  split
  · rfl
  · unfold modClassBucket
    repeat' split
    all_goals rfl

theorem besides_pumpList (l behind : List Tx) (s : State) : besidesTxs (pumpList l behind s) = besidesTxs s := by
  induction l generalizing behind s with
  | nil => rfl
  | cons x t ih =>
    unfold pumpList
    split
    · exact (ih ..).trans (besides_issueTx x s)
    · exact ih ..

theorem besides_transfer (t : TxAttr) (p : Purpose) (a n : Nat) (data : List Byte) (s : State) :
    besidesTxs (transfer t p a n data s) = besidesTxs s := (besides_pumpList ..).trans (besides_cutTxs ..)

theorem besides_readTxs (t : TxAttr) (p : Purpose) (l : List (Nat × Nat)) (s : State) : besidesTxs (readTxs t p l s) = besidesTxs s :=
  (besides_pumpList ..).trans (forEach_keeps besidesTxs _ (fun _ _ => besides_cutTxs ..) _ _)

/-- A view of the state that transfers do not enter. -/
theorem view_besides {α : Type} (g : State → α) (hg : ∀ s, g (besidesTxs s) = g s) (h : besidesTxs u = besidesTxs s) : g u = g s :=
  (hg u).symm.trans ((congrArg g h).trans (hg s))

/-- States that differ in their transactions alone are quiet together. -/
theorem quiet_besides (h : besidesTxs u = besidesTxs s) (hs : Safety.quiet s) : Safety.quiet u :=
  quiet_of_parts hs (view_besides (·.faults.safe) (fun _ => rfl) h) (view_besides (·.streams) (fun _ => rfl) h)
    (view_besides (·.pkt) (fun _ => rfl) h)

theorem ring_besides (h : besidesTxs u = besidesTxs s) (c n : Nat) : u.ring c n = s.ring c n :=
  view_besides (·.ring c n) (fun _ => rfl) h

/-! ### The round robin -/

theorem advance_nextRing (dt : Nat) (s : State) : nextRing (advance dt s) = nextRing s := by rw [advance_eq]; rfl

theorem nextRing_mayFetch (h : nextRing s = some k) : mayFetch s k = true := by
  unfold nextRing at h
  dsimp only at h
  split at h
  · next hk =>
    cases h
    exact List.find?_some hk
  · exact List.find?_some h

theorem ring_of_key (s : State) (k : Nat) : s.ring (k / 4) (k % 4) = Tbl.getD s.rings k {} := by
  unfold State.ring ringKey
  rw [Nat.div_add_mod]

/-- What a ring that may fetch shows. -/
theorem mayFetch_ring (h : mayFetch s k = true) : (s.ring (k / 4) (k % 4)).reset = none ∧
    (s.ring (k / 4) (k % 4)).issued < (s.ring (k / 4) (k % 4)).tail := by
  rw [ring_of_key]
  simp only [mayFetch, Bool.and_eq_true, decide_eq_true_eq, Option.isNone_iff_eq_none] at h
  obtain ⟨⟨⟨⟨-, hr⟩, hi⟩, -⟩, -⟩ := h
  exact ⟨hr, hi⟩

theorem fetchTurn_serves (h : nextRing s = some k) : fetchTurn s = fetchBurst (k / 4) (k % 4) { s with fetchRr := k } := by
  unfold fetchTurn; rw [h]

theorem fetchTurn_idle (h : nextRing s = none) : fetchTurn s = s := by
  unfold fetchTurn; rw [h]

/-- A burst that the windows let pass whole. -/
theorem fetchBurst_reads {want : Nat} (hw : want = min ((s.ring c n).tail - (s.ring c n).issued) (burstRoom (s.ring c n) (s.ring c n).issued))
    (hr : readableSlots (s.ctx c).guards (s.ring c n) (s.ring c n).issued want = want) (h0 : 0 < want) :
    besidesTxs (fetchBurst c n s) = besidesTxs (modRing c n (fun r => { r with issued := r.issued + want }) s) := by
  unfold fetchBurst
  dsimp only
  rw [← hw, hr, if_neg (by omega)]
  exact besides_transfer ..

/-- A burst whose first slot the windows refuse. -/
theorem fetchBurst_refused (ht : (s.ring c n).issued < (s.ring c n).tail)
    (hl : lineOk (s.ctx c).guards false ((s.ring c n).slotAddr (s.ring c n).issued) = false) :
    fetchBurst c n s = stopRing c n true 3 (refuse c false ((s.ring c n).slotAddr (s.ring c n).issued) s) := by
  have hwant : ∃ j, min ((s.ring c n).tail - (s.ring c n).issued) (burstRoom (s.ring c n) (s.ring c n).issued) = j + 1 := by
    refine Nat.exists_eq_succ_of_ne_zero ?_
    have hroom : 0 < burstRoom (s.ring c n) (s.ring c n).issued := by unfold burstRoom; omega
    omega
  obtain ⟨j, hj⟩ := hwant
  unfold fetchBurst
  dsimp only
  rw [hj, readableSlots, hl]
  rfl

theorem modCtx_ctx_self (f : Ctx → Ctx) : (modCtx c f s).ctx c = f (s.ctx c) := by
  unfold State.ctx; exact Tbl.getD_set_self ..

/-- What a change of a ring's error bits leaves of its context, in a view that the ring events do not enter. -/
theorem modRingErr_ctx {α : Type} (g : Ctx → α) (hg : ∀ x v, g { x with evtErr := v } = g x) (f : Ring → Ring) :
    g ((modRingErr c n f s).ctx c) = g (s.ctx c) := by
  unfold modRingErr
  dsimp only
  split
  · exact (congrArg g (modCtx_ctx_self _)).trans (hg _ _)
  · rfl

/-- A ring that stops on a refused fetch. -/
theorem stopRing_fetch {status : Nat} (hr : (s.ring c n).reset = none) : ((stopRing c n true status s).ring c n).st = .stopped ∧
    ((stopRing c n true status s).ring c n).errStatus = status ∧ ((stopRing c n true status s).ring c n).fetchErr = true := by
  unfold stopRing
  rw [modRingErr_ring_self]
  dsimp only
  rw [if_neg (by simp [hr])]
  exact ⟨rfl, rfl, by simp⟩

theorem refuse_ctx {line : Nat} {wr : Bool} : ((refuse c wr line s).ctx c).nGuard = (s.ctx c).nGuard + 1 := by
  unfold refuse
  rw [modCtx_ctx_self]
  dsimp only
  split
  · rfl
  · rfl

end

/-- Settles O38: a burst that the windows let pass, one whose first slot they refuse, and a turn without a ring. -/
theorem ringsFetch : Obligations.RingsFetch := by
  unfold Obligations.RingsFetch
  refine ⟨?burst, ?refused, ?idle⟩
  case burst =>
    intro dt k want s hq hk hw hr h0
    have hburst := fetchBurst_reads (s := { advance dt s with fetchRr := k }) (c := k / 4) (n := k % 4) (want := want)
      (by simpa [State.ring] using hw) (by simpa [State.ring, State.ctx] using hr) h0
    refine ⟨_, exec_ringFetchIssue _ _ rfl, ?_⟩
    rw [fetchTurn_serves (by rw [advance_nextRing]; exact hk)]
    refine ⟨?_, ?_⟩
    · rw [settle_fetchRr]
      exact view_besides (·.fetchRr) (fun _ => rfl) hburst
    · rw [settle_ring_quiet (quiet_besides hburst (quiet_of_parts hq (by simp) (by simp) (by simp))), ring_besides hburst, modRing_ring_self]
      simp [State.ring]
  case refused =>
    intro dt k s hq hk hl
    obtain ⟨hreset, hissued⟩ := mayFetch_ring (nextRing_mayFetch hk)
    refine ⟨_, exec_ringFetchIssue _ _ rfl, ?_⟩
    rw [fetchTurn_serves (by rw [advance_nextRing]; exact hk),
      fetchBurst_refused (by simpa [State.ring] using hissued) (by simpa [State.ring, State.ctx] using hl)]
    generalize hv : refuse (k / 4) false _ { advance dt s with fetchRr := k } = v
    have hvr : v.ring (k / 4) (k % 4) = s.ring (k / 4) (k % 4) := by rw [← hv]; simp [refuse, State.ring]
    have hvq : Safety.quiet v := quiet_of_parts hq (by rw [← hv]; simp [refuse]) (by rw [← hv]; simp [refuse]) (by rw [← hv]; simp [refuse])
    have hvg : (v.ctx (k / 4)).nGuard = (s.ctx (k / 4)).nGuard + 1 := by rw [← hv, refuse_ctx]; simp [State.ctx]
    obtain ⟨hst, herr, hfetch⟩ := stopRing_fetch (s := v) (status := 3) (hvr ▸ hreset)
    rw [settle_ring_quiet (u := stopRing (k / 4) (k % 4) true 3 v) (modRingErr_quiet hvq)]
    refine ⟨hst, herr, hfetch, ?_⟩
    unfold State.ctx
    rw [settle_ctxs]
    exact (modRingErr_ctx Ctx.nGuard (fun _ _ => rfl) _).trans hvg
  case idle =>
    intro dt s hk
    rw [exec_ringFetchIssue _ _ rfl, fetchTurn_idle (by rw [advance_nextRing]; exact hk)]

end Sys2Proof.Machine
end

section
/-! SUPPORT. A fetched NOP entry and the checks that it passes (06 R193, R198), and the statement that they settle. -/

namespace Sys2Proof.Machine

/-- The bytes of a NOP entry with a tag (06 R193). -/
def nopBytes (tag : Nat) : List Byte := [5, 3, 1, 0] ++ leBytes tag 4 ++ List.replicate 6 0 ++ [0xFF, 0xFF] ++ List.replicate 48 0

section
variable {s : State} {c n tag k : Nat} {r : Ring} {e : Entry}

/-- The fields of a NOP entry. -/
structure NopEntry (e : Entry) : Prop where
  op : e.op = 5
  isFirst : e.isFirst = true
  isLast : e.isLast = true
  chain : e.chainField = 1
  fields : checkFields e = [(0x08, 0), (0x0C, 0), (0x10, 0), (0x18, 0), (0x20, 0), (0x28, 0), (0x30, 0), (0x34, 0), (0x38, 0)]
  sync : e.sync = 0xFFFF
  good : e.badFetch = false

theorem leNat_zeros (k : Nat) : leNat (List.replicate k (0 : Byte)) = 0 := by
  induction k with
  | zero => rfl
  | succ k ih => rw [List.replicate_succ, leNat, ih]; rfl

theorem field_zeros {b : List Byte} {off k : Nat} (h : slice b off k = List.replicate k 0) : field b off k = 0 := by
  unfold field; rw [h, leNat_zeros]

theorem nopEntry_of_bytes (hb : e.bytes = nopBytes tag) (hg : e.badFetch = false) : NopEntry e := by
  have h0 : byteAt (nopBytes tag) 0 = 5 := rfl
  have h1 : byteAt (nopBytes tag) 1 = 3 := rfl
  have h2 : slice (nopBytes tag) 2 2 = [1, 0] := rfl
  have hs : slice (nopBytes tag) 0x0E 2 = [0xFF, 0xFF] := rfl
  have h8 : slice (nopBytes tag) 8 4 = List.replicate 4 0 := rfl
  have hC : slice (nopBytes tag) 0x0C 2 = List.replicate 2 0 := rfl
  have h10 : slice (nopBytes tag) 0x10 8 = List.replicate 8 0 := rfl
  have h18 : slice (nopBytes tag) 0x18 8 = List.replicate 8 0 := rfl
  have h20 : slice (nopBytes tag) 0x20 8 = List.replicate 8 0 := rfl
  have h28 : slice (nopBytes tag) 0x28 8 = List.replicate 8 0 := rfl
  have h30 : slice (nopBytes tag) 0x30 4 = List.replicate 4 0 := rfl
  have h34 : slice (nopBytes tag) 0x34 4 = List.replicate 4 0 := rfl
  have h38 : slice (nopBytes tag) 0x38 8 = List.replicate 8 0 := rfl
  refine ⟨?_, ?_, ?_, ?_, ?_, ?_, hg⟩
  · unfold Entry.op; rw [hb, h0]
  · unfold Entry.isFirst Entry.flags; rw [hb, h1]; rfl
  · unfold Entry.isLast Entry.flags; rw [hb, h1]; rfl
  · unfold Entry.chainField field; rw [hb, h2]; rfl
  · unfold checkFields Entry.handle Entry.point Entry.in0 Entry.in1 Entry.param Entry.drawPos Entry.pool Entry.deadlineUs Entry.ext
    rw [hb, field_zeros h8, field_zeros hC, field_zeros h10, field_zeros h18, field_zeros h20, field_zeros h28, field_zeros h30,
      field_zeros h34, field_zeros h38]
  · unfold Entry.sync field; rw [hb, hs]; rfl

theorem tag_of_bytes (hb : e.bytes = nopBytes tag) (ht : tag < 2 ^ 32) : e.tag = tag := by
  have h : slice (nopBytes tag) 4 4 = leBytes tag 4 := rfl
  unfold Entry.tag field
  rw [hb, h, leNat_leBytes _ _ (by omega)]

/-- A NOP entry has no field that it does not use. -/
theorem unusedField_nop (h : NopEntry e) : unusedField s c e = none := by
  unfold unusedField
  dsimp only
  rw [h.fields, h.sync]
  simp [h.op]

theorem chainLenOk_one : chainLenOk r 1 = true := by
  simp [chainLenOk, Ring.size, Nat.one_le_two_pow]

/-- A lone NOP entry passes every check. -/
theorem checkEntry_nop (h : NopEntry e) : checkEntry s c n e e 0 1 = none := by
  unfold checkEntry
  dsimp only
  rw [h.good, if_neg (by decide)]
  refine firstFail_none ?_
  unfold structChecks fieldChecks
  dsimp only
  rw [unusedField_nop h, h.isFirst, h.isLast, h.chain, h.op, chainLenOk_one]
  simp

/-- The ring once its entry of count `k` is accepted. -/
def Ring.accepted (k now : Nat) (r : Ring) : Ring := { r with entries := r.entries.map (fun x =>
  if mem [k] x.count then { x with tAccept := now, first := k, chainLen := 1, phase := .ready, deadline := 0 } else x) }

/-- Without a backlog a receipt that has come waits. -/
theorem serveBacklog_empty {b : Bool} (h : (s.ring c n).stream = false ∨ (s.ring c n).backlog = []) :
    (if (b && (s.ring c n).stream) = true then serveBacklog c n 16 s else s) = s := by
  split
  · next hs =>
    rw [Bool.and_eq_true] at hs
    have hb : (s.ring c n).backlog = [] := h.resolve_left (by simp [hs.2])
    unfold serveBacklog
    dsimp only
    rw [hb]
  · rfl

/-- A lone NOP entry stands ready. -/
theorem finishChain_nop (h : NopEntry e) (hb : (s.ring c n).stream = false ∨ (s.ring c n).backlog = []) :
    finishChain c n [e] s = modRing c n (Ring.accepted e.count s.now) s := by
  have hd : (if e.deadlineUs = 0 || e.op ≠ 1 then 0 else s.now + 1000 * e.deadlineUs) = 0 := if_pos (by simp [h.op])
  have hv : chainVerdict (checkMembers s c n e 1 [e] 0) = none := by
    rw [checkMembers, checkMembers, checkEntry_nop h]
    rfl
  unfold finishChain
  dsimp only [List.length_singleton]
  rw [hd, hv]
  dsimp only
  rw [if_neg (by simp [h.op]), if_neg (by simp [h.op])]
  exact serveBacklog_empty (s := modRing c n (Ring.accepted e.count s.now) s) (by rw [modRing_ring_self]; exact hb)

/-- Outside a chain a NOP entry is checked by itself. -/
theorem beginOrFail_nop (h : NopEntry e) (hb : (s.ring c n).stream = false ∨ (s.ring c n).backlog = []) :
    beginOrFail c n e s = modRing c n (Ring.accepted e.count s.now) (modRing c n (fun r => { r with broken := false }) s) := by
  unfold beginOrFail inBroken
  rw [if_neg (by simp [h.op]), h.good]
  unfold beginChain
  rw [if_neg (by simp [h.op])]
  exact finishChain_nop h (by rw [modRing_ring_self]; exact hb)

/-- The entry that a fetched line becomes. -/
def lineEntry (s : State) (c n : Nat) (l : Fetched) : Entry :=
  { count := (s.ring c n).head, bytes := l.bytes, badFetch := false, seq := (s.ring c n).fetched, order := s.fetchOrder,
    guards := (s.ctx c).guards, first := (s.ring c n).head }

/-- The ring once its next line has passed HEAD. -/
def Ring.passed (e : Entry) (r : Ring) : Ring :=
  { r with head := r.head + 1, fetched := r.fetched + 1, arrived := r.arrived.filter (·.count ≠ r.head), entries := r.entries ++ [e] }

/-- A fetched NOP entry passes HEAD and is accepted. -/
theorem entryFetched_nop {l : Fetched} (hl : (s.ring c n).arrived.find? (·.count = (s.ring c n).head) = some l) (hbad : l.bad = false)
    (hbytes : l.bytes = nopBytes tag) (hcl : (s.ctx c).st ≠ .closing) (hb : (s.ring c n).stream = false ∨ (s.ring c n).backlog = [])
    (hab : (s.ring c n).aborting = false) (hopen : ∀ e ∈ (s.ring c n).entries, e.phase ≠ .gathering) :
    entryFetched c n s = modRing c n (Ring.accepted (s.ring c n).head s.now) (modRing c n (fun r => { r with broken := false })
      (modRing c n (Ring.passed (lineEntry s c n l)) { s with fetchOrder := s.fetchOrder + 1 })) := by
  have hnop : NopEntry (lineEntry s c n l) := nopEntry_of_bytes hbytes rfl
  have hends : ((s.ring c n).aborting || (s.ctx c).st == .closing) = false := by simp [hab, hcl]
  have hopened : openChain (s.ring c n) = [] := by
    unfold openChain
    rw [List.filter_eq_nil_iff]
    intro e he
    simpa using hopen e he
  have hentry : ({
      count := (s.ring c n).head, bytes := (if false = true then List.replicate 64 0 else l.bytes), badFetch := false,
      seq := (s.ring c n).fetched, order := s.fetchOrder, guards := (s.ctx c).guards, first := (s.ring c n).head } : Entry) =
      lineEntry s c n l := rfl
  have hprom : promoteFor c (lineEntry s c n l) s = s := if_neg (by simp [hnop.op])
  have hgen : fetchedGen s c (lineEntry s c n l) = lineEntry s c n l := by
    unfold fetchedGen
    rw [if_neg (by simp [hnop.op])]
    rfl
  unfold entryFetched
  dsimp only
  rw [hl]
  dsimp only
  rw [hends, hbad, hentry, if_neg (by decide), if_neg (by decide), hprom, hgen, hopened]
  exact beginOrFail_nop (s := modRing c n (Ring.passed (lineEntry s c n l)) { s with fetchOrder := s.fetchOrder + 1 }) hnop
    (by rw [modRing_ring_self]; exact hb)

/-- The entry of a count that the ring has just passed, accepted. -/
theorem accepted_entry {now : Nat} (hcount : e.count = k) (hlt : ∀ x ∈ r.entries, x.count < k) :
    (Ring.accepted k now { Ring.passed e r with broken := false }).entry? k =
      some { e with tAccept := now, first := k, chainLen := 1, phase := .ready, deadline := 0 } := by
  have hnone : r.entries.find? (fun x => decide (x.count = k)) = none := by
    rw [List.find?_eq_none]
    intro x hx
    have := hlt x hx
    simp only [decide_eq_true_eq]
    omega
  have hcongr : (fun x : Entry => decide ((if mem [k] x.count then
      { x with tAccept := now, first := k, chainLen := 1, phase := .ready, deadline := 0 } else x).count = k)) = fun x => decide (x.count = k) := by
    funext x
    split <;> rfl
  unfold Ring.entry? Ring.accepted Ring.passed
  dsimp only
  rw [List.find?_map, Function.comp_def, hcongr, List.find?_append, hnone]
  simp [hcount, mem]

end

/-- Settles O39: the entry's fields pass every check, and its ring accepts it. -/
theorem fetchedEntriesAreAccepted : Obligations.FetchedEntriesAreAccepted := by
  unfold Obligations.FetchedEntriesAreAccepted
  intro dt c n tag l s hc hn hq ht hl hbad hbytes hcl hb hab hent
  refine ⟨_, exec_entryFetched _ _ _ _ (by simp [Instr.wf]; omega), ?_⟩
  rw [entryFetched_nop (l := l) (tag := tag) (by simpa using hl) hbad hbytes (by simpa using hcl) (by simpa using hb) (by simpa using hab)
    (by simpa using fun e he => (hent e he).2), settle_ring_quiet (quiet_of_parts hq (by simp) (by simp) (by simp)), modRing_ring_self,
    modRing_ring_self, modRing_ring_self]
  have hring : State.ring { advance dt s with fetchOrder := (advance dt s).fetchOrder + 1 } c n = s.ring c n := advance_ring s dt c n
  rw [hring, advance_ring]
  refine ⟨rfl, ?_⟩
  rw [accepted_entry (by simp [lineEntry]) (fun e he => (hent e he).1), Option.map_some]
  have htag := tag_of_bytes (e := lineEntry (advance dt s) c n l) hbytes ht
  have hop := (nopEntry_of_bytes (e := lineEntry (advance dt s) c n l) hbytes rfl).op
  exact congrArg some (Prod.ext hop (Prod.ext htag rfl))

end Sys2Proof.Machine
end

section
/-! SUPPORT. The completion of an entry and the entries that need no stages (06 R193, R197, R200, R201, R206), and the statement that
they settle. -/

namespace Sys2Proof.Machine

section
variable {s u : State} {c n k count : Nat} {r : Ring} {e x : Entry}

/-! ### The completion burst keeps what an entry says -/

/-- What an entry's completion says of its outcome. -/
def Entry.outcome (e : Entry) : Nat × Nat × Nat := (e.status, e.detail, e.buffer)

/-- An entry whose outcome stands, written or not. -/
def Entry.over (e : Entry) : Bool := e.phase == .ended || e.phase == .writing

theorem endedRun_entry (h : x ∈ endedRun r count k) : r.entry? x.count = some x := by
  induction k generalizing count with
  | zero => cases h
  | succ k ih =>
    unfold endedRun at h
    split at h
    · next e he =>
      split at h
      · rcases List.mem_cons.1 h with rfl | h
        · have hc : x.count = count := by simpa using List.find?_some he
          rw [hc]
          exact he
        · exact ih h
      · cases h
    · cases h

theorem passingRun_mem {l : List Entry} (h : x ∈ passingRun r l) : x ∈ l := by
  induction l with
  | nil => cases h
  | cons y t ih =>
    unfold passingRun at h
    split at h
    · rcases List.mem_cons.1 h with rfl | h
      · exact List.mem_cons_self
      · exact List.mem_cons_of_mem _ (ih h)
    · cases h

/-- A member of the burst that is written is the entry of its count, with its times settled. -/
theorem burst_entry {now : Nat} (h : x ∈ passingRun r ((completionRun r).map (finalEntry now))) :
    ∃ y, r.entry? x.count = some y ∧ x = finalEntry now y := by
  obtain ⟨y, hy, rfl⟩ := List.mem_map.1 (passingRun_mem h)
  exact ⟨y, endedRun_entry hy, rfl⟩

theorem entry?_map {f : Entry → Entry} (hf : ∀ x, (f x).count = x.count) :
    ({ r with entries := r.entries.map f } : Ring).entry? k = (r.entry? k).map f := by
  unfold Ring.entry?
  rw [List.find?_map]
  simp only [Function.comp_def, hf]

theorem stopRing_entries {fetch : Bool} {status : Nat} : ((stopRing c n fetch status s).ring c n).entries = (s.ring c n).entries := by
  unfold stopRing
  rw [modRingErr_ring_self]
  dsimp only
  split <;> rfl

/-- The members of a burst, marked as being written. -/
def markWriting (run : List Entry) (e : Entry) : Entry := match run.find? (·.count = e.count) with | some f => { f with phase := .writing } | none => e

theorem markWriting_count (run : List Entry) (e : Entry) : (markWriting run e).count = e.count := by
  unfold markWriting
  split
  · next hf => simpa using List.find?_some hf
  · rfl

/-- The burst that is written says of an entry what the entry says. -/
theorem markWriting_keeps {now : Nat} (he : r.entry? k = some e) (hov : e.over = true) :
    (markWriting (passingRun r ((completionRun r).map (finalEntry now))) e).outcome = e.outcome ∧
      (markWriting (passingRun r ((completionRun r).map (finalEntry now))) e).over = true := by
  have hk : e.count = k := by simpa using List.find?_some he
  unfold markWriting
  split
  · next f hf =>
    obtain ⟨y, hy, rfl⟩ := burst_entry (List.mem_of_find?_eq_some hf)
    have hc : (finalEntry now y).count = e.count := by simpa using List.find?_some hf
    rw [hc, hk, he] at hy
    obtain rfl := Option.some.inj hy
    exact ⟨rfl, rfl⟩
  · exact ⟨rfl, hov⟩

/-- The completion burst keeps the outcome of every entry of a ring that is not being reset. -/
theorem issueCompletions_entry (hr : (s.ring c n).ctlReset = false) (he : (s.ring c n).entry? k = some e) (hov : e.over = true) :
    ∃ y, ((issueCompletions c n s).ring c n).entry? k = some y ∧ y.outcome = e.outcome ∧ y.over = true := by
  unfold issueCompletions
  dsimp only
  rw [if_neg (by simp [hr])]
  split
  · exact ⟨e, he, rfl, hov⟩
  · split
    · exact ⟨e, he, rfl, hov⟩
    · next e0 t hrun =>
      have hkeeps := markWriting_keeps (now := s.now) he hov
      rw [hrun] at hkeeps
      split
      · refine ⟨e, ?_, rfl, hov⟩
        unfold Ring.entry?
        rw [stopRing_entries]
        simpa [refuse, State.ring, Ring.entry?] using he
      · next p ps hpass =>
        rw [hpass] at hkeeps
        refine ⟨markWriting (p :: ps) e, ?_, hkeeps.1, hkeeps.2⟩
        rw [ring_besides (besides_transfer ..), modRing_ring_self]
        exact (entry?_map (r := { s.ring c n with cplLines := (p :: ps).length }) (markWriting_count _)).trans
          (congrArg (Option.map (markWriting (p :: ps))) he)

/-! ### What the burst leaves alone -/

theorem modRingErr_frame {f : Ring → Ring} : (modRingErr c n f s).streams = s.streams ∧ (modRingErr c n f s).pkt = s.pkt ∧
    (modRingErr c n f s).faults = s.faults ∧ (modRingErr c n f s).pools = s.pools ∧ (modRingErr c n f s).shelf = s.shelf := by
  unfold modRingErr
  dsimp only
  split
  · exact ⟨rfl, rfl, rfl, rfl, rfl⟩
  · exact ⟨rfl, rfl, rfl, rfl, rfl⟩

theorem transfer_frame (t : TxAttr) (p : Purpose) (a n : Nat) (data : List Byte) (s : State) :
    (transfer t p a n data s).streams = s.streams ∧ (transfer t p a n data s).pkt = s.pkt ∧ (transfer t p a n data s).faults = s.faults ∧
      (transfer t p a n data s).pools = s.pools ∧ (transfer t p a n data s).shelf = s.shelf := by
  have h := besides_transfer t p a n data s
  exact ⟨view_besides (·.streams) (fun _ => rfl) h, view_besides (·.pkt) (fun _ => rfl) h, view_besides (·.faults) (fun _ => rfl) h,
    view_besides (·.pools) (fun _ => rfl) h, view_besides (·.shelf) (fun _ => rfl) h⟩

theorem issueCompletions_frame (hr : (s.ring c n).ctlReset = false) : (issueCompletions c n s).streams = s.streams ∧
    (issueCompletions c n s).pkt = s.pkt ∧ (issueCompletions c n s).faults = s.faults ∧ (issueCompletions c n s).pools = s.pools ∧
    (issueCompletions c n s).shelf = s.shelf := by
  unfold issueCompletions
  dsimp only
  rw [if_neg (by simp [hr])]
  split
  · exact ⟨rfl, rfl, rfl, rfl, rfl⟩
  · split
    · exact ⟨rfl, rfl, rfl, rfl, rfl⟩
    · split
      · exact modRingErr_frame
      · exact transfer_frame ..

/-! ### The end of an entry -/

/-- An entry that ends carries its outcome, and beyond its ring and the completion burst nothing moves. -/
structure Ended (s u : State) (c n k : Nat) (o : Nat × Nat × Nat) : Prop where
  entry : ∃ y, (u.ring c n).entry? k = some y ∧ y.outcome = o ∧ y.over = true
  streams : u.streams = s.streams
  pkt : u.pkt = s.pkt
  safe : u.faults.safe = s.faults.safe
  pools : u.pools = s.pools
  shelf : u.shelf = s.shelf

theorem endEntry_ends {f : Entry → Entry} (hr : (s.ring c n).ctlReset = false) (he : (s.ring c n).entry? k = some e)
    (hf : ∀ x, (f x).count = x.count) : Ended s (endEntry c n k f s) c n k (f e).outcome := by
  let g : Entry → Entry := fun e => if e.count = k then { f e with phase := .ended } else e
  have hg : ∀ x, (g x).count = x.count := by
    intro x
    dsimp only [g]
    split
    · exact hf x
    · rfl
  have hk : e.count = k := by simpa using List.find?_some he
  have hmod : (modEntry c n k (fun e => { f e with phase := .ended }) s).ring c n = { s.ring c n with entries := (s.ring c n).entries.map g } :=
    modRing_ring_self _
  have hent : ((modEntry c n k (fun e => { f e with phase := .ended }) s).ring c n).entry? k = some { f e with phase := .ended } := by
    rw [hmod, entry?_map hg, he]
    exact congrArg some (if_pos hk)
  have hctl : ((modEntry c n k (fun e => { f e with phase := .ended }) s).ring c n).ctlReset = false := by rw [hmod]; exact hr
  obtain ⟨hs, hp, hfl, hpo, hsh⟩ := issueCompletions_frame hctl
  obtain ⟨y, hy, ho, hov⟩ := issueCompletions_entry hctl hent rfl
  exact ⟨⟨y, hy, ho, hov⟩, hs, hp, congrArg Faults.safe hfl, hpo, hsh⟩

theorem endPlain_ends {status detail : Nat} (hr : (s.ring c n).ctlReset = false) (he : (s.ring c n).entry? k = some e) :
    Ended s (endPlain c n k status detail s) c n k (status, detail, 0) := by
  obtain ⟨hent, hs, hp, hf, hpo, hsh⟩ := endEntry_ends (s := countContained (b2n (status = 8)) s) (f := plainOutcome status detail) hr he
    (fun _ => rfl)
  exact ⟨hent, hs, hp, hf, hpo, hsh⟩

theorem Ended.quiet {o : Nat × Nat × Nat} (h : Ended s u c n k o) (hq : Safety.quiet s) : Safety.quiet u := quiet_of_parts hq h.safe h.streams h.pkt

/-- What a statement reads of an entry that has ended. -/
theorem Ended.reads {o : Nat × Nat × Nat} {old : State} (h : Ended s u c n k o) (hq : Safety.quiet s) :
    (((settle old u).ring c n).entry? k).map (fun x => (x.status, x.detail, x.buffer)) = some o ∧
      (((settle old u).ring c n).entry? k).any (fun x => x.phase == .ended || x.phase == .writing) = true := by
  obtain ⟨y, hy, ho, hov⟩ := h.entry
  rw [settle_ring_quiet (h.quiet hq), hy]
  exact ⟨congrArg some ho, hov⟩

/-! ### The entries -/

theorem entryReady_entry (h : entryReady s c n k = some e) : (s.ring c n).entry? k = some e ∧ (s.ring c n).ctlReset = false := by
  unfold entryReady at h
  dsimp only at h
  split at h
  · next e0 he =>
    obtain ⟨hc, heq⟩ := Option.ite_none_right_eq_some.1 h
    simp only [Bool.and_eq_true, Bool.not_eq_true'] at hc
    rw [← Option.some.inj heq]
    exact ⟨he, hc.2⟩
  · cases h

theorem advance_entryReady (dt : Nat) (s : State) (c n k : Nat) : entryReady (advance dt s) c n k = entryReady s c n k := by simp [entryReady]
theorem advance_fenceMet (dt : Nat) (s : State) (c n : Nat) (e : Entry) : fenceMet (advance dt s) c n e = fenceMet s c n e := by simp [fenceMet]
theorem advance_olderFree (dt : Nat) (s : State) (c : Nat) (e : Entry) : olderFree (advance dt s) c e = olderFree s c e := by simp [olderFree]
theorem advance_bufAt (dt : Nat) (s : State) (c set a : Nat) : bufAt (advance dt s) c set a = bufAt s c set a := by rw [advance_eq]; rfl

theorem fenceEntry_met (he : (s.ring c n).entry? k = some e) (hop : e.op = 4) (hp : e.phase = .ready) (hm : fenceMet s c n e = true) :
    fenceEntry c n k s = endPlain c n k 0 0 s := by
  unfold fenceEntry
  rw [he]
  exact if_pos (by simp [hop, hp, hm])

theorem nopEntry_plain (he : entryReady s c n k = some e) (hop : e.op = 5) (hs : (s.ring c n).stream = false) :
    nopEntry c n k s = endPlain c n k 0 0 s := by
  unfold nopEntry
  rw [he]
  dsimp only
  rw [if_neg (by simp [hop]), if_neg (by simp [hs])]

theorem freeBuffer_host {set key i : Nat} (he : entryReady s c n k = some e) (hop : e.op = 2) (ho : olderFree s c e = false)
    (hset : poolSet e.pool c = some set) (hb : bufAt s c set e.in0 = some (key, i, some .host)) : freeBuffer c n k s =
      endEntry c n k (fun x => { x with status := 0, detail := 0, buffer := e.in0, started := true }) (setBuf key i none s) := by
  unfold freeBuffer
  rw [he]
  dsimp only
  rw [if_neg (by simp [hop, ho]), hset]
  dsimp only
  rw [hb]

/-- The visible shelf entries that an entry evicts. -/
def evictHit (c : Nat) (e : Entry) (x : ShelfEntry) : Bool := x.visible && x.ctx = c && x.source = e.in0 && x.crop = e.param

theorem shelfEvict_found {x : ShelfEntry} (he : entryReady s c n k = some e) (hop : e.op = 3) (hx : x ∈ s.shelf.entries)
    (hhit : evictHit c e x = true) : shelfEvict c n k s = endPlain c n k 0 1 (hideShelf (evictHit c e) s) := by
  have hany : s.shelf.entries.any (evictHit c e) = true := List.any_eq_true.2 ⟨x, hx, hhit⟩
  unfold shelfEvict
  rw [he]
  dsimp only
  rw [if_neg (by simp [hop])]
  change endPlain c n k 0 (b2n (s.shelf.entries.any (evictHit c e))) (hideShelf (evictHit c e) s) = _
  rw [hany, b2n, if_pos rfl]

/-- After an eviction no visible entry has the key. -/
theorem hideShelf_hides {y : ShelfEntry} (hy : y ∈ (hideShelf (evictHit c e) s).shelf.entries) (hc : y.ctx = c) (hs : y.source = e.in0)
    (hp : y.crop = e.param) : y.visible = false := by
  obtain ⟨z, -, rfl⟩ := List.mem_map.1 (List.mem_filter.1 hy).1
  split
  · rfl
  · next h =>
    rw [if_neg h] at hc hs hp
    by_contra hv
    exact h (by simp [evictHit, hc, hs, hp, Bool.not_eq_false _ ▸ hv])

theorem entryDeadline_missed (he : (s.ring c n).entry? k = some e) (hp : e.phase = .ready) (hd : e.deadline ≠ 0) (ht : e.deadline ≤ s.now)
    (hst : e.started = false) (hw : e.work = none) : entryDeadline c n k s = endPlain c n k 7 0 s := by
  unfold entryDeadline
  rw [he]
  dsimp only
  rw [if_neg (by simp [hp, hd, Nat.not_lt.2 ht, hst]), hw]

end

/-- Settles O40: each entry without stages by the end it comes to. -/
theorem plainEntriesEnd : Obligations.PlainEntriesEnd := by
  unfold Obligations.PlainEntriesEnd
  have hquiet (dt : Nat) (s : State) (hq : Safety.quiet s) : Safety.quiet (advance dt s) := quiet_of_parts hq (by simp) (by simp) (by simp)
  refine ⟨?fence, ?nop, ?free, ?evict, ?deadline⟩
  case fence =>
    intro dt c n k e s hc hn he hop hp hr hm hq
    refine ⟨_, exec_fence _ _ _ _ _ (by simp [Instr.wf]; omega), ?_⟩
    rw [fenceEntry_met (by simpa using he) hop hp (by rw [advance_fenceMet]; exact hm)]
    exact (endPlain_ends (by simpa using hr) (by simpa using he)).reads (hquiet dt s hq)
  case nop =>
    intro dt c n k e s hc hn he hop hs hq
    have he' : entryReady (advance dt s) c n k = some e := by rw [advance_entryReady]; exact he
    refine ⟨_, exec_nop _ _ _ _ _ (by simp [Instr.wf]; omega), ?_⟩
    rw [nopEntry_plain he' hop (by simpa using hs)]
    exact (endPlain_ends (entryReady_entry he').2 (entryReady_entry he').1).reads (hquiet dt s hq)
  case free =>
    intro dt c n k i set key e s hc hn he hop ho hset hb hq
    have he' : entryReady (advance dt s) c n k = some e := by rw [advance_entryReady]; exact he
    refine ⟨_, exec_freeBuffer _ _ _ _ _ (by simp [Instr.wf]; omega), ?_⟩
    rw [freeBuffer_host he' hop (by rw [advance_olderFree]; exact ho) hset (by rw [advance_bufAt]; exact hb)]
    have hend := endEntry_ends (s := setBuf key i none (advance dt s)) (f := fun x => { x with status := 0, detail := 0, buffer := e.in0, started := true })
      (entryReady_entry he').2 (entryReady_entry he').1 (fun _ => rfl)
    refine ⟨(hend.reads (hquiet dt s hq)).1, ?_⟩
    rw [settle_pools, hend.pools, advance_eq]
    rfl
  case evict =>
    intro dt c n k e x s hc hn he hop hx hv hxc hxs hxp hq
    have he' : entryReady (advance dt s) c n k = some e := by rw [advance_entryReady]; exact he
    refine ⟨_, exec_shelfEvict _ _ _ _ _ (by simp [Instr.wf]; omega), ?_⟩
    rw [shelfEvict_found (x := x) he' hop (by simpa using hx) (by simp [evictHit, hv, hxc, hxs, hxp])]
    have hend := endPlain_ends (s := hideShelf (evictHit c e) (advance dt s)) (status := 0) (detail := 1)
      (entryReady_entry he').2 (entryReady_entry he').1
    refine ⟨?_, fun y hy => ?_⟩
    · have h := (hend.reads (old := s) (hquiet dt s hq)).1
      have h2 := congrArg (Option.map fun o : Nat × Nat × Nat => (o.1, o.2.1)) h
      rwa [Option.map_map] at h2
    · rw [settle_shelf, hend.shelf] at hy
      exact hideShelf_hides hy
  case deadline =>
    intro dt c n k e s hc hn he hp hd hr ht hst hw hq
    refine ⟨_, exec_entryDeadline _ _ _ _ _ (by simp [Instr.wf]; omega), ?_⟩
    rw [entryDeadline_missed (by simpa using he) hp hd ht hst hw]
    exact ((endPlain_ends (by simpa using hr) (by simpa using he)).reads (hquiet dt s hq)).1

end Sys2Proof.Machine
end

section
/-! SUPPORT. Accesses of single registers of each range (00 R5, R6; 02 R41-R45), and the statement that they settle. -/

namespace Sys2Proof.Machine

section
variable {s u old : State} {a k p : Nat}

/-! ### Accesses that are answered -/

/-- A privileged write of the host to a register of a domain that is up. -/
theorem exec_write_up (dt v : Nat) (m : ExtMem) (hv : v < 2 ^ 32) (ha : a < 2 ^ 21 ∧ a % 4 = 0) (hm : mapped a = true) (hu : regUp s a = true) :
    exec (.registerWrite dt .host a v 15 true m) s = .next (settle s (respond 0 0 (regWrite false m a v (advance dt s)))) := by
  rw [exec_registerWrite_host dt v m (by simp [Instr.wf]; omega), portRefusal_none rfl hm hu (.inr rfl), Option.elim_none]

/-- A privileged read of the host of a register of a domain that is up. -/
theorem exec_read_up (dt : Nat) (ha : a < 2 ^ 21 ∧ a % 4 = 0) (hm : mapped a = true) (hu : regUp s a = true) :
    exec (.rcRegisterRead dt .host a ⟨true, 15⟩ false) s = .next (settle s (regClear a (respond 0 (regRead (advance dt s) a) (advance dt s)))) := by
  rw [exec_rcRegisterRead_host dt false (by simp [Instr.wf]; omega), portRefusal_none rfl hm hu (.inr rfl), Option.elim_none]
  rfl

theorem regUp_main (hk : keeperReg a = false) (h : s.mainUp = true) : regUp s a = true := by
  unfold regUp; rw [hk]; exact h

theorem settle_codec_quiet (h : Safety.quiet u) (o : State) : (settle o u).codec = u.codec := by
  rw [settle_quiet (h := h)]; simp

/-- In reset no register answers. -/
theorem regUp_reset (h : s.chip.rstN = false) : regUp s a = false := by
  unfold regUp State.keeperUp State.mainUp
  simp [h]

/-! ### The registers -/

theorem regWrite_channelWork (v : Nat) (m : ExtMem) (hk : k < 4) :
    regWrite false m (0x3104 + 0x40 * k) v s = modChan k (chanWrite 4 v) s := by
  interval_cases k
  · rfl
  · rfl
  · rfl
  · rfl

theorem modChan_chan_self {f : Channel → Channel} (h : k < s.codec.channels.length) : (modChan k f s).chan k = f (s.chan k) :=
  getD_modNth_self _ _ _ _ h

theorem chanWrite_work {c : Channel} (v : Nat) (hs : c.stream = none) (hst : c.stopped = false) :
    chanWrite 4 v c = { c with work := setHalf c.work 0 (v / 4096 * 4096) } := by
  have h : (c.state == .bound) = false := by
    cases he : c.enable <;> simp [Channel.state, hs, hst, he]
  unfold chanWrite
  rw [h]
  rfl

theorem bucketWrite_class1 (v : Nat) (m : ExtMem) (hv : v < 2 ^ 32) : (regWrite false m 0x5010 v s).mem.class1.rate = v % 65536 ∧
    (regWrite false m 0x5010 v s).mem.class1.depth = (if v / 65536 < 64 then s.mem.class1.depth else v / 65536) := by
  have hr : regWrite false m 0x5010 v s = { s with mem := { s.mem with class1 := bucketWrite v s.mem.class1 } } := rfl
  have hlo : bits v 0 16 = v % 65536 := by simp [bits]
  have hhi : bits v 16 16 = v / 65536 := by simp only [bits]; omega
  rw [hr]
  unfold bucketWrite
  rw [hlo, hhi]
  exact ⟨rfl, rfl⟩

theorem closeHold_ends {t0 : Nat} (hc : (s.ctx k).closeHold = some t0) (ht : t0 ≤ s.now) :
    onCloseResponseHoldExpiry k s = modCtx k (fun x => { x with closeHold := none }) s := by
  unfold onCloseResponseHoldExpiry
  rw [hc]
  exact if_pos ht

end

/-- Settles O58: one register or access of each range after the other. -/
theorem registersHoldTheirFields : Obligations.RegistersHoldTheirFields := by
  unfold Obligations.RegistersHoldTheirFields
  refine ⟨?restartCnt, ?evals, ?hits, ?stamp, ?stampDebug, ?drawEvt, ?codecEn, ?work, ?bucket, ?readOnly, ?kat, ?reset, ?hold⟩
  case restartCnt =>
    intro dt s hu
    refine ⟨_, exec_read_up dt (by decide) (by decide) hu, ?_⟩
    rw [settle_chip, settle_control]
    refine ⟨rfl, ?_, rfl⟩
    exact congrArg Control.restartCnt (advance_control (s := s) dt)
  case evals =>
    intro dt s hu hq
    refine ⟨_, exec_read_up dt (by decide) (by decide) (regUp_main (by decide) hu), ?_⟩
    have hr : regClear 0x400C (respond 0 (regRead (advance dt s) 0x400C) (advance dt s)) =
        { respond 0 s.draw.evals (advance dt s) with draw := { s.draw with evals := 0 } } := by
      rw [advance_eq]; rfl
    rw [hr, settle_chip, settle_draw, settle_mem, settle_codec_quiet (quiet_of_parts hq (by simp) (by simp) (by simp))]
    exact ⟨rfl, rfl, by simp, by simp⟩
  case hits =>
    intro dt s hu
    refine ⟨_, exec_read_up dt (by decide) (by decide) (regUp_main (by decide) hu), ?_⟩
    have hr : regClear 0x5038 (respond 0 (regRead (advance dt s) 0x5038) (advance dt s)) =
        { respond 0 s.shelf.hits (advance dt s) with shelf := { s.shelf with hits := 0 } } := by
      rw [advance_eq]; rfl
    rw [hr, settle_chip, settle_shelf]
    exact ⟨rfl, rfl⟩
  case stamp =>
    intro dt p s hp hu hq
    refine ⟨_, exec_snsFsLoRead _ _ _ _ _ (by simpa [Instr.wf] using hp), ?_⟩
    have hr : mainRead true true false (fun s => snsRead s p 0x30) (snsClear p 0x30) (advance dt s) =
        snsClear p 0x30 (respond 0 (half (s.port p).fsStamp 0) (advance dt s)) := by
      have hm : (advance dt s).mainUp = true := by simpa [State.mainUp] using hu
      simp [mainRead, hm, snsRead]
    rw [hr, settle_ports_quiet (quiet_of_parts hq (by simp [snsClear]) (by simp [snsClear]) (by simp [snsClear]))]
    refine ⟨by simp [snsClear, respond, half, bits], ?_⟩
    unfold snsClear
    rw [modPort_port_self]
    simp [State.port, half, bits]
  case stampDebug =>
    intro dt p s hp hu hq
    refine ⟨_, exec_snsFsLoRead _ _ _ _ _ (by simpa [Instr.wf] using hp), ?_⟩
    have hr : mainRead true true true (fun s => snsRead s p 0x30) (snsClear p 0x30) (advance dt s) =
        respond 0 (half (s.port p).fsStamp 0) (advance dt s) := by
      have hm : (advance dt s).mainUp = true := by simpa [State.mainUp] using hu
      simp [mainRead, hm, snsRead]
    rw [hr, settle_quiet (h := quiet_of_parts hq (by simp) (by simp) (by simp))]
    exact ⟨by simp [respond, half, bits], by simp⟩
  case drawEvt =>
    intro dt v m s hv hu
    refine ⟨_, exec_write_up dt v m hv (by decide) (by decide) (regUp_main (by decide) hu), ?_⟩
    rw [settle_draw]
    exact congrArg (fun d : Draw => d.evt &&& ~~~(BitVec.ofNat 2 v)) (advance_draw (s := s) dt)
  case codecEn =>
    intro dt v m s hv hu hq
    refine ⟨_, exec_write_up dt v m hv (by decide) (by decide) (regUp_main (by decide) hu), ?_⟩
    have hr : regWrite false m 0x3008 v (advance dt s) = { advance dt s with codec := { s.codec with evtEn := BitVec.ofNat 4 v } } := by
      rw [advance_eq]; rfl
    rw [hr, settle_codec_quiet (quiet_of_parts hq (by simp) (by simp) (by simp))]
    rfl
  case work =>
    intro dt v k m s hv hk hu hq hs hst hl
    have hm : mapped (0x3104 + 0x40 * k) = true := by simp [mapped]; omega
    have hkr : keeperReg (0x3104 + 0x40 * k) = false := by interval_cases k <;> rfl
    refine ⟨_, exec_write_up dt v m hv ⟨by omega, by omega⟩ hm (regUp_main hkr hu), ?_⟩
    have hc : (advance dt s).chan k = s.chan k := by simp [State.chan]
    rw [regWrite_channelWork v m hk]
    unfold State.chan
    rw [settle_codec_quiet (quiet_of_parts hq (by simp) (by simp) (by simp))]
    exact (modChan_chan_self (s := advance dt s) (by simpa using hl)).trans (by rw [hc, chanWrite_work v hs hst]; rfl)
  case bucket =>
    intro dt v m s hv hu
    refine ⟨_, exec_write_up dt v m hv (by decide) (by decide) (regUp_main (by decide) hu), ?_⟩
    obtain ⟨hrate, hdepth⟩ := bucketWrite_class1 (s := advance dt s) v m hv
    rw [settle_mem, respond_mem, hrate, hdepth, advance_mem]
    exact ⟨rfl, rfl⟩
  case readOnly =>
    intro dt v m s hv hu
    rw [exec_write_up dt v m hv (by decide) (by decide) (regUp_main (by decide) hu)]
    rfl
  case kat =>
    intro dt lane s hl hu
    refine ⟨_, exec_drawKatStart _ _ _ _ (by simpa [Instr.wf] using hl), ?_⟩
    rw [mainWrite_ok (by simpa [State.mainUp] using hu), settle_draw, respond_draw]
    simp [katBegin]
  case reset =>
    intro dt a v priv m s hwf hr
    rw [exec_registerWrite_host dt v m hwf, portRefusal_unmapped (.inr (.inr (regUp_reset hr))), Option.elim_some]
  case hold =>
    intro dt c t0 s hc hh ht
    rw [exec_closeResponseHoldExpiry _ _ _ (by simpa [Instr.wf] using hc), closeHold_ends (by simpa using hh) ht]

end Sys2Proof.Machine
end

section
/-! SUPPORT. Settings through the mailbox: draw keys, energy limits and the shelf (05 R165, R168, R169), and the statement that they settle. -/

namespace Sys2Proof.Machine

section
variable {s t u old : State} {box : Nat} {b : List Byte}

/-! ### Contexts under answers and under time -/

@[simp] theorem answer_ctx (box status detail : Nat) (p : List Byte) (c : Nat) : (answer box status detail p s).ctx c = s.ctx c := rfl
@[simp] theorem answer_shelf (box status detail : Nat) (p : List Byte) : (answer box status detail p s).shelf = s.shelf := rfl
@[simp] theorem answer_press (box status detail : Nat) (p : List Byte) : (answer box status detail p s).press = s.press := rfl
@[simp] theorem answer_faults (box status detail : Nat) (p : List Byte) : (answer box status detail p s).faults = s.faults := rfl

theorem settle_ctx (c : Nat) : (settle old s).ctx c = s.ctx c := by simp [State.ctx]

theorem modCtx_ctx_ne (f : Ctx → Ctx) {c k : Nat} (h : k ≠ c) : (modCtx c f s).ctx k = s.ctx k := by
  unfold State.ctx; exact Tbl.getD_set_ne _ _ _ _ _ h

theorem box_wf (h : box ≤ 256) : decide (box < 257) = true := by simpa using Nat.lt_succ_of_le h

/-- A due command finds the block outside device safe state. -/
theorem safe_of_due {code : Nat} (h : Safety.due s box code) : s.faults.safe = .normal := h.2.2.2.2.1

/-- The seq of a request stands while time passes. -/
theorem advance_seq (dt : Nat) (s : State) (box : Nat) : ((advance dt s).box box).seq = (s.box box).seq :=
  congrArg Mbox.seq (advance_box (s := s) dt box)

/-! ### Draw keys -/

theorem advance_heldKeys (dt : Nat) (s : State) (c slot : Nat) (ks : KeySlot) : heldKeys (advance dt s) c slot ks = heldKeys s c slot ks := by
  rw [advance_eq]; rfl

/-- The slot that SET_DRAW_KEY of a key leaves where the slot held no retired key. -/
def newKeySlot (b : List Byte) (s : State) : KeySlot :=
  { cur := some { id := field b 0x10 8, key := field b 0x18 16, serial := s.now },
    old := [(((s.ctx (byteAt b 8)).keys.getD (byteAt b 9) {}).cur, ringTails s (byteAt b 8))] }

/-- A context with a key slot replaced. -/
def withKey (slot : Nat) (k : KeySlot) (x : Ctx) : Ctx := { x with keys := modNth x.keys slot (fun _ => k) }

theorem setDrawKey_sets (hslot : byteAt b 9 < 16) (hid : field b 0x10 8 ≠ 0)
    (hheld : heldKeys s (byteAt b 8) (byteAt b 9) ((s.ctx (byteAt b 8)).keys.getD (byteAt b 9) {}) = []) :
    setDrawKey box b s = answer box 0 0 [] (modCtx (byteAt b 8) (withKey (byteAt b 9) (newKeySlot b s)) s) := by
  unfold setDrawKey
  dsimp only
  rw [hheld, checked_passed (firstFail_none (by simp [hslot, hid])), if_neg hid]
  rfl

/-! ### Energy limits -/

theorem setBudget_device (ht : field b 8 2 = 0xFFFF) (hlo : 1000 ≤ field b 0x0C 4) (hhi : field b 0x0C 4 ≤ 38000) :
    setBudget box b s = answer box 0 0 [] { s with press := { s.press with limNext := some (field b 0x0C 4) } } := by
  unfold setBudget
  dsimp only
  rw [checked_passed (firstFail_none (by simp [ht, hlo, hhi])), if_pos ht]

theorem setBudget_context (ht : field b 8 2 < 256) : setBudget box b s = answer box 0 0 []
    (modCtx (field b 8 2) (fun x => { x with capNext := some (if field b 0x0C 4 = 0 then none else some (field b 0x0C 4)) }) s) := by
  unfold setBudget
  dsimp only
  rw [checked_passed (firstFail_none (by simp [ht]; omega)), if_neg (by omega)]

/-! ### The shelf -/

/-- No entry that a flush names stays visible. -/
theorem flushShelf_hides {p : ShelfEntry → Bool} {x : ShelfEntry}
    (hx : x ∈ (flushShelf p s).shelf.entries) (hpx : p x = true) : x.visible = false := by
  obtain ⟨y, -, rfl⟩ := List.mem_map.1 (List.mem_filter.1 hx).1
  split
  · rfl
  · next h =>
    rw [if_neg h] at hpx
    simpa [hpx] using h

/-- The shelf lies in another region. -/
def atRegion (base size : Nat) (s : State) : State := { s with shelf := { s.shelf with base, size } }

theorem atRegion_flushed_box (base size k : Nat) (p : ShelfEntry → Bool) : (atRegion base size (flushShelf p s)).box k = s.box k := rfl

theorem atRegion_shelf (base size : Nat) (u : State) : (atRegion base size u).shelf.base = base ∧ (atRegion base size u).shelf.size = size ∧
    (atRegion base size u).shelf.entries = u.shelf.entries := ⟨rfl, rfl, rfl⟩

theorem shelfRegion_sets (hop : byteAt b 9 = 0) (hb : field b 0x10 8 % 65536 = 0) (hlo : 65536 ≤ field b 0x18 8) (hhi : field b 0x18 8 ≤ 2 ^ 32) :
    shelfRegion box b s = answer box 0 0 [] (atRegion (field b 0x10 8) (field b 0x18 8) (flushShelf (fun _ => true) s)) := by
  unfold shelfRegion
  dsimp only
  rw [checked_passed (firstFail_none (by simpa [hop, hb, hlo] using hhi))]
  rfl

end

/-- Settles O30: each setting passes its checks and has its effect before the answer. -/
theorem settingsTakeForce : Obligations.SettingsTakeForce := by
  unfold Obligations.SettingsTakeForce
  refine ⟨?key, ?device, ?context, ?region, ?quota, ?flush⟩
  case key =>
    intro dt box s hb hdue hslot hid hlen hheld
    refine ⟨_, exec_setDrawKey dt box s (box_wf hb), ?_⟩
    generalize hreq : reqBytes (s.box box) = b at hslot hid hlen hheld ⊢
    rw [command_due hdue anyReq rfl, hreq, setDrawKey_sets hslot hid (by rw [advance_heldKeys, advance_ctx]; exact hheld)]
    refine ⟨answered_answer _ _ _ _ _ _ _ (advance_seq dt s box), ?_⟩
    rw [settle_ctx, answer_ctx, modCtx_ctx_self, advance_ctx]
    refine ⟨?_, fun k hk => getD_modNth_ne _ _ _ _ _ hk⟩
    unfold withKey
    dsimp only
    rw [getD_modNth_self _ _ _ _ (by rw [hlen]; exact hslot)]
    rfl
  case device =>
    intro dt s hdue ht hlo hhi
    refine ⟨_, exec_setEnergyBudget dt 256 s rfl, ?_⟩
    rw [command_due hdue anyReq rfl, setBudget_device ht hlo hhi]
    refine ⟨answered_answer _ _ _ _ _ _ _ (advance_seq dt s 256), ?_⟩
    rw [settle_press_of_not_entering (by rw [answer_faults]; simp [safe_of_due hdue]), answer_press]
  case context =>
    intro dt s hdue ht
    refine ⟨_, exec_setEnergyBudget dt 256 s rfl, ?_⟩
    rw [command_due hdue anyReq rfl, setBudget_context ht]
    refine ⟨answered_answer _ _ _ _ _ _ _ (advance_seq dt s 256), ?_⟩
    rw [settle_ctx, answer_ctx, modCtx_ctx_self]
  case region =>
    intro dt s hdue hop hb hlo hhi
    refine ⟨_, exec_shelfRegion dt 256 s rfl, ?_⟩
    rw [command_due hdue _ (by simp [hop]), shelfRegion_sets hop hb hlo hhi]
    refine ⟨answered_answer _ _ _ _ _ _ _ (by rw [atRegion_flushed_box]; exact advance_seq dt s 256), ?_⟩
    rw [settle_shelf, answer_shelf]
    obtain ⟨hbase, hsize, hentries⟩ := atRegion_shelf (field (reqBytes (s.box 256)) 0x10 8) (field (reqBytes (s.box 256)) 0x18 8)
      (flushShelf (fun _ => true) (advance dt s))
    rw [hbase, hsize, hentries]
    exact ⟨rfl, rfl, fun e he => flushShelf_hides (p := fun _ => true) he rfl⟩
  case quota =>
    intro dt s hdue hop
    refine ⟨_, exec_shelfQuota dt 256 s rfl, ?_⟩
    rw [command_due hdue _ (by simp [hop])]
    refine ⟨answered_answer _ _ _ _ _ _ _ (advance_seq dt s 256), ?_⟩
    unfold shelfQuota
    rw [settle_ctx, answer_ctx, modCtx_ctx_self]
  case flush =>
    intro dt box s hb hdue hop
    refine ⟨_, exec_shelfFlush dt box s (box_wf hb), ?_⟩
    rw [command_due hdue _ (by simp [hop])]
    refine ⟨answered_answer _ _ _ _ _ _ _ (advance_seq dt s box), fun e he hc => ?_⟩
    rw [settle_shelf, shelfFlush, answer_shelf] at he
    exact flushShelf_hides (p := fun x => x.ctx = byteAt (reqBytes (s.box box)) 8) he (by simpa using hc)

end Sys2Proof.Machine
end

section
/-! SUPPORT. Deferred requests, and rings through the mailbox (05 R144, R170, 06 R212-R214), and the statement that they settle. -/

namespace Sys2Proof.Machine

section
variable {s t u old : State} {box v : Nat} {b p : List Byte} {what : Await} {f : State → State}

/-! ### Deferred requests -/

/-- A request joins those of its mailbox that wait for their final state. -/
def owe (box : Nat) (o : Owed) (s : State) : State := modBox box (fun x => { x with owed := x.owed ++ [o] }) s

@[simp] theorem owe_box_seq (o : Owed) : ((owe box o s).box box).seq = (s.box box).seq :=
  (congrArg Mbox.seq (modBox_box_self ..)).trans rfl

/-- An answer ends nothing that is under way. -/
theorem answer_quiet {status detail : Nat} (h : Safety.quiet s) : Safety.quiet (answer box status detail p s) := quiet_of_parts h rfl rfl rfl

theorem owe_quiet {o : Owed} (h : Safety.quiet s) : Safety.quiet (owe box o s) := quiet_of_parts h rfl rfl rfl

@[simp] theorem answer_ring (box status detail : Nat) (p : List Byte) (c n : Nat) : (answer box status detail p s).ring c n = s.ring c n := rfl
@[simp] theorem owe_ring (box : Nat) (o : Owed) (c n : Nat) : (owe box o s).ring c n = s.ring c n := rfl

theorem deferred_done (h : what.met v (f s) = true) : deferred box what v p f s = answer box 0 0 p (f s) := by
  simp [deferred, h]

theorem deferred_pending (h : what.met v (f s) = false) (hr : (s.box box).room = true) :
    deferred box what v p f s = answer box 0 1 p (owe box { cmd := (s.box box).cmd, seq := (s.box box).seq, what, value := v } (f s)) := by
  simp [deferred, h, hr, owe]

/-- A deferred request that has room is taken, whether or not its final state follows at once. -/
theorem deferred_taken (hr : (s.box box).room = true) (hq : ((f s).box box).seq = (t.box box).seq) :
    Safety.taken t (settle old (deferred box what v p f s)) box p := by
  cases h : what.met v (f s)
  · rw [deferred_pending h hr]
    exact .inr (answered_answer _ _ _ _ _ _ _ ((owe_box_seq _).trans hq))
  · rw [deferred_done h]
    exact .inl (answered_answer _ _ _ _ _ _ _ hq)

theorem notify_box_seq (a : Await) (status k : Nat) : ((notify a status s).box k).seq = (s.box k).seq :=
  NoNotice.notifyWhere (g := Mbox.seq) (fun _ _ _ _ => rfl) _ _ _ _

theorem notify_ring (a : Await) (status c n : Nat) : (notify a status s).ring c n = s.ring c n := rfl

theorem advance_room (dt : Nat) (s : State) (box : Nat) : ((advance dt s).box box).room = (s.box box).room :=
  congrArg Mbox.room (advance_box (s := s) dt box)

/-! ### The end of a ring's work, at the mailboxes -/

theorem killWork_boxes (wid : Nat) (s : State) : (killWork wid s).boxes = s.boxes := by
  unfold killWork
  split
  · unfold returnBuf
    repeat' split
    all_goals rfl
  · rfl

theorem modRingErr_boxes (c n : Nat) (f : Ring → Ring) (s : State) : (modRingErr c n f s).boxes = s.boxes := by
  unfold modRingErr
  dsimp only
  split
  · rfl
  · rfl

/-- A mailbox whose request no longer waits for a ring's tail. -/
def Mbox.undrained (key : Nat) (m : Mbox) : Mbox := { m with drain := m.drain.filter (·.1 ≠ key) }

theorem zeroRing_box (c n k : Nat) : (zeroRing c n s).box k = (s.box k).undrained (ringKey c n) := by
  have hkill : (forEach (ringWorks s c n) killWork (forgetFetches c n s)).boxes = s.boxes :=
    (forEach_keeps (·.boxes) _ (fun w s => killWork_boxes w s) _ _).trans rfl
  have hboxes : (zeroRing c n s).boxes = s.boxes.map (fun b => (b.1, b.2.undrained (ringKey c n))) :=
    congrArg (List.map fun b : Nat × Mbox => (b.1, b.2.undrained (ringKey c n))) ((modRingErr_boxes ..).trans hkill)
  unfold State.box Tbl.getD
  rw [hboxes, Tbl.get?_map]
  cases Tbl.get? s.boxes k with
  | none => rfl
  | some m => rfl

/-! ### RING_CREATE -/

/-- A ring as RING_CREATE makes it. -/
def createdRing (base l : Nat) : Ring := { st := .run, base, log2 := l, enable := true }

/-- A ring stands in a place of its context, its colophon chain not begun. -/
def makeRing (c n : Nat) (r : Ring) (s : State) : State := modRing c n (fun _ => r) { s with chains := Tbl.erase s.chains (ringKey c n) }

theorem makeRing_ring (c n : Nat) (r : Ring) : (makeRing c n r s).ring c n = r := modRing_ring_self _

theorem makeRing_quiet {c n : Nat} {r : Ring} (h : Safety.quiet s) : Safety.quiet (makeRing c n r s) := quiet_of_parts h rfl rfl rfl

theorem ringCreate_makes (hn : byteAt b 9 < 4) (hlo : 4 ≤ byteAt b 0x0A) (hhi : byteAt b 0x0A ≤ 16) (hb : field b 0x10 8 % 4096 = 0)
    (hst : (s.ring (byteAt b 8) (byteAt b 9)).st = .none)
    (hw : withinWindow (s.ctx (byteAt b 8)).guards true true (field b 0x10 8) (64 * 2 ^ byteAt b 0x0A) = true) :
    ringCreate box b s = answer box 0 0 [] (makeRing (byteAt b 8) (byteAt b 9) (createdRing (field b 0x10 8) (byteAt b 0x0A)) s) := by
  unfold ringCreate
  dsimp only
  rw [checked_passed (firstFail_none (by simp [hn, hlo, hhi, hb, hst, hw]))]
  rfl

/-! ### RING_RESET -/

/-- What a RING_RESET that passes its checks does. -/
def resetEffect (c n mode : Nat) (s : State) : State := if mode = 0 then resetDone c n (startReset c n mode s) else startReset c n mode s

theorem ringReset_passes (hn : byteAt b 9 < 4) (hm : byteAt b 0x0A < 3) (hst : (s.ring (byteAt b 8) (byteAt b 9)).st ≠ .none)
    (hr : (s.ring (byteAt b 8) (byteAt b 9)).reset = none) (hd : byteAt b 0x0A = 2 → ringStreams s (byteAt b 8) (byteAt b 9) = false)
    (hz : byteAt b 0x0A = 0 → (s.ring (byteAt b 8) (byteAt b 9)).st ≠ .stopped) :
    ringReset box b s = deferred box (.ring (byteAt b 8) (byteAt b 9)) (byteAt b 9) [] (resetEffect (byteAt b 8) (byteAt b 9) (byteAt b 0x0A)) s := by
  have hd' : (decide (byteAt b 0x0A = 2) && ringStreams s (byteAt b 8) (byteAt b 9)) = false := by
    by_cases h : byteAt b 0x0A = 2 <;> simp [h, hd]
  have hz' : (decide (byteAt b 0x0A = 0) && (s.ring (byteAt b 8) (byteAt b 9)).st == .stopped) = false := by
    by_cases h : byteAt b 0x0A = 0 <;> simp [h, hz]
  unfold ringReset
  dsimp only
  rw [checked_passed (firstFail_none (by simp [hn, hm, hst, hr, hd', hz']))]
  rfl

theorem startReset_quiet {c n mode : Nat} (h : Safety.quiet s) : Safety.quiet (startReset c n mode s) := h

/-- A reset that is not a drain aborts. -/
theorem startReset_aborts {c n mode : Nat} (hm : mode ≠ 0) : ((startReset c n mode s).ring c n).st = .aborting ∧
    ((startReset c n mode s).ring c n).reset = some mode ∧ ((startReset c n mode s).ring c n).enable = false := by
  unfold startReset
  rw [modRing_ring_self]
  by_cases hst : (s.ring c n).st = .stopped
  · simp [hst]
  · simp [hst, hm]

/-- A drain that finds nothing under way is idle at once. -/
theorem startReset_idle {c n : Nat} (hst : (s.ring c n).st = .run) (hc : (s.ring c n).ctlReset = false)
    (hd : (s.ring c n).done = (s.ring c n).head) (hi : (s.ring c n).issued = (s.ring c n).head) :
    ((startReset c n 0 s).ring c n).reset = some 0 ∧ resetIdle ((startReset c n 0 s).ring c n) = true := by
  unfold startReset
  rw [modRing_ring_self]
  simp [hst, resetIdle, hc, hd, hi]

/-- The ring at the end of a reset of a mode. -/
def afterReset (m : Nat) (r : Ring) : Ring := if m = 2 then {} else { r.zeroed with reset := none, st := .run, enable := true }

theorem resetDone_ends {c n m : Nat} (hm : (s.ring c n).reset = some m) (hi : resetIdle (s.ring c n) = true) :
    (resetDone c n s).ring c n = afterReset m (s.ring c n) ∧ (Safety.quiet s → Safety.quiet (resetDone c n s)) ∧
      ∀ k, ((resetDone c n s).box k).seq = (s.box k).seq := by
  have hz := zeroRing_ring_self (s := s) (c := c) (n := n)
  have hq := zeroRing_quiet (s := s) (c := c) (n := n)
  have hs (k : Nat) : ((zeroRing c n s).box k).seq = (s.box k).seq := (congrArg Mbox.seq (zeroRing_box c n k)).trans rfl
  unfold resetDone
  dsimp only
  rw [hi, hm, if_neg (by simp)]
  generalize zeroRing c n s = z at hz hq hs ⊢
  unfold afterReset
  by_cases h2 : m = 2
  · rw [if_pos (by rw [h2]), if_pos h2]
    exact ⟨(notify_ring ..).trans (modRing_ring_self _), fun h => hq h, fun k => (notify_box_seq ..).trans (hs k)⟩
  · rw [if_neg (by simpa using h2), if_neg h2, ← hz]
    exact ⟨(notify_ring ..).trans (modRing_ring_self _), fun h => hq h, fun k => (notify_box_seq ..).trans (hs k)⟩

/-- What a statement reads of a ring whose reset has ended. -/
theorem afterReset_counts (m : Nat) (r : Ring) : (afterReset m r).st = (if m = 2 then .none else .run) ∧ (afterReset m r).tail = 0 ∧
    (afterReset m r).head = 0 ∧ (afterReset m r).done = 0 ∧ (afterReset m r).reset = none := by
  unfold afterReset
  split <;> exact ⟨rfl, rfl, rfl, rfl, rfl⟩

/-- An abort or a destroy is accepted with its notice to come. -/
theorem ringReset_pends {c n : Nat} (hc : byteAt b 8 = c) (hn : byteAt b 9 = n) (hn4 : n < 4) (hm : byteAt b 0x0A < 3) (hm0 : byteAt b 0x0A ≠ 0)
    (hst : (s.ring c n).st ≠ .none) (hr : (s.ring c n).reset = none) (hd : byteAt b 0x0A = 2 → ringStreams s c n = false)
    (hroom : (s.box box).room = true) (hq : Safety.quiet s) (hseq : (s.box box).seq = (t.box box).seq) :
    Safety.answered t (settle old (ringReset box b s)) box 0 1 [] ∧ ((settle old (ringReset box b s)).ring c n).st = .aborting ∧
      ((settle old (ringReset box b s)).ring c n).reset = some (byteAt b 0x0A) ∧
      ((settle old (ringReset box b s)).ring c n).enable = false := by
  subst hc hn
  have heff : resetEffect (byteAt b 8) (byteAt b 9) (byteAt b 0x0A) s = startReset (byteAt b 8) (byteAt b 9) (byteAt b 0x0A) s := if_neg hm0
  obtain ⟨hab, hres, hen⟩ := startReset_aborts (s := s) (c := byteAt b 8) (n := byteAt b 9) hm0
  have hmet : (Await.ring (byteAt b 8) (byteAt b 9)).met (byteAt b 9) (startReset (byteAt b 8) (byteAt b 9) (byteAt b 0x0A) s) = false := by
    simp [Await.met, hres]
  have hqs : Safety.quiet (startReset (byteAt b 8) (byteAt b 9) (byteAt b 0x0A) s) := startReset_quiet hq
  have hss : ((startReset (byteAt b 8) (byteAt b 9) (byteAt b 0x0A) s).box box).seq = (t.box box).seq := hseq
  rw [ringReset_passes hn4 hm hst hr hd (fun h => absurd h hm0), deferred_pending (by rw [heff]; exact hmet) hroom, heff]
  generalize startReset (byteAt b 8) (byteAt b 9) (byteAt b 0x0A) s = z at hab hres hen hqs hss
  refine ⟨answered_answer _ _ _ _ _ _ _ ((owe_box_seq _).trans hss), ?_⟩
  rw [settle_ring_quiet (answer_quiet (owe_quiet hqs)), answer_ring, owe_ring]
  exact ⟨hab, hres, hen⟩

end

/-- Settles O33: rings are made at once, a reset's start by its mode, its end by `resetDone`. -/
theorem ringsAreCreatedAndReset : Obligations.RingsAreCreatedAndReset := by
  unfold Obligations.RingsAreCreatedAndReset
  have hquiet (dt : Nat) (s : State) (hq : Safety.quiet s) : Safety.quiet (advance dt s) := quiet_of_parts hq (by simp) (by simp) (by simp)
  refine ⟨?create, ?drain, ?abort, ?destroy, ?done⟩
  case create =>
    intro dt box c n l base s hb hdue hq hc hn hl hbase hn4 hlo hhi hal hst hw
    refine ⟨_, exec_ringCreate dt box s (box_wf hb), ?_⟩
    rw [hn] at hn4
    rw [hl] at hlo hhi
    rw [hbase] at hal
    rw [hc, hn] at hst
    rw [hc, hl, hbase] at hw
    rw [hc, hn, hl, hbase]
    rw [command_due hdue anyReq rfl, ringCreate_makes hn4 hlo hhi hal (by rw [advance_ring]; exact hst) (by rw [advance_ctx]; exact hw)]
    refine ⟨answered_answer _ _ _ _ _ _ _ (advance_seq dt s box), ?_⟩
    rw [settle_ring_quiet (answer_quiet (makeRing_quiet (hquiet dt s hq))), answer_ring, makeRing_ring]
    rfl
  case drain =>
    intro dt box c n s hb hdue hq hc hn hm hn4 hst hr hctl hd hi
    refine ⟨_, exec_ringResetDrain dt box s (box_wf hb), ?_⟩
    obtain ⟨hres, hidle⟩ := startReset_idle (s := advance dt s) (c := c) (n := n) (by simpa using hst) (by simpa using hctl)
      (by simpa using hd) (by simpa using hi)
    obtain ⟨hring, hqz, hseq⟩ := resetDone_ends hres hidle
    obtain ⟨hrun, ht, hh, hdn, hrn⟩ := afterReset_counts 0 ((startReset c n 0 (advance dt s)).ring c n)
    have heff : resetEffect c n 0 (advance dt s) = resetDone c n (startReset c n 0 (advance dt s)) := if_pos rfl
    rw [command_due hdue _ (by simp [hm]), ringReset_passes (by omega) (by omega) (by simp [← hc, ← hn, hst]) (by simp [← hc, ← hn, hr])
      (fun h => by omega) (fun _ => by simp [← hc, ← hn, hst]), ← hc, ← hn, hm,
      deferred_done (by rw [heff]; simp [Await.met, hring, hrn]), heff]
    refine ⟨answered_answer _ _ _ _ _ _ _ ((hseq box).trans (advance_seq dt s box)), ?_⟩
    have hq2 := hqz (startReset_quiet (hquiet dt s hq))
    generalize resetDone c n (startReset c n 0 (advance dt s)) = z at hring hq2
    rw [settle_ring_quiet (answer_quiet hq2), answer_ring, hring]
    exact ⟨hrun, ht, hh, hdn, hrn⟩
  case abort =>
    intro dt box c n s hb hdue hq hc hn hm hn4 hst hr hroom
    refine ⟨_, exec_ringResetAbort dt box s (box_wf hb), ?_⟩
    rw [command_due hdue _ (by simp [hm])]
    have h := ringReset_pends (old := s) (t := s) hc.symm hn.symm hn4 (by omega) (by omega) (by simpa using hst) (by simpa using hr)
      (fun h => by omega) (by rw [advance_room]; exact hroom) (hquiet dt s hq) (advance_seq dt s box)
    rwa [hm] at h
  case destroy =>
    intro dt box c n s hb hdue hq hc hn hm hn4 hst hr hstr hroom
    refine ⟨_, exec_ringResetDestroy dt box s (box_wf hb), ?_⟩
    rw [command_due hdue _ (by simp [hm])]
    have h := ringReset_pends (old := s) (t := s) hc.symm hn.symm hn4 (by omega) (by omega) (by simpa using hst) (by simpa using hr)
      (fun _ => by simpa [ringStreams] using hstr) (by rw [advance_room]; exact hroom) (hquiet dt s hq) (advance_seq dt s box)
    rwa [hm] at h
  case done =>
    intro dt c n m s hc hn hq hm hi
    refine ⟨_, exec_ringResetDone dt c n s (by simp [Instr.wf]; omega), ?_⟩
    obtain ⟨hring, hqz, -⟩ := resetDone_ends (s := advance dt s) (c := c) (n := n) (m := m) (by simpa using hm) (by simpa using hi)
    rw [settle_ring_quiet (hqz (hquiet dt s hq)), hring]
    exact afterReset_counts ..

end Sys2Proof.Machine
end

section
/-! SUPPORT. Pools through the mailbox (05 R162, R163), and the statement that they settle. -/

namespace Sys2Proof.Machine

section
variable {α : Type}

/-- A table keeps the values that pass. -/
theorem Tbl.get?_filter (f : α → Bool) (t : Tbl α) (k : Nat) (h : Tbl.wf t = true) :
    Tbl.get? (t.filter (fun p => f p.2)) k = (Tbl.get? t k).filter f := by
  induction t with
  | nil => rfl
  | cons p t ih =>
    obtain ⟨j, v⟩ := p
    rw [Tbl.wf_cons, Bool.and_eq_true] at h
    obtain ⟨habove, hwf⟩ := h
    have hrest : k ≤ j → Tbl.get? (t.filter (fun p => f p.2)) k = none := fun hk => by
      rw [ih hwf, Tbl.get?_above t j k habove hk]; rfl
    rw [List.filter_cons]
    simp only [Tbl.get?]
    by_cases hf : f v = true
    · rw [if_pos hf, Tbl.get?, ih hwf]
      split
      · exact (if_pos hf).symm
      · split <;> rfl
    · rw [if_neg hf]
      split
      · next he => rw [hrest (by omega)]; exact (if_neg hf).symm
      · split
        · exact hrest (by omega)
        · exact ih hwf

/-- A change of several keys, where changing one twice is changing it once. -/
theorem Tbl.get?_adjusts {f : α → α} (hf : ∀ x, f (f x) = f x) (l : List Nat) (t : Tbl α) (k : Nat) (hk : k ∈ l ∨ ∀ x, Tbl.get? t k = some x → f x = x) :
    Tbl.get? (l.foldl (fun t j => Tbl.adjust t j f) t) k = (Tbl.get? t k).map f := by
  induction l generalizing t with
  | nil =>
    rcases hk with hk | hk
    · cases hk
    · cases h : Tbl.get? t k with
      | none => exact h
      | some x => exact h.trans (congrArg some (hk x h).symm)
  | cons j l ih =>
    rw [List.foldl_cons]
    by_cases hj : k = j
    · subst hj
      rw [ih _ (.inr ?_), Tbl.get?_adjust_self, Option.map_map]
      · exact congrArg (fun g => Option.map g _) (funext hf)
      · intro x hx
        rw [Tbl.get?_adjust_self, Option.map_eq_some_iff] at hx
        obtain ⟨y, -, rfl⟩ := hx
        exact hf y
    · rw [ih _ ?_, Tbl.get?_adjust_ne _ _ _ _ hj]
      rw [Tbl.get?_adjust_ne _ _ _ _ hj]
      simpa [hj] using hk

theorem Tbl.wf_adjusts (f : α → α) (l : List Nat) (t : Tbl α) (h : Tbl.wf t = true) : Tbl.wf (l.foldl (fun t j => Tbl.adjust t j f) t) = true := by
  induction l generalizing t with
  | nil => exact h
  | cons j l ih => exact ih _ (Tbl.wf_adjust _ _ _ h)

end

section
variable {s t u old : State} {box : Nat} {b : List Byte}

@[simp] theorem answer_pools (box status detail : Nat) (p : List Byte) : (answer box status detail p s).pools = s.pools := rfl

theorem deferred_pools {what : Await} {v : Nat} {p : List Byte} {f : State → State} (hr : (s.box box).room = true) :
    (deferred box what v p f s).pools = (f s).pools := by
  cases h : what.met v (f s)
  · rw [deferred_pending h hr]; rfl
  · rw [deferred_done h]; rfl

/-! ### CREATE_POOL -/

/-- A new pool stands under its key. -/
def addPool (key base count : Nat) (s : State) : State := { s with pools := Tbl.set s.pools key { base, count } }

theorem createPool_makes (hset : byteAt b 9 < 16) (hk : byteAt b 0x0A < 8) (hlo : 1 ≤ field b 0x0C 4) (hhi : field b 0x0C 4 ≤ 65536)
    (hb : field b 0x10 8 % 4096 = 0) (hnew : Tbl.get? s.pools (poolKey (byteAt b 8) (byteAt b 9) (byteAt b 0x0A)) = none)
    (hroom : allBuffers s + field b 0x0C 4 ≤ 1048576)
    (hw : withinWindow (s.ctx (byteAt b 8)).guards false true (field b 0x10 8) (field b 0x0C 4 * bufSize (byteAt b 0x0A)) = true) :
    createPool box b s = answer box 0 0 (leBytes (byteAt b 8 * 2 ^ 24 + byteAt b 9 * 2 ^ 16) 4)
      (addPool (poolKey (byteAt b 8) (byteAt b 9) (byteAt b 0x0A)) (field b 0x10 8) (field b 0x0C 4) s) := by
  unfold createPool
  dsimp only
  rw [checked_passed (firstFail_none (by simp [hset, hk, hlo, hhi, hb, Tbl.has, hnew, hroom, hw]))]
  rfl

/-! ### DESTROY_POOL -/

/-- A pool that issues nothing further. -/
def Pool.doomed (p : Pool) : Pool := { p with destroying := true }

/-- The pools under some keys are marked. -/
def doomPools (l : List Nat) (s : State) : State := forEach l (fun key => modPool key Pool.doomed) s

theorem doomPools_frame (l : List Nat) (s : State) : (doomPools l s).pools = l.foldl (fun t j => Tbl.adjust t j Pool.doomed) s.pools ∧
    (doomPools l s).boxes = s.boxes := by
  refine ⟨?_, forEach_keeps (·.boxes) (fun key => modPool key Pool.doomed) (fun _ _ => rfl) _ _⟩
  induction l generalizing s with
  | nil => rfl
  | cons k l ih => exact ih _

/-- The pools that remain: those that are not both marked and drained. -/
theorem dropDrained_get (key : Nat) (h : Tbl.wf s.pools = true) :
    Tbl.get? (dropDrained s).pools key = (Tbl.get? s.pools key).filter (fun p => !(p.destroying && p.drained)) :=
  Tbl.get?_filter (fun p : Pool => !(p.destroying && p.drained)) s.pools key h

theorem dropDrained_box_seq (k : Nat) : ((dropDrained s).box k).seq = (s.box k).seq :=
  NoNotice.notifyWhere (g := Mbox.seq) (fun _ _ _ _ => rfl) ..

theorem destroyPool_defers {set : Nat} (hk : byteAt b 9 < 8 ∨ byteAt b 9 = 255) (hset : poolSet (field b 0x0C 4) (byteAt b 8) = some set)
    (hn : namedPools s (byteAt b 8) set (byteAt b 9) ≠ []) : destroyPool box b s =
      deferred box (.pools (field b 0x0C 4) (byteAt b 9)) (field b 0x0C 4) []
        (fun s => dropDrained (doomPools (namedPools s (byteAt b 8) set (byteAt b 9)) s)) s := by
  have hsets : setPools s (byteAt b 8) set ≠ [] := fun h => hn (by unfold namedPools; rw [h]; rfl)
  unfold destroyPool
  dsimp only
  rw [hset, checked_passed (firstFail_none (by simp [hk, setExists, hsets, hn]))]
  rfl

theorem destroyPool_marks {set key : Nat} {p : Pool} (hw : Tbl.wf s.pools = true) (hn : key ∈ namedPools s (byteAt b 8) set (byteAt b 9))
    (hp : Tbl.get? s.pools key = some p) :
    Tbl.get? (dropDrained (doomPools (namedPools s (byteAt b 8) set (byteAt b 9)) s)).pools key = if p.drained then none else some p.doomed := by
  obtain ⟨hpools, -⟩ := doomPools_frame (namedPools s (byteAt b 8) set (byteAt b 9)) s
  rw [dropDrained_get _ (by rw [hpools]; exact Tbl.wf_adjusts _ _ _ hw), hpools, Tbl.get?_adjusts (f := Pool.doomed) (fun _ => rfl) _ _ _ (.inl hn), hp]
  have hd : p.doomed.drained = p.drained := rfl
  cases h : p.drained
  · exact if_pos (by dsimp only; rw [hd, h]; rfl)
  · exact if_neg (by dsimp only; rw [hd, h]; simp [Pool.doomed])

end

/-- Settles O31: a pool is made under its key, and those marked and drained leave the table. -/
theorem poolsComeAndGo : Obligations.PoolsComeAndGo := by
  unfold Obligations.PoolsComeAndGo
  refine ⟨?create, ?destroy, ?drained⟩
  case create =>
    intro dt box c set k count base s hb hdue hc hset hk hcount hbase hs hk8 hlo hhi hal hnew hroom hw
    refine ⟨_, exec_createPool dt box s (box_wf hb), ?_⟩
    rw [hset] at hs
    rw [hk] at hk8
    rw [hcount] at hlo hhi hroom
    rw [hbase] at hal
    rw [hc, hset, hk] at hnew
    rw [hc, hk, hcount, hbase] at hw
    rw [hc, hset, hk, hcount, hbase]
    have hbuf : allBuffers (advance dt s) = allBuffers s := by unfold allBuffers; rw [advance_pools]
    rw [command_due hdue anyReq rfl, createPool_makes hs hk8 hlo hhi hal (by rw [advance_pools]; exact hnew) (by rw [hbuf]; exact hroom)
      (by rw [advance_ctx]; exact hw), settle_pools, answer_pools]
    refine ⟨answered_answer _ _ _ _ _ _ _ (advance_seq dt s box), Tbl.get?_set_self .., fun j hj => ?_⟩
    exact (Tbl.get?_set_ne _ _ _ _ hj).trans (by rw [advance_pools])
  case destroy =>
    intro dt box c set k s hb hdue hc hk hk8 hset hn hroom hw
    refine ⟨_, exec_destroyPool dt box s (box_wf hb), ?_⟩
    subst hc hk
    have hnamed : namedPools (advance dt s) (byteAt (reqBytes (s.box box)) 8) set (byteAt (reqBytes (s.box box)) 9) =
        namedPools s (byteAt (reqBytes (s.box box)) 8) set (byteAt (reqBytes (s.box box)) 9) := by simp [namedPools, setPools]
    have hroom' : ((advance dt s).box box).room = true := (advance_room dt s box).trans hroom
    rw [command_due hdue anyReq rfl, destroyPool_defers hk8 hset (by rw [hnamed]; exact hn)]
    refine ⟨deferred_taken hroom' ?_, fun key hkey p hp => ?_⟩
    · exact (dropDrained_box_seq box).trans ((congrArg Mbox.seq (box_of_boxes (doomPools_frame _ _).2 box)).trans (advance_seq dt s box))
    · rw [settle_pools, deferred_pools hroom', destroyPool_marks (by rw [advance_pools]; exact hw) (by rw [hnamed]; exact hkey)
        (by rw [advance_pools]; exact hp)]
      rfl
  case drained =>
    intro dt h cls key p s hw hp
    refine ⟨_, exec_poolDrained dt h cls s rfl, ?_⟩
    rw [settle_pools, dropDrained_get _ (by simpa using hw), advance_pools, hp]
    cases h : (p.destroying && p.drained)
    · exact if_pos (congrArg not h)
    · exact if_neg (by simpa using h)

end Sys2Proof.Machine
end

section
/-! SUPPORT. Guard windows, pending generations and the requests that wait for them (05 R144-R146, R164, 01 R26), and the statement that they
settle. -/

namespace Sys2Proof.Machine

section
variable {s t u old : State} {box k st : Nat} {b : List Byte} {o : Owed} {p : Owed → Bool}

/-! ### Requests that wait -/

/-- Firmware queues notices: the requests told leave those that wait. -/
theorem foldl_notify_owed (l : List Owed) (st : Nat) (m : Mbox) : (l.foldl (fun m o => m.notify o st) m).owed = m.owed.diff l := by
  induction l generalizing m with
  | nil => rfl
  | cons o l ih => exact (ih _).trans (List.diff_cons ..).symm

theorem notifyWhere_box (p : Owed → Bool) (st k : Nat) (s : State) : (notifyWhere p st s).box k =
    if s.fwRuns then ((s.box k).owed.filter (fun o => p o && o.ended.isNone)).foldl (fun m o => m.notify o st) (s.box k)
    else (s.box k).note p st := by
  unfold State.box Tbl.getD notifyWhere
  dsimp only
  rw [Tbl.get?_map (fun m : Mbox => if s.fwRuns then (m.owed.filter (fun o => p o && o.ended.isNone)).foldl (fun m o => m.notify o st) m
    else m.note p st)]
  cases Tbl.get? s.boxes k with
  | some m => rfl
  | none =>
    split
    · rfl
    · rfl

/-- A request that still waits waited before. -/
theorem notifyWhere_waits (ho : o ∈ ((notifyWhere p st s).box k).owed) (he : o.ended = none) : o ∈ (s.box k).owed := by
  rw [notifyWhere_box] at ho
  split at ho
  · rw [foldl_notify_owed] at ho
    exact List.diff_subset _ _ ho
  · obtain ⟨x, hx, rfl⟩ := List.mem_map.1 ho
    split at he
    · cases he
    · next hn => rwa [if_neg hn]

/-- While firmware runs, no request that was to be told still waits. -/
theorem notifyWhere_told (hf : s.fwRuns = true) (ho : o ∈ ((notifyWhere p st s).box k).owed) (he : o.ended = none) : p o = false := by
  rw [notifyWhere_box, if_pos hf, foldl_notify_owed] at ho
  by_contra hp
  have hpo : (p o && o.ended.isNone) = true := by simp [he, Bool.not_eq_false _ ▸ hp]
  have hcount : List.count o ((s.box k).owed.diff ((s.box k).owed.filter fun o => p o && o.ended.isNone)) = 0 := by
    rw [List.count_diff, List.count_filter (p := fun o => p o && o.ended.isNone) hpo, Nat.sub_self]
  exact List.count_eq_zero.1 hcount ho

theorem dropStream_waits (i : Nat) (ho : o ∈ ((dropStream i s).box k).owed) (he : o.ended = none) : o ∈ (s.box k).owed := by
  unfold dropStream at ho
  cases hs : Tbl.get? s.streams i with
  | none => rwa [hs] at ho
  | some x =>
    rw [hs] at ho
    have hin := notifyWhere_waits (notifyWhere_waits ho he) he
    rwa [box_of_boxes (s := s)] at hin
    exact (when_keeps _ (·.boxes) _ _ rfl).trans ((when_keeps _ (·.boxes) _ _ rfl).trans rfl)

/-- What follows a command lets no other request wait. -/
theorem settle_waits (ho : o ∈ ((settle old s).box k).owed) (he : o.ended = none) : o ∈ (s.box k).owed := by
  have hboxes : (settle old s).boxes = (finishDetaches (finishSafe s)).boxes :=
    (settleTargets_boxes _).trans ((noteSafeChange_boxes _ _).trans (finishPktStops_boxes _))
  rw [box_of_boxes hboxes] at ho
  rw [← box_of_boxes (finishSafe_boxes s)]
  unfold finishDetaches at ho
  generalize List.filterMap _ _ = l at ho
  generalize finishSafe s = v at ho ⊢
  induction l generalizing v with
  | nil => exact ho
  | cons i l ih => exact dropStream_waits i (ih _ ho) he

/-! ### SET_GUARD -/

/-- The window that SET_GUARD asks for, under a generation. -/
def askedGuard (b : List Byte) (gen : Nat) : Guard :=
  { rd := bit (byteAt b 0x0A) 0, wr := bit (byteAt b 0x0A) 1, base := field b 0x10 8, limit := field b 0x18 8, gen }

/-- A context with a guard window replaced. -/
def withGuard (w : Nat) (g : Guard) (x : Ctx) : Ctx := { x with guards := modNth x.guards w (fun _ => g) }

/-- What SET_GUARD does: the requests that waited for the window's last generation are told, and the new one is in force. -/
def guardEffect (c w : Nat) (g : Guard) (s : State) : State := modCtx c (withGuard w g) (notify (.guard c w) 0x0A s)

theorem setGuard_passes (hw : byteAt b 9 < 16) (hp : byteAt b 0x0A < 4) (hb : field b 0x10 8 % 64 = 0) (hl : (field b 0x18 8 + 1) % 64 = 0)
    (hle : field b 0x10 8 ≤ field b 0x18 8) : setGuard box b s =
      deferred box (.guard (byteAt b 8) (byteAt b 9)) (((s.ctx (byteAt b 8)).guards.getD (byteAt b 9) {}).gen + 1)
        (leBytes (((s.ctx (byteAt b 8)).guards.getD (byteAt b 9) {}).gen + 1) 4)
        (guardEffect (byteAt b 8) (byteAt b 9) (askedGuard b (((s.ctx (byteAt b 8)).guards.getD (byteAt b 9) {}).gen + 1))) s := by
  unfold setGuard
  dsimp only
  rw [checked_passed (firstFail_none (by simp [hw, hp, hb, hl, hle]))]
  rfl

theorem deferred_ctx {what : Await} {v c : Nat} {p : List Byte} {f : State → State} (hr : (s.box box).room = true) :
    (deferred box what v p f s).ctx c = (f s).ctx c := by
  cases h : what.met v (f s)
  · rw [deferred_pending h hr]; rfl
  · rw [deferred_done h]; rfl

theorem guardEffect_ctx (c w : Nat) (g : Guard) : (guardEffect c w g s).ctx c = withGuard w g (s.ctx c) := modCtx_ctx_self _

theorem guardEffect_box_seq (c w : Nat) (g : Guard) (k : Nat) : ((guardEffect c w g s).box k).seq = (s.box k).seq :=
  (notify_box_seq (s := s) (.guard c w) 0x0A k).trans rfl

/-! ### Generations of a binding -/

/-- A pending generation that no sample keeps out takes force. -/
theorem updateFinal_promotes {h g : Nat} {x : Binding} (hx : Tbl.get? s.bindings h = some x) (hg : x.pending = some g)
    (hb : bindingBusy s h = false) : (Tbl.get? (updateFinal (.binding h) s).bindings h).map (fun y => (y.gen, y.pending)) = some (g, none) := by
  have hprom : Tbl.get? (promote h s).bindings h = some { x with gen := g, pending := none } := by
    unfold promote modBinding
    dsimp only
    rw [Tbl.get?_adjust_self, hx, Option.map_some, hg]
  unfold updateFinal
  dsimp only
  rw [if_neg (by simp [hb])]
  generalize hs2 : notifyWhere _ 0 (promote h s) = s2
  have h2 : Tbl.get? s2.bindings h = some { x with gen := g, pending := none } := by rw [← hs2]; exact hprom
  rw [h2]
  dsimp only
  split
  · rw [h2]; rfl
  · unfold modBinding
    dsimp only
    rw [Tbl.get?_adjust_self, h2]
    rfl

end

/-- Settles O32: the window is replaced with its generation, a pending generation is promoted, and a notice leaves no request it concerns
waiting. -/
theorem generationsTakeForce : Obligations.GenerationsTakeForce := by
  unfold Obligations.GenerationsTakeForce
  refine ⟨?guard, ?binding, ?told⟩
  case guard =>
    intro dt box c w s hb hdue hc hw hw16 hlen hp hal hl hle hroom
    refine ⟨_, exec_setGuard dt box s (box_wf hb), ?_⟩
    subst hc hw
    have hroom' : ((advance dt s).box box).room = true := (advance_room dt s box).trans hroom
    rw [command_due hdue anyReq rfl, setGuard_passes hw16 hp hal hl hle, advance_ctx]
    refine ⟨deferred_taken hroom' ((guardEffect_box_seq ..).trans (advance_seq dt s box)), ?_⟩
    rw [settle_ctx, deferred_ctx hroom', guardEffect_ctx, advance_ctx]
    exact ⟨getD_modNth_self _ _ _ _ (by rw [hlen]; exact hw16), fun k hk => getD_modNth_ne _ _ _ _ _ hk⟩
  case binding =>
    intro dt h g x s hwf hf hx hg hb
    refine ⟨_, exec_updateFinalState dt (.binding h) s hwf, ?_⟩
    rw [onUpdateFinalState, if_pos (by simpa using hf), settle_bindings]
    exact updateFinal_promotes (by simpa using hx) hg (by simpa [bindingBusy] using hb)
  case told =>
    intro dt c w box s hwf hf
    refine ⟨_, exec_updateFinalState dt (.guard c w) s hwf, ?_⟩
    have hf' : (advance dt s).fwRuns = true := by simpa using hf
    rw [onUpdateFinalState, if_pos hf', settle_ctxs]
    refine ⟨(rfl : (updateFinal (.guard c w) (advance dt s)).ctxs = (advance dt s).ctxs).trans (advance_ctxs ..), fun o ho hwhat he => ?_⟩
    have htold := notifyWhere_told hf' (settle_waits ho he) he
    simp only [hwhat, beq_self_eq_true, Bool.true_and] at htold
    rw [← htold, advance_eq]
    rfl

end Sys2Proof.Machine
end

section
/-! SUPPORT. Streams and sync groups through the mailbox (05 R158-R161, 08 R275), and the statement that they settle. -/

namespace Sys2Proof.Machine

section
variable {α : Type}

theorem Tbl.mem_set {t : Tbl α} {k : Nat} {v : α} {p : Nat × α} (h : p ∈ Tbl.set t k v) : p = (k, v) ∨ p ∈ t := by
  induction t with
  | nil => exact .inl (List.mem_singleton.1 h)
  | cons q t ih =>
    obtain ⟨j, w⟩ := q
    rw [Tbl.set] at h
    split at h
    · exact (List.mem_cons.1 h).imp_right (List.mem_cons_of_mem _)
    · split at h
      · exact List.mem_cons.1 h
      · rcases List.mem_cons.1 h with rfl | h
        · exact .inr (List.mem_cons_self ..)
        · exact (ih h).imp_right (List.mem_cons_of_mem _)

theorem Tbl.mem_adjust {t : Tbl α} {k : Nat} {f : α → α} {v : α} {p : Nat × α} (hv : Tbl.get? t k = some v) (h : p ∈ Tbl.adjust t k f) :
    p = (k, f v) ∨ p ∈ t := by
  rw [Tbl.adjust, hv] at h
  exact Tbl.mem_set h

end

section
variable {s t u old : State} {box i : Nat} {b : List Byte} {x : Stream}

/-! ### What follows a command, outside device safe state -/

theorem settle_streams_of_not_entering (h : u.faults.safe ≠ .entering) : (settle old u).streams = (finishDetaches u).streams := by
  simp [settle, finishSafe_of_not_entering h]

theorem settle_groups_of_not_entering (h : u.faults.safe ≠ .entering) : (settle old u).groups = (finishDetaches u).groups := by
  simp [settle, finishSafe_of_not_entering h]

theorem settle_groups_quiet (h : Safety.quiet u) : (settle old u).groups = u.groups := by
  rw [settle_quiet (h := h)]; simp

theorem finishDetaches_of_none_ready (h : ∀ p ∈ s.streams, detachReady s p.1 p.2 = false) : finishDetaches s = s := by
  have hnone : s.streams.filterMap (fun p => if detachReady s p.1 p.2 then some p.1 else none) = [] :=
    List.filterMap_eq_nil_iff.2 (fun p hp => by rw [h p hp]; rfl)
  rw [finishDetaches, hnone]
  rfl

theorem settle_streams_none_ready (h : u.faults.safe ≠ .entering) (hr : ∀ p ∈ u.streams, detachReady u p.1 p.2 = false) :
    (settle old u).streams = u.streams := by
  rw [settle_streams_of_not_entering h, finishDetaches_of_none_ready hr]

theorem forEach_invariant {α : Type} {P : State → Prop} (f : α → State → State) (h : ∀ x s, P s → P (f x s)) (l : List α) (s : State) (hs : P s) :
    P (forEach l f s) := by
  induction l generalizing s with
  | nil => exact hs
  | cons x l ih => exact ih _ (h x s hs)

/-! ### A stream that is gone -/

theorem dropStream_absent (h : Tbl.get? s.streams i = none) : dropStream i s = s := by rw [dropStream, h]

theorem dropStream_present (h : Tbl.get? s.streams i = some x) : (dropStream i s).streams = Tbl.erase s.streams i ∧
    (dropStream i s).groups = (leaveGroup i s).groups ∧ ∀ k, ((dropStream i s).box k).seq = (s.box k).seq := by
  rw [dropStream, h]
  refine ⟨?_, ?_, fun k => ?_⟩
  · exact (when_keeps _ (·.streams) _ _ rfl).trans ((when_keeps _ (·.streams) _ _ rfl).trans rfl)
  · exact (when_keeps _ (·.groups) _ _ rfl).trans ((when_keeps _ (·.groups) _ _ rfl).trans rfl)
  · refine (notify_box_seq ..).trans ((notify_box_seq ..).trans (congrArg Mbox.seq (box_of_boxes ?_ k)))
    exact (when_keeps _ (·.boxes) _ _ rfl).trans ((when_keeps _ (·.boxes) _ _ rfl).trans rfl)

/-- A stream is absent from an ordered table. -/
def streamGone (i : Nat) (s : State) : Prop := Tbl.wf s.streams = true ∧ Tbl.get? s.streams i = none

theorem streamGone_drop (j : Nat) (h : streamGone i s) : streamGone i (dropStream j s) := by
  cases hj : Tbl.get? s.streams j with
  | none => rwa [dropStream_absent hj]
  | some y =>
    obtain ⟨hs, -, -⟩ := dropStream_present hj
    have hne : i ≠ j := fun he => by rw [← he, h.2] at hj; cases hj
    unfold streamGone
    rw [hs, Tbl.get?_erase_ne _ _ _ h.1 hne]
    exact ⟨Tbl.wf_erase _ _ h.1, h.2⟩

theorem streamGone_finishDetaches (h : streamGone i s) : streamGone i (finishDetaches s) := forEach_invariant _ (fun j _ => streamGone_drop j) _ _ h

theorem groupGone_drop (g j : Nat) (h : Tbl.get? s.groups g = none) : Tbl.get? (dropStream j s).groups g = none := by
  cases hj : Tbl.get? s.streams j with
  | none => rwa [dropStream_absent hj]
  | some y =>
    rw [(dropStream_present hj).2.1]
    refine (Tbl.get?_map (fun x : Group => { x with
      members := x.members.filter (· ≠ j), joined := x.joined.filter (· ≠ j), seen := x.seen.filter (· ≠ j) }) s.groups g).trans ?_
    rw [h]
    rfl

theorem groupGone_finishDetaches (g : Nat) (h : Tbl.get? s.groups g = none) : Tbl.get? (finishDetaches s).groups g = none :=
  forEach_invariant (P := fun s => Tbl.get? s.groups g = none) _ (fun j _ => groupGone_drop g j) _ _ h

/-! ### ATTACH_STREAM -/

theorem advance_attachChecks (dt : Nat) (s : State) (id : Nat) (x : Stream) : attachChecks (advance dt s) id x = attachChecks s id x := by
  rw [advance_eq]; rfl

/-- A stream joins the streams, and its port wakes. -/
def addStream (id : Nat) (x : Stream) (s : State) : State := startPort x.port x.lanes { s with streams := Tbl.set s.streams id x }

theorem attachStream_defers (h : ∀ c ∈ attachChecks s (field b 0x0A 2) (attachFields b), c.1 = true) : attachStream box b s =
    deferred box (.attach (field b 0x0A 2)) (field b 0x0A 2) [] (addStream (field b 0x0A 2) (attachFields b)) s := by
  unfold attachStream
  dsimp only
  rw [checked_passed (firstFail_none h)]
  rfl

theorem addStream_quiet {id : Nat} (hx : x.st ≠ .detaching) (h : Safety.quiet s) : Safety.quiet (addStream id x s) := by
  refine ⟨h.1, fun p hp => ?_, h.2.2⟩
  rcases Tbl.mem_set (t := s.streams) hp with rfl | hp
  · exact hx
  · exact h.2.1 p hp

theorem addStream_stream {id : Nat} : Tbl.get? (addStream id x s).streams id = some x := Tbl.get?_set_self ..

theorem addStream_port {id : Nat} : ((addStream id x s).port x.port).st ≠ .off := by
  unfold addStream startPort
  rw [modPort_port_self]
  split
  · simp
  · next h => exact fun he => h (by simp [he])

/-! ### STREAM_ATTACHED -/

/-- A stream as its first Frame Start leaves it. -/
def Stream.attached (x : Stream) : Stream := { x with st := .attached }

/-- A stream is attached, and its ring is a stream ring. -/
def attachTo (id : Nat) (x : Stream) (s : State) : State :=
  modStream id Stream.attached (modRing x.ctx x.ring (fun r => { r with stream := true }) s)

theorem attachTo_quiet {id : Nat} (hx : Tbl.get? s.streams id = some x) (h : Safety.quiet s) : Safety.quiet (attachTo id x s) := by
  refine ⟨h.1, fun p hp => ?_, h.2.2⟩
  rcases Tbl.mem_adjust (f := Stream.attached) hx hp with rfl | hp
  · exact fun he => by cases he
  · exact h.2.1 p hp

theorem attachTo_stream {id : Nat} (hx : Tbl.get? s.streams id = some x) : Tbl.get? (attachTo id x s).streams id = some x.attached := by
  refine (Tbl.get?_adjust_self s.streams id Stream.attached).trans ?_
  rw [hx]
  rfl

theorem attachTo_ring {id : Nat} : ((attachTo id x s).ring x.ctx x.ring).stream = true :=
  (congrArg Ring.stream (modRing_ring_self (s := s) (c := x.ctx) (n := x.ring) (fun r => { r with stream := true })) :)

/-- An attached stream changes besides only its encode channel and the requests that waited. -/
theorem streamAttached_attaches {id : Nat} (hx : Tbl.get? s.streams id = some x) (hst : x.st = .attaching) (hp : (s.port x.port).st = .up) :
    (streamAttached id s).streams = (attachTo id x s).streams ∧ (streamAttached id s).rings = (attachTo id x s).rings ∧
      (streamAttached id s).faults = s.faults ∧ (streamAttached id s).pkt = s.pkt := by
  unfold streamAttached
  rw [hx]
  dsimp only
  rw [if_pos (by simp [hst, hp])]
  split
  · exact ⟨rfl, rfl, rfl, rfl⟩
  · exact ⟨rfl, rfl, rfl, rfl⟩

/-! ### DETACH_STREAM -/

/-- A stream whose detachment waits for the frame in progress. -/
def Stream.leaves (x : Stream) : Stream := { x with st := .detaching, detachMode := some 0 }

theorem leaves_stream {id : Nat} (hx : Tbl.get? s.streams id = some x) : Tbl.get? (modStream id Stream.leaves s).streams id = some x.leaves := by
  refine (Tbl.get?_adjust_self s.streams id Stream.leaves).trans ?_
  rw [hx]
  rfl

theorem leaves_not_met {id v : Nat} (hx : Tbl.get? s.streams id = some x) : (Await.detach id).met v (modStream id Stream.leaves s) = false := by
  rw [Await.met, Tbl.has, leaves_stream hx]
  rfl

theorem deferred_congr {what : Await} {v : Nat} {p : List Byte} {f g : State → State} (h : f s = g s) :
    deferred box what v p f s = deferred box what v p g s := by
  unfold deferred
  rw [h]

theorem leaves_not_ready {id w : Nat} {p : Nat × Stream} (hx : Tbl.get? s.streams id = some x) (hcur : x.cur = some w) (hq : Safety.quiet s)
    (hp : p ∈ (modStream id Stream.leaves s).streams) : detachReady u p.1 p.2 = false := by
  rcases Tbl.mem_adjust (f := Stream.leaves) hx hp with rfl | hp
  · simp [detachReady, Stream.leaves, hcur]
  · simp [detachReady, hq.2.1 p hp]

/-- What a request that waits for the detachment leaves to end at once: nothing. -/
theorem waits_none_ready {id w status detail : Nat} {l : List Byte} {o : Owed} (hx : Tbl.get? s.streams id = some x) (hcur : x.cur = some w)
    (hq : Safety.quiet s) (p : Nat × Stream) (hp : p ∈ (answer box status detail l (owe box o (modStream id Stream.leaves s))).streams) :
    detachReady (answer box status detail l (owe box o (modStream id Stream.leaves s))) p.1 p.2 = false :=
  leaves_not_ready (p := p) hx hcur hq hp

theorem detachStream_waits {w : Nat} (hm : byteAt b 9 = 0) (hx : Tbl.get? s.streams (field b 0x0A 2) = some x) (hc : x.ctx = byteAt b 8)
    (hst : x.st = .attached) (hcur : x.cur = some w) (hq : Safety.quiet s) : detachStream box b s =
      deferred box (.detach (field b 0x0A 2)) (field b 0x0A 2) [] (modStream (field b 0x0A 2) Stream.leaves) s := by
  have hready : ∀ p ∈ (modStream (field b 0x0A 2) Stream.leaves s).streams,
      detachReady (modStream (field b 0x0A 2) Stream.leaves s) p.1 p.2 = false := fun p hp => leaves_not_ready hx hcur hq hp
  unfold detachStream
  dsimp only
  rw [hx, checked_passed (firstFail_none (by simp [hm, hc]))]
  refine deferred_congr ?_
  dsimp only
  rw [if_neg (by simp [hst]), if_neg (by simp [hst]), hm]
  exact finishDetaches_of_none_ready hready

theorem detachStream_drops (hm : byteAt b 9 ≤ 1) (hx : Tbl.get? s.streams (field b 0x0A 2) = some x) (hc : x.ctx = byteAt b 8)
    (hst : x.st = .attaching) : detachStream box b s =
      deferred box (.detach (field b 0x0A 2)) (field b 0x0A 2) [] (dropStream (field b 0x0A 2)) s := by
  unfold detachStream
  dsimp only
  rw [hx, checked_passed (firstFail_none (by simp [hm, hc]))]
  refine deferred_congr ?_
  dsimp only
  rw [if_neg (by simp [hst]), if_pos (by simp [hst])]

/-! ### DEFINE_SYNC_GROUP -/

/-- A group definition replaces an earlier one, whose requests are told. -/
def putGroup (g : Nat) (x : Group) (s : State) : State := let u := notify (.group g) 0x0A s; { u with groups := Tbl.set u.groups g x }

/-- A group is dissolved, and the requests that waited for it are told. -/
def dissolveGroup (g : Nat) (s : State) : State := let u := notify (.group g) 0x0A s; { u with groups := Tbl.erase u.groups g }

/-- The definition that a request asks for. -/
def askedGroup (b : List Byte) : Group := { ctx := byteAt b 8, members := groupList b, windowUs := field b 0x0C 2 }

theorem defineGroup_defines (hn : 1 ≤ byteAt b 9) (hn12 : byteAt b 9 ≤ 12) (hg : field b 0x0A 2 ≤ 15) (hnew : Tbl.get? s.groups (field b 0x0A 2) = none)
    (hw : 1 ≤ field b 0x0C 2) (hw1 : field b 0x0C 2 ≤ 1000) (hok : groupOk s (byteAt b 8) (groupList b) = true)
    (hfree : ∀ p ∈ s.groups, ∀ i ∈ p.2.members, i ∉ groupList b) : defineGroup box b s =
      deferred box (.group (field b 0x0A 2)) (field b 0x0A 2) [] (putGroup (field b 0x0A 2) (askedGroup b)) s := by
  have hall : s.groups.all (fun p => p.1 = field b 0x0A 2 || p.2.members.all (fun i => !mem (groupList b) i)) = true :=
    List.all_eq_true.2 (fun p hp => by simpa using .inr (fun i hi => mem_eq_false (hfree p hp i hi)))
  unfold defineGroup
  dsimp only
  rw [checked_passed (firstFail_none (by simp [hn12, hg, hnew, hw, hw1, hok, hall]))]
  exact deferred_congr (if_neg (by omega))

theorem defineGroup_dissolves {x : Group} (hn : byteAt b 9 = 0) (hg : field b 0x0A 2 ≤ 15) (hx : Tbl.get? s.groups (field b 0x0A 2) = some x)
    (hc : x.ctx = byteAt b 8) : defineGroup box b s =
      deferred box (.group (field b 0x0A 2)) (field b 0x0A 2) [] (dissolveGroup (field b 0x0A 2)) s := by
  have hl : groupList b = [] := by simp [groupList, hn, upto]
  unfold defineGroup
  dsimp only
  rw [hl, checked_passed (firstFail_none (by simp [hn, hg, hx, hc, mem]))]
  exact deferred_congr (if_pos hn)

/-- A group takes effect. -/
def Group.taken (x : Group) : Group := { x with inForce := true }

theorem groupEffect_takes {g : Nat} {x : Group} (hx : Tbl.get? s.groups g = some x) (hf : x.inForce = false) (hs : ∀ i ∈ x.members, i ∈ x.seen) :
    Tbl.get? (groupEffect g s).groups g = some x.taken ∧ (Safety.quiet s → Safety.quiet (groupEffect g s)) := by
  have hall : x.members.all (mem x.seen) = true := List.all_eq_true.2 (fun i hi => mem_eq_true.2 (hs i hi))
  have heff : groupEffect g s = notify (.group g) 0 (modGroup g Group.taken s) := by
    rw [groupEffect, hx]
    exact if_pos (by rw [hf, hall]; rfl)
  rw [heff]
  refine ⟨(Tbl.get?_adjust_self s.groups g Group.taken).trans ?_, fun h => quiet_of_parts h rfl rfl rfl⟩
  rw [hx]
  rfl

theorem putGroup_box_seq (g : Nat) (x : Group) (k : Nat) : ((putGroup g x s).box k).seq = (s.box k).seq :=
  (notify_box_seq (s := s) (.group g) 0x0A k).trans rfl

theorem putGroup_group (g : Nat) (x : Group) : Tbl.get? (putGroup g x s).groups g = some x := Tbl.get?_set_self ..

theorem putGroup_quiet {g : Nat} {x : Group} (h : Safety.quiet s) : Safety.quiet (putGroup g x s) := quiet_of_parts h rfl rfl rfl

theorem putGroup_not_met {g v : Nat} : (Await.group g).met v (putGroup g (askedGroup b) s) = false := by
  rw [Await.met, putGroup_group]
  rfl

theorem advance_groupOk (dt : Nat) (s : State) (c : Nat) (l : List Nat) : groupOk (advance dt s) c l = groupOk s c l := by
  rw [advance_eq]; rfl

theorem dissolveGroup_gone (g : Nat) (h : Tbl.wf s.groups = true) : Tbl.get? (dissolveGroup g s).groups g = none := Tbl.get?_erase_self _ _ h

theorem dissolveGroup_box_seq (g k : Nat) : ((dissolveGroup g s).box k).seq = (s.box k).seq :=
  (notify_box_seq (s := s) (.group g) 0x0A k).trans rfl

/-! ### The requests as they are answered -/

/-- What ATTACH_STREAM leaves. -/
theorem attachStream_pends (h : ∀ c ∈ attachChecks s (field b 0x0A 2) (attachFields b), c.1 = true) (hq : Safety.quiet s)
    (hr : (s.box box).room = true) (hseq : (s.box box).seq = (t.box box).seq) :
    Safety.answered t (settle old (attachStream box b s)) box 0 1 [] ∧
      Tbl.get? (settle old (attachStream box b s)).streams (field b 0x0A 2) = some (attachFields b) ∧
      ((settle old (attachStream box b s)).port (attachFields b).port).st ≠ .off := by
  have hstream := addStream_stream (s := s) (id := field b 0x0A 2) (x := attachFields b)
  have hport := addStream_port (s := s) (id := field b 0x0A 2) (x := attachFields b)
  have hqa : Safety.quiet (addStream (field b 0x0A 2) (attachFields b) s) := addStream_quiet (fun he => by cases he) hq
  have hsa : ((addStream (field b 0x0A 2) (attachFields b) s).box box).seq = (t.box box).seq := hseq
  have hmet : (Await.attach (field b 0x0A 2)).met (field b 0x0A 2) (addStream (field b 0x0A 2) (attachFields b) s) = false := by
    rw [Await.met, hstream]; rfl
  rw [attachStream_defers h, deferred_pending hmet hr]
  generalize addStream _ _ s = z at hstream hport hqa hsa
  refine ⟨answered_answer _ _ _ _ _ _ _ ((owe_box_seq _).trans hsa), ?_⟩
  rw [settle_streams_quiet (answer_quiet (owe_quiet hqa)), settle_ports_quiet (answer_quiet (owe_quiet hqa))]
  exact ⟨hstream, hport⟩

/-- What the first Frame Start of an attaching stream leaves. -/
theorem streamAttached_settles {id : Nat} (hx : Tbl.get? s.streams id = some x) (hst : x.st = .attaching) (hp : (s.port x.port).st = .up)
    (hq : Safety.quiet s) : Tbl.get? (settle old (streamAttached id s)).streams id = some x.attached ∧
      ((settle old (streamAttached id s)).ring x.ctx x.ring).stream = true := by
  obtain ⟨hstreams, hrings, hfaults, hpkt⟩ := streamAttached_attaches hx hst hp
  have hqa : Safety.quiet (streamAttached id s) := quiet_of_parts (attachTo_quiet hx hq) (congrArg Faults.safe hfaults) hstreams hpkt
  have hr : (streamAttached id s).ring x.ctx x.ring = (attachTo id x s).ring x.ctx x.ring := by unfold State.ring; rw [hrings]
  rw [settle_streams_quiet hqa, settle_ring_quiet hqa, hstreams, hr]
  exact ⟨attachTo_stream hx, attachTo_ring⟩

/-- What DETACH_STREAM of an attached stream leaves while its frame is open. -/
theorem detachStream_pends {w : Nat} (hm : byteAt b 9 = 0) (hx : Tbl.get? s.streams (field b 0x0A 2) = some x) (hc : x.ctx = byteAt b 8)
    (hst : x.st = .attached) (hcur : x.cur = some w) (hq : Safety.quiet s) (hr : (s.box box).room = true)
    (hseq : (s.box box).seq = (t.box box).seq) : Safety.answered t (settle old (detachStream box b s)) box 0 1 [] ∧
      Tbl.get? (settle old (detachStream box b s)).streams (field b 0x0A 2) = some x.leaves := by
  rw [detachStream_waits hm hx hc hst hcur hq, deferred_pending (leaves_not_met hx) hr]
  refine ⟨answered_answer _ _ _ _ _ _ _ ((owe_box_seq _).trans hseq), ?_⟩
  rw [settle_streams_none_ready (u := answer box 0 1 [] (owe box _ (modStream _ Stream.leaves s))) hq.1 (waits_none_ready hx hcur hq)]
  exact leaves_stream hx

/-- What DETACH_STREAM of a stream that was not attached leaves. -/
theorem detachStream_done (hm : byteAt b 9 ≤ 1) (hx : Tbl.get? s.streams (field b 0x0A 2) = some x) (hc : x.ctx = byteAt b 8)
    (hst : x.st = .attaching) (hw : Tbl.wf s.streams = true) (hs : s.faults.safe ≠ .entering) (hseq : (s.box box).seq = (t.box box).seq) :
    Safety.answered t (settle old (detachStream box b s)) box 0 0 [] ∧
      Tbl.get? (settle old (detachStream box b s)).streams (field b 0x0A 2) = none := by
  obtain ⟨hstreams, -, hkeep⟩ := dropStream_present hx
  have hgone : streamGone (field b 0x0A 2) (dropStream (field b 0x0A 2) s) := by
    unfold streamGone
    rw [hstreams]
    exact ⟨Tbl.wf_erase _ _ hw, Tbl.get?_erase_self _ _ hw⟩
  have hsafe : (dropStream (field b 0x0A 2) s).faults.safe ≠ .entering := by rw [dropStream_faults]; exact hs
  have hmet : (Await.detach (field b 0x0A 2)).met (field b 0x0A 2) (dropStream (field b 0x0A 2) s) = true := by
    rw [Await.met, Tbl.has, hgone.2]; rfl
  rw [detachStream_drops hm hx hc hst, deferred_done hmet]
  have hsd := (hkeep box).trans hseq
  generalize dropStream _ s = z at hgone hsafe hsd
  refine ⟨answered_answer _ _ _ _ _ _ _ hsd, ?_⟩
  rw [settle_streams_of_not_entering (u := answer box 0 0 [] z) hsafe]
  exact (streamGone_finishDetaches (s := answer box 0 0 [] z) hgone).2

/-- What DEFINE_SYNC_GROUP of new members leaves. -/
theorem defineGroup_pends (hg : defineGroup box b s = deferred box (.group (field b 0x0A 2)) (field b 0x0A 2) []
      (putGroup (field b 0x0A 2) (askedGroup b)) s) (hq : Safety.quiet s) (hr : (s.box box).room = true)
    (hseq : (s.box box).seq = (t.box box).seq) : Safety.answered t (settle old (defineGroup box b s)) box 0 1 [] ∧
      Tbl.get? (settle old (defineGroup box b s)).groups (field b 0x0A 2) = some (askedGroup b) := by
  rw [hg, deferred_pending putGroup_not_met hr]
  refine ⟨answered_answer _ _ _ _ _ _ _ ((owe_box_seq _).trans ((putGroup_box_seq ..).trans hseq)), ?_⟩
  rw [settle_groups_quiet (answer_quiet (owe_quiet (putGroup_quiet hq)))]
  exact putGroup_group ..

/-- What a dissolved group leaves. -/
theorem defineGroup_done {y : Group} (hn : byteAt b 9 = 0) (hg : field b 0x0A 2 ≤ 15) (hy : Tbl.get? s.groups (field b 0x0A 2) = some y)
    (hc : y.ctx = byteAt b 8) (hw : Tbl.wf s.groups = true) (hs : s.faults.safe ≠ .entering) (hseq : (s.box box).seq = (t.box box).seq) :
    Safety.answered t (settle old (defineGroup box b s)) box 0 0 [] ∧
      Tbl.get? (settle old (defineGroup box b s)).groups (field b 0x0A 2) = none := by
  have hgone := dissolveGroup_gone (s := s) (field b 0x0A 2) hw
  have hmet : (Await.group (field b 0x0A 2)).met (field b 0x0A 2) (dissolveGroup (field b 0x0A 2) s) = true := by rw [Await.met, hgone]
  have hsafe : (dissolveGroup (field b 0x0A 2) s).faults.safe ≠ .entering := hs
  have hsd := (dissolveGroup_box_seq (s := s) (field b 0x0A 2) box).trans hseq
  rw [defineGroup_dissolves hn hg hy hc, deferred_done hmet]
  generalize dissolveGroup _ s = z at hgone hsafe hsd
  refine ⟨answered_answer _ _ _ _ _ _ _ hsd, ?_⟩
  rw [settle_groups_of_not_entering (u := answer box 0 0 [] z) hsafe]
  exact groupGone_finishDetaches (s := answer box 0 0 [] z) _ hgone

theorem advance_not_entering {code : Nat} (dt : Nat) (h : Safety.due s box code) : (advance dt s).faults.safe ≠ .entering := by
  simp [safe_of_due h]

theorem advance_quiet (dt : Nat) (h : Safety.quiet s) : Safety.quiet (advance dt s) := quiet_of_parts h (by simp) (by simp) (by simp)

end

/-- Settles O36: each request by what it defers, and what follows it by the streams that may still leave. -/
theorem streamsAttachAndDetach : Obligations.StreamsAttachAndDetach := by
  unfold Obligations.StreamsAttachAndDetach
  refine ⟨?attach, ?attached, ?waits, ?atOnce, ?define, ?dissolve, ?effect⟩
  case attach =>
    intro dt id s hdue hq hid hchecks hroom
    rw [hid] at hchecks ⊢
    refine ⟨_, exec_attachStream dt 256 s rfl, ?_⟩
    rw [command_due hdue anyReq rfl]
    exact attachStream_pends (by rw [advance_attachChecks]; exact hchecks) (advance_quiet dt hq) ((advance_room dt s 256).trans hroom)
      (advance_seq dt s 256)
  case attached =>
    intro dt id x s hid hq hx hst hp
    refine ⟨_, exec_streamAttached dt id s (by simpa [Instr.wf] using hid), ?_⟩
    exact streamAttached_settles (by rw [advance_streams]; exact hx) hst (by rw [advance_port]; exact hp) (advance_quiet dt hq)
  case waits =>
    intro dt id w x s hdue hq hm hid hx hc hst hcur hroom
    rw [hid] at hx ⊢
    refine ⟨_, exec_detachAfterFrame dt 256 s rfl, ?_⟩
    rw [command_due hdue _ (by simp [hm])]
    exact detachStream_pends hm (by rw [advance_streams]; exact hx) hc hst hcur (advance_quiet dt hq) ((advance_room dt s 256).trans hroom)
      (advance_seq dt s 256)
  case atOnce =>
    intro dt id x s hdue hm hid hx hc hst hwf
    rw [hid] at hx ⊢
    refine ⟨_, exec_detachAtOnce dt 256 s rfl, ?_⟩
    rw [command_due hdue _ (by simp [hm])]
    exact detachStream_done (by omega) (by rw [advance_streams]; exact hx) hc hst (by rw [advance_streams]; exact hwf)
      (advance_not_entering dt hdue) (advance_seq dt s 256)
  case define =>
    intro dt g n w s hdue hq hn hg hw hn1 hn12 hg15 hnew hw1 hw1000 hok hfree hroom
    rw [hn] at hn1 hn12
    rw [hg] at hg15 hnew ⊢
    rw [hw] at hw1 hw1000 ⊢
    refine ⟨_, exec_defineSyncGroup dt 256 s rfl, ?_⟩
    rw [command_due hdue anyReq rfl]
    exact defineGroup_pends (defineGroup_defines hn1 hn12 hg15 (by rw [advance_groups]; exact hnew) hw1 hw1000
      (by rw [advance_groupOk]; exact hok) (by rw [advance_groups]; exact hfree)) (advance_quiet dt hq) ((advance_room dt s 256).trans hroom)
      (advance_seq dt s 256)
  case dissolve =>
    intro dt g x s hdue hn hg hg15 hx hc hwf
    rw [hg] at hg15 hx ⊢
    refine ⟨_, exec_defineSyncGroup dt 256 s rfl, ?_⟩
    rw [command_due hdue anyReq rfl]
    exact defineGroup_done hn hg15 (by rw [advance_groups]; exact hx) hc (by rw [advance_groups]; exact hwf) (advance_not_entering dt hdue)
      (advance_seq dt s 256)
  case effect =>
    intro dt g x s hg hq hx hf hs
    refine ⟨_, exec_syncGroupEffect dt g s (by simpa [Instr.wf] using hg), ?_⟩
    obtain ⟨htaken, hqt⟩ := groupEffect_takes (s := advance dt s) (by rw [advance_groups]; exact hx) hf hs
    rw [settle_groups_quiet (hqt (advance_quiet dt hq))]
    exact htaken

end Sys2Proof.Machine
end

section
/-! SUPPORT. Admission and retirement of bindings (05 R156, R157, 07 R227-R230), and the statement that they settle. -/

namespace Sys2Proof.Machine

section
variable {α : Type}

theorem Tbl.mem_erase {t : Tbl α} {k : Nat} {p : Nat × α} (h : p ∈ Tbl.erase t k) : p ∈ t := by
  induction t with
  | nil => exact h
  | cons q t ih =>
    obtain ⟨j, w⟩ := q
    rw [Tbl.erase] at h
    split at h
    · exact List.mem_cons_of_mem _ h
    · split at h
      · exact h
      · exact (List.mem_cons.1 h).elim (fun he => he ▸ List.mem_cons_self ..) (fun h => List.mem_cons_of_mem _ (ih h))

theorem Tbl.get?_mem {t : Tbl α} {k : Nat} {v : α} (h : Tbl.get? t k = some v) : (k, v) ∈ t := by
  induction t with
  | nil => cases h
  | cons q t ih =>
    obtain ⟨j, w⟩ := q
    rw [Tbl.get?] at h
    split at h
    · next hk => rw [hk, Option.some.inj h]; exact List.mem_cons_self ..
    · split at h
      · cases h
      · exact List.mem_cons_of_mem _ (ih h)

end

section
variable {s t u old : State} {box h : Nat} {b : List Byte} {x : Binding}

/-! ### What uses a binding -/

/-- The bindings and what may use them: streams, entries and gatherings. -/
def useView (s : State) : Tbl Binding × Tbl Stream × Tbl Ring × Tbl Work := (s.bindings, s.streams, s.rings, s.works)

theorem bindings_of_useView (hv : useView t = useView s) : t.bindings = s.bindings := congrArg Prod.fst hv

/-- Nothing of the block uses a binding. -/
def unused (h : Nat) (s : State) : Prop := (∀ p ∈ s.works, p.2.binding ≠ h) ∧ (∀ p ∈ s.streams, p.2.binding ≠ h) ∧
  ∀ p ∈ s.rings, ∀ e ∈ p.2.entries, e.inFlight h = false

theorem bindingBusy_eq_false : bindingBusy s h = false ↔ unused h s := by
  simp only [bindingBusy, Bool.or_eq_false_iff, List.any_eq_false, decide_eq_true_eq, unused, and_assoc, List.any_eq_true, not_exists, not_and,
    Bool.not_eq_true]

theorem unused_of_parts (hu : unused h s) (hw : t.works = s.works) (hs : t.streams = s.streams) (hr : t.rings = s.rings) : unused h t := by
  unfold unused at *
  rwa [hw, hs, hr]

theorem advance_unused (dt : Nat) (hb : bindingBusy s h = false) : unused h (advance dt s) :=
  unused_of_parts (bindingBusy_eq_false.1 hb) (advance_works ..) (advance_streams ..) (advance_rings ..)

theorem hasStreams_unused (hu : unused h s) : hasStreams s h = false := List.any_eq_false.2 (fun p hp => by simpa using hu.2.1 p hp)

theorem liveInFlight_unused (hu : unused h s) : liveInFlight s h = false :=
  List.any_eq_false.2 (fun p hp => by simp [hu.1 p hp])

/-- A ring of the table, or one that was never made. -/
theorem ring_entries_idle (hu : unused h s) (c n : Nat) (e : Entry) (he : e ∈ (s.ring c n).entries) : e.inFlight h = false := by
  unfold State.ring Tbl.getD at he
  cases hr : Tbl.get? s.rings (ringKey c n) with
  | none => rw [hr] at he; cases he
  | some r => rw [hr] at he; exact hu.2.2 _ (Tbl.get?_mem hr) e he

theorem unused_modRing (hu : unused h s) (c n : Nat) : unused h (modRing c n (fun r => { r with stream := false }) s) := by
  refine ⟨hu.1, hu.2.1, fun p hp e he => ?_⟩
  rcases Tbl.mem_set (t := s.rings) hp with rfl | hp
  · exact ring_entries_idle hu c n e he
  · exact hu.2.2 p hp e he

theorem unused_when {c : Bool} {f : State → State} (hu : unused h s) (hf : unused h (f s)) : unused h (when c f s) := by
  unfold when
  split
  · exact hf
  · exact hu

theorem unused_dropStream (i : Nat) (hu : unused h s) : unused h (dropStream i s) := by
  cases hi : Tbl.get? s.streams i with
  | none => rwa [dropStream_absent hi]
  | some y =>
    unfold dropStream
    rw [hi]
    dsimp -zeta only
    extract_lets sg s1 sc s2 onRing s3 s4
    have h2 : unused h s2 := ⟨hu.1, fun p hp => hu.2.1 p (Tbl.mem_erase hp), hu.2.2⟩
    have h3 : unused h s3 := unused_when h2 (unused_modRing h2 _ _)
    have h4 : unused h s4 := unused_when h3 (unused_of_parts h3 rfl rfl rfl)
    exact unused_of_parts h4 rfl rfl rfl

theorem unused_finishDetaches (hu : unused h s) : unused h (finishDetaches s) := forEach_invariant _ (fun i _ => unused_dropStream i) _ _ hu

/-! ### The end of a binding -/

/-- A retired binding that has left the plan and that nothing uses ends. -/
theorem endBinding_ends (hx : Tbl.get? s.bindings h = some x) (hst : x.st = .retiring) (hc : x.cls = none) (hu : unused h s)
    (hw : Tbl.wf s.bindings = true) : Tbl.get? (endBinding h s).bindings h = none ∧
      (∀ k, ((endBinding h s).box k).seq = (s.box k).seq) := by
  have hcond : (x.st == .retiring && x.cls.isNone && !bindingBusy s h && !hasStreams s h) = true := by
    rw [hst, hc, bindingBusy_eq_false.2 hu, hasStreams_unused hu]; rfl
  unfold endBinding
  rw [hx]
  dsimp only
  rw [if_pos hcond]
  exact ⟨Tbl.get?_erase_self _ _ hw, fun k => (notify_box_seq ..).trans ((notify_box_seq ..).trans rfl)⟩

/-- A binding that is still in the plan stays. -/
theorem endBinding_planned (hx : Tbl.get? s.bindings h = some x) (hc : x.cls ≠ none) : endBinding h s = s := by
  unfold endBinding
  rw [hx]
  exact if_neg (by simp [hc])

theorem modBinding_get {f : Binding → Binding} (hx : Tbl.get? s.bindings h = some x) : Tbl.get? (modBinding h f s).bindings h = some (f x) := by
  refine (Tbl.get?_adjust_self s.bindings h f).trans ?_
  rw [hx]
  rfl

/-! ### ADMIT_BINDING -/

theorem placeSegments_bindings (gen : Nat) (i : Image) : (placeSegments h gen i s).bindings = s.bindings := by
  refine forEach_keeps (·.bindings) _ (fun p s => ?_) _ _
  split
  · refine forEach_keeps (·.bindings) _ (fun k s => ?_) _ _
    unfold placeSegment; split <;> rfl
  · rfl

theorem placeSegments_boxes (gen : Nat) (i : Image) : (placeSegments h gen i s).boxes = s.boxes := by
  refine forEach_keeps (·.boxes) _ (fun p s => ?_) _ _
  split
  · refine forEach_keeps (·.boxes) _ (fun k s => ?_) _ _
    unfold placeSegment; split <;> rfl
  · rfl

theorem wantOpp_frame (p : Nat) (s : State) : useView (wantOpp p s) = useView s ∧ (wantOpp p s).boxes = s.boxes := by
  unfold wantOpp requestOpp
  repeat' split
  all_goals exact ⟨rfl, rfl⟩

/-- A binding as its admission leaves it. -/
def admittedAs (cls prec opp : Nat) (q : List Nat × List Nat × Option Nat) (x : Binding) : Binding :=
  { x with st := .admitted, cls := some cls, precedence := prec, opp, quiresA := q.1, quiresB := q.2.1, spare := q.2.2, tableGen := x.gen }

/-- Segments, the press period and the operating point follow an admission; the bindings and mailboxes do not. -/
theorem takeAdmission_frame (cls prec opp : Nat) (i : Image) (q : List Nat × List Nat × Option Nat) :
    (takeAdmission h cls prec opp i q s).bindings = Tbl.adjust s.bindings h (admittedAs cls prec opp q) ∧
      (takeAdmission h cls prec opp i q s).boxes = s.boxes := by
  unfold takeAdmission
  extract_lets first s1 m s2 gen s3 p s4
  have h2 : s2.bindings = s1.bindings ∧ s2.boxes = s1.boxes := ⟨(when_keeps _ (·.bindings) _ _ rfl).trans rfl, (when_keeps _ (·.boxes) _ _ rfl).trans rfl⟩
  have h4 : s4.bindings = s1.bindings ∧ s4.boxes = s1.boxes := by
    have h3 : s3.bindings = s1.bindings ∧ s3.boxes = s1.boxes :=
      ⟨(placeSegments_bindings ..).trans h2.1, (placeSegments_boxes ..).trans h2.2⟩
    unfold s4
    split
    · exact h3
    · exact h3
  split
  · exact ⟨(bindings_of_useView (wantOpp_frame ..).1).trans h4.1, (wantOpp_frame ..).2.trans h4.2⟩
  · exact h4

theorem advance_fastest (dt : Nat) (s : State) : (advance dt s).power.fastest = s.power.fastest := by simp
theorem advance_slowest (dt : Nat) (s : State) : (advance dt s).power.slowest = s.power.slowest := by simp
theorem advance_period (dt : Nat) (s : State) : (advance dt s).press.period = s.press.period := by simp
theorem advance_spares (dt : Nat) (s : State) : (advance dt s).press.spares = s.press.spares := by simp
theorem advance_unheldPlaces (dt : Nat) (s : State) : unheldPlaces (advance dt s) = unheldPlaces s := by rw [advance_eq]; rfl
theorem advance_admittedSum (dt : Nat) (s : State) (f : Image → Nat) : admittedSum (advance dt s) f = admittedSum s f := by simp [admittedSum]

theorem admitBinding_admits {i : Image} {q : List Nat × List Nat × Option Nat} (hx : Tbl.get? s.bindings (field b 0x0C 4) = some x)
    (hi : x.image = some i) (hcls : byteAt b 9 ≤ 1) (hprec : byteAt b 0x0A ≤ 15) (hopp : byteAt b 0x0B ≤ 2) (hadm : x.admitted = false)
    (hst : x.st ≠ .retiring) (hclass : bit i.classes (byteAt b 9) = true) (hfast : s.power.fastest ≤ byteAt b 0x0B)
    (hslow : byteAt b 0x0B ≤ s.power.slowest) (htable : i.slots.getD (byteAt b 0x0B) [] ≠ [])
    (hperiod : anyAdmitted s = true → i.periodSlots = s.press.period) (hspares : byteAt b 9 = 0 → 1 ≤ s.press.spares)
    (hcoeff : ∀ c ∈ i.coeffs, c.resident = true ∧ c.data ≠ none) (hkib : i.coeffKib ≤ 16384) (hseg : residentSegs i ≤ unheldPlaces s)
    (hrd : admittedSum s Image.rdBytes + i.rdBytes ≤ slotBandwidth (byteAt b 0x0B))
    (hwr : admittedSum s Image.wrBytes + i.wrBytes ≤ slotBandwidth (byteAt b 0x0B))
    (hq : placement s i (byteAt b 9 = 0) (byteAt b 0x0B) = .ok q) : admitBinding box b s = answer box 0 0
      (leBytes (leafSlots (byteAt b 9 = 0) (i.slots.getD (byteAt b 0x0B) [])) 4 ++ leBytes i.periodSlots 4 ++ leBytes x.gen 4)
      (takeAdmission (field b 0x0C 4) (byteAt b 9) (byteAt b 0x0A) (byteAt b 0x0B) i q s) := by
  have hcoeffs : i.coeffs.all (fun c => c.resident && c.data.isSome) = true := List.all_eq_true.2 (fun c hc => by
    obtain ⟨hres, hdata⟩ := hcoeff c hc
    rw [hres, Option.isSome_iff_ne_none.2 hdata]; rfl)
  have hper : (!anyAdmitted s || decide (i.periodSlots = s.press.period)) = true := by
    cases ha : anyAdmitted s
    · rfl
    · simpa using hperiod ha
  have hsp : (!decide (byteAt b 9 = 0) || decide (1 ≤ s.press.spares)) = true := by
    by_cases hz : byteAt b 9 = 0
    · simpa [hz] using hspares hz
    · simp [hz]
  have hempty : (i.slots.getD (byteAt b 0x0B) []).isEmpty = false := by simpa using htable
  unfold admitBinding
  dsimp only
  rw [hx, Option.bind_some, hi, Option.map_some]
  dsimp only
  rw [checked_passed (firstFail_none ?checks), hq]
  case checks =>
    simp only [List.mem_cons, List.not_mem_nil, or_false]
    rintro c (rfl | rfl | rfl | rfl | rfl | rfl | rfl | rfl | rfl | rfl)
    · simpa using hcls
    · simpa using hprec
    · simpa using hopp
    · simpa [hadm] using hst
    · exact hclass
    · simpa using ⟨hfast, hslow⟩
    · rw [hempty]; rfl
    · simp [hper, hsp]
    · simpa [hcoeffs] using ⟨hkib, hseg⟩
    · simpa using ⟨hrd, hwr⟩

/-! ### RETIRE_BINDING -/

/-- A binding that is being retired, which stays in the plan where it was admitted. -/
def Binding.retired (x : Binding) : Binding := { x with st := .retiring, cls := if x.admitted then x.cls else none }

/-- What RETIRE_BINDING does: a binding that is not in the plan and that nothing uses ends at once. -/
def retireEffect (h : Nat) (s : State) : State := endBinding h (modBinding h Binding.retired s)

theorem retireBinding_passes (hx : Tbl.get? s.bindings (field b 0x0C 4) = some x) (hm : box = 256 ∨ x.admitted = false) (hst : x.st ≠ .retiring) :
    retireBinding box b s = deferred box (.retire (field b 0x0C 4)) (field b 0x0C 4) [] (retireEffect (field b 0x0C 4)) s := by
  have hmay : mayChange s box (field b 0x0C 4) = true := by
    unfold mayChange
    rw [hx]
    rcases hm with rfl | hm
    · rfl
    · simp [hm]
  unfold retireBinding
  dsimp only
  rw [checked_passed (firstFail_none (by simp [liveHandle, Tbl.has, notRetiring, hx, hmay, hst]))]
  rfl

/-- What a request answered at once leaves: the handle is invalid. -/
theorem retireBinding_done (hx : Tbl.get? s.bindings (field b 0x0C 4) = some x) (hadm : x.admitted = false) (hst : x.st ≠ .retiring)
    (hu : unused (field b 0x0C 4) s) (hw : Tbl.wf s.bindings = true) (hseq : (s.box box).seq = (t.box box).seq) :
    Safety.answered t (settle old (retireBinding box b s)) box 0 0 [] ∧
      Tbl.get? (settle old (retireBinding box b s)).bindings (field b 0x0C 4) = none := by
  have hret := modBinding_get (f := Binding.retired) hx
  obtain ⟨hgone, hkeep⟩ := endBinding_ends hret rfl (by simp [Binding.retired, hadm])
    (unused_of_parts hu rfl rfl rfl) (Tbl.wf_adjust _ _ _ hw)
  have hs := (hkeep box).trans hseq
  have hmet : (Await.retire (field b 0x0C 4)).met (field b 0x0C 4) (retireEffect (field b 0x0C 4) s) = true := by
    rw [retireEffect, Await.met, Tbl.has, hgone]; rfl
  rw [retireBinding_passes hx (.inr hadm) hst, deferred_done hmet, settle_bindings]
  exact ⟨answered_answer _ _ _ _ _ _ _ hs, hgone⟩

/-- What a request on an admitted binding leaves: the binding is being retired and keeps its class. -/
theorem retireBinding_pends (hx : Tbl.get? s.bindings (field b 0x0C 4) = some x) (hadm : x.admitted = true) (hc : x.cls ≠ none)
    (hst : x.st ≠ .retiring) (hr : (s.box 256).room = true) (hseq : (s.box 256).seq = (t.box 256).seq) :
    Safety.answered t (settle old (retireBinding 256 b s)) 256 0 1 [] ∧
      Tbl.get? (settle old (retireBinding 256 b s)).bindings (field b 0x0C 4) = some x.retired := by
  have hret := modBinding_get (f := Binding.retired) hx
  have hstay : retireEffect (field b 0x0C 4) s = modBinding (field b 0x0C 4) Binding.retired s :=
    endBinding_planned hret (by simp [Binding.retired, hadm, hc])
  have hmet : (Await.retire (field b 0x0C 4)).met (field b 0x0C 4) (retireEffect (field b 0x0C 4) s) = false := by
    rw [hstay, Await.met, Tbl.has, hret]; rfl
  rw [retireBinding_passes hx (.inl rfl) hst, deferred_pending hmet hr, hstay, settle_bindings]
  exact ⟨answered_answer _ _ _ _ _ _ _ ((owe_box_seq _).trans hseq), hret⟩

/-! ### Leaving the plan -/

theorem releaseStore_frame (qs : List Nat) (kib : Nat) (s : State) : useView (releaseStore qs kib s) = useView s := by
  unfold releaseStore
  split
  · rfl
  · rfl

theorem gateSpareable_useView (s : State) : useView (gateSpareable s) = useView s := by
  refine forEach_keeps useView _ (fun q s => ?_) _ _
  split
  · rfl
  · rfl

theorem reachStandby_useView (s : State) : useView (reachStandby s) = useView s := by
  unfold reachStandby
  split
  · exact (gateSpareable_useView _).trans rfl
  · rfl

theorem actTarget_useView (old : Nat) (s : State) : useView (actTarget old s) = useView s := by
  unfold actTarget
  dsimp only
  split
  · rfl
  · split
    · exact (reachStandby_useView _).trans ((wantOpp_frame ..).1.trans rfl)
    · rfl
  · split
    · exact (wantOpp_frame ..).1.trans rfl
    · rfl

theorem retryTarget_useView (s : State) : useView (retryTarget s) = useView s := by
  unfold retryTarget
  split
  · exact actTarget_useView ..
  · rfl

theorem planShrinks_useView (s : State) : useView (planShrinks s) = useView s := by
  unfold planShrinks
  extract_lets p s1
  have h1 : useView s1 = useView s := by
    unfold s1
    split
    · rfl
    · rfl
  split
  · exact h1
  · exact (retryTarget_useView _).trans h1


theorem detachStreams_unused (hu : unused h s) : detachStreams h s = s := by
  have hmap : s.streams.map (fun p => if p.2.binding = h && (p.2.st == .attached || p.2.st == .attaching) then
      (p.1, { p.2 with st := .detaching, retiring := true }) else p) = s.streams :=
    (List.map_congr_left (fun p hp => if_neg (by simp [hu.2.1 p hp]))).trans (List.map_id' _)
  unfold detachStreams
  rw [hmap]

/-- At a period start a retired binding that nothing uses leaves the plan and ends. -/
theorem leavePlan_ends (hx : Tbl.get? s.bindings h = some x) (hst : x.st = .retiring) (hc : x.cls ≠ none) (hp : atPeriodStart s = true)
    (hu : unused h s) (hw : Tbl.wf s.bindings = true) : Tbl.get? (leavePlan h s).bindings h = none := by
  have hleaving : unused h (modBinding h (fun b => { b with leaving := true }) s) := hu
  have hd : unused h (finishDetaches (detachStreams h (modBinding h (fun b => { b with leaving := true }) s))) := by
    rw [detachStreams_unused hleaving]
    exact unused_finishDetaches hleaving
  have hb : (finishDetaches (detachStreams h (modBinding h (fun b => { b with leaving := true }) s))).bindings =
      (modBinding h (fun b => { b with leaving := true }) s).bindings := by
    rw [detachStreams_unused hleaving, finishDetaches_bindings]
  have hget := modBinding_get (f := fun b => { b with leaving := true }) hx
  have hwl : Tbl.wf (modBinding h (fun b => { b with leaving := true }) s).bindings = true := Tbl.wf_adjust _ _ _ hw
  unfold leavePlan
  rw [hx]
  dsimp only
  rw [if_neg (by simp [hst]), if_pos (Option.isSome_iff_ne_none.2 hc), if_neg (by simp [hp])]
  generalize finishDetaches _ = z at hd hb
  rw [if_neg (by rw [liveInFlight_unused hd]; simp)]
  rw [← hb] at hget hwl
  generalize hy : modBinding h (fun b => { b with cls := none }) (releasePlaces x z) = y
  have hrel : useView (releasePlaces x z) = useView z := releaseStore_frame ..
  have hyu : unused h y := by
    rw [← hy]
    exact unused_of_parts hd (congrArg (·.2.2.2) hrel) (congrArg (·.2.1) hrel) (congrArg (·.2.2.1) hrel)
  have hyb : y.bindings = Tbl.adjust z.bindings h (fun b => { b with cls := none }) := by
    rw [← hy]
    exact congrArg (Tbl.adjust · h (fun b : Binding => { b with cls := none })) (bindings_of_useView hrel)
  have hplan := planShrinks_useView y
  have hpb : (planShrinks y).bindings = Tbl.adjust z.bindings h (fun b => { b with cls := none }) := (bindings_of_useView hplan).trans hyb
  refine (endBinding_ends (x := { x with leaving := true, cls := none }) ?_ hst rfl
    (unused_of_parts hyu (congrArg (·.2.2.2) hplan) (congrArg (·.2.1) hplan) (congrArg (·.2.2.1) hplan)) ?_).1
  · rw [hpb, Tbl.get?_adjust_self, hget]
    rfl
  · rw [hpb]
    exact Tbl.wf_adjust _ _ _ hwl

end

/-- Settles O35: an admission by its checks, a retirement by whether the binding stands in the plan. -/
theorem bindingsAreAdmittedAndRetired : Obligations.BindingsAreAdmittedAndRetired := by
  unfold Obligations.BindingsAreAdmittedAndRetired
  refine ⟨?admission, ?effect, ?idle, ?planned, ?leaves⟩
  case admission =>
    intro dt h cls opp x i q s hdue hh hcls hopp hx hi hc1 hprec ho2 hadm hst hclass hfast hslow htable hperiod hspares hcoeff hkib hseg hrd hwr hq
    refine ⟨_, exec_admitBinding dt 256 s rfl, ?_⟩
    rw [hcls] at hc1 hclass hspares hq ⊢
    rw [hopp] at ho2 hfast hslow htable hrd hwr hq ⊢
    rw [hh] at hx ⊢
    have hxa : Tbl.get? (advance dt s).bindings (field (reqBytes (s.box 256)) 0x0C 4) = some x := by rw [advance_bindings]; exact hx
    obtain ⟨hbind, hboxes⟩ := takeAdmission_frame (s := advance dt s) (h := field (reqBytes (s.box 256)) 0x0C 4) (byteAt (reqBytes (s.box 256)) 9)
      (byteAt (reqBytes (s.box 256)) 0x0A) (byteAt (reqBytes (s.box 256)) 0x0B) i q
    rw [command_due hdue anyReq rfl, admitBinding_admits hxa hi hc1 hprec ho2 hadm hst hclass (by rw [advance_fastest]; exact hfast)
      (by rw [advance_slowest]; exact hslow) htable (by rw [advance_anyAdmitted, advance_period]; exact hperiod) (by rw [advance_spares]; exact hspares)
      hcoeff hkib (by rw [advance_unheldPlaces]; exact hseg) (by rw [advance_admittedSum]; exact hrd) (by rw [advance_admittedSum]; exact hwr) hq]
    refine ⟨answered_answer _ _ _ _ _ _ _ ((congrArg Mbox.seq (box_of_boxes hboxes 256)).trans (advance_seq dt s 256)), ?_⟩
    rw [settle_bindings, show (answer 256 0 0 _ (takeAdmission _ _ _ _ i q (advance dt s))).bindings = _ from hbind, Tbl.get?_adjust_self, hxa]
    rfl
  case effect =>
    intro dt h x s hx hst hp hw ho
    refine ⟨_, exec_admissionTakesEffect dt h s rfl, ?_⟩
    have hxa : Tbl.get? (advance dt s).bindings h = some x := by rw [advance_bindings]; exact hx
    have hcond : (x.st == .admitted && atPeriodStart (advance dt s) && !(advance dt s).power.oppWait && (advance dt s).bookPoint ≤ x.opp) = true := by
      have hpow : (advance dt s).power.oppWait = false ∧ (advance dt s).bookPoint ≤ x.opp := by
        rw [State.bookPoint, advance_power]
        exact ⟨hw, ho⟩
      rw [hst, hp, hpow.1, decide_eq_true hpow.2]
      rfl
    rw [settle_bindings, takeEffect, hxa]
    dsimp only
    rw [if_pos hcond]
    exact modBinding_get hxa
  case idle =>
    intro dt box h x s hb hdue hh hx hadm hst hbusy hstr hw
    rw [hh] at hx hbusy ⊢
    refine ⟨_, exec_retireBinding dt box s (box_wf hb), ?_⟩
    rw [command_due hdue anyReq rfl]
    exact retireBinding_done (by rw [advance_bindings]; exact hx) hadm hst (advance_unused dt hbusy) (by rw [advance_bindings]; exact hw)
      (advance_seq dt s box)
  case planned =>
    intro dt h x s hdue hh hx hadm hc hst hroom
    rw [hh] at hx ⊢
    refine ⟨_, exec_retireBinding dt 256 s rfl, ?_⟩
    rw [command_due hdue anyReq rfl]
    obtain ⟨hans, hret⟩ := retireBinding_pends (s := advance dt s) (t := s) (old := s) (by rw [advance_bindings]; exact hx) hadm hc hst
      ((advance_room dt s 256).trans hroom) (advance_seq dt s 256)
    refine ⟨hans, ?_⟩
    rw [hret, Option.map_some, Binding.retired, hadm]
    rfl
  case leaves =>
    intro dt h x s hx hst hc hp hbusy hstr hw
    refine ⟨_, exec_bindingLeavesPlan dt h s rfl, ?_⟩
    rw [settle_bindings]
    exact leavePlan_ends (by rw [advance_bindings]; exact hx) hst hc hp
      (advance_unused dt hbusy) (by rw [advance_bindings]; exact hw)

end Sys2Proof.Machine
end

section
/-! SUPPORT. Loading of bindings, replacements and coefficient sets (05 R153-R155, R166, 01 R26), and the statement that they settle. -/

namespace Sys2Proof.Machine

section
variable {s t u old : State} {box h g : Nat} {b bs : List Byte} {x : Binding} {i : Image} {mem : ExtMem}

/-! ### Reads of an image -/

theorem besides_presentImage (c a n : Nat) (s : State) : besidesTxs (presentImage c a n s) = besidesTxs s := besides_readTxs ..

/-- What the read of an image leaves of the block, for a command that goes on from it. -/
theorem presentImage_frame (c a n : Nat) (s : State) : useView (presentImage c a n s) = useView s ∧ (presentImage c a n s).boxes = s.boxes ∧
    (presentImage c a n s).ctxs = s.ctxs :=
  ⟨view_besides useView (fun _ => rfl) (besides_presentImage c a n s), view_besides (·.boxes) (fun _ => rfl) (besides_presentImage c a n s),
    view_besides (·.ctxs) (fun _ => rfl) (besides_presentImage c a n s)⟩

theorem advance_firmwareRead (dt : Nat) (s : State) (c : Nat) (mem : ExtMem) (a n : Nat) :
    firmwareRead (advance dt s) c mem a n = firmwareRead s c mem a n := by simp [firmwareRead]

/-- An image that is read and valid goes on to the command. -/
theorem withImage_runs {run : Image → State → State} (hr : firmwareRead s (byteAt b 8) mem (field b 0x10 8) (field b 0x18 4) = .ok bs)
    (hv : validate bs (field b 0x18 4) (field b 0x10 8) = .ok i) : withImage box mem b run s =
      run { i with guards := (s.ctx (byteAt b 8)).guards } (presentImage (byteAt b 8) (field b 0x10 8) (field b 0x18 4) s) := by
  have hctx : (presentImage (byteAt b 8) (field b 0x10 8) (field b 0x18 4) s).ctx (byteAt b 8) = s.ctx (byteAt b 8) := by
    unfold State.ctx; rw [(presentImage_frame ..).2.2]
  unfold withImage
  dsimp only
  rw [hr]
  dsimp only
  rw [hv]
  dsimp only
  rw [hctx]

theorem imageFields_ok (ha : field b 0x10 8 % 4096 = 0) (hb : field b 0x10 8 < 2 ^ 48) (hn : field b 0x18 4 ≤ 2 ^ 25) (c : Bool × Nat × Nat)
    (hc : c ∈ imageFields b) : c.1 = true := by
  simp only [imageFields, List.mem_cons, List.not_mem_nil, or_false] at hc
  rcases hc with rfl | rfl
  · simpa using ⟨ha, hb⟩
  · simpa using hn

theorem unused_of_useView (hv : useView t = useView s) (hu : unused h s) : unused h t :=
  unused_of_parts hu (congrArg (·.2.2.2) hv) (congrArg (·.2.1) hv) (congrArg (·.2.2.1) hv)

/-! ### A new binding -/

/-- A binding stands under a new handle. -/
def addBinding (h : Nat) (x : Binding) (s : State) : State := { s with bindings := Tbl.set s.bindings h x }

theorem loadNew_loads {alloc : Nat} (hh : byteAt b 8 * 2 ^ 24 + alloc = h) (h0 : h ≠ 0) (hnew : Tbl.get? s.bindings h = none)
    (ha : field b 0x10 8 % 4096 = 0) (hb : field b 0x10 8 < 2 ^ 48) (hn : field b 0x18 4 ≤ 2 ^ 25) (hc : ctxBindings s (byteAt b 8) < 64)
    (hl : s.bindings.length < 1024) (hr : firmwareRead s (byteAt b 8) mem (field b 0x10 8) (field b 0x18 4) = .ok bs)
    (hv : validate bs (field b 0x18 4) (field b 0x10 8) = .ok i) : loadNew box mem alloc b s =
      answer box 0 0 (loadPayload h 1 i) (addBinding h (newBinding { i with guards := (s.ctx (byteAt b 8)).guards })
        (presentImage (byteAt b 8) (field b 0x10 8) (field b 0x18 4) s)) := by
  have hchecks : ∀ c ∈ imageFields b ++ [(decide (ctxBindings s (byteAt b 8) < 64) && decide (s.bindings.length < 1024), 0x0D, 2)], c.1 = true := by
    intro c hmem
    rcases List.mem_append.1 hmem with hmem | hmem
    · exact imageFields_ok ha hb hn c hmem
    · rw [List.mem_singleton.1 hmem]
      simpa using ⟨hc, hl⟩
  unfold loadNew
  dsimp only
  rw [hh, if_neg (by simp [h0, Tbl.has, hnew]), checked_passed (firstFail_none hchecks), withImage_runs hr hv]
  rfl

/-! ### A new generation of a binding that nothing uses -/

theorem olderInFlight_unused (hu : unused h s) (g : Nat) : olderInFlight s h g = false := by
  obtain ⟨hw, -, hr⟩ := hu
  have hworks : s.works.any (fun p => p.2.binding = h && p.2.gen < g && p.2.gen ≠ 0) = false :=
    List.any_eq_false.2 (fun p hp => by simp [hw p hp])
  have hrings : s.rings.any (fun p => p.2.entries.any (fun e => e.inFlight h && e.gen < g && e.gen ≠ 0)) = false :=
    List.any_eq_false.2 (fun p hp => by simpa using fun e he hf => absurd hf (by simp [hr p hp e he]))
  unfold olderInFlight
  rw [hworks, hrings]
  rfl

theorem supersede_none (hx : Tbl.get? s.bindings h = some x) (hp : x.pending = none) : supersede h s = s := by
  unfold supersede
  rw [hx]
  dsimp only
  rw [hp]

/-- A binding with a new generation in force. -/
def Binding.moved (g : Nat) (i : Image) (x : Binding) : Binding := { x with lastGen := g, gens := Tbl.set x.gens g i, gen := g, pending := none }

/-- A binding with a new generation pending. -/
def Binding.offered (g : Nat) (i : Image) (x : Binding) : Binding := { x with lastGen := g, gens := Tbl.set x.gens g i, pending := some g }

/-- The state with a new generation of a binding in force. -/
def inForce (h g : Nat) (i : Image) (s : State) : State := promote h (modBinding h (fun b => { b with gens := Tbl.set b.gens g i, pending := some g })
  (modBinding h (fun b => { b with lastGen := g }) s))

theorem inForce_binding (hx : Tbl.get? s.bindings h = some x) : Tbl.get? (inForce h g i s).bindings h = some (x.moved g i) :=
  modBinding_get (modBinding_get (f := fun b => { b with gens := Tbl.set b.gens g i, pending := some g })
    (modBinding_get (f := fun b => { b with lastGen := g }) hx))

theorem acceptUpdate_forces {payload : Nat → List Byte} (hx : Tbl.get? s.bindings h = some x) (hadm : x.admitted = false) (hp : x.pending = none)
    (hu : unused h s) : acceptUpdate box h i payload s = answer box 0 0 (payload (x.lastGen + 1)) (inForce h (x.lastGen + 1) i s) := by
  have hbusy : bindingBusy (modBinding h (fun b => { b with gens := Tbl.set b.gens (x.lastGen + 1) i, pending := some (x.lastGen + 1) })
      (modBinding h (fun b => { b with lastGen := x.lastGen + 1 }) s)) h = false := bindingBusy_eq_false.2 (unused_of_parts hu rfl rfl rfl)
  have hmet : (Await.binding h).met (x.lastGen + 1) (inForce h (x.lastGen + 1) i s) = true := by
    rw [Await.met, bindingFinal, inForce_binding hx]
    dsimp only
    rw [olderInFlight_unused (s := inForce h (x.lastGen + 1) i s) (unused_of_parts hu rfl rfl rfl)]
    simp [Binding.moved]
  have heff : deferred box (.binding h) (x.lastGen + 1) (payload (x.lastGen + 1)) (inForce h (x.lastGen + 1) i) s =
      answer box 0 0 (payload (x.lastGen + 1)) (inForce h (x.lastGen + 1) i s) := deferred_done hmet
  unfold acceptUpdate
  rw [hx]
  dsimp only
  rw [hadm, supersede_none hx hp, if_neg (by simp), ← heff]
  refine deferred_congr ?_
  rw [if_neg (by simp), hbusy]
  rfl

/-! ### The requests -/

theorem mayChange_unadmitted (hx : Tbl.get? s.bindings h = some x) (hadm : x.admitted = false) : mayChange s box h = true := by
  unfold mayChange
  rw [hx]
  simp [hadm]

/-- A valid replacement of a binding in no use. -/
theorem loadReplace_forces (hx : Tbl.get? s.bindings (field b 0x0C 4) = some x) (hadm : x.admitted = false) (hst : x.st ≠ .retiring)
    (hp : x.pending = none) (hu : unused (field b 0x0C 4) s) (ha : field b 0x10 8 % 4096 = 0) (hb : field b 0x10 8 < 2 ^ 48)
    (hn : field b 0x18 4 ≤ 2 ^ 25) (hr : firmwareRead s (byteAt b 8) mem (field b 0x10 8) (field b 0x18 4) = .ok bs)
    (hv : validate bs (field b 0x18 4) (field b 0x10 8) = .ok i) : loadReplace box mem b s =
      answer box 0 0 (loadPayload (field b 0x0C 4) (x.lastGen + 1) i)
        (inForce (field b 0x0C 4) (x.lastGen + 1) { i with guards := (s.ctx (byteAt b 8)).guards }
          (presentImage (byteAt b 8) (field b 0x10 8) (field b 0x18 4) s)) := by
  have hchecks : ∀ c ∈ [(liveHandle s (field b 0x0C 4), 2, 0x0C), (mayChange s box (field b 0x0C 4), 0x10, 0)] ++ imageFields b ++
      [(notRetiring s (field b 0x0C 4), 0x0D, 1)], c.1 = true := by
    intro c hmem
    rcases List.mem_append.1 hmem with hmem | hmem
    · rcases List.mem_append.1 hmem with hmem | hmem
      · simp only [List.mem_cons, List.not_mem_nil, or_false] at hmem
        rcases hmem with rfl | rfl
        · simp [liveHandle, Tbl.has, hx]
        · exact mayChange_unadmitted hx hadm
      · exact imageFields_ok ha hb hn c hmem
    · rw [List.mem_singleton.1 hmem]
      simpa [notRetiring, hx] using hst
  obtain ⟨hview, -, -⟩ := presentImage_frame (byteAt b 8) (field b 0x10 8) (field b 0x18 4) s
  unfold loadReplace
  dsimp only
  rw [checked_passed (firstFail_none hchecks), withImage_runs hr hv]
  generalize presentImage (byteAt b 8) (field b 0x10 8) (field b 0x18 4) s = v at hview
  have hxv : Tbl.get? v.bindings (field b 0x0C 4) = some x := by rw [bindings_of_useView hview]; exact hx
  rw [hxv]
  dsimp only
  rw [hadm]
  exact acceptUpdate_forces hxv hadm hp (unused_of_useView hview hu)

/-- A coefficient set of a binding in no use, whose bytes have the CRC that the request gives. -/
theorem loadCoeff_forces {r : CoeffRec} (hx : Tbl.get? s.bindings (field b 0x0C 4) = some x) (hi : x.image = some i) (hadm : x.admitted = false)
    (hst : x.st ≠ .retiring) (hp : x.pending = none) (hu : unused (field b 0x0C 4) s) (hk : byteAt b 9 ≤ 2)
    (hrec : coeffRecord s (field b 0x0C 4) (byteAt b 9) (field b 0x0A 2) = some r) (hsize : r.size = field b 0x18 4)
    (hr : firmwareRead s (byteAt b 8) mem (field b 0x10 8) (field b 0x18 4) = .ok bs) (hcrc : crc32c bs = field b 0x1C 4) :
    ∃ j, loadCoeff box mem b s = answer box 0 0 (leBytes (x.lastGen + 1) 4) (inForce (field b 0x0C 4) (x.lastGen + 1) j
      (presentImage (byteAt b 8) (field b 0x10 8) (field b 0x18 4) s)) := by
  obtain ⟨hview, -, -⟩ := presentImage_frame (byteAt b 8) (field b 0x10 8) (field b 0x18 4) s
  unfold loadCoeff
  dsimp only
  rw [hrec, checked_passed (firstFail_none ?checks), hr]
  case checks =>
    simp only [List.mem_cons, List.not_mem_nil, or_false]
    rintro c (rfl | rfl | rfl | rfl | rfl | rfl)
    · simp [liveHandle, Tbl.has, hx]
    · simpa using hk
    · rfl
    · simpa using hsize
    · exact mayChange_unadmitted hx hadm
    · simpa [notRetiring, hx] using hst
  dsimp only
  generalize presentImage (byteAt b 8) (field b 0x10 8) (field b 0x18 4) s = v at hview
  have hxv : Tbl.get? v.bindings (field b 0x0C 4) = some x := by rw [bindings_of_useView hview]; exact hx
  rw [if_neg (by simpa using hcrc), hxv, Option.bind_some, hi]
  exact ⟨_, acceptUpdate_forces hxv hadm hp (unused_of_useView hview hu)⟩

theorem presentImage_seq (c a n : Nat) (k : Nat) : ((presentImage c a n s).box k).seq = (s.box k).seq :=
  congrArg Mbox.seq (box_of_boxes (presentImage_frame ..).2.1 k)

/-- What a statement reads of an answered update. -/
theorem loaded_answered {c a n : Nat} {p : List Byte} (hx : Tbl.get? s.bindings h = some x) (hseq : (s.box box).seq = (t.box box).seq) :
    Safety.answered t (settle old (answer box 0 0 p (inForce h g i (presentImage c a n s)))) box 0 0 p ∧
      Tbl.get? (settle old (answer box 0 0 p (inForce h g i (presentImage c a n s)))).bindings h = some (x.moved g i) := by
  obtain ⟨hview, -, -⟩ := presentImage_frame c a n s
  have hseqv := (presentImage_seq (s := s) c a n box).trans hseq
  generalize presentImage c a n s = v at hview hseqv
  rw [settle_bindings]
  exact ⟨answered_answer _ _ _ _ _ _ _ hseqv, inForce_binding (by rw [bindings_of_useView hview]; exact hx)⟩

end

/-- Settles O34: each load by the image or set that it reads, and an update of a binding in no use by its new generation. -/
theorem bindingsAreLoaded : Obligations.BindingsAreLoaded := by
  unfold Obligations.BindingsAreLoaded
  refine ⟨?new, ?replace, ?coeff⟩
  case new =>
    intro dt box alloc h mem s hwf hdue h0f hh h0 hnew ha hb hn hc hl
    refine ⟨_, exec_loadBinding dt box mem alloc s hwf, fun bs i hr hv => ?_⟩
    have hctx : ctxBindings (advance dt s) (byteAt (reqBytes (s.box box)) 8) < 64 := by rw [ctxBindings, advance_bindings]; exact hc
    obtain ⟨hview, -, -⟩ := presentImage_frame (byteAt (reqBytes (s.box box)) 8) (field (reqBytes (s.box box)) 0x10 8)
      (field (reqBytes (s.box box)) 0x18 4) (advance dt s)
    have hseq := presentImage_seq (s := advance dt s) (byteAt (reqBytes (s.box box)) 8) (field (reqBytes (s.box box)) 0x10 8)
      (field (reqBytes (s.box box)) 0x18 4) box
    rw [command_due hdue _ (by simpa using h0f), loadNew_loads hh.symm h0 (by rw [advance_bindings]; exact hnew) ha hb hn hctx
      (by rw [advance_bindings]; exact hl) (by rw [advance_firmwareRead]; exact hr) hv]
    generalize presentImage _ _ _ (advance dt s) = v at hview hseq
    refine ⟨answered_answer _ _ _ _ _ _ _ (hseq.trans (advance_seq dt s box)), ?_⟩
    rw [settle_bindings, advance_ctx]
    refine ⟨Tbl.get?_set_self .., fun k hk => (Tbl.get?_set_ne _ _ _ _ hk).trans ?_⟩
    rw [bindings_of_useView hview, advance_bindings]
  case replace =>
    intro dt box h mem x s hwf hdue hh h0 hx hadm hst hp hbusy ha hb hn
    rw [hh] at h0 hx hbusy ⊢
    refine ⟨_, exec_loadBindingReplace dt box mem s hwf, fun bs i hr hv => ?_⟩
    rw [command_due hdue _ (by simpa using h0), loadReplace_forces (by rw [advance_bindings]; exact hx) hadm hst hp (advance_unused dt hbusy) ha hb hn
      (by rw [advance_firmwareRead]; exact hr) hv]
    obtain ⟨hans, hget⟩ := loaded_answered (s := advance dt s) (t := s) (old := s) (by rw [advance_bindings]; exact hx) (advance_seq dt s box)
    refine ⟨hans, ?_⟩
    rw [hget]
    rfl
  case coeff =>
    intro dt box h mem d r i x s hwf hdue hh hx hi hadm hst hp hbusy hk hrec hsize hr hcrc
    rw [hh] at hx hbusy hrec ⊢
    refine ⟨_, exec_loadCoeff dt box mem s hwf, ?_⟩
    have hra : coeffRecord (advance dt s) (field (reqBytes (s.box box)) 0x0C 4) (byteAt (reqBytes (s.box box)) 9)
        (field (reqBytes (s.box box)) 0x0A 2) = some r := by rw [coeffRecord, advance_bindings]; exact hrec
    obtain ⟨j, hj⟩ := loadCoeff_forces (s := advance dt s) (box := box) (by rw [advance_bindings]; exact hx) hi hadm hst hp (advance_unused dt hbusy)
      hk hra hsize (by rw [advance_firmwareRead]; exact hr) hcrc
    rw [command_due hdue anyReq rfl, hj]
    obtain ⟨hans, hget⟩ := loaded_answered (s := advance dt s) (t := s) (old := s) (by rw [advance_bindings]; exact hx) (advance_seq dt s box)
    refine ⟨hans, ?_⟩
    rw [hget]
    rfl

end Sys2Proof.Machine
end

section
/-! SUPPORT. The life of contexts and mailboxes: whether a context is open, whose mailbox its close waits for, and how far each mailbox's request
has come; and that rings, entries, packet rings and the faults of their reads do not touch it (05 R149, 06 R175). -/

namespace Sys2Proof.Machine

/-- What of a context a close goes by. -/
def Ctx.life (x : Ctx) : CtxState × Option Nat := (x.st, x.closeBox)

/-- How far a mailbox's request has come. -/
def Mbox.life (m : Mbox) : Bool × Bool × Option Nat × Nat := (m.busy, m.accepted, m.committed, m.seq)

/-- The life of every context and mailbox. -/
def life (s : State) : (Nat → CtxState × Option Nat) × (Nat → Bool × Bool × Option Nat × Nat) := (fun c => (s.ctx c).life, fun b => (s.box b).life)

section
variable {s t u old : State} {c n : Nat}

theorem life_ctx (h : life t = life s) (k : Nat) : (t.ctx k).life = (s.ctx k).life := congrFun (congrArg Prod.fst h) k

theorem life_box (h : life t = life s) (k : Nat) : (t.box k).life = (s.box k).life := congrFun (congrArg Prod.snd h) k

theorem life_closeBox (h : life t = life s) (k : Nat) : (t.ctx k).st = (s.ctx k).st ∧ (t.ctx k).closeBox = (s.ctx k).closeBox :=
  ⟨congrArg Prod.fst (life_ctx h k), congrArg Prod.snd (life_ctx h k)⟩

theorem life_request (h : life t = life s) (k : Nat) : (t.box k).busy = (s.box k).busy ∧ (t.box k).accepted = (s.box k).accepted ∧
    (t.box k).committed = (s.box k).committed ∧ (t.box k).seq = (s.box k).seq :=
  ⟨congrArg (·.1) (life_box h k), congrArg (·.2.1) (life_box h k), congrArg (·.2.2.1) (life_box h k), congrArg (·.2.2.2) (life_box h k)⟩

/-- Life is read from the contexts and the mailboxes. -/
theorem life_of_parts (hc : t.ctxs = s.ctxs) (hb : t.boxes = s.boxes) : life t = life s := by
  unfold life State.ctx State.box
  rw [hc, hb]

theorem life_after (h : life u = life s) (hc : t.ctxs = u.ctxs) (hb : t.boxes = u.boxes) : life t = life s := (life_of_parts hc hb).trans h

theorem life_besides (h : besidesTxs t = besidesTxs s) : life t = life s := view_besides life (fun _ => rfl) h

theorem life_modCtx {f : Ctx → Ctx} (hf : ∀ x, (f x).life = x.life) : life (modCtx c f s) = life s := by
  refine Prod.ext (funext fun k => ?_) rfl
  by_cases hk : k = c
  · rw [hk]
    exact (congrArg Ctx.life (modCtx_ctx_self f)).trans (hf _)
  · exact congrArg Ctx.life (modCtx_ctx_ne f hk)

theorem life_refuse (wr : Bool) (line : Nat) : life (refuse c wr line s) = life s := life_modCtx (fun x => by dsimp only; split <;> rfl)

theorem life_notify (a : Await) (status : Nat) : life (notify a status s) = life s :=
  Prod.ext rfl (funext fun _ => NoNotice.notifyWhere (g := Mbox.life) (fun _ _ _ _ => rfl) _ _ _ _)

/-! ### Rings -/

theorem life_modRingErr (f : Ring → Ring) : life (modRingErr c n f s) = life s := by
  unfold modRingErr
  dsimp only
  split
  · refine (life_modCtx ?_).trans (life_of_parts rfl rfl)
    exact fun _ => rfl
  · exact life_of_parts rfl rfl

theorem life_killWork (wid : Nat) : life (killWork wid s) = life s := by
  unfold killWork
  split
  · unfold returnBuf
    repeat' split
    all_goals exact life_of_parts rfl rfl
  · rfl

theorem life_zeroRing : life (zeroRing c n s) = life s := by
  refine Prod.ext (funext fun j => ?ctx) (funext fun j => (congrArg Mbox.life (zeroRing_box c n j)).trans rfl)
  unfold zeroRing
  extract_lets s1 s2 s3
  have h1 : life s1 = life s := (forEach_keeps life _ (fun w _ => life_killWork w) _ _).trans (life_of_parts rfl rfl)
  have h3 : life s3 = life s := by
    refine (life_modCtx ?_).trans ((life_modRingErr _).trans h1)
    exact fun _ => rfl
  clear_value s3
  exact life_ctx h3 j

theorem life_ringSettle : life (ringSettle c n s) = life s := by
  unfold ringSettle
  dsimp only
  repeat' split
  · rfl
  · rfl
  · exact life_after life_zeroRing rfl rfl
  · exact life_of_parts rfl rfl
  · rfl

theorem life_issueCompletions : life (issueCompletions c n s) = life s := by
  unfold issueCompletions
  dsimp only
  repeat' split
  · exact life_ringSettle
  · rfl
  · rfl
  · exact (life_modRingErr _).trans (life_refuse ..)
  · exact (life_besides (besides_transfer ..)).trans (life_of_parts rfl rfl)

theorem life_abortEntries : life (abortEntries c n s) = life s := by
  unfold abortEntries
  refine life_ringSettle.trans (life_issueCompletions.trans ?_)
  exact (forEach_keeps life _ (fun w _ => life_killWork w) _ _).trans (forEach_keeps life (fun e : Entry => modEntry c n e.count _) (fun _ _ => life_of_parts rfl rfl) _ _)

theorem life_closeRing : life (closeRing c n s) = life s := by
  unfold closeRing
  dsimp only
  repeat' split
  · rfl
  · exact life_abortEntries.trans (life_of_parts rfl rfl)
  · exact life_abortEntries.trans (life_of_parts rfl rfl)

/-! ### Packet rings -/

theorem life_abandonBlock (wid : Nat) : life (abandonBlock wid s) = life s := by
  unfold abandonBlock
  split
  · split
    · unfold returnBuf
      repeat' split
      all_goals exact life_of_parts rfl rfl
    · rfl
  · rfl

/-- A refused write of a point block abandons it. -/
theorem life_refuseWork_block {wid line r : Nat} {w : Work} (hw : Tbl.get? s.works wid = some w) (hk : w.kind = .block r) :
    life (refuseWork wid line s) = life s := by
  unfold refuseWork
  rw [hw]
  dsimp only
  rw [hk]
  exact (life_abandonBlock wid).trans (life_after (life_refuse ..) rfl rfl)

theorem life_guardedWrite_block {wid a l r : Nat} {gs : List Guard} {p : Purpose} {data : List Byte} {w : Work}
    (hw : Tbl.get? s.works wid = some w) (hk : w.kind = .block r) : life (guardedWrite gs wid p a l data s) = life s := by
  unfold guardedWrite
  rw [hw]
  dsimp -zeta only
  extract_lets m s1
  have hb := besides_transfer (workTx w) p a m (data.take m) (modWork wid (fun w => { w with pendingTx := w.pendingTx + cutCount a m }) s)
  have h1 : life s1 = life s := (life_besides hb).trans (life_of_parts rfl rfl)
  have hw1 : Tbl.get? s1.works wid = some { w with pendingTx := w.pendingTx + cutCount a m } :=
    (congrArg (Tbl.get? · wid) (view_besides (·.works) (fun _ => rfl) hb)).trans (modWork_get? hw)
  clear_value s1
  split
  · exact (life_refuseWork_block hw1 hk).trans h1
  · exact h1

theorem life_workWrite_block {wid a l r : Nat} {p : Purpose} {data : List Byte} {w : Work} (hw : Tbl.get? s.works wid = some w) (hk : w.kind = .block r) :
    life (workWrite wid p a l data s) = life s := by
  unfold workWrite
  rw [hw]
  exact life_guardedWrite_block hw hk

theorem life_publishBlock (r gen : Nat) (b : Block) : life (publishBlock r gen b s) = life s := by
  unfold publishBlock
  split
  · rfl
  · dsimp only
    exact (life_workWrite_block (r := r) (Tbl.get?_set_self ..) rfl).trans (life_of_parts rfl rfl)

theorem life_stopPktRing (r code : Nat) : life (stopPktRing r code s) = life s := by
  unfold stopPktRing
  extract_lets p s1
  have hs1 : life s1 = life s := life_of_parts rfl rfl
  split
  · rfl
  · split
    · split
      · exact (life_publishBlock ..).trans ((life_of_parts rfl rfl).trans hs1)
      · exact (life_of_parts rfl rfl).trans hs1
    · exact hs1

theorem life_collect1 (f : FaultIn) (s : State) : life (collect1 f s) = life s := by
  have hlog (e : LogEntry) (s : State) : life (pushLog e s) = life s := by unfold pushLog; split <;> exact life_of_parts rfl rfl
  have hmark (s : State) : life (markQuire f s) = life s := by
    unfold markQuire
    split
    · exact life_of_parts rfl rfl
    · rfl
  have hpulse (s : State) : life (startPulse s) = life s := by unfold startPulse; split <;> exact life_of_parts rfl rfl
  have hpin (s : State) : life (refreshPin s) = life s := by
    unfold refreshPin
    split
    · exact life_of_parts rfl rfl
    · rfl
  have hibi (e : LogEntry) (s : State) : life (noteIbi e s) = life s := by
    unfold noteIbi
    repeat' split
    all_goals exact life_of_parts rfl rfl
  refine (hpin _).trans ((when_keeps _ life _ _ (hpulse _)).trans ?_)
  exact (when_keeps _ life _ _ (hibi _ _)).trans ((hlog _ _).trans ((hmark _).trans (life_of_parts rfl rfl)))

theorem life_collect (fs : List FaultIn) : life (collect fs s) = life s := by
  have h := forEach_keeps life collect1 life_collect1 (periodFaults fs) s
  unfold collect captureFirst
  extract_lets
  split
  · exact life_after h rfl rfl
  · exact h

theorem forEach_keeps_mem {α β : Type} (g : State → β) (f : α → State → State) (l : List α) (h : ∀ x ∈ l, ∀ s, g (f x s) = g s) (s : State) :
    g (forEach l f s) = g s := by
  induction l generalizing s with
  | nil => rfl
  | cons x l ih => exact (ih (fun y hy => h y (List.mem_cons_of_mem _ hy)) _).trans (h x (List.mem_cons_self ..) s)

/-- The fault of a read that a packet ring makes for a context. -/
def pktFault (x : Nat) : FaultIn := { src := 109, cls := 2, cause := 0x19, detail := x, bestEffort := true }

theorem life_react_pktFault (x : Nat) (s : State) : life (react (pktFault x) s) = life s := by
  unfold react
  split
  · rfl
  · exact forEach_keeps life _ (fun r s => life_stopPktRing r 6) _ _

theorem life_faultEffect_pktFault (x : Nat) (s : State) : life (faultEffect (pktFault x) s) = life s := by
  have hmem : faultEffect (pktFault x) s = noteMemFault (memFaultCode (pktFault x)) 109 s := by
    simp [faultEffect, pktFault]
  rw [hmem]
  unfold noteMemFault
  split
  · rfl
  · exact life_of_parts rfl rfl

/-- The fault of a read of a packet ring stops packet rings at most. -/
theorem life_pktMemErr (x : Nat) : life (pktMemErr x s) = life s := by
  have hreact : ∀ f ∈ reactionsOf [pktFault x] (pktEvt 4 s), f = pktFault x := fun f hf => List.mem_singleton.1 (List.mem_filter.1 hf).1
  have hr : life (report [pktFault x] (pktEvt 4 s)) = life (pktEvt 4 s) := by
    unfold report
    dsimp only
    refine (forEach_keeps_mem life _ _ (fun f hf s => ?_) _).trans
      ((forEach_keeps_mem life _ [pktFault x] (fun f hf s => ?_) _).trans (life_collect _))
    · have hmem : f ∈ reactionsOf [pktFault x] (pktEvt 4 _) := (List.mem_append.1 hf).elim (fun h => (List.mem_filter.1 h).1) (fun h => (List.mem_filter.1 h).1)
      rw [hreact f hmem]
      exact life_react_pktFault x s
    · rw [List.mem_singleton.1 hf]
      exact life_faultEffect_pktFault x s
  exact hr.trans (life_of_parts rfl rfl)

theorem life_presentPkt (x a l : Nat) : life (presentPkt x a l s) = life s :=
  when_keeps _ life _ _ (life_besides (besides_readTxs ..))

theorem life_pktReadFailed (x : Nat) (e : Nat × Nat) : life (pktReadFailed x e s) = life s := by
  unfold pktReadFailed
  split
  · exact life_after (life_refuse ..) rfl rfl
  · exact life_pktMemErr x

theorem life_deskewBlock (r : Nat) (m : Motion) (stale : Bool) (b : Block) : life (deskewBlock r m stale b s) = life s := by
  unfold deskewBlock
  split
  · rfl
  · dsimp only
    exact (life_publishBlock ..).trans (when_keeps _ life _ _ (life_of_parts rfl rfl))

theorem life_motionFor (r : Nat) (m : ExtMem) (b : Block) : life (motionFor r m b s) = life s := by
  unfold motionFor
  dsimp only
  split
  · rfl
  · split
    · exact (life_deskewBlock ..).trans ((life_pktReadFailed ..).trans (life_presentPkt ..))
    · split
      · exact (life_deskewBlock ..).trans (life_after (life_presentPkt ..) rfl rfl)
      · split
        · exact life_after (life_presentPkt ..) rfl rfl
        · exact (life_deskewBlock ..).trans (life_presentPkt ..)

theorem life_closeBlock (r flags : Nat) (m : ExtMem) : life (closeBlock r flags m s) = life s := by
  unfold closeBlock
  dsimp only
  split
  · split
    · exact (life_publishBlock ..).trans (life_of_parts rfl rfl)
    · exact (life_motionFor ..).trans (life_of_parts rfl rfl)
  · rfl

theorem life_stopRingClean (r : Nat) (m : ExtMem) : life (stopRingClean r m s) = life s := by
  unfold stopRingClean
  split
  · exact (life_closeBlock ..).trans (life_of_parts rfl rfl)
  · rfl

/-- The packet rings of a context stop without touching a context or a mailbox. -/
theorem life_stopCtxRings (m : ExtMem) : life (stopCtxRings m c s) = life s := by
  refine forEach_keeps life _ (fun r s => ?_) _ _
  split
  · split
    · exact life_after (life_stopRingClean r m) rfl rfl
    · rfl
  · rfl

/-! ### The objects of a context -/

theorem life_endBinding (h : Nat) (s : State) : life (endBinding h s) = life s := by
  unfold endBinding
  split
  · rfl
  · split
    · exact (life_notify ..).trans ((life_notify ..).trans (life_of_parts rfl rfl))
    · rfl

theorem life_closeRemove : life (closeRemove c s) = life s := by
  unfold closeRemove
  extract_lets s1 s2
  have h1 : life s1 = life s := forEach_keeps life _ (fun h s => life_endBinding h s) _ _
  refine (life_modCtx ?_).trans (life_after h1 rfl rfl)
  exact fun _ => rfl

end

end Sys2Proof.Machine
end

section
/-! SUPPORT. How contexts open and close (05 R151, R152, 06 R175), and the statement that they settle. -/

namespace Sys2Proof.Machine

section
variable {s t u old : State} {box c k : Nat} {b : List Byte}

/-! ### OPEN_CONTEXT -/

theorem advance_pickCtx (dt : Nat) (s : State) (req : Nat) : pickCtx (advance dt s) req = pickCtx s req := by rw [advance_eq]; rfl

/-- A context as it opens. -/
def openedCtx (kib : Nat) : Ctx := { st := .opened, qstoreKib := kib }

/-- What opening a context leaves: the context and its mailbox alone are new. -/
theorem openCtx_frame (c kib : Nat) (s : State) : (openCtx c kib s).ctx c = openedCtx kib ∧ (openCtx c kib s).box c = {} ∧
    (∀ k, k ≠ c → (openCtx c kib s).ctx k = s.ctx k) ∧ ∀ k, k ≠ c → (openCtx c kib s).box k = s.box k :=
  have hb (k : Nat) : (openCtx c kib s).box k = (modBox c (fun _ => {}) (modCtx c (fun _ => openedCtx kib) s)).box k := box_of_boxes rfl k
  ⟨modCtx_ctx_self (s := s) (fun _ => openedCtx kib), (hb c).trans (modBox_box_self ..),
    fun _ hk => modCtx_ctx_ne (s := s) (fun _ => openedCtx kib) hk, fun k hk => (hb k).trans ((modBox_box_ne _ _ _ _ hk).trans rfl)⟩

theorem openContext_opens (hp : pickCtx s (field b 8 2) = some c) (hc : c < 256) (hst : (s.ctx c).st = .closed)
    (hsize : partitionSize (field b 0x0C 4) = true) (hfit : partitionFits s (field b 0x0C 4) = true) :
    openContext box b s = answer box 0 0 (leBytes c 2) (openCtx c (field b 0x0C 4) s) := by
  have hreq : field b 8 2 = 0xFFFF ∨ field b 8 2 = c := by
    unfold pickCtx at hp
    split at hp
    · next h => exact .inl h
    · exact .inr (Option.some.inj hp)
  unfold openContext
  dsimp only
  rw [hp, checked_passed (firstFail_none ?checks)]
  · rfl
  case checks =>
    simp only [List.mem_cons, List.not_mem_nil, or_false]
    rintro x (rfl | rfl | rfl | rfl)
    · rcases hreq with h | h
      · simp [h]
      · simpa [h] using .inl hc
    · exact hsize
    · rcases hreq with h | h
      · simp [h]
      · simp [h, hst]
    · simp [hfit]

/-! ### CLOSE_CONTEXT -/

theorem advance_closeBusy (dt : Nat) (s : State) (c : Nat) : closeBusy (advance dt s) c = closeBusy s c := by simp [closeBusy]

theorem closeContext_busy {stop : Nat → State → State} (h : closeBusy s (byteAt b 8) = true) :
    closeContext stop box b s = answer box 0x0D 1 [] s := by
  have hf : firstFail [(!closeBusy s (byteAt b 8), 0x0D, 1)] = some (0x0D, 1) := by rw [h]; rfl
  unfold closeContext checked
  dsimp only
  rw [hf]

/-- A mailbox whose requests no longer wait for what belongs to a context. -/
def Mbox.withoutCtx (s : State) (c : Nat) (m : Mbox) : Mbox := { m with owed := m.owed.filter (fun o => !o.what.ofCtx s c) }

/-- The updates and notices of a context that closes are gone, and its bindings are being retired. -/
def dropUpdates (c : Nat) (s : State) : State := modBox c (fun m => { m with notices := [], owed := [] }) { s with
  boxes := s.boxes.map (fun p => (p.1, p.2.withoutCtx s c)),
  bindings := s.bindings.map (fun p => if p.1 / 2 ^ 24 = c then (p.1, { p.2 with st := .retiring, cls := none, pending := none }) else p) }

/-- A context that is CLOSING for the request of a mailbox; its registers are kept as they were. -/
def closeMark (box c : Nat) (s : State) : State :=
  modCtx c (fun x => { x with st := .closing, closeBox := some box, ringWords := ringWordsOf s c }) (dropUpdates c s)

/-- A close that is carried out: the context is marked, its rings and packet rings stop, and its objects go where nothing runs under it. -/
def closeEffect (stop : Nat → State → State) (box c : Nat) (s : State) : State :=
  let s3 := stop c (forEach (upto 0 4) (closeRing c) (closeMark box c s))
  when (closeIdle s3 c) (closeRemove c) s3

theorem closeContext_closes {stop : Nat → State → State} (h : closeBusy s (byteAt b 8) = false) :
    closeContext stop box b s = closeEffect stop box (byteAt b 8) s := by
  unfold closeContext
  dsimp only
  rw [checked_passed (firstFail_none (by simp [h]))]
  rfl

theorem dropUpdates_busy (c k : Nat) (s : State) : ((dropUpdates c s).box k).busy = (s.box k).busy := by
  have hmap (v : State) (hv : v.boxes = s.boxes.map (fun p => (p.1, p.2.withoutCtx s c))) :
      (v.box k).busy = (s.box k).busy := by
    unfold State.box Tbl.getD
    rw [hv, Tbl.get?_map (Mbox.withoutCtx s c)]
    cases Tbl.get? s.boxes k with
    | none => rfl
    | some m => rfl
  unfold dropUpdates
  by_cases hk : k = c
  · rw [hk] at hmap ⊢
    rw [modBox_box_self]
    exact hmap _ rfl
  · rw [modBox_box_ne _ _ _ _ hk]
    exact hmap _ rfl

theorem closeEffect_life (m : ExtMem) (s : State) : life (closeEffect (stopCtxRings m) box c s) = life (closeMark box c s) := by
  have h3 : life (stopCtxRings m c (forEach (upto 0 4) (closeRing c) (closeMark box c s))) = life (closeMark box c s) :=
    (life_stopCtxRings m).trans (forEach_keeps life _ (fun _ _ => life_closeRing) _ _)
  exact (when_keeps _ life _ _ life_closeRemove).trans h3

theorem closeMark_marks (s : State) : ((closeMark box c s).ctx c).st = .closing ∧ ((closeMark box c s).ctx c).closeBox = some box ∧
    ∀ k, ((closeMark box c s).box k).busy = (s.box k).busy := by
  have hctx := modCtx_ctx_self (s := dropUpdates c s) (c := c) (fun x => { x with st := .closing, closeBox := some box, ringWords := ringWordsOf s c })
  exact ⟨congrArg Ctx.st hctx, congrArg Ctx.closeBox hctx, fun k => dropUpdates_busy c k s⟩

/-! ### CONTEXT_CLOSED -/

theorem killWork_ctxs (wid : Nat) (s : State) : (killWork wid s).ctxs = s.ctxs := by
  unfold killWork
  split
  · unfold returnBuf
    repeat' split
    all_goals rfl
  · rfl

theorem modRingErr_ctx_ne {n : Nat} (f : Ring → Ring) (hk : k ≠ c) : (modRingErr c n f s).ctx k = s.ctx k := by
  unfold modRingErr
  dsimp only
  split
  · exact modCtx_ctx_ne _ hk
  · rfl

theorem ctx_of_ctxs (h : t.ctxs = s.ctxs) (k : Nat) : t.ctx k = s.ctx k := by unfold State.ctx; rw [h]

theorem zeroRing_ctx_ne (n : Nat) (hk : k ≠ c) : (zeroRing c n s).ctx k = s.ctx k := by
  have h1 : (forEach (ringWorks s c n) killWork (forgetFetches c n s)).ctxs = s.ctxs :=
    (forEach_keeps (·.ctxs) _ (fun w s => killWork_ctxs w s) _ _).trans rfl
  unfold zeroRing
  extract_lets s1 s2 s3
  have h3 : s3.ctx k = s.ctx k := (modCtx_ctx_ne _ hk).trans ((modRingErr_ctx_ne _ hk).trans (ctx_of_ctxs h1 k))
  clear_value s3
  exact h3

theorem endBinding_frame (h : Nat) (s : State) : (endBinding h s).ctxs = s.ctxs ∧ (endBinding h s).pools = s.pools := by
  unfold endBinding
  split
  · exact ⟨rfl, rfl⟩
  · split
    · exact ⟨rfl, rfl⟩
    · exact ⟨rfl, rfl⟩

theorem closeRemove_ctx_ne (hk : k ≠ c) : (closeRemove c s).ctx k = s.ctx k := by
  unfold closeRemove
  extract_lets s1 s2
  have h1 : s1.ctxs = s.ctxs := forEach_keeps (·.ctxs) _ (fun h s => (endBinding_frame h s).1) _ _
  refine (modCtx_ctx_ne _ hk).trans (ctx_of_ctxs ?_ k)
  exact h1

/-- No pool of a context is left. -/
def poolsGone (c : Nat) (s : State) : Prop := ∀ p ∈ s.pools, p.1 / 128 ≠ c

theorem poolsGone_modPool {key : Nat} {f : Pool → Pool} (h : poolsGone c s) : poolsGone c (modPool key f s) := by
  intro p hp
  cases hk : Tbl.get? s.pools key with
  | none =>
    have hsame : (modPool key f s).pools = s.pools := by unfold modPool Tbl.adjust; rw [hk]
    exact h p (hsame ▸ hp)
  | some x =>
    rcases Tbl.mem_adjust hk hp with rfl | hp
    · exact h (key, x) (Tbl.get?_mem hk)
    · exact h p hp

theorem poolsGone_killWork (wid : Nat) (h : poolsGone c s) : poolsGone c (killWork wid s) := by
  unfold killWork
  split
  · unfold returnBuf
    repeat' split
    · exact h
    · exact h
    · exact poolsGone_modPool h
    · exact h
  · exact h

theorem poolsGone_modRingErr {d n : Nat} {f : Ring → Ring} (h : poolsGone c s) : poolsGone c (modRingErr d n f s) := by
  unfold modRingErr
  dsimp only
  split
  · exact h
  · exact h

theorem poolsGone_zeroRing {d n : Nat} (h : poolsGone c s) : poolsGone c (zeroRing d n s) := by
  have h1 : poolsGone c (forEach (ringWorks s d n) killWork (forgetFetches d n s)) :=
    forEach_invariant (P := poolsGone c) _ (fun w _ => poolsGone_killWork w) _ _ h
  exact poolsGone_modRingErr h1

theorem poolsGone_closeRemove : poolsGone c (closeRemove c s) := fun p hp => by simpa using (List.mem_filter.1 hp).2

/-- A ring of a context that has closed is gone. -/
def clearRing (c n : Nat) (s : State) : State := modRing c n (fun _ => {}) (zeroRing c n s)

theorem clearRing_life (c n : Nat) (s : State) : life (clearRing c n s) = life s := by
  have hz := life_zeroRing (s := s) (c := c) (n := n)
  unfold clearRing
  generalize zeroRing c n s = z at hz
  exact life_after hz rfl rfl

theorem clearRing_ctx_ne (n : Nat) (hk : k ≠ c) : (clearRing c n s).ctx k = s.ctx k :=
  (ctx_of_ctxs (modRing_ctxs ..) k).trans (zeroRing_ctx_ne n hk)

theorem poolsGone_clearRing {n : Nat} (h : poolsGone c s) : poolsGone c (clearRing c n s) := by
  have hz := poolsGone_zeroRing (d := c) (n := n) h
  unfold clearRing
  generalize zeroRing c n s = z at hz
  exact hz

/-- The objects and rings of a context that has closed are gone. -/
def clearRings (c : Nat) (s : State) : State := forEach (upto 0 4) (clearRing c) (closeRemove c s)

theorem clearRings_frame (c : Nat) (s : State) : life (clearRings c s) = life s ∧ (∀ k, k ≠ c → (clearRings c s).ctx k = s.ctx k) ∧
    poolsGone c (clearRings c s) := by
  refine ⟨?_, fun k hk => ?_, ?_⟩
  · exact (forEach_keeps life (clearRing c) (clearRing_life c) _ _).trans life_closeRemove
  · exact (forEach_keeps (·.ctx k) (clearRing c) (fun n s => clearRing_ctx_ne n hk) _ _).trans (closeRemove_ctx_ne hk)
  · exact forEach_invariant (P := poolsGone c) (clearRing c) (fun n s h => poolsGone_clearRing h) _ _ poolsGone_closeRemove

/-- A context that has closed, whose response stays reachable until a time. -/
def closedCtx (hold : Option Nat) : Ctx := { st := .closed, closeHold := hold }

theorem modCtx_answer {status detail : Nat} {p : List Byte} (f : Ctx → Ctx) :
    modCtx c f (answer box status detail p s) = answer box status detail p (modCtx c f s) := rfl

theorem contextClosed_closes (hst : (s.ctx c).st = .closing) (hd : closeDone s c = true) (hb : (s.ctx c).closeBox = some box)
    (hs : serves s box = true) (hbusy : (s.box box).busy = true) (hacc : (s.box box).accepted = true) (hcom : (s.box box).committed = none) :
    contextClosed c s = answer box 0 0 [] (modCtx c (fun _ => closedCtx (if box = c then some (s.now + 10000000) else none)) (clearRings c s)) := by
  obtain ⟨hlife, -, -⟩ := clearRings_frame c s
  have hbox : ((clearRings c s).ctx c).closeBox = some box := (life_closeBox hlife c).2.trans hb
  obtain ⟨hbusy', hacc', hcom', -⟩ := life_request hlife box
  have hans : closeAnswer c (clearRings c s) = answer box 0 0 [] (clearRings c s) := by
    unfold closeAnswer
    rw [hbox]
    dsimp only
    rw [hbusy', hacc', hcom', hbusy, hacc, hcom]
    rfl
  have hserved : closeServed s c = true := by rw [closeServed, hb]; exact hs
  have hrun : contextClosed c s = modCtx c (fun _ => closedCtx (if (s.ctx c).closeBox = some c then some (s.now + 10000000) else none))
      (closeAnswer c (clearRings c s)) := if_pos (by simp [hst, hd, hserved])
  rw [hrun, hans, hb, modCtx_answer]
  simp only [Option.some.injEq]

theorem advance_closeDone (dt : Nat) (s : State) (c : Nat) : closeDone (advance dt s) c = closeDone s c := by rw [advance_eq]; rfl

end

/-- Settles O29: an opening by what it replaces, a close by the life of contexts and mailboxes that its steps keep. -/
theorem contextsOpenAndClose : Obligations.ContextsOpenAndClose := by
  unfold Obligations.ContextsOpenAndClose
  refine ⟨?opens, ?busy, ?closing, ?closed⟩
  case opens =>
    intro dt c s hdue hc hp hst hsize hfit
    refine ⟨_, exec_openContext dt 256 s rfl, ?_⟩
    have hne : 256 ≠ c := by omega
    rw [command_due hdue anyReq rfl, openContext_opens (by rw [advance_pickCtx]; exact hp) hc (by rw [advance_ctx]; exact hst) hsize hfit]
    obtain ⟨hctx, hbox, hothers, hboxes⟩ := openCtx_frame c (field (reqBytes (s.box 256)) 0x0C 4) (advance dt s)
    generalize openCtx c _ (advance dt s) = z at hctx hbox hothers hboxes
    refine ⟨answered_answer _ _ _ _ _ _ _ ((congrArg Mbox.seq (hboxes 256 hne)).trans (advance_seq dt s 256)), ?_, fun k hk => ?_, ?_, ?_⟩
    · rw [settle_ctx, answer_ctx]
      exact hctx
    · rw [settle_ctx, answer_ctx, hothers k hk, advance_ctx]
    · rw [settle_box_busy, answer_box_ne hne.symm, hbox]
    · rw [settle_box_respValid, answer_box_ne hne.symm, hbox]
  case busy =>
    intro dt box mem s hwf hdue hbusy
    rw [exec_closeContext dt box mem s hwf, command_due hdue anyReq rfl, closeContext_busy (by rw [advance_closeBusy]; exact hbusy)]
  case closing =>
    intro dt box c mem s hwf hdue hc hbusy
    refine ⟨_, exec_closeContext dt box mem s hwf, ?_⟩
    have hlife := closeEffect_life (box := box) (c := c) mem (advance dt s)
    obtain ⟨hst, hbox, hboxes⟩ := closeMark_marks (box := box) (c := c) (advance dt s)
    rw [command_due hdue anyReq rfl, closeContext_closes (by rw [hc, advance_closeBusy]; exact hbusy), hc, settle_ctx, settle_box_busy,
      (life_closeBox hlife c).1, (life_closeBox hlife c).2, (life_request hlife box).1, hst, hbox, hboxes box]
    exact ⟨rfl, rfl, by simpa using hdue.2.1⟩
  case closed =>
    intro dt c box s hc hst hd hb hs hbusy hacc hcom
    refine ⟨_, exec_contextClosed dt c s (by simpa [Instr.wf] using hc), ?_⟩
    obtain ⟨hlife, hothers, hpools⟩ := clearRings_frame c (advance dt s)
    rw [contextClosed_closes (box := box) (by rw [advance_ctx]; exact hst) (by rw [advance_closeDone]; exact hd) (by rw [advance_ctx]; exact hb)
      (by simpa using hs) (by simpa using hbusy) (by simpa using hacc) (by simpa using hcom), settle_ctx, answer_ctx, modCtx_ctx_self]
    have hseq : ((clearRings c (advance dt s)).box box).seq = (s.box box).seq := 
      (life_request hlife box).2.2.2.trans (advance_seq dt s box)
    generalize clearRings c (advance dt s) = z at hothers hpools hseq
    generalize (if box = c then some ((advance dt s).now + 10000000) else none) = hold
    refine ⟨rfl, answered_answer _ _ _ _ _ _ _ hseq, rfl, fun p hp => ?_, fun k hk => ?_⟩
    · rw [settle_pools] at hp
      exact hpools p hp
    · rw [settle_ctx, answer_ctx, modCtx_ctx_ne _ hk, hothers k hk, advance_ctx]

end Sys2Proof.Machine
end
